-- ==== Sys2Proof/Word.lean ====
section
/-! DEFINITION. The widths of the machine: scalar registers and addresses (64 bits), lanes (32 bits),
activity masks (96 lanes), memory bytes, and the sparse tables that registers and memories are held in. -/

namespace Sys2Proof

/-- A scalar register, a virtual address or the PC (R13, R17). -/
abbrev Word := BitVec 64

/-- One lane of a vector register (R113). -/
abbrev LaneWord := BitVec 32

/-- One bit per lane of a group: lane `l` at bit `l` (R94, R97). -/
abbrev Mask := BitVec 96

/-- The smallest addressable unit of memory (R2). -/
abbrev Byte := BitVec 8

/-- A sparse table of `w`-bit cells: keys strictly rising, no listed value zero; a key that is not listed reads 0. -/
abbrev Cells (w : Nat) := List (Nat × BitVec w)

/-- A set of copied bytes that may be out of date: an unlisted key has no copy. -/
abbrev Copies := List (Nat × Byte)

end Sys2Proof
end

