-- ==== Sys2Proof/Config.lean ====
section
/-! DEFINITION. What one implementation fixes and what the manual leaves open. Every constant here is a free value:
it has no body, so nothing can be proved about which value it has (each is named by an entry of the assumption log). -/

namespace Sys2Proof.Config

/-- A free yes or no, fresh for each (tick, salt): R30, R204, R236, R396, R320, R326. -/
opaque freeBool : Nat → Nat → Bool

/-- A free number, fresh for each (tick, salt): the choice of the next agent (R112), a handle (R312), a time (R34). -/
opaque freeNat : Nat → Nat → Nat

/-- A free byte, fresh for each (tick, key): contents the manual does not give (R102, R195, R365). -/
opaque freeByte : Nat → Nat → Byte

/-- A free 32-bit word, fresh for each (tick, key): a register that no liveness record named (R195, R366). -/
opaque freeLane : Nat → Nat → LaneWord

/-- A free 64-bit word, fresh for each (tick, key): a signature of the attestation key (R444), an unnamed scalar (R366). -/
opaque freeWord : Nat → Nat → Word

/-- Which of the two FP32 values beside the exact one a faithful function returns (R156): one fixed choice for each
function and each input, on every core and every run. -/
opaque faithfulUp : Nat → LaneWord → Bool

/-- The order in which a walk visits its tiles (R298): any permutation of the tiles, chosen when the walk starts. -/
opaque walkPerm : Nat → (n : Nat) → Equiv.Perm (Fin n)

/-- The physical number, 0 to 527, of the core at a position (R33, R446). -/
opaque coreId : Nat → BitVec 10

/-- The L2 slice nearest to a core (R204): the hash and the floor plan are not architectural. -/
opaque nearSlice : Nat → Fin 32

/-- The silicon stepping (R455). -/
opaque stepping : Byte

/-- What names the device's certificate chain and its digest (R444). -/
opaque spdmWord : Nat → Word

/-- The signature that the identity key gives for a use of a leaf (R444). -/
opaque signature : Nat → Word

/-- A digest that the policy firmware submits (R444), fresh for each tick. -/
opaque submitted : Nat → BitVec 256

/-- The digest of the boot ROM and of what the fuses hold: the key slots, which are revoked, and the minimum security
version (R443, R444). -/
opaque romFuseDigest : List (BitVec 256) → BitVec 4 → Nat → BitVec 256

/-- The digest of the spare-core and retired-channel configuration, fresh for each tick (R444, R446, R447). -/
opaque configDigest : Nat → BitVec 256

end Sys2Proof.Config
end

