-- ==== Sys2Proof/Syntax.lean ====
section
/-! DEFINITION. The instructions and steps of the machine: one constructor for each row of spec/opcode_table.json,
in the table's order. An encoded row carries its operand fields at their exact widths, in the table's order (R41 to
R63); a row without an encoding is a step of another agent (95_what_each_step_holds.md) and carries what that step
takes from outside or which object it acts on. -/

namespace Sys2Proof

/-- A group of a resident block: `cmp` names a compacted group of the block's region (R104). -/
structure GRef where
  blk : Nat
  grp : Nat
  cmp : Bool
deriving DecidableEq, Repr

/-- A register that software writes and that has no behaviour of its own (R4, R5): a special register by number
(R33), a register of the management block (R455) or of the fabric configuration block (R420), by offset. -/
inductive RegName where
  | special (n : BitVec 12)
  | management (offset : Nat)
  | fabric (offset : Nat)
deriving DecidableEq, Repr

/-- A request to an inlet slot (R257): the bytes of one request, each with its window offset and its lane. -/
structure SlotRequest where
  handle : Nat
  slot   : Nat
  bytes  : List (Nat × Byte)
  tag    : BitVec 32
  remote : Bool
  key    : BitVec 16
  ctx    : BitVec 32
  isGroup : Bool
deriving DecidableEq, Repr

/-- A fabric packet (R407 to R409): the header's fields, CLASS and NDATA among them, whether its reserved bits are 0, the
bytes its MASK marks, and the atomic entries; `fwd` is the home that has forwarded a request (R404), which the header as
R407 gives it does not say. DESIGN CHOICE (assumption 115). -/
structure Packet where
  op     : BitVec 8
  src    : BitVec 13
  dst    : BitVec 13
  stream : BitVec 12
  seq    : BitVec 24
  retx   : Bool
  pkey   : BitVec 16
  opkey  : BitVec 16
  cause  : BitVec 8
  pa     : BitVec 48
  size   : BitVec 4
  aop    : BitVec 4
  order  : BitVec 2
  scope  : BitVec 3
  wt     : Bool
  take   : Bool
  tag    : BitVec 32
  part   : BitVec 4
  npart  : BitVec 4
  reservedOk : Bool
  cls    : BitVec 2
  ndata  : BitVec 3
  fwd    : Option (BitVec 13)
  bytes  : List (Nat × Byte)
  entries : List (Nat × Nat × Word × Word)
deriving DecidableEq, Repr

/-- What a context is registered with (R441, R389, R437, R449). -/
structure ContextInfo where
  ctx     : BitVec 32
  root    : Word
  fsrv    : BitVec 13
  tqb     : Word
  tqw     : Word
  tqr     : Word
  tqLog   : Nat
  super   : Bool
  journal : Nat
  ring    : Word
deriving DecidableEq, Repr

/-- A domain copy request (R448). -/
structure CopyRequest where
  ctx  : BitVec 32
  lva  : Word
  rdev : BitVec 13
  rva  : Word
  len  : Nat
  dir  : Bool
  done : Word
deriving DecidableEq, Repr

/-- A stage-1 image as the boot ROM and the monitor find it (R443, R445): whether a source yields one, the digest of its
public key, the judgement of its signature, its security version, its digests and the version of state block it accepts. -/
structure BootImage where
  found   : Bool
  keyDig  : BitVec 256
  sigOk   : Bool
  secVer  : Nat
  monDig  : BitVec 256
  fwDig   : BitVec 256
  qcDig   : BitVec 256
  version : Nat
deriving DecidableEq, Repr

/-- One constructor for each row of the opcode table: the encoded rows first, then the steps without an encoding. The
stall count of a 32-bit word (R26) paces the group and is no operand: the decoder gives it beside the instruction. -/
inductive Instr where
  /-- VADD_I32_COMPACT (R42): Compact form of vd := vd + vb as I32 in every active lane. -/
  | vaddI32Compact (b : BitVec 5) (d : BitVec 6)
  /-- VSUB_I32_COMPACT (R42): Compact form of vd := vd - vb as I32. -/
  | vsubI32Compact (b : BitVec 5) (d : BitVec 6)
  /-- VMUL_I32_COMPACT (R42): Compact form of vd := vd * vb as I32. -/
  | vmulI32Compact (b : BitVec 5) (d : BitVec 6)
  /-- VAND_COMPACT (R42): Compact bitwise AND of vd and vb into vd. -/
  | vandCompact (b : BitVec 5) (d : BitVec 6)
  /-- VOR_COMPACT (R42): Compact bitwise OR of vd and vb into vd. -/
  | vorCompact (b : BitVec 5) (d : BitVec 6)
  /-- VXOR_COMPACT (R42): Compact bitwise XOR of vd and vb into vd. -/
  | vxorCompact (b : BitVec 5) (d : BitVec 6)
  /-- VSHL_COMPACT (R42): Compact shift left of vd by vb. -/
  | vshlCompact (b : BitVec 5) (d : BitVec 6)
  /-- VSHR_COMPACT (R42): Compact logical shift right of vd by vb. -/
  | vshrCompact (b : BitVec 5) (d : BitVec 6)
  /-- VSRA_COMPACT (R42): Compact arithmetic shift right of vd by vb. -/
  | vsraCompact (b : BitVec 5) (d : BitVec 6)
  /-- VMOV_COMPACT (R42): Compact move vd := vb. -/
  | vmovCompact (b : BitVec 5) (d : BitVec 6)
  /-- VMIN_I32_COMPACT (R42): Compact signed minimum of vd and vb. -/
  | vminI32Compact (b : BitVec 5) (d : BitVec 6)
  /-- VMAX_I32_COMPACT (R42): Compact signed maximum of vd and vb. -/
  | vmaxI32Compact (b : BitVec 5) (d : BitVec 6)
  /-- VFADD_F32_COMPACT (R42): Compact FP32 add of vd and vb. -/
  | vfaddF32Compact (b : BitVec 5) (d : BitVec 6)
  /-- VFSUB_F32_COMPACT (R42): Compact FP32 subtract of vb from vd. -/
  | vfsubF32Compact (b : BitVec 5) (d : BitVec 6)
  /-- VFMUL_F32_COMPACT (R42): Compact FP32 multiply of vd and vb. -/
  | vfmulF32Compact (b : BitVec 5) (d : BitVec 6)
  /-- VFMAX_F32_COMPACT (R42): Compact FP32 maximumNumber of vd and vb. -/
  | vfmaxF32Compact (b : BitVec 5) (d : BitVec 6)
  /-- SADD (R70): Scalar wrapping add. -/
  | sadd (b : BitVec 6) (a : BitVec 6) (d : BitVec 6)
  /-- SSUB (R70): Scalar wrapping subtract. -/
  | ssub (b : BitVec 6) (a : BitVec 6) (d : BitVec 6)
  /-- SMUL (R70): Low 64 bits of the scalar product. -/
  | smul (b : BitVec 6) (a : BitVec 6) (d : BitVec 6)
  /-- SMULH (R70): High 64 bits of the signed 128-bit product. -/
  | smulh (b : BitVec 6) (a : BitVec 6) (d : BitVec 6)
  /-- SMULHZ (R70): High 64 bits of the unsigned 128-bit product. -/
  | smulhz (b : BitVec 6) (a : BitVec 6) (d : BitVec 6)
  /-- SDIV (R71): Signed scalar division with the special cases of division by zero and overflow. -/
  | sdiv (b : BitVec 6) (a : BitVec 6) (d : BitVec 6)
  /-- SDIVZ (R71): Unsigned scalar division. -/
  | sdivz (b : BitVec 6) (a : BitVec 6) (d : BitVec 6)
  /-- SREM (R71): Signed scalar remainder. -/
  | srem (b : BitVec 6) (a : BitVec 6) (d : BitVec 6)
  /-- SREMZ (R71): Unsigned scalar remainder. -/
  | sremz (b : BitVec 6) (a : BitVec 6) (d : BitVec 6)
  /-- SAND (R70): Scalar bitwise AND. -/
  | sand (b : BitVec 6) (a : BitVec 6) (d : BitVec 6)
  /-- SOR (R70): Scalar bitwise OR. -/
  | sor (b : BitVec 6) (a : BitVec 6) (d : BitVec 6)
  /-- SXOR (R70): Scalar bitwise XOR. -/
  | sxor (b : BitVec 6) (a : BitVec 6) (d : BitVec 6)
  /-- SSHL (R70): Scalar shift left by bits [5:0] of b. -/
  | sshl (b : BitVec 6) (a : BitVec 6) (d : BitVec 6)
  /-- SSHR (R70): Scalar logical shift right. -/
  | sshr (b : BitVec 6) (a : BitVec 6) (d : BitVec 6)
  /-- SSRA (R70): Scalar arithmetic shift right. -/
  | ssra (b : BitVec 6) (a : BitVec 6) (d : BitVec 6)
  /-- SMIN (R70): Signed scalar minimum. -/
  | smin (b : BitVec 6) (a : BitVec 6) (d : BitVec 6)
  /-- SMAX (R70): Signed scalar maximum. -/
  | smax (b : BitVec 6) (a : BitVec 6) (d : BitVec 6)
  /-- SMINZ (R70): Unsigned scalar minimum. -/
  | sminz (b : BitVec 6) (a : BitVec 6) (d : BitVec 6)
  /-- SMAXZ (R70): Unsigned scalar maximum. -/
  | smaxz (b : BitVec 6) (a : BitVec 6) (d : BitVec 6)
  /-- SSEQ (R70): Scalar set 1 if equal. -/
  | sseq (b : BitVec 6) (a : BitVec 6) (d : BitVec 6)
  /-- SSNE (R70): Scalar set 1 if not equal. -/
  | ssne (b : BitVec 6) (a : BitVec 6) (d : BitVec 6)
  /-- SSLT (R70): Scalar set 1 if signed less than. -/
  | sslt (b : BitVec 6) (a : BitVec 6) (d : BitVec 6)
  /-- SSLTZ (R70): Scalar set 1 if unsigned less than. -/
  | ssltz (b : BitVec 6) (a : BitVec 6) (d : BitVec 6)
  /-- SSLE (R70): Scalar set 1 if signed less or equal. -/
  | ssle (b : BitVec 6) (a : BitVec 6) (d : BitVec 6)
  /-- SSLEZ (R70): Scalar set 1 if unsigned less or equal. -/
  | sslez (b : BitVec 6) (a : BitVec 6) (d : BitVec 6)
  /-- SMOV (R70): Scalar move sd := sa. -/
  | smov (a : BitVec 6) (d : BitVec 6)
  /-- SADDI (R72): Scalar add of a sign-extended 10-bit immediate. -/
  | saddi (i : BitVec 10) (a : BitVec 6) (d : BitVec 6)
  /-- SANDI (R72): Scalar AND with a sign-extended immediate. -/
  | sandi (i : BitVec 10) (a : BitVec 6) (d : BitVec 6)
  /-- SORI (R72): Scalar OR with a sign-extended immediate. -/
  | sori (i : BitVec 10) (a : BitVec 6) (d : BitVec 6)
  /-- SXORI (R72): Scalar XOR with a sign-extended immediate. -/
  | sxori (i : BitVec 10) (a : BitVec 6) (d : BitVec 6)
  /-- SSHLI (R72): Scalar shift left by an immediate amount. -/
  | sshli (i : BitVec 6) (a : BitVec 6) (d : BitVec 6)
  /-- SSHRI (R72): Scalar logical shift right by an immediate amount. -/
  | sshri (i : BitVec 6) (a : BitVec 6) (d : BitVec 6)
  /-- SSRAI (R72): Scalar arithmetic shift right by an immediate amount. -/
  | ssrai (i : BitVec 6) (a : BitVec 6) (d : BitVec 6)
  /-- SLI (R73): Loads a sign-extended 16-bit immediate into a scalar. -/
  | sli (i : BitVec 16) (d : BitVec 6)
  /-- SLH16 (R73): Replaces bits [31:16] of a scalar with an immediate. -/
  | slh16 (i : BitVec 16) (d : BitVec 6)
  /-- SLH32 (R73): Replaces bits [47:32] of a scalar with an immediate. -/
  | slh32 (i : BitVec 16) (d : BitVec 6)
  /-- SLH48 (R73): Replaces bits [63:48] of a scalar with an immediate. -/
  | slh48 (i : BitVec 16) (d : BitVec 6)
  /-- SLD (R76): Scalar load through the generic path. -/
  | sld (i : BitVec 8) (z : BitVec 2) (b : BitVec 6) (d : BitVec 6)
  /-- SST (R76): Scalar store through the generic path. -/
  | sst (i : BitVec 8) (z : BitVec 2) (b : BitVec 6) (d : BitVec 6)
  /-- SLDC (R76): Scalar load through the constant path. -/
  | sldc (i : BitVec 8) (z : BitVec 2) (b : BitVec 6) (d : BitVec 6)
  /-- SGETL (R74): Copies one lane of a vector register into a scalar. -/
  | sgetl (x : BitVec 1) (l : BitVec 7) (a : BitVec 7) (d : BitVec 6)
  /-- SSETL (R74): Writes a scalar's low word into one lane of a vector register. -/
  | ssetl (x : BitVec 1) (l : BitVec 7) (a : BitVec 6) (d : BitVec 7)
  /-- JMP (R79): Unconditional relative jump. -/
  | jmp (o : BitVec 16)
  /-- BRZ (R79): Branches when a scalar is zero. -/
  | brz (o : BitVec 16) (r : BitVec 6)
  /-- BRNZ (R79): Branches when a scalar is non-zero. -/
  | brnz (o : BitVec 16) (r : BitVec 6)
  /-- LOOP (R79): Decrements a counter scalar and branches while it is non-zero. -/
  | loop (o : BitVec 16) (r : BitVec 6)
  /-- BRP (R83): Branches on a lane predicate, pushing a path entry when the group diverges. -/
  | brp (o : BitVec 16) (c : BitVec 1) (n : BitVec 1) (p : BitVec 3)
  /-- JPT (R82): Pushes a join entry naming the join address. -/
  | jpt (o : BitVec 16)
  /-- CALL (R86): Guarded call that pushes a call entry and writes s59. -/
  | call (o : BitVec 16) (n : BitVec 1) (p : BitVec 3)
  /-- CALLI (R87): Indirect call to a uniform 64-bit lane target. -/
  | calli (a : BitVec 7)
  /-- JMPI (R87): Indirect jump to a uniform 64-bit lane target. -/
  | jmpi (a : BitVec 7)
  /-- SRR (R90): Reads a special register into a scalar. -/
  | srr (n : BitVec 12) (d : BitVec 6)
  /-- SRW (R90): Writes a scalar into a special register. -/
  | srw (n : BitVec 12) (a : BitVec 6)
  /-- SLEEP (R91): Takes the group out of the active set for a number of cycles. -/
  | sleep (a : BitVec 6)
  /-- BKPT (R92): Halts the group for the debugger when debug is enabled. -/
  | bkpt (n : BitVec 12)
  /-- VADD_I32 (R144): Vector add as I32. -/
  | vaddI32 (x : BitVec 1) (b : BitVec 7) (a : BitVec 7) (d : BitVec 7)
  /-- VSUB_I32 (R144): Vector subtract as I32. -/
  | vsubI32 (x : BitVec 1) (b : BitVec 7) (a : BitVec 7) (d : BitVec 7)
  /-- VMUL_I32 (R144): Vector multiply, low 32 bits. -/
  | vmulI32 (x : BitVec 1) (b : BitVec 7) (a : BitVec 7) (d : BitVec 7)
  /-- VMULH (R144): Vector signed multiply, high 32 bits. -/
  | vmulh (x : BitVec 1) (b : BitVec 7) (a : BitVec 7) (d : BitVec 7)
  /-- VMULHZ (R144): Vector unsigned multiply, high 32 bits. -/
  | vmulhz (x : BitVec 1) (b : BitVec 7) (a : BitVec 7) (d : BitVec 7)
  /-- VMAD_I32 (R144): Vector multiply-add into vd. -/
  | vmadI32 (x : BitVec 1) (b : BitVec 7) (a : BitVec 7) (d : BitVec 7)
  /-- VAND (R144): Vector bitwise AND. -/
  | vand (x : BitVec 1) (b : BitVec 7) (a : BitVec 7) (d : BitVec 7)
  /-- VOR (R144): Vector bitwise OR. -/
  | vor (x : BitVec 1) (b : BitVec 7) (a : BitVec 7) (d : BitVec 7)
  /-- VXOR (R144): Vector bitwise XOR. -/
  | vxor (x : BitVec 1) (b : BitVec 7) (a : BitVec 7) (d : BitVec 7)
  /-- VSHL (R144): Vector shift left. -/
  | vshl (x : BitVec 1) (b : BitVec 7) (a : BitVec 7) (d : BitVec 7)
  /-- VSHR (R144): Vector logical shift right. -/
  | vshr (x : BitVec 1) (b : BitVec 7) (a : BitVec 7) (d : BitVec 7)
  /-- VSRA (R144): Vector arithmetic shift right. -/
  | vsra (x : BitVec 1) (b : BitVec 7) (a : BitVec 7) (d : BitVec 7)
  /-- VMIN_I32 (R144): Vector signed minimum. -/
  | vminI32 (x : BitVec 1) (b : BitVec 7) (a : BitVec 7) (d : BitVec 7)
  /-- VMAX_I32 (R144): Vector signed maximum. -/
  | vmaxI32 (x : BitVec 1) (b : BitVec 7) (a : BitVec 7) (d : BitVec 7)
  /-- VMIN_Z32 (R144): Vector unsigned minimum. -/
  | vminZ32 (x : BitVec 1) (b : BitVec 7) (a : BitVec 7) (d : BitVec 7)
  /-- VMAX_Z32 (R144): Vector unsigned maximum. -/
  | vmaxZ32 (x : BitVec 1) (b : BitVec 7) (a : BitVec 7) (d : BitVec 7)
  /-- VABSD (R144): Vector absolute difference. -/
  | vabsd (x : BitVec 1) (b : BitVec 7) (a : BitVec 7) (d : BitVec 7)
  /-- VPOPC (R146): Counts the 1 bits of each lane. -/
  | vpopc (a : BitVec 7) (d : BitVec 7)
  /-- VCLZ (R146): Counts leading zero bits of each lane. -/
  | vclz (a : BitVec 7) (d : BitVec 7)
  /-- VBREV (R146): Reverses the bits of each lane. -/
  | vbrev (a : BitVec 7) (d : BitVec 7)
  /-- VNOT (R146): Inverts the bits of each lane. -/
  | vnot (a : BitVec 7) (d : BitVec 7)
  /-- VBFE_I32 (R147): Extracts a signed bit field. -/
  | vbfeI32 (x : BitVec 1) (b : BitVec 7) (a : BitVec 7) (d : BitVec 7)
  /-- VBFE_Z32 (R147): Extracts an unsigned bit field. -/
  | vbfeZ32 (x : BitVec 1) (b : BitVec 7) (a : BitVec 7) (d : BitVec 7)
  /-- VBFI (R147): Inserts a bit field into vd. -/
  | vbfi (x : BitVec 1) (b : BitVec 7) (a : BitVec 7) (d : BitVec 7)
  /-- VSEL (R149): Selects va into vd where a predicate number holds. -/
  | vsel (n : BitVec 1) (p : BitVec 4) (a : BitVec 7) (d : BitVec 7)
  /-- VDOT4_I8 (R145): Accumulates four signed byte products into vd. -/
  | vdot4I8 (x : BitVec 1) (b : BitVec 7) (a : BitVec 7) (d : BitVec 7)
  /-- VDOT4_Z8 (R145): Accumulates four unsigned byte products into vd. -/
  | vdot4Z8 (x : BitVec 1) (b : BitVec 7) (a : BitVec 7) (d : BitVec 7)
  /-- VADDI (R148): Vector add of a sign-extended 8-bit immediate. -/
  | vaddi (i : BitVec 8) (a : BitVec 7) (d : BitVec 7)
  /-- VSHLI (R148): Vector shift left by an immediate. -/
  | vshli (i : BitVec 5) (a : BitVec 7) (d : BitVec 7)
  /-- VSHRI (R148): Vector logical shift right by an immediate. -/
  | vshri (i : BitVec 5) (a : BitVec 7) (d : BitVec 7)
  /-- VSRAI (R148): Vector arithmetic shift right by an immediate. -/
  | vsrai (i : BitVec 5) (a : BitVec 7) (d : BitVec 7)
  /-- VANDI (R148): Vector AND with a sign-extended immediate. -/
  | vandi (i : BitVec 8) (a : BitVec 7) (d : BitVec 7)
  /-- VLI (R148): Loads a sign-extended 15-bit immediate into every lane. -/
  | vli (i : BitVec 15) (d : BitVec 7)
  /-- VBK_SET (R169): Writes a vector register into a bracket word. -/
  | vbkSet (w : BitVec 2) (k : BitVec 2) (v : BitVec 7)
  /-- VBK_GET (R169): Reads a bracket word into a vector register. -/
  | vbkGet (w : BitVec 2) (k : BitVec 2) (v : BitVec 7)
  /-- VICMP (R150): Integer compare writing a predicate. -/
  | vicmp (x : BitVec 1) (b : BitVec 7) (a : BitVec 7) (c : BitVec 4) (p : BitVec 3)
  /-- VFADD_F32 (R153): FP32 add. -/
  | vfaddF32 (x : BitVec 1) (b : BitVec 7) (a : BitVec 7) (d : BitVec 7)
  /-- VFSUB_F32 (R153): FP32 subtract. -/
  | vfsubF32 (x : BitVec 1) (b : BitVec 7) (a : BitVec 7) (d : BitVec 7)
  /-- VFMUL_F32 (R153): FP32 multiply. -/
  | vfmulF32 (x : BitVec 1) (b : BitVec 7) (a : BitVec 7) (d : BitVec 7)
  /-- VFMA_F32 (R153): FP32 fused multiply-add into vd. -/
  | vfmaF32 (x : BitVec 1) (b : BitVec 7) (a : BitVec 7) (d : BitVec 7)
  /-- VFMIN_F32 (R131): FP32 minimumNumber. -/
  | vfminF32 (x : BitVec 1) (b : BitVec 7) (a : BitVec 7) (d : BitVec 7)
  /-- VFMAX_F32 (R131): FP32 maximumNumber. -/
  | vfmaxF32 (x : BitVec 1) (b : BitVec 7) (a : BitVec 7) (d : BitVec 7)
  /-- VFADD_H2 (R154): Paired FP16 add. -/
  | vfaddH2 (x : BitVec 1) (b : BitVec 7) (a : BitVec 7) (d : BitVec 7)
  /-- VFSUB_H2 (R154): Paired FP16 subtract. -/
  | vfsubH2 (x : BitVec 1) (b : BitVec 7) (a : BitVec 7) (d : BitVec 7)
  /-- VFMUL_H2 (R154): Paired FP16 multiply. -/
  | vfmulH2 (x : BitVec 1) (b : BitVec 7) (a : BitVec 7) (d : BitVec 7)
  /-- VFMA_H2 (R154): Paired FP16 fused multiply-add. -/
  | vfmaH2 (x : BitVec 1) (b : BitVec 7) (a : BitVec 7) (d : BitVec 7)
  /-- VFMIN_H2 (R154): Paired FP16 minimumNumber. -/
  | vfminH2 (x : BitVec 1) (b : BitVec 7) (a : BitVec 7) (d : BitVec 7)
  /-- VFMAX_H2 (R154): Paired FP16 maximumNumber. -/
  | vfmaxH2 (x : BitVec 1) (b : BitVec 7) (a : BitVec 7) (d : BitVec 7)
  /-- VFADD_B2 (R154): Paired BF16 add. -/
  | vfaddB2 (x : BitVec 1) (b : BitVec 7) (a : BitVec 7) (d : BitVec 7)
  /-- VFSUB_B2 (R154): Paired BF16 subtract. -/
  | vfsubB2 (x : BitVec 1) (b : BitVec 7) (a : BitVec 7) (d : BitVec 7)
  /-- VFMUL_B2 (R154): Paired BF16 multiply. -/
  | vfmulB2 (x : BitVec 1) (b : BitVec 7) (a : BitVec 7) (d : BitVec 7)
  /-- VFMA_B2 (R154): Paired BF16 fused multiply-add. -/
  | vfmaB2 (x : BitVec 1) (b : BitVec 7) (a : BitVec 7) (d : BitVec 7)
  /-- VFMIN_B2 (R154): Paired BF16 minimumNumber. -/
  | vfminB2 (x : BitVec 1) (b : BitVec 7) (a : BitVec 7) (d : BitVec 7)
  /-- VFMAX_B2 (R154): Paired BF16 maximumNumber. -/
  | vfmaxB2 (x : BitVec 1) (b : BitVec 7) (a : BitVec 7) (d : BitVec 7)
  /-- VFRCP (R155): Correctly rounded FP32 reciprocal. -/
  | vfrcp (a : BitVec 7) (d : BitVec 7)
  /-- VFRSQ (R155): Correctly rounded FP32 reciprocal square root. -/
  | vfrsq (a : BitVec 7) (d : BitVec 7)
  /-- VFSQRT (R155): Correctly rounded FP32 square root. -/
  | vfsqrt (a : BitVec 7) (d : BitVec 7)
  /-- VFEX2 (R156): Faithful FP32 power of two. -/
  | vfex2 (a : BitVec 7) (d : BitVec 7)
  /-- VFLG2 (R156): Faithful FP32 base-2 logarithm. -/
  | vflg2 (a : BitVec 7) (d : BitVec 7)
  /-- VFSIN (R156): Faithful sin(pi x). -/
  | vfsin (a : BitVec 7) (d : BitVec 7)
  /-- VFCOS (R156): Faithful cos(pi x). -/
  | vfcos (a : BitVec 7) (d : BitVec 7)
  /-- VFTANH (R156): Faithful hyperbolic tangent. -/
  | vftanh (a : BitVec 7) (d : BitVec 7)
  /-- VFCLS (R157): Writes the one-hot class mask of an FP32 value. -/
  | vfcls (a : BitVec 7) (d : BitVec 7)
  /-- VLANEID (R157): Writes the lane index. -/
  | vlaneid (d : BitVec 7)
  /-- VTID (R157): Writes the thread index within the block. -/
  | vtid (d : BitVec 7)
  /-- VFCMP (R151): FP32 compare writing a predicate. -/
  | vfcmp (x : BitVec 1) (b : BitVec 7) (a : BitVec 7) (c : BitVec 4) (p : BitVec 3)
  /-- VCVT (R158): Converts between the formats of R55. -/
  | vcvt (f : BitVec 4) (g : BitVec 4) (a : BitVec 7) (d : BitVec 7)
  /-- VPACK_I8X4 (R159): Packs four saturated I8 values into each lane. -/
  | vpackI8x4 (a : BitVec 7) (d : BitVec 7)
  /-- VPACK_TER16 (R159): Packs sixteen TER codes into each lane. -/
  | vpackTer16 (a : BitVec 7) (d : BitVec 7)
  /-- VPACK_E8M0 (R159): Packs four E8M0 conversions into each lane. -/
  | vpackE8m0 (a : BitVec 7) (d : BitVec 7)
  /-- VQX (R161): Exchanges values within each quad. -/
  | vqx (q : BitVec 4) (a : BitVec 7) (d : BitVec 7)
  /-- VSHFL_IDX (R162): Shuffle from an indexed lane. -/
  | vshflIdx (x : BitVec 1) (b : BitVec 7) (a : BitVec 7) (d : BitVec 7)
  /-- VSHFL_UP (R162): Shuffle from a lower lane. -/
  | vshflUp (x : BitVec 1) (b : BitVec 7) (a : BitVec 7) (d : BitVec 7)
  /-- VSHFL_DN (R162): Shuffle from a higher lane. -/
  | vshflDn (x : BitVec 1) (b : BitVec 7) (a : BitVec 7) (d : BitVec 7)
  /-- VSHFL_XOR (R162): Shuffle from the lane at index xor c. -/
  | vshflXor (x : BitVec 1) (b : BitVec 7) (a : BitVec 7) (d : BitVec 7)
  /-- VRED (R164): Reduces a span in a fixed tree order. -/
  | vred (p : BitVec 2) (r : BitVec 4) (a : BitVec 7) (d : BitVec 7)
  /-- VSCAN (R165): Scans a span in ascending order. -/
  | vscan (p : BitVec 2) (r : BitVec 4) (a : BitVec 7) (d : BitVec 7)
  /-- VVOTE_ANY (R167): Scalar 1 if any active lane's predicate holds. -/
  | vvoteAny (n : BitVec 1) (p : BitVec 4) (d : BitVec 6)
  /-- VVOTE_ALL (R167): Scalar 1 if every active lane's predicate holds. -/
  | vvoteAll (n : BitVec 1) (p : BitVec 4) (d : BitVec 6)
  /-- VVOTE_BALLOT (R167): Writes the predicate ballot into three scalars. -/
  | vvoteBallot (n : BitVec 1) (p : BitVec 4) (d : BitVec 6)
  /-- VVOTE_POPC (R167): Counts active lanes whose predicate holds. -/
  | vvotePopc (n : BitVec 1) (p : BitVec 4) (d : BitVec 6)
  /-- VPRED_AND (R152): Predicate AND. -/
  | vpredAnd (b : BitVec 4) (a : BitVec 4) (d : BitVec 3)
  /-- VPRED_OR (R152): Predicate OR. -/
  | vpredOr (b : BitVec 4) (a : BitVec 4) (d : BitVec 3)
  /-- VPRED_XOR (R152): Predicate XOR. -/
  | vpredXor (b : BitVec 4) (a : BitVec 4) (d : BitVec 3)
  /-- VPRED_ANDN (R152): Predicate A and not B. -/
  | vpredAndn (b : BitVec 4) (a : BitVec 4) (d : BitVec 3)
  /-- VPRED_ORN (R152): Predicate A or not B. -/
  | vpredOrn (b : BitVec 4) (a : BitVec 4) (d : BitVec 3)
  /-- VPRED_NOT (R152): Predicate NOT. -/
  | vpredNot (a : BitVec 4) (d : BitVec 3)
  /-- VPRED_MOV (R152): Predicate copy. -/
  | vpredMov (a : BitVec 4) (d : BitVec 3)
  /-- VPRED_FROMV (R152): Sets a predicate where a vector register is non-zero. -/
  | vpredFromv (v : BitVec 7) (d : BitVec 3)
  /-- VFLG_RD (R168): Reads selected sticky flags into a vector register. -/
  | vflgRd (m : BitVec 6) (d : BitVec 7)
  /-- VFLG_CLR (R168): Clears selected sticky flags. -/
  | vflgClr (m : BitVec 6)
  /-- VFLG_RDCLR (R168): Reads then clears selected sticky flags. -/
  | vflgRdclr (m : BitVec 6) (d : BitVec 7)
  /-- LD_S8 (R217): Lane load of a sign-extended byte. -/
  | ldS8 (g : BitVec 2) (x : BitVec 7) (b : BitVec 6) (t : BitVec 7)
  /-- LD_Z8 (R217): Lane load of a zero-extended byte. -/
  | ldZ8 (g : BitVec 2) (x : BitVec 7) (b : BitVec 6) (t : BitVec 7)
  /-- LD_S16 (R217): Lane load of a sign-extended halfword. -/
  | ldS16 (g : BitVec 2) (x : BitVec 7) (b : BitVec 6) (t : BitVec 7)
  /-- LD_Z16 (R217): Lane load of a zero-extended halfword. -/
  | ldZ16 (g : BitVec 2) (x : BitVec 7) (b : BitVec 6) (t : BitVec 7)
  /-- LD_32 (R217): Lane load of a word. -/
  | ld32 (g : BitVec 2) (x : BitVec 7) (b : BitVec 6) (t : BitVec 7)
  /-- LD_64 (R217): Lane load of 8 bytes into a register pair. -/
  | ld64 (g : BitVec 2) (x : BitVec 7) (b : BitVec 6) (t : BitVec 7)
  /-- LD_128 (R217): Lane load of 16 bytes into four registers. -/
  | ld128 (g : BitVec 2) (x : BitVec 7) (b : BitVec 6) (t : BitVec 7)
  /-- ST_8 (R218): Lane store of a byte. -/
  | st8 (g : BitVec 2) (x : BitVec 7) (b : BitVec 6) (t : BitVec 7)
  /-- ST_16 (R218): Lane store of a halfword. -/
  | st16 (g : BitVec 2) (x : BitVec 7) (b : BitVec 6) (t : BitVec 7)
  /-- ST_32 (R218): Lane store of a word. -/
  | st32 (g : BitVec 2) (x : BitVec 7) (b : BitVec 6) (t : BitVec 7)
  /-- ST_64 (R218): Lane store of 8 bytes from a register pair. -/
  | st64 (g : BitVec 2) (x : BitVec 7) (b : BitVec 6) (t : BitVec 7)
  /-- ST_128 (R218): Lane store of 16 bytes from four registers. -/
  | st128 (g : BitVec 2) (x : BitVec 7) (b : BitVec 6) (t : BitVec 7)
  /-- LDS (R219): Scratchpad load. -/
  | lds (z : BitVec 2) (i : BitVec 6) (x : BitVec 7) (t : BitVec 7)
  /-- STS (R219): Scratchpad store. -/
  | sts (z : BitVec 2) (i : BitVec 6) (x : BitVec 7) (t : BitVec 7)
  /-- LDC (R220): Lane word load through the constant path. -/
  | ldc (g : BitVec 2) (x : BitVec 7) (b : BitVec 6) (t : BitVec 7)
  /-- LDSMP (R222): Bilinear sample of a 2-D BF16 table. -/
  | ldsmp (g : BitVec 2) (x : BitVec 7) (b : BitVec 6) (t : BitVec 7)
  /-- ATOM_ADD_32 (R224): Global atomic 32-bit add. -/
  | atomAdd32 (x : BitVec 7) (b : BitVec 6) (t : BitVec 7)
  /-- ATOM_ADD_64 (R224): Global atomic 64-bit add. -/
  | atomAdd64 (x : BitVec 7) (b : BitVec 6) (t : BitVec 7)
  /-- ATOM_FADD_F32 (R224): Global atomic FP32 add. -/
  | atomFaddF32 (x : BitVec 7) (b : BitVec 6) (t : BitVec 7)
  /-- ATOM_EXCH_32 (R224): Global atomic 32-bit exchange. -/
  | atomExch32 (x : BitVec 7) (b : BitVec 6) (t : BitVec 7)
  /-- ATOM_MIN_I32 (R224): Global atomic signed minimum. -/
  | atomMinI32 (x : BitVec 7) (b : BitVec 6) (t : BitVec 7)
  /-- ATOM_MAX_I32 (R224): Global atomic signed maximum. -/
  | atomMaxI32 (x : BitVec 7) (b : BitVec 6) (t : BitVec 7)
  /-- ATOM_MIN_Z32 (R224): Global atomic unsigned minimum. -/
  | atomMinZ32 (x : BitVec 7) (b : BitVec 6) (t : BitVec 7)
  /-- ATOM_MAX_Z32 (R224): Global atomic unsigned maximum. -/
  | atomMaxZ32 (x : BitVec 7) (b : BitVec 6) (t : BitVec 7)
  /-- ATOM_AND_32 (R224): Global atomic AND. -/
  | atomAnd32 (x : BitVec 7) (b : BitVec 6) (t : BitVec 7)
  /-- ATOM_OR_32 (R224): Global atomic OR. -/
  | atomOr32 (x : BitVec 7) (b : BitVec 6) (t : BitVec 7)
  /-- ATOM_XOR_32 (R224): Global atomic XOR. -/
  | atomXor32 (x : BitVec 7) (b : BitVec 6) (t : BitVec 7)
  /-- ATOM_EXCH_64 (R224): Global atomic 64-bit exchange. -/
  | atomExch64 (x : BitVec 7) (b : BitVec 6) (t : BitVec 7)
  /-- ATOM_FMIN_F32 (R224): Global atomic FP32 minimum. -/
  | atomFminF32 (x : BitVec 7) (b : BitVec 6) (t : BitVec 7)
  /-- ATOM_FMAX_F32 (R224): Global atomic FP32 maximum. -/
  | atomFmaxF32 (x : BitVec 7) (b : BitVec 6) (t : BitVec 7)
  /-- ATOM_CAS_32 (R224): Global atomic 32-bit compare-and-swap. -/
  | atomCas32 (x : BitVec 7) (b : BitVec 6) (t : BitVec 7)
  /-- ATOM_CAS_64 (R224): Global atomic 64-bit compare-and-swap. -/
  | atomCas64 (x : BitVec 7) (b : BitVec 6) (t : BitVec 7)
  /-- ATOMS (R226): Scratchpad atomic of the operation number in aop. -/
  | atoms (o : BitVec 4) (x : BitVec 7) (t : BitVec 7)
  /-- PREF (R227): Hint to prefetch a byte range into L2 and L1. -/
  | pref (b : BitVec 6) (a : BitVec 6)
  /-- CWB (R227): Writes back dirty bytes of a range. -/
  | cwb (b : BitVec 6) (a : BitVec 6)
  /-- CINV (R227): Invalidates a range, discarding dirty bytes inside it on SWC pages. -/
  | cinv (b : BitVec 6) (a : BitVec 6)
  /-- CWBI (R227): Writes back then invalidates a range. -/
  | cwbi (b : BitVec 6) (a : BitVec 6)
  /-- FENCE (R228): Orders the group's accesses at a scope. -/
  | fence (k : BitVec 2) (c : BitVec 3)
  /-- PFENCE (R228): Writes back from-path caches and invalidates to-path caches. -/
  | pfence (t : BitVec 4) (f : BitVec 4)
  /-- OPINST (R312): Reads an operator descriptor and installs the operator. -/
  | opinst (b : BitVec 6) (a : BitVec 6)
  /-- OPREM (R312): Removes an operator and waits for removal. -/
  | oprem (b : BitVec 6)
  /-- OPFIRE (R312): Fires an operator slot. -/
  | opfire (c : BitVec 6) (b : BitVec 6)
  /-- OPQRY (R312): Reads a slot's trailer with acquire. -/
  | opqry (c : BitVec 6) (b : BitVec 6) (a : BitVec 6)
  /-- CSEAL (R327): Closes the group's open copy batch. -/
  | cseal (a : BitVec 6)
  /-- CWAIT (R327): Waits for copy batches up to a number. -/
  | cwait (b : BitVec 6)
  /-- CNTWAIT (R328): Waits until a completion counter is below a threshold. -/
  | cntwait (c : BitVec 6) (b : BitVec 6)
  /-- CNTADD (R328): Adds to a completion counter as a release. -/
  | cntadd (c : BitVec 6) (b : BitVec 6)
  /-- CNTINIT (R328): Initialises a completion counter. -/
  | cntinit (c : BitVec 6) (b : BitVec 6)
  /-- MSEAL (R327): Closes the group's open matrix batch. -/
  | mseal (a : BitVec 6)
  /-- MWAIT (R327): Waits for matrix batches up to a number. -/
  | mwait (b : BitVec 6)
  /-- TZERO (R318): Queues zeroing of accumulator units. -/
  | tzero (c : BitVec 5) (a : BitVec 5)
  /-- TSTA (R318): Queues a copy of accumulator units to scratchpad. -/
  | tsta (c : BitVec 5) (b : BitVec 6) (a : BitVec 5)
  /-- TLDA (R318): Queues a copy of scratchpad into accumulator units. -/
  | tlda (c : BitVec 5) (b : BitVec 6) (a : BitVec 5)
  /-- TMUL (R315): Checks its operand pair and queues one K-step on the matrix array. -/
  | tmul (j : BitVec 2) (q : BitVec 6) (f : BitVec 2) (c : BitVec 5) (u : BitVec 5)
  /-- MBINIT (R330): Initialises a barrier object. -/
  | mbinit (c : BitVec 6) (b : BitVec 6)
  /-- MBARR (R330): Counts one arrival at a barrier object as a release. -/
  | mbarr (b : BitVec 6)
  /-- MBEXP (R330): Announces expected bytes at a barrier object. -/
  | mbexp (c : BitVec 6) (b : BitVec 6)
  /-- MBWAIT (R330): Waits for a barrier object's phase to change. -/
  | mbwait (c : BitVec 6) (b : BitVec 6)
  /-- MBTRY (R330): Tests a barrier object's phase without waiting. -/
  | mbtry (c : BitVec 6) (b : BitVec 6) (a : BitVec 6)
  /-- WALK (R332): Starts a tile walk and returns the first tile. -/
  | walk (b : BitVec 6) (a : BitVec 6)
  /-- WNEXT (R332): Returns the next tile of the open walk. -/
  | wnext (a : BitVec 6)
  /-- TRDA (R319): Reads one accumulator column into a vector register. -/
  | trda (c : BitVec 6) (u : BitVec 5) (t : BitVec 7)
  /-- TWRA (R319): Writes a vector register into one accumulator column. -/
  | twra (c : BitVec 6) (u : BitVec 5) (t : BitVec 7)
  /-- SHPUB (R333): Publishes a shape record and notifies the front end. -/
  | shpub (c : BitVec 6) (b : BitVec 6) (a : BitVec 6)
  /-- SHQRY (R333): Waits as SHWAIT and returns the shape record. -/
  | shqry (a : BitVec 6)
  /-- RALLOC (R335): Allocates a range from the block's sub-arena. -/
  | ralloc (b : BitVec 6) (a : BitVec 6)
  /-- RFREE (R335): Frees the most recent sub-arena allocation. -/
  | rfree (b : BitVec 6)
  /-- TRAP (R349): Software trap with cause 0x00. -/
  | trap (n : BitVec 12)
  /-- SUPCALL (R349): Service call trap with cause 0x0D. -/
  | supcall (n : BitVec 12)
  /-- TLBINV (R397): Drops retained translations of a context and waits for old requests. -/
  | tlbinv (c : BitVec 6) (b : BitVec 6)
  /-- OPPARK (R370): Parks or reinstalls an operator. -/
  | oppark (b : BitVec 6)
  /-- PHINT (R360): Stops the group for a pending pre-emption with a liveness record. -/
  | phint (n : BitVec 12)
  /-- RLABEL (R362): Registers or clears a restart record for the group. -/
  | rlabel (n : BitVec 12)
  /-- TCOPY_LD (R324): Checks and starts copies from global memory to scratchpad. -/
  | tcopyLd (m : BitVec 1) (e : BitVec 1) (v : BitVec 7) (c : BitVec 6) (h : BitVec 6)
  /-- TCOPY_ST (R324): Checks and starts copies from scratchpad to global memory. -/
  | tcopySt (e : BitVec 1) (v : BitVec 7) (c : BitVec 6) (h : BitVec 6)
  /-- REP (R110): Repeats the following instruction with stepped registers. -/
  | rep (r : BitVec 2) (p : BitVec 3) (c : BitVec 6)
  /-- INV (R183): Runs a bisection search over a routine up to IEND. -/
  | inv (l : BitVec 2) (d : BitVec 1) (m : BitVec 1) (y : BitVec 7) (x : BitVec 7) (k : BitVec 2)
  /-- MOD_ALU (R171): Prefix modifying the next arithmetic instruction with negate, abs, scale, clamp and saturation. -/
  | modAlu (p : BitVec 6) (c : BitVec 1) (k : BitVec 5) (e : BitVec 1) (f : BitVec 1) (h : BitVec 1) (i : BitVec 1) (u : BitVec 2)
  /-- MOD_MEMORY (R214): Prefix giving the next memory instruction order, scope, hint, offset, wt and take. -/
  | modMemory (o : BitVec 9) (k : BitVec 1) (w : BitVec 1) (h : BitVec 2) (c : BitVec 3) (r : BitVec 2)
  /-- JOIN (R85): Pops the group's top entry and resumes from it. -/
  | join
  /-- RET (R88): Pops a call entry and returns to s59. -/
  | ret
  /-- EXIT (R89): Ends every active non-helper lane and unwinds the stack. -/
  | exit
  /-- NOP (R90): No operation. -/
  | nop
  /-- YIELD (R90): Moves the group to the pending set. -/
  | yield
  /-- BAR_BLK (R329): Block barrier arrival. -/
  | barBlk
  /-- BAR_CLU (R329): Cluster barrier arrival. -/
  | barClu
  /-- WEND (R332): Ends the group's walk. -/
  | wend
  /-- SHWAIT (R334): Waits until the launch's shape is judged or the block confirmed. -/
  | shwait
  /-- TRAPF (R348): Raises enabled sticky flags as deferred traps. -/
  | trapf
  /-- ERET (R353): Answers trap records lane by lane and returns to SEPC. -/
  | eret
  /-- CKPT (R377): Meets the partner and takes a redundancy checkpoint. -/
  | ckpt
  /-- IEND (R175): Closes an INV routine; elsewhere raises cause 0x05. -/
  | iend
  /-- COMPACTION_MEETING (R104): When every group has arrived at brp.cmp, the unit repacks lanes into compacted groups. -/
  | compactionMeeting (blk : Nat)
  /-- COMPACTED_GROUP_START (R105): A not-yet-started compacted group takes a freed scheduler slot. -/
  | compactedGroupStart (blk : Nat)
  /-- COMPACTION_CLOSE (R107): When every compacted group has joined, the original groups are restored. -/
  | compactionClose (blk : Nat)
  /-- STOSEED_WRITE (R127): Writing STOSEED reseeds every lane's xorshift state. -/
  | stoseedWrite (value : Word)
  /-- WCODEST_CLEAR (R120): Writing 1 to WCODEST.RSV clears the core's reserved-code bit. -/
  | wcodestClear (value : Word)
  /-- REDINJ_ARM (R384): Writing REDINJ arms one bit flip for a trailing group of a context. -/
  | redinjArm (value : Word)
  /-- MIGCMD_START (R403): Writing GO=01 reads the migration descriptor and starts the copy. -/
  | migcmdStart
  /-- MIGCMD_RELEASE (R404): Writing GO=10 releases the frame to be served as ordinary memory. -/
  | migcmdRelease
  /-- MIGDESC_WRITE (R403): Writing MIGDESC checks alignment and sets the descriptor address. -/
  | migdescWrite (value : Word)
  /-- REGISTER_WRITE (R4): A write to a register without behaviour of its own sets its RW fields. -/
  | registerWrite (reg : RegName) (value : Word)
  /-- MIGRATION_COPY_COMPLETE (R404): The migration copy completes and held requests are forwarded to the new frame. -/
  | migrationCopyComplete (data : List Byte)
  /-- MIGRATION_COPY_FAIL (R404): The migration copy fails and held requests are served at the source. -/
  | migrationCopyFail (cause : Byte)
  /-- GROUP_PROMOTION (R296): The core promotes a ready pending group into the active set. -/
  | groupPromotion (core : Nat)
  /-- LOCALITY_WINDOW_END (R297): At the end of each 4,096-cycle window the load-issue limit N is adjusted. -/
  | localityWindowEnd (core : Nat)
  /-- SLEEP_END (R91): A sleeping group's duration elapses and it returns to the pending set. -/
  | sleepEnd (g : GRef)
  /-- WAIT_CONDITION_MET (R311): A waiting group's condition holds and its wait instruction completes. -/
  | waitConditionMet (g : GRef)
  /-- BARRIER_DEPARTURE (R329): All groups have arrived and every waiting group departs. -/
  | barrierDeparture (blk : Nat) (cluster : Bool)
  /-- ACCESS_REPLIES_COMPLETE (R212): Every lane's reply has arrived and the instruction completes or faults with a
  performed mask. -/
  | accessRepliesComplete (g : GRef)
  /-- L1_WRITEBACK (R202): The L1 writes back a block's dirty bytes with their mask. -/
  | l1Writeback (core : Nat) (base : Nat) (words : Nat)
  /-- L2_SWC_WRITEBACK (R400): A die's L2 writes back dirty bytes of an SWC line to the home. -/
  | l2SwcWriteback (die : Nat) (line : Nat)
  /-- QUEUE_WAKE (R287): A wake-word write makes the queue core read WIDX and consume records. -/
  | queueWake (queue : Nat)
  /-- LAUNCH_RECORD (R290): A LAUNCH record is handed to the launch engine. -/
  | launchRecord (queue : Nat)
  /-- WAITMEM_RECORD (R288): The queue waits until a memory word reaches a value. -/
  | waitmemRecord (queue : Nat)
  /-- SIGNAL_RECORD (R288): After earlier launches complete, stores a value with release. -/
  | signalRecord (queue : Nat)
  /-- BARRIER_RECORD (R288): The queue waits until every earlier launch has completed. -/
  | barrierRecord (queue : Nat)
  /-- LAUNCH_START (R291): The launch engine reads the record and image, checks them and fixes any prediction. -/
  | launchStart (launch : Nat)
  /-- BLOCK_PLACEMENT (R294): The dispatcher places a block or cluster on a core with room. -/
  | blockPlacement (launch : Nat) (cores : List Nat)
  /-- LAUNCH_COMPLETION (R292): The launch completes and the status word, CNTR and shape record are stored. -/
  | launchCompletion (launch : Nat)
  /-- TIME_SLICE_EXPIRY (R295): A context's time slice reaches SLICE and pre-emption is requested. -/
  | timeSliceExpiry (launch : Nat)
  /-- SHAPE_APPLY (R305): The front end applies an accepted true shape: confirm, squash, trim and tail. -/
  | shapeApply (launch : Nat)
  /-- HOLD_ENTRY_DRAIN (R305): A held entry is released as a store once the previous entry was accepted. -/
  | holdEntryDrain (g : GRef)
  /-- INLET_STORE_REQUEST (R258): An inlet store request is judged and applied to the slot. -/
  | inletStoreRequest (req : SlotRequest)
  /-- OPERATOR_WEIGHT_LOAD (R254): The sequencer finishes loading weights and the checksum column. -/
  | operatorWeightLoad (handle : Nat)
  /-- SEQUENCER_PASS (R261): The sequencer takes up to 96 queued slots into one array pass. -/
  | sequencerPass (handle : Nat) (strikes : Nat)
  /-- SLOT_COMPLETION (R263): A slot of a pass completes and its result is written or delivered. -/
  | slotCompletion (handle : Nat) (slot : Nat)
  /-- FORWARD_DELIVERY (R267): A forwarding operator delivers a result to its target. -/
  | forwardDelivery (handle : Nat) (slot : Nat)
  /-- FORWARD_RETRY (R268): A delivery refused with 0x42 is retried. -/
  | forwardRetry (handle : Nat) (slot : Nat)
  /-- FORWARD_TIMEOUT (R268): Retries outlast TMO and the delivery fails with error 2. -/
  | forwardTimeout (handle : Nat) (slot : Nat)
  /-- OUTLET_WAIT_SERVE (R266): A held .wt load is served once the slot's result is present. -/
  | outletWaitServe (g : GRef)
  /-- OUTLET_WAIT_TIMEOUT (R266): TMO passes before a held .wt load can be served. -/
  | outletWaitTimeout (g : GRef)
  /-- OPERATOR_REMOVAL (R256): Removal waits for the pass, discards slots and unbinds windows. -/
  | operatorRemoval (handle : Nat)
  /-- ARRAY_KSTEP (R281): The array performs one queued K-step with its residue checks. -/
  | arrayKstep (core : Nat) (strikes : Nat)
  /-- TZERO_PERFORM (R318): The array zeroes accumulator units and clears poison. -/
  | tzeroPerform (core : Nat)
  /-- TLDA_PERFORM (R318): The array copies a scratchpad image into accumulator units. -/
  | tldaPerform (core : Nat)
  /-- TSTA_PERFORM (R318): The array copies accumulator units to scratchpad unless poisoned. -/
  | tstaPerform (core : Nat)
  /-- COPY_COMPLETION (R325): A copy completes and decrements its counter, credits bytes and marks its batch. -/
  | copyCompletion (copy : Nat)
  /-- TRAP_RECORD_DELIVERY (R351): A record is written into the fault server's trap queue. -/
  | trapRecordDelivery
  /-- TRAP_RECORD_TIMEOUT (R351): No record of a launch reaches its server in 10 ms and the launch ends. -/
  | trapRecordTimeout (launch : Nat)
  /-- ANSWER_APPLY (R353): A fault server's answer is applied to the stopped group. -/
  | answerApply (token : Word) (disp : Byte) (result : Word)
  /-- DEBUGGER_HALT (R354): A debugger halt takes effect on a group. -/
  | debuggerHalt (g : GRef)
  /-- DEBUGGER_RESUME (R354): The debugger resumes a halted group, sending or discarding its pending record. -/
  | debuggerResume (g : GRef) (send : Bool)
  /-- PREEMPTION_REQUEST (R363): A pre-emption request starts the save of a context. -/
  | preemptionRequest (launch : Nat)
  /-- FORCED_HARD_SAVE (R363): The save deadline passes and remaining groups are hard-saved. -/
  | forcedHardSave (launch : Nat)
  /-- BLOCK_SAVE (R363): A stopped block's engine work completes and its record is written. -/
  | blockSave (blk : Nat)
  /-- SAVE_COMPLETE (R365): Every block is saved or ended and the saved header is written. -/
  | saveComplete (launch : Nat)
  /-- CONTEXT_RESUME (R366): A saved image is launched and its blocks restored. -/
  | contextResume (launch : Nat)
  /-- SIGNATURE_COMPARE (R374): Partner signatures are compared and a match releases the leading unit. -/
  | signatureCompare (blk : Nat) (grp : Nat)
  /-- MEETING_POINT (R376): Both partners reach a meeting point with matching signatures and it is performed once. -/
  | meetingPoint (blk : Nat) (grp : Nat)
  /-- FABRIC_REQUEST_RECEIVE (R413): A LOAD, STORE or OPLOAD request packet is received and performed in stream order. -/
  | fabricRequestReceive (p : Packet)
  /-- ATOMIC_PACKET_RECEIVE (R411): An ATOMIC packet arrives and, once all parts have, its entries are performed. -/
  | atomicPacketReceive (p : Packet)
  /-- OPSTORE_RECEIVE (R418): An OPSTORE packet is routed to the matching remote-access window. -/
  | opstoreReceive (p : Packet)
  /-- DATA_REPLY (R408): A DATA reply returns read bytes or old values to the requester. -/
  | dataReply (p : Packet)
  /-- ACK_REPLY (R408): An ACK reply completes a request. -/
  | ackReply (p : Packet)
  /-- NACK_REPLY (R408): A NACK reply refuses a request with a cause. -/
  | nackReply (p : Packet)
  /-- RETRY_REPLY (R416): A RETRY reply makes the sender retransmit after at least 1 us. -/
  | retryReply (p : Packet)
  /-- INVAL (R398): A fabric invalidation drops translations and is acknowledged when old requests complete. -/
  | inval (p : Packet)
  /-- INVACK (R408): An invalidation acknowledgement arrives. -/
  | invack (p : Packet)
  /-- RECORD_PACKET (R351): A trap record arrives over the fabric. -/
  | recordPacket (p : Packet)
  /-- NOTICE_PACKET (R421): A link notice arrives over the fabric. -/
  | noticePacket (p : Packet)
  /-- RETRANSMIT_TIMEOUT (R416): 25 us without a reply triggers a retransmission or ends the request. -/
  | retransmitTimeout (req : Nat)
  /-- REPLY_CACHE_EXPIRY (R417): A cached reply ages out after 100 us. -/
  | replyCacheExpiry (src : Nat) (stream : Nat) (seq : Nat)
  /-- FLOW_OFF (R415): The receiver signals OFF for a class and the sender stops. -/
  | flowOff (port : Nat) (cls : Nat)
  /-- FLOW_ON (R415): The receiver signals ON for a class and the sender resumes. -/
  | flowOn (port : Nat) (cls : Nat)
  /-- LINK_LOSS (R421): A port loses its link and its plane leaves the live set. -/
  | linkLoss (port : Nat)
  /-- LINK_LOSS_NOTICE (R421): A record with cause 0xA2 reaches FMDEV's trap queue. -/
  | linkLossNotice (port : Nat)
  /-- LINK_RETRAINED (R421): A retrained link reports its notice. -/
  | linkRetrained (port : Nat)
  /-- SWAP (R420): Writing SWAP makes the other fabric bank active or fails. -/
  | swap
  /-- SWAP_GRACE_EXPIRY (R419): 100 us after a swap, the old bank's key is no longer accepted. -/
  | swapGraceExpiry
  /-- FBERR_CLR (R420): Writing CLR sets FBERR to 0. -/
  | fberrClr
  /-- SWFAIL_CLEAR (R420): Writing 1 to SWFAIL clears it. -/
  | swfailClear
  /-- SPAWN (R423): A host line store to a spawn window enqueues a launch. -/
  | spawn (window : Nat) (whole : Bool) (line : List Word)
  /-- HOST_MEM_ACCESS (R429): A host CXL.mem access is performed at the frame's home agent. -/
  | hostMemAccess (write : Bool) (pa : Nat) (size : Nat) (data : Word)
  /-- MAILBOX_DOORBELL (R455): A write of MWIDX posts mailbox requests. -/
  | mailboxDoorbell (widx : BitVec 16)
  /-- REGISTER_QUEUE (R286): The policy firmware registers a queue descriptor. -/
  | registerQueue (ctx : BitVec 32) (desc : Word)
  /-- REGISTER_CONTEXT (R441): The policy firmware registers a context and assigns CTX. -/
  | registerContext (info : ContextInfo)
  /-- PREEMPT_SERVICE (R441): The firmware pre-empts a context on request. -/
  | preemptService (ctx : BitVec 32)
  /-- RESUME_SERVICE (R441): The firmware resumes a saved context on request. -/
  | resumeService (ctx : BitVec 32)
  /-- DISCARD_SERVICE (R369): The firmware discards a saved context, tearing it down. -/
  | discardService (ctx : BitVec 32)
  /-- FENCE_CORE (R446): The firmware fences a core and enables a spare. -/
  | fenceCore (core : Nat)
  /-- RETIRE_PSEUDO_CHANNEL (R447): The firmware migrates frames off a pseudo-channel and retires it. -/
  | retirePseudoChannel (frames : List Nat)
  /-- RETRAIN_LINK (R447): The firmware retrains a link. -/
  | retrainLink (port : Nat)
  /-- DOMAIN_COPY (R448): The firmware copies bytes to or from another domain over RoCE v2. -/
  | domainCopy (req : CopyRequest)
  /-- RESET (R443): Device reset runs the boot ROM's verification and start sequence. -/
  | reset (images : List BootImage)
  /-- FIRMWARE_HANDOVER (R445): A new policy firmware is started on the running firmware's state block. -/
  | firmwareHandover (image : BootImage) (accepts : Bool)
  /-- HANDOVER_TIMEOUT (R445): The new firmware does not accept within 50 ms and the old bank restarts. -/
  | handoverTimeout
  /-- GET_VERSION (R444): SPDM request for supported versions. -/
  | getVersion
  /-- GET_CAPABILITIES (R444): SPDM request for responder capabilities. -/
  | getCapabilities
  /-- NEGOTIATE_ALGORITHMS (R444): SPDM request negotiating SHA-256 and the LMS key. -/
  | negotiateAlgorithms (sha256 : Bool)
  /-- GET_DIGESTS (R444): SPDM request for certificate digests. -/
  | getDigests
  /-- GET_CERTIFICATE (R444): SPDM request for the certificate chain. -/
  | getCertificate
  /-- CHALLENGE (R444): SPDM challenge signed with the LMS identity key. -/
  | challenge (nonce : List Byte)
  /-- GET_MEASUREMENTS (R444): SPDM request returning MR0 to MR7, signed. -/
  | getMeasurements (nonce : List Byte)
  /-- REPLAY (R449): The firmware relaunches a context delivering journal values in order. -/
  | replay (ctx : BitVec 32)
  /-- CAP (R455): A write of CAP sets the power cap or sets CAPERR. -/
  | cap (value : Word)
  /-- CAPERR_CLEAR (R455): Writing 1 to CAPERR clears it. -/
  | caperrClear
  /-- TRIP_CLEAR (R455): Writing 1 to THERM.TRIP clears it. -/
  | tripClear
  /-- POWER_CAP_TICK (R453): Each millisecond the clock steps down or up against the power cap. -/
  | powerCapTick (watts : Nat)
  /-- THERMAL_TICK (R454): Each millisecond above 100 C the clock steps down. -/
  | thermalTick (degrees : Nat)
  /-- THERMAL_TRIP (R454): The hottest die reaches 110 C and the device powers off. -/
  | thermalTrip (degrees : Nat)
  /-- INPUT_VOLTAGE_CHANGE (R451): The input rail leaves or returns to its range, setting VINLO or VINHI or powering off. -/
  | inputVoltageChange (millivolts : Nat)
  /-- INPUT_RECOVERY_TIMEOUT (R451): The input has been back in range for 10 ms and the clock is released. -/
  | inputRecoveryTimeout
  /-- RETRY_DELAY_EXPIRY (R404): A requester that was told to retry sends its request again once at least 1 us has passed.
  -/
  | retryDelayExpiry (req : Nat)
  /-- RDMA_REQUEST_RECEIVE (R406): An RDMA WRITE or RDMA READ from a device of another domain arrives on an 800GbE port
  and is served. -/
  | rdmaRequestReceive (write : Bool) (src : BitVec 13) (ctx : BitVec 32) (va : Word) (data : List Byte)
  /-- DOMAIN_COPY_COMPLETION (R448): A domain copy finishes or its transport fails, and the firmware stores 0 or the cause
  to DONE with release. -/
  | domainCopyCompletion (id : Nat) (cause : Byte) (data : List Byte)
  /-- HOST_LINK_TRAINING (R422): The PCIe host link trains, at x16 or, when lanes fail, at x8 or x4. -/
  | hostLinkTraining (lanes : Nat)
  /-- JOURNAL_DRAIN (R449): The firmware drains a capture-journal ring, and appending resumes after a LOST condition. -/
  | journalDrain (ctx : BitVec 32) (entries : Nat)
deriving DecidableEq, Repr

end Sys2Proof
end

