-- ==== Sys2Proof/WellFormed.lean ====
section
/-! DEFINITION. Which operands an encoding admits: R45 to R63 and the limits the instructions' own rules add (R74, R79).
An encoding that fails one of these checks raises cause 0x01 (R64 step 4); the parcel 0x0000 raises cause 0x03 (step 2)
before it could be a compact add. A step without an encoding has no check. -/

namespace Sys2Proof

/-- R45: with bs = 1 the second operand names a scalar, and bit 6 of its field is clear. -/
abbrev secondOk (x : BitVec 1) (b : BitVec 7) : Prop := x = 1#1 → b.toNat < 64

/-- R46: how many consecutive registers the data of the scratchpad atomic numbered `o` occupies (R57). -/
def atomRegs (o : BitVec 4) : Nat :=
  if o = 1#4 ∨ o = 11#4 ∨ o = 14#4 then 2 else if o = 15#4 then 4 else 1

/-- R45 to R63: the operands of `i` are ones its encoding admits. -/
def WellFormed (i : Instr) : Bool :=
  match i with
  | .vaddI32Compact b d => decide (¬(b = 0#5 ∧ d = 0#6))
  | .vsubI32Compact _ _ => true
  | .vmulI32Compact _ _ => true
  | .vandCompact _ _ => true
  | .vorCompact _ _ => true
  | .vxorCompact _ _ => true
  | .vshlCompact _ _ => true
  | .vshrCompact _ _ => true
  | .vsraCompact _ _ => true
  | .vmovCompact _ _ => true
  | .vminI32Compact _ _ => true
  | .vmaxI32Compact _ _ => true
  | .vfaddF32Compact _ _ => true
  | .vfsubF32Compact _ _ => true
  | .vfmulF32Compact _ _ => true
  | .vfmaxF32Compact _ _ => true
  | .sadd _ _ _ => true
  | .ssub _ _ _ => true
  | .smul _ _ _ => true
  | .smulh _ _ _ => true
  | .smulhz _ _ _ => true
  | .sdiv _ _ _ => true
  | .sdivz _ _ _ => true
  | .srem _ _ _ => true
  | .sremz _ _ _ => true
  | .sand _ _ _ => true
  | .sor _ _ _ => true
  | .sxor _ _ _ => true
  | .sshl _ _ _ => true
  | .sshr _ _ _ => true
  | .ssra _ _ _ => true
  | .smin _ _ _ => true
  | .smax _ _ _ => true
  | .sminz _ _ _ => true
  | .smaxz _ _ _ => true
  | .sseq _ _ _ => true
  | .ssne _ _ _ => true
  | .sslt _ _ _ => true
  | .ssltz _ _ _ => true
  | .ssle _ _ _ => true
  | .sslez _ _ _ => true
  | .smov _ _ => true
  | .saddi _ _ _ => true
  | .sandi _ _ _ => true
  | .sori _ _ _ => true
  | .sxori _ _ _ => true
  | .sshli _ _ _ => true
  | .sshri _ _ _ => true
  | .ssrai _ _ _ => true
  | .sli _ _ => true
  | .slh16 _ _ => true
  | .slh32 _ _ => true
  | .slh48 _ _ => true
  | .sld _ z _ _ => decide (z ≠ 3#2)
  | .sst _ z _ _ => decide ((z = 0#2 ∨ z = 2#2))
  | .sldc _ z _ _ => decide (z ≠ 3#2)
  | .sgetl x l _ _ => decide ((if x = 0#1 then l.toNat < 96 else l.toNat < 64))
  | .ssetl x l _ _ => decide ((if x = 0#1 then l.toNat < 96 else l.toNat < 64))
  | .jmp _ => true
  | .brz _ _ => true
  | .brnz _ _ => true
  | .loop _ r => decide (r ≠ 0#6)
  | .brp _ _ _ _ => true
  | .jpt _ => true
  | .call _ _ _ => true
  | .calli a => decide (a.toNat ≤ 126)
  | .jmpi a => decide (a.toNat ≤ 126)
  | .srr _ _ => true
  | .srw _ _ => true
  | .sleep _ => true
  | .bkpt _ => true
  | .vaddI32 x b _ _ => decide (secondOk x b)
  | .vsubI32 x b _ _ => decide (secondOk x b)
  | .vmulI32 x b _ _ => decide (secondOk x b)
  | .vmulh x b _ _ => decide (secondOk x b)
  | .vmulhz x b _ _ => decide (secondOk x b)
  | .vmadI32 x b _ _ => decide (secondOk x b)
  | .vand x b _ _ => decide (secondOk x b)
  | .vor x b _ _ => decide (secondOk x b)
  | .vxor x b _ _ => decide (secondOk x b)
  | .vshl x b _ _ => decide (secondOk x b)
  | .vshr x b _ _ => decide (secondOk x b)
  | .vsra x b _ _ => decide (secondOk x b)
  | .vminI32 x b _ _ => decide (secondOk x b)
  | .vmaxI32 x b _ _ => decide (secondOk x b)
  | .vminZ32 x b _ _ => decide (secondOk x b)
  | .vmaxZ32 x b _ _ => decide (secondOk x b)
  | .vabsd x b _ _ => decide (secondOk x b)
  | .vpopc _ _ => true
  | .vclz _ _ => true
  | .vbrev _ _ => true
  | .vnot _ _ => true
  | .vbfeI32 x b _ _ => decide (secondOk x b)
  | .vbfeZ32 x b _ _ => decide (secondOk x b)
  | .vbfi x b _ _ => decide (secondOk x b)
  | .vsel _ _ _ _ => true
  | .vdot4I8 x b _ _ => decide (secondOk x b)
  | .vdot4Z8 x b _ _ => decide (secondOk x b)
  | .vaddi _ _ _ => true
  | .vshli _ _ _ => true
  | .vshri _ _ _ => true
  | .vsrai _ _ _ => true
  | .vandi _ _ _ => true
  | .vli _ _ => true
  | .vbkSet _ _ _ => true
  | .vbkGet _ _ _ => true
  | .vicmp x b _ c p => decide (secondOk x b ∧ c.toNat ≤ 9 ∧ p ≠ 0#3)
  | .vfaddF32 x b _ _ => decide (secondOk x b)
  | .vfsubF32 x b _ _ => decide (secondOk x b)
  | .vfmulF32 x b _ _ => decide (secondOk x b)
  | .vfmaF32 x b _ _ => decide (secondOk x b)
  | .vfminF32 x b _ _ => decide (secondOk x b)
  | .vfmaxF32 x b _ _ => decide (secondOk x b)
  | .vfaddH2 x b _ _ => decide (secondOk x b)
  | .vfsubH2 x b _ _ => decide (secondOk x b)
  | .vfmulH2 x b _ _ => decide (secondOk x b)
  | .vfmaH2 x b _ _ => decide (secondOk x b)
  | .vfminH2 x b _ _ => decide (secondOk x b)
  | .vfmaxH2 x b _ _ => decide (secondOk x b)
  | .vfaddB2 x b _ _ => decide (secondOk x b)
  | .vfsubB2 x b _ _ => decide (secondOk x b)
  | .vfmulB2 x b _ _ => decide (secondOk x b)
  | .vfmaB2 x b _ _ => decide (secondOk x b)
  | .vfminB2 x b _ _ => decide (secondOk x b)
  | .vfmaxB2 x b _ _ => decide (secondOk x b)
  | .vfrcp _ _ => true
  | .vfrsq _ _ => true
  | .vfsqrt _ _ => true
  | .vfex2 _ _ => true
  | .vflg2 _ _ => true
  | .vfsin _ _ => true
  | .vfcos _ _ => true
  | .vftanh _ _ => true
  | .vfcls _ _ => true
  | .vlaneid _ => true
  | .vtid _ => true
  | .vfcmp x b _ c p => decide (secondOk x b ∧ c.toNat ≤ 7 ∧ p ≠ 0#3)
  | .vcvt f g _ _ => decide (f.toNat ≤ 11 ∧ g.toNat ≤ 11 ∧ f ≠ g)
  | .vpackI8x4 a _ => decide (a.toNat ≤ 124)
  | .vpackTer16 a _ => decide (a.toNat ≤ 112)
  | .vpackE8m0 a _ => decide (a.toNat ≤ 124)
  | .vqx q _ _ => decide (q.toNat ≤ 6)
  | .vshflIdx x b _ _ => decide (secondOk x b)
  | .vshflUp x b _ _ => decide (secondOk x b)
  | .vshflDn x b _ _ => decide (secondOk x b)
  | .vshflXor x b _ _ => decide (secondOk x b)
  | .vred p r _ _ => decide (p ≠ 3#2 ∧ r.toNat ≤ 10)
  | .vscan _ r _ _ => decide (r.toNat ≤ 10)
  | .vvoteAny _ _ _ => true
  | .vvoteAll _ _ _ => true
  | .vvoteBallot _ _ d => decide (d.toNat ≤ 61)
  | .vvotePopc _ _ _ => true
  | .vpredAnd _ _ d => decide (d ≠ 0#3)
  | .vpredOr _ _ d => decide (d ≠ 0#3)
  | .vpredXor _ _ d => decide (d ≠ 0#3)
  | .vpredAndn _ _ d => decide (d ≠ 0#3)
  | .vpredOrn _ _ d => decide (d ≠ 0#3)
  | .vpredNot _ d => decide (d ≠ 0#3)
  | .vpredMov _ d => decide (d ≠ 0#3)
  | .vpredFromv _ d => decide (d ≠ 0#3)
  | .vflgRd _ _ => true
  | .vflgClr _ => true
  | .vflgRdclr _ _ => true
  | .ldS8 _ _ _ _ => true
  | .ldZ8 _ _ _ _ => true
  | .ldS16 _ _ _ _ => true
  | .ldZ16 _ _ _ _ => true
  | .ld32 _ _ _ _ => true
  | .ld64 _ _ _ t => decide (t.toNat ≤ 126)
  | .ld128 _ _ _ t => decide (t.toNat ≤ 124)
  | .st8 _ _ _ _ => true
  | .st16 _ _ _ _ => true
  | .st32 _ _ _ _ => true
  | .st64 _ _ _ t => decide (t.toNat ≤ 126)
  | .st128 _ _ _ t => decide (t.toNat ≤ 124)
  | .lds z _ _ t => decide ((z = 3#2 → t.toNat ≤ 126))
  | .sts z _ _ t => decide ((z = 3#2 → t.toNat ≤ 126))
  | .ldc _ _ _ _ => true
  | .ldsmp _ x _ _ => decide (x.toNat ≤ 126)
  | .atomAdd32 _ _ _ => true
  | .atomAdd64 _ _ t => decide (t.toNat ≤ 126)
  | .atomFaddF32 _ _ _ => true
  | .atomExch32 _ _ _ => true
  | .atomMinI32 _ _ _ => true
  | .atomMaxI32 _ _ _ => true
  | .atomMinZ32 _ _ _ => true
  | .atomMaxZ32 _ _ _ => true
  | .atomAnd32 _ _ _ => true
  | .atomOr32 _ _ _ => true
  | .atomXor32 _ _ _ => true
  | .atomExch64 _ _ t => decide (t.toNat ≤ 126)
  | .atomFminF32 _ _ _ => true
  | .atomFmaxF32 _ _ _ => true
  | .atomCas32 _ _ t => decide (t.toNat ≤ 126)
  | .atomCas64 _ _ t => decide (t.toNat ≤ 124)
  | .atoms o _ t => decide (t.toNat + atomRegs o ≤ 128)
  | .pref _ _ => true
  | .cwb _ _ => true
  | .cinv _ _ => true
  | .cwbi _ _ => true
  | .fence _ c => decide (c.toNat ≤ 5)
  | .pfence _ _ => true
  | .opinst _ _ => true
  | .oprem _ => true
  | .opfire _ _ => true
  | .opqry _ _ _ => true
  | .cseal _ => true
  | .cwait _ => true
  | .cntwait _ _ => true
  | .cntadd _ _ => true
  | .cntinit _ _ => true
  | .mseal _ => true
  | .mwait _ => true
  | .tzero c a => decide (a.toNat + c.toNat ≤ 31)
  | .tsta c _ a => decide (a.toNat + c.toNat ≤ 31)
  | .tlda c _ a => decide (a.toNat + c.toNat ≤ 31)
  | .tmul _ q f c _ => decide (c.toNat ≤ 17 ∧ q.toNat ≤ 62 ∧ (c.toNat ≤ 2 ↔ f = 0#2))
  | .mbinit _ _ => true
  | .mbarr _ => true
  | .mbexp _ _ => true
  | .mbwait _ _ => true
  | .mbtry _ _ _ => true
  | .walk _ _ => true
  | .wnext _ => true
  | .trda _ _ _ => true
  | .twra _ _ _ => true
  | .shpub _ _ _ => true
  | .shqry a => decide (1 ≤ a.toNat ∧ a.toNat ≤ 59)
  | .ralloc _ _ => true
  | .rfree _ => true
  | .trap _ => true
  | .supcall _ => true
  | .tlbinv _ _ => true
  | .oppark _ => true
  | .phint _ => true
  | .rlabel _ => true
  | .tcopyLd _ _ v _ h => decide (v.toNat ≤ 124 ∧ h ≠ 0#6)
  | .tcopySt _ v _ h => decide (v.toNat ≤ 124 ∧ h ≠ 0#6)
  | .rep _ _ _ => true
  | .inv _ _ _ y _ _ => decide (y.toNat ≤ 126)
  | .modAlu p c _ _ _ _ _ u => decide (u ≠ 3#2 ∧ (c = 0#1 → p = 0#6) ∧ (c = 1#1 → p.toNat ≤ 62))
  | .modMemory _ _ _ _ c _ => decide (c.toNat ≤ 5)
  | .join => true
  | .ret => true
  | .exit => true
  | .nop => true
  | .yield => true
  | .barBlk => true
  | .barClu => true
  | .wend => true
  | .shwait => true
  | .trapf => true
  | .eret => true
  | .ckpt => true
  | .iend => true
  | .compactionMeeting _ => true
  | .compactedGroupStart _ => true
  | .compactionClose _ => true
  | .stoseedWrite _ => true
  | .wcodestClear _ => true
  | .redinjArm _ => true
  | .migcmdStart => true
  | .migcmdRelease => true
  | .migdescWrite _ => true
  | .registerWrite _ _ => true
  | .migrationCopyComplete _ => true
  | .migrationCopyFail _ => true
  | .groupPromotion _ => true
  | .localityWindowEnd _ => true
  | .sleepEnd _ => true
  | .waitConditionMet _ => true
  | .barrierDeparture _ _ => true
  | .accessRepliesComplete _ => true
  | .l1Writeback _ _ _ => true
  | .l2SwcWriteback _ _ => true
  | .queueWake _ => true
  | .launchRecord _ => true
  | .waitmemRecord _ => true
  | .signalRecord _ => true
  | .barrierRecord _ => true
  | .launchStart _ => true
  | .blockPlacement _ _ => true
  | .launchCompletion _ => true
  | .timeSliceExpiry _ => true
  | .shapeApply _ => true
  | .holdEntryDrain _ => true
  | .inletStoreRequest _ => true
  | .operatorWeightLoad _ => true
  | .sequencerPass _ _ => true
  | .slotCompletion _ _ => true
  | .forwardDelivery _ _ => true
  | .forwardRetry _ _ => true
  | .forwardTimeout _ _ => true
  | .outletWaitServe _ => true
  | .outletWaitTimeout _ => true
  | .operatorRemoval _ => true
  | .arrayKstep _ _ => true
  | .tzeroPerform _ => true
  | .tldaPerform _ => true
  | .tstaPerform _ => true
  | .copyCompletion _ => true
  | .trapRecordDelivery => true
  | .trapRecordTimeout _ => true
  | .answerApply _ _ _ => true
  | .debuggerHalt _ => true
  | .debuggerResume _ _ => true
  | .preemptionRequest _ => true
  | .forcedHardSave _ => true
  | .blockSave _ => true
  | .saveComplete _ => true
  | .contextResume _ => true
  | .signatureCompare _ _ => true
  | .meetingPoint _ _ => true
  | .fabricRequestReceive _ => true
  | .atomicPacketReceive _ => true
  | .opstoreReceive _ => true
  | .dataReply _ => true
  | .ackReply _ => true
  | .nackReply _ => true
  | .retryReply _ => true
  | .inval _ => true
  | .invack _ => true
  | .recordPacket _ => true
  | .noticePacket _ => true
  | .retransmitTimeout _ => true
  | .replyCacheExpiry _ _ _ => true
  | .flowOff _ _ => true
  | .flowOn _ _ => true
  | .linkLoss _ => true
  | .linkLossNotice _ => true
  | .linkRetrained _ => true
  | .swap => true
  | .swapGraceExpiry => true
  | .fberrClr => true
  | .swfailClear => true
  | .spawn _ _ _ => true
  | .hostMemAccess _ _ _ _ => true
  | .mailboxDoorbell _ => true
  | .registerQueue _ _ => true
  | .registerContext _ => true
  | .preemptService _ => true
  | .resumeService _ => true
  | .discardService _ => true
  | .fenceCore _ => true
  | .retirePseudoChannel _ => true
  | .retrainLink _ => true
  | .domainCopy _ => true
  | .reset _ => true
  | .firmwareHandover _ _ => true
  | .handoverTimeout => true
  | .getVersion => true
  | .getCapabilities => true
  | .negotiateAlgorithms _ => true
  | .getDigests => true
  | .getCertificate => true
  | .challenge _ => true
  | .getMeasurements _ => true
  | .replay _ => true
  | .cap _ => true
  | .caperrClear => true
  | .tripClear => true
  | .powerCapTick _ => true
  | .thermalTick _ => true
  | .thermalTrip _ => true
  | .inputVoltageChange _ => true
  | .inputRecoveryTimeout => true
  | .retryDelayExpiry _ => true
  | .rdmaRequestReceive _ _ _ _ _ => true
  | .domainCopyCompletion _ _ _ => true
  | .hostLinkTraining _ => true
  | .journalDrain _ _ => true

end Sys2Proof
end

