-- ==== Sys2Proof/Decode.lean ====
section
/-! DEFINITION. The decoder and the encoder. A word is a Nat whose bit 0 is bit 0 of the first parcel (R23, R43);
the formats are those of R41, R43 and R44, the selectors those of R48 to R63, and the causes those of R64. -/

namespace Sys2Proof

/-- A 16-bit parcel (R23). -/
abbrev Parcel := BitVec 16

/-- The field of `n` bits that begins at bit `lo` of a word (R43). -/
def fld (w lo n : Nat) : BitVec n := BitVec.ofNat n (w / 2 ^ lo)

/-- The `n` bits of a word from bit `lo`, as a number (R43). -/
def sel (w lo n : Nat) : Nat := w / 2 ^ lo % 2 ^ n

/-- Fields placed one above another: `lo` occupies the low `n` bits (R6). -/
def pack (n : Nat) (lo : BitVec n) (hi : Nat) : Nat := lo.toNat + 2 ^ n * hi

/-- R41, R42: the compact operation that c4 selects. -/
def decodeCompactRaw (w : Nat) : Option Instr :=
  match sel w 1 4 with
  | 0 => some (.vaddI32Compact (fld w 11 5) (fld w 5 6))
  | 1 => some (.vsubI32Compact (fld w 11 5) (fld w 5 6))
  | 2 => some (.vmulI32Compact (fld w 11 5) (fld w 5 6))
  | 3 => some (.vandCompact (fld w 11 5) (fld w 5 6))
  | 4 => some (.vorCompact (fld w 11 5) (fld w 5 6))
  | 5 => some (.vxorCompact (fld w 11 5) (fld w 5 6))
  | 6 => some (.vshlCompact (fld w 11 5) (fld w 5 6))
  | 7 => some (.vshrCompact (fld w 11 5) (fld w 5 6))
  | 8 => some (.vsraCompact (fld w 11 5) (fld w 5 6))
  | 9 => some (.vmovCompact (fld w 11 5) (fld w 5 6))
  | 10 => some (.vminI32Compact (fld w 11 5) (fld w 5 6))
  | 11 => some (.vmaxI32Compact (fld w 11 5) (fld w 5 6))
  | 12 => some (.vfaddF32Compact (fld w 11 5) (fld w 5 6))
  | 13 => some (.vfsubF32Compact (fld w 11 5) (fld w 5 6))
  | 14 => some (.vfmulF32Compact (fld w 11 5) (fld w 5 6))
  | 15 => some (.vfmaxF32Compact (fld w 11 5) (fld w 5 6))
  | _ => none

/-- R48 to R63: the instructions of op7 0x01. -/
def decodeOp01 (w : Nat) : Option Instr :=
  if sel w 28 4 = 0 then some (.sadd (fld w 22 6) (fld w 16 6) (fld w 10 6))
  else if sel w 28 4 = 1 then some (.ssub (fld w 22 6) (fld w 16 6) (fld w 10 6))
  else if sel w 28 4 = 2 then some (.smul (fld w 22 6) (fld w 16 6) (fld w 10 6))
  else if sel w 28 4 = 3 then some (.smulh (fld w 22 6) (fld w 16 6) (fld w 10 6))
  else if sel w 28 4 = 4 then some (.smulhz (fld w 22 6) (fld w 16 6) (fld w 10 6))
  else if sel w 28 4 = 5 then some (.sdiv (fld w 22 6) (fld w 16 6) (fld w 10 6))
  else if sel w 28 4 = 6 then some (.sdivz (fld w 22 6) (fld w 16 6) (fld w 10 6))
  else if sel w 28 4 = 7 then some (.srem (fld w 22 6) (fld w 16 6) (fld w 10 6))
  else if sel w 28 4 = 8 then some (.sremz (fld w 22 6) (fld w 16 6) (fld w 10 6))
  else if sel w 28 4 = 9 then some (.sand (fld w 22 6) (fld w 16 6) (fld w 10 6))
  else if sel w 28 4 = 10 then some (.sor (fld w 22 6) (fld w 16 6) (fld w 10 6))
  else if sel w 28 4 = 11 then some (.sxor (fld w 22 6) (fld w 16 6) (fld w 10 6))
  else if sel w 28 4 = 12 then some (.sshl (fld w 22 6) (fld w 16 6) (fld w 10 6))
  else if sel w 28 4 = 13 then some (.sshr (fld w 22 6) (fld w 16 6) (fld w 10 6))
  else if sel w 28 4 = 14 then some (.ssra (fld w 22 6) (fld w 16 6) (fld w 10 6))
  else none

/-- R48 to R63: the instructions of op7 0x02. -/
def decodeOp02 (w : Nat) : Option Instr :=
  if sel w 28 4 = 0 then some (.smin (fld w 22 6) (fld w 16 6) (fld w 10 6))
  else if sel w 28 4 = 1 then some (.smax (fld w 22 6) (fld w 16 6) (fld w 10 6))
  else if sel w 28 4 = 2 then some (.sminz (fld w 22 6) (fld w 16 6) (fld w 10 6))
  else if sel w 28 4 = 3 then some (.smaxz (fld w 22 6) (fld w 16 6) (fld w 10 6))
  else if sel w 28 4 = 4 then some (.sseq (fld w 22 6) (fld w 16 6) (fld w 10 6))
  else if sel w 28 4 = 5 then some (.ssne (fld w 22 6) (fld w 16 6) (fld w 10 6))
  else if sel w 28 4 = 6 then some (.sslt (fld w 22 6) (fld w 16 6) (fld w 10 6))
  else if sel w 28 4 = 7 then some (.ssltz (fld w 22 6) (fld w 16 6) (fld w 10 6))
  else if sel w 28 4 = 8 then some (.ssle (fld w 22 6) (fld w 16 6) (fld w 10 6))
  else if sel w 28 4 = 9 then some (.sslez (fld w 22 6) (fld w 16 6) (fld w 10 6))
  else if sel w 22 10 = 640 then some (.smov (fld w 16 6) (fld w 10 6))
  else none

/-- R48 to R63: the instructions of op7 0x07. -/
def decodeOp07 (w : Nat) : Option Instr :=
  if sel w 28 4 = 0 then some (.sshli (fld w 22 6) (fld w 16 6) (fld w 10 6))
  else none

/-- R48 to R63: the instructions of op7 0x08. -/
def decodeOp08 (w : Nat) : Option Instr :=
  if sel w 28 4 = 0 then some (.sshri (fld w 22 6) (fld w 16 6) (fld w 10 6))
  else none

/-- R48 to R63: the instructions of op7 0x09. -/
def decodeOp09 (w : Nat) : Option Instr :=
  if sel w 28 4 = 0 then some (.ssrai (fld w 22 6) (fld w 16 6) (fld w 10 6))
  else none

/-- R48 to R63: the instructions of op7 0x11. -/
def decodeOp11 (w : Nat) : Option Instr :=
  if sel w 16 1 = 0 then some (.sgetl (fld w 31 1) (fld w 24 7) (fld w 17 7) (fld w 10 6))
  else none

/-- R48 to R63: the instructions of op7 0x12. -/
def decodeOp12 (w : Nat) : Option Instr :=
  if sel w 23 1 = 0 then some (.ssetl (fld w 31 1) (fld w 24 7) (fld w 17 6) (fld w 10 7))
  else none

/-- R48 to R63: the instructions of op7 0x13. -/
def decodeOp13 (w : Nat) : Option Instr :=
  if sel w 10 6 = 0 then some (.jmp (fld w 16 16))
  else none

/-- R48 to R63: the instructions of op7 0x17. -/
def decodeOp17 (w : Nat) : Option Instr :=
  if sel w 15 1 = 0 then some (.brp (fld w 16 16) (fld w 14 1) (fld w 13 1) (fld w 10 3))
  else none

/-- R48 to R63: the instructions of op7 0x18. -/
def decodeOp18 (w : Nat) : Option Instr :=
  if sel w 10 6 = 0 then some (.jpt (fld w 16 16))
  else none

/-- R48 to R63: the instructions of op7 0x19. -/
def decodeOp19 (w : Nat) : Option Instr :=
  if sel w 10 22 = 0 then some (.join)
  else none

/-- R48 to R63: the instructions of op7 0x1A. -/
def decodeOp1A (w : Nat) : Option Instr :=
  if sel w 14 2 = 0 then some (.call (fld w 16 16) (fld w 13 1) (fld w 10 3))
  else none

/-- R48 to R63: the instructions of op7 0x1B. -/
def decodeOp1B (w : Nat) : Option Instr :=
  if sel w 10 7 = 0 ∧ sel w 24 8 = 0 then some (.calli (fld w 17 7))
  else none

/-- R48 to R63: the instructions of op7 0x1C. -/
def decodeOp1C (w : Nat) : Option Instr :=
  if sel w 10 7 = 0 ∧ sel w 24 8 = 0 then some (.jmpi (fld w 17 7))
  else none

/-- R48 to R63: the instructions of op7 0x1D. -/
def decodeOp1D (w : Nat) : Option Instr :=
  if sel w 10 22 = 0 then some (.ret)
  else none

/-- R48 to R63: the instructions of op7 0x1E. -/
def decodeOp1E (w : Nat) : Option Instr :=
  if sel w 10 22 = 0 then some (.exit)
  else none

/-- R48 to R63: the instructions of op7 0x1F. -/
def decodeOp1F (w : Nat) : Option Instr :=
  if sel w 10 22 = 0 then some (.nop)
  else if sel w 10 22 = 262144 then some (.yield)
  else if sel w 28 4 = 2 then some (.srr (fld w 16 12) (fld w 10 6))
  else if sel w 28 4 = 3 then some (.srw (fld w 16 12) (fld w 10 6))
  else if sel w 16 16 = 16384 then some (.sleep (fld w 10 6))
  else if sel w 10 6 = 0 ∧ sel w 28 4 = 5 then some (.bkpt (fld w 16 12))
  else none

/-- R48 to R63: the instructions of op7 0x31. -/
def decodeOp31 (w : Nat) : Option Instr :=
  if sel w 24 8 = 0 then some (.vpopc (fld w 17 7) (fld w 10 7))
  else if sel w 24 8 = 1 then some (.vclz (fld w 17 7) (fld w 10 7))
  else if sel w 24 8 = 2 then some (.vbrev (fld w 17 7) (fld w 10 7))
  else if sel w 24 8 = 3 then some (.vnot (fld w 17 7) (fld w 10 7))
  else none

/-- R48 to R63: the instructions of op7 0x35. -/
def decodeOp35 (w : Nat) : Option Instr :=
  if sel w 29 3 = 0 then some (.vsel (fld w 28 1) (fld w 24 4) (fld w 17 7) (fld w 10 7))
  else none

/-- R48 to R63: the instructions of op7 0x39. -/
def decodeOp39 (w : Nat) : Option Instr :=
  if sel w 29 3 = 0 then some (.vshli (fld w 24 5) (fld w 17 7) (fld w 10 7))
  else none

/-- R48 to R63: the instructions of op7 0x3A. -/
def decodeOp3A (w : Nat) : Option Instr :=
  if sel w 29 3 = 0 then some (.vshri (fld w 24 5) (fld w 17 7) (fld w 10 7))
  else none

/-- R48 to R63: the instructions of op7 0x3B. -/
def decodeOp3B (w : Nat) : Option Instr :=
  if sel w 29 3 = 0 then some (.vsrai (fld w 24 5) (fld w 17 7) (fld w 10 7))
  else none

/-- R48 to R63: the instructions of op7 0x3E. -/
def decodeOp3E (w : Nat) : Option Instr :=
  if sel w 21 11 = 0 then some (.vbkSet (fld w 19 2) (fld w 17 2) (fld w 10 7))
  else if sel w 21 11 = 1 then some (.vbkGet (fld w 19 2) (fld w 17 2) (fld w 10 7))
  else none

/-- R48 to R63: the instructions of op7 0x52. -/
def decodeOp52 (w : Nat) : Option Instr :=
  if sel w 24 8 = 0 then some (.vfrcp (fld w 17 7) (fld w 10 7))
  else if sel w 24 8 = 1 then some (.vfrsq (fld w 17 7) (fld w 10 7))
  else if sel w 24 8 = 2 then some (.vfsqrt (fld w 17 7) (fld w 10 7))
  else if sel w 24 8 = 3 then some (.vfex2 (fld w 17 7) (fld w 10 7))
  else if sel w 24 8 = 4 then some (.vflg2 (fld w 17 7) (fld w 10 7))
  else if sel w 24 8 = 5 then some (.vfsin (fld w 17 7) (fld w 10 7))
  else if sel w 24 8 = 6 then some (.vfcos (fld w 17 7) (fld w 10 7))
  else if sel w 24 8 = 7 then some (.vftanh (fld w 17 7) (fld w 10 7))
  else if sel w 24 8 = 8 then some (.vfcls (fld w 17 7) (fld w 10 7))
  else if sel w 17 15 = 1152 then some (.vlaneid (fld w 10 7))
  else if sel w 17 15 = 1280 then some (.vtid (fld w 10 7))
  else none

/-- R48 to R63: the instructions of op7 0x55. -/
def decodeOp55 (w : Nat) : Option Instr :=
  if sel w 24 8 = 0 then some (.vpackI8x4 (fld w 17 7) (fld w 10 7))
  else if sel w 24 8 = 1 then some (.vpackTer16 (fld w 17 7) (fld w 10 7))
  else if sel w 24 8 = 2 then some (.vpackE8m0 (fld w 17 7) (fld w 10 7))
  else none

/-- R48 to R63: the instructions of op7 0x56. -/
def decodeOp56 (w : Nat) : Option Instr :=
  if sel w 28 4 = 0 then some (.vqx (fld w 24 4) (fld w 17 7) (fld w 10 7))
  else none

/-- R48 to R63: the instructions of op7 0x5B. -/
def decodeOp5B (w : Nat) : Option Instr :=
  if sel w 30 2 = 0 then some (.vred (fld w 28 2) (fld w 24 4) (fld w 17 7) (fld w 10 7))
  else none

/-- R48 to R63: the instructions of op7 0x5C. -/
def decodeOp5C (w : Nat) : Option Instr :=
  if sel w 30 2 = 0 then some (.vscan (fld w 28 2) (fld w 24 4) (fld w 17 7) (fld w 10 7))
  else none

/-- R48 to R63: the instructions of op7 0x5D. -/
def decodeOp5D (w : Nat) : Option Instr :=
  if sel w 16 1 = 0 ∧ sel w 22 10 = 0 then some (.vvoteAny (fld w 21 1) (fld w 17 4) (fld w 10 6))
  else if sel w 16 1 = 0 ∧ sel w 22 10 = 1 then some (.vvoteAll (fld w 21 1) (fld w 17 4) (fld w 10 6))
  else if sel w 16 1 = 0 ∧ sel w 22 10 = 2 then some (.vvoteBallot (fld w 21 1) (fld w 17 4) (fld w 10 6))
  else if sel w 16 1 = 0 ∧ sel w 22 10 = 3 then some (.vvotePopc (fld w 21 1) (fld w 17 4) (fld w 10 6))
  else none

/-- R48 to R63: the instructions of op7 0x5E. -/
def decodeOp5E (w : Nat) : Option Instr :=
  if sel w 21 11 = 0 then some (.vpredAnd (fld w 17 4) (fld w 13 4) (fld w 10 3))
  else if sel w 21 11 = 1 then some (.vpredOr (fld w 17 4) (fld w 13 4) (fld w 10 3))
  else if sel w 21 11 = 2 then some (.vpredXor (fld w 17 4) (fld w 13 4) (fld w 10 3))
  else if sel w 21 11 = 3 then some (.vpredAndn (fld w 17 4) (fld w 13 4) (fld w 10 3))
  else if sel w 21 11 = 4 then some (.vpredOrn (fld w 17 4) (fld w 13 4) (fld w 10 3))
  else if sel w 17 15 = 80 then some (.vpredNot (fld w 13 4) (fld w 10 3))
  else if sel w 17 15 = 96 then some (.vpredMov (fld w 13 4) (fld w 10 3))
  else if sel w 13 11 = 1792 ∧ sel w 31 1 = 0 then some (.vpredFromv (fld w 24 7) (fld w 10 3))
  else none

/-- R48 to R63: the instructions of op7 0x5F. -/
def decodeOp5F (w : Nat) : Option Instr :=
  if sel w 17 2 = 0 ∧ sel w 25 7 = 0 then some (.vflgRd (fld w 19 6) (fld w 10 7))
  else if sel w 10 9 = 128 ∧ sel w 25 7 = 0 then some (.vflgClr (fld w 19 6))
  else if sel w 17 2 = 2 ∧ sel w 25 7 = 0 then some (.vflgRdclr (fld w 19 6) (fld w 10 7))
  else none

/-- R48 to R63: the instructions of op7 0x70. -/
def decodeOp70 (w : Nat) : Option Instr :=
  if sel w 30 2 = 0 then some (.atomAdd32 (fld w 23 7) (fld w 17 6) (fld w 10 7))
  else if sel w 30 2 = 1 then some (.atomAdd64 (fld w 23 7) (fld w 17 6) (fld w 10 7))
  else if sel w 30 2 = 2 then some (.atomFaddF32 (fld w 23 7) (fld w 17 6) (fld w 10 7))
  else if sel w 30 2 = 3 then some (.atomExch32 (fld w 23 7) (fld w 17 6) (fld w 10 7))
  else none

/-- R48 to R63: the instructions of op7 0x71. -/
def decodeOp71 (w : Nat) : Option Instr :=
  if sel w 30 2 = 0 then some (.atomMinI32 (fld w 23 7) (fld w 17 6) (fld w 10 7))
  else if sel w 30 2 = 1 then some (.atomMaxI32 (fld w 23 7) (fld w 17 6) (fld w 10 7))
  else if sel w 30 2 = 2 then some (.atomMinZ32 (fld w 23 7) (fld w 17 6) (fld w 10 7))
  else if sel w 30 2 = 3 then some (.atomMaxZ32 (fld w 23 7) (fld w 17 6) (fld w 10 7))
  else none

/-- R48 to R63: the instructions of op7 0x72. -/
def decodeOp72 (w : Nat) : Option Instr :=
  if sel w 30 2 = 0 then some (.atomAnd32 (fld w 23 7) (fld w 17 6) (fld w 10 7))
  else if sel w 30 2 = 1 then some (.atomOr32 (fld w 23 7) (fld w 17 6) (fld w 10 7))
  else if sel w 30 2 = 2 then some (.atomXor32 (fld w 23 7) (fld w 17 6) (fld w 10 7))
  else if sel w 30 2 = 3 then some (.atomExch64 (fld w 23 7) (fld w 17 6) (fld w 10 7))
  else none

/-- R48 to R63: the instructions of op7 0x73. -/
def decodeOp73 (w : Nat) : Option Instr :=
  if sel w 30 2 = 0 then some (.atomFminF32 (fld w 23 7) (fld w 17 6) (fld w 10 7))
  else if sel w 30 2 = 1 then some (.atomFmaxF32 (fld w 23 7) (fld w 17 6) (fld w 10 7))
  else if sel w 30 2 = 2 then some (.atomCas32 (fld w 23 7) (fld w 17 6) (fld w 10 7))
  else if sel w 30 2 = 3 then some (.atomCas64 (fld w 23 7) (fld w 17 6) (fld w 10 7))
  else none

/-- R48 to R63: the instructions of op7 0x74. -/
def decodeOp74 (w : Nat) : Option Instr :=
  if sel w 28 4 = 0 then some (.atoms (fld w 24 4) (fld w 17 7) (fld w 10 7))
  else none

/-- R48 to R63: the instructions of op7 0x75. -/
def decodeOp75 (w : Nat) : Option Instr :=
  if sel w 22 10 = 0 then some (.pref (fld w 16 6) (fld w 10 6))
  else if sel w 22 10 = 64 then some (.cwb (fld w 16 6) (fld w 10 6))
  else if sel w 22 10 = 128 then some (.cinv (fld w 16 6) (fld w 10 6))
  else if sel w 22 10 = 192 then some (.cwbi (fld w 16 6) (fld w 10 6))
  else none

/-- R48 to R63: the instructions of op7 0x76. -/
def decodeOp76 (w : Nat) : Option Instr :=
  if sel w 15 17 = 0 then some (.fence (fld w 13 2) (fld w 10 3))
  else none

/-- R48 to R63: the instructions of op7 0x77. -/
def decodeOp77 (w : Nat) : Option Instr :=
  if sel w 18 14 = 0 then some (.pfence (fld w 14 4) (fld w 10 4))
  else none

/-- R48 to R63: the instructions of op7 0x78. -/
def decodeOp78 (w : Nat) : Option Instr :=
  if sel w 22 10 = 0 then some (.opinst (fld w 16 6) (fld w 10 6))
  else if sel w 10 6 = 0 ∧ sel w 22 10 = 64 then some (.oprem (fld w 16 6))
  else if sel w 10 6 = 0 ∧ sel w 28 4 = 2 then some (.opfire (fld w 22 6) (fld w 16 6))
  else if sel w 28 4 = 3 then some (.opqry (fld w 22 6) (fld w 16 6) (fld w 10 6))
  else if sel w 16 16 = 16384 then some (.cseal (fld w 10 6))
  else if sel w 10 6 = 0 ∧ sel w 22 10 = 320 then some (.cwait (fld w 16 6))
  else if sel w 10 6 = 0 ∧ sel w 28 4 = 6 then some (.cntwait (fld w 22 6) (fld w 16 6))
  else if sel w 10 6 = 0 ∧ sel w 28 4 = 7 then some (.cntadd (fld w 22 6) (fld w 16 6))
  else if sel w 10 6 = 0 ∧ sel w 28 4 = 8 then some (.cntinit (fld w 22 6) (fld w 16 6))
  else if sel w 16 16 = 36864 then some (.mseal (fld w 10 6))
  else if sel w 10 6 = 0 ∧ sel w 22 10 = 640 then some (.mwait (fld w 16 6))
  else if sel w 15 7 = 0 ∧ sel w 27 5 = 22 then some (.tzero (fld w 22 5) (fld w 10 5))
  else if sel w 15 1 = 0 ∧ sel w 27 5 = 24 then some (.tsta (fld w 22 5) (fld w 16 6) (fld w 10 5))
  else if sel w 15 1 = 0 ∧ sel w 27 5 = 26 then some (.tlda (fld w 22 5) (fld w 16 6) (fld w 10 5))
  else none

/-- R48 to R63: the instructions of op7 0x79. -/
def decodeOp79 (w : Nat) : Option Instr :=
  if sel w 30 2 = 0 then some (.tmul (fld w 28 2) (fld w 22 6) (fld w 20 2) (fld w 15 5) (fld w 10 5))
  else none

/-- R48 to R63: the instructions of op7 0x7A. -/
def decodeOp7A (w : Nat) : Option Instr :=
  if sel w 10 22 = 0 then some (.barBlk)
  else if sel w 10 22 = 262144 then some (.barClu)
  else if sel w 10 6 = 0 ∧ sel w 28 4 = 2 then some (.mbinit (fld w 22 6) (fld w 16 6))
  else if sel w 10 6 = 0 ∧ sel w 22 10 = 192 then some (.mbarr (fld w 16 6))
  else if sel w 10 6 = 0 ∧ sel w 28 4 = 4 then some (.mbexp (fld w 22 6) (fld w 16 6))
  else if sel w 10 6 = 0 ∧ sel w 28 4 = 5 then some (.mbwait (fld w 22 6) (fld w 16 6))
  else if sel w 28 4 = 6 then some (.mbtry (fld w 22 6) (fld w 16 6) (fld w 10 6))
  else if sel w 22 10 = 448 then some (.walk (fld w 16 6) (fld w 10 6))
  else if sel w 16 16 = 32768 then some (.wnext (fld w 10 6))
  else if sel w 10 22 = 2359296 then some (.wend)
  else none

/-- R48 to R63: the instructions of op7 0x7B. -/
def decodeOp7B (w : Nat) : Option Instr :=
  if sel w 22 2 = 0 ∧ sel w 30 2 = 0 then some (.trda (fld w 24 6) (fld w 17 5) (fld w 10 7))
  else if sel w 22 2 = 1 ∧ sel w 30 2 = 0 then some (.twra (fld w 24 6) (fld w 17 5) (fld w 10 7))
  else none

/-- R48 to R63: the instructions of op7 0x7C. -/
def decodeOp7C (w : Nat) : Option Instr :=
  if sel w 28 4 = 0 then some (.shpub (fld w 22 6) (fld w 16 6) (fld w 10 6))
  else if sel w 10 22 = 262144 then some (.shwait)
  else if sel w 16 16 = 8192 then some (.shqry (fld w 10 6))
  else if sel w 22 10 = 192 then some (.ralloc (fld w 16 6) (fld w 10 6))
  else if sel w 10 6 = 0 ∧ sel w 22 10 = 256 then some (.rfree (fld w 16 6))
  else if sel w 10 22 = 1310720 then some (.trapf)
  else if sel w 10 6 = 0 ∧ sel w 28 4 = 6 then some (.trap (fld w 16 12))
  else if sel w 10 6 = 0 ∧ sel w 28 4 = 7 then some (.supcall (fld w 16 12))
  else if sel w 10 22 = 2097152 then some (.eret)
  else if sel w 10 6 = 0 ∧ sel w 28 4 = 9 then some (.tlbinv (fld w 22 6) (fld w 16 6))
  else if sel w 10 6 = 0 ∧ sel w 22 10 = 640 then some (.oppark (fld w 16 6))
  else if sel w 10 6 = 0 ∧ sel w 28 4 = 11 then some (.phint (fld w 16 12))
  else if sel w 10 6 = 0 ∧ sel w 28 4 = 12 then some (.rlabel (fld w 16 12))
  else if sel w 10 22 = 3407872 then some (.ckpt)
  else if sel w 10 22 = 3670016 then some (.iend)
  else none

/-- R48 to R63: the instructions of op7 0x7D. -/
def decodeOp7D (w : Nat) : Option Instr :=
  if sel w 29 1 = 0 then some (.tcopyLd (fld w 31 1) (fld w 30 1) (fld w 22 7) (fld w 16 6) (fld w 10 6))
  else if sel w 29 1 = 1 ∧ sel w 31 1 = 0 then some (.tcopySt (fld w 30 1) (fld w 22 7) (fld w 16 6) (fld w 10 6))
  else none

/-- R48 to R63: the instructions of op7 0x7F. -/
def decodeOp7F (w : Nat) : Option Instr :=
  if sel w 10 2 = 0 ∧ sel w 23 9 = 0 then some (.rep (fld w 21 2) (fld w 18 3) (fld w 12 6))
  else if sel w 10 2 = 1 then some (.inv (fld w 30 2) (fld w 29 1) (fld w 28 1) (fld w 21 7) (fld w 14 7) (fld w 12 2))
  else if sel w 10 2 = 2 ∧ sel w 30 2 = 0 then some (.modAlu (fld w 24 6) (fld w 23 1) (fld w 18 5) (fld w 17 1) (fld w 16 1) (fld w 15 1) (fld w 14 1) (fld w 12 2))
  else if sel w 10 2 = 2 ∧ sel w 30 2 = 1 then some (.modMemory (fld w 21 9) (fld w 20 1) (fld w 19 1) (fld w 17 2) (fld w 14 3) (fld w 12 2))
  else none

/-- R48 to R63: the instruction whose op7, selectors and reserved bits `w` carries. -/
def decodeWordRaw (w : Nat) : Option Instr :=
  match sel w 3 7 with
  | 0x01 => decodeOp01 w
  | 0x02 => decodeOp02 w
  | 0x03 => some (.saddi (fld w 22 10) (fld w 16 6) (fld w 10 6))
  | 0x04 => some (.sandi (fld w 22 10) (fld w 16 6) (fld w 10 6))
  | 0x05 => some (.sori (fld w 22 10) (fld w 16 6) (fld w 10 6))
  | 0x06 => some (.sxori (fld w 22 10) (fld w 16 6) (fld w 10 6))
  | 0x07 => decodeOp07 w
  | 0x08 => decodeOp08 w
  | 0x09 => decodeOp09 w
  | 0x0A => some (.sli (fld w 16 16) (fld w 10 6))
  | 0x0B => some (.slh16 (fld w 16 16) (fld w 10 6))
  | 0x0C => some (.slh32 (fld w 16 16) (fld w 10 6))
  | 0x0D => some (.slh48 (fld w 16 16) (fld w 10 6))
  | 0x0E => some (.sld (fld w 24 8) (fld w 22 2) (fld w 16 6) (fld w 10 6))
  | 0x0F => some (.sst (fld w 24 8) (fld w 22 2) (fld w 16 6) (fld w 10 6))
  | 0x10 => some (.sldc (fld w 24 8) (fld w 22 2) (fld w 16 6) (fld w 10 6))
  | 0x11 => decodeOp11 w
  | 0x12 => decodeOp12 w
  | 0x13 => decodeOp13 w
  | 0x14 => some (.brz (fld w 16 16) (fld w 10 6))
  | 0x15 => some (.brnz (fld w 16 16) (fld w 10 6))
  | 0x16 => some (.loop (fld w 16 16) (fld w 10 6))
  | 0x17 => decodeOp17 w
  | 0x18 => decodeOp18 w
  | 0x19 => decodeOp19 w
  | 0x1A => decodeOp1A w
  | 0x1B => decodeOp1B w
  | 0x1C => decodeOp1C w
  | 0x1D => decodeOp1D w
  | 0x1E => decodeOp1E w
  | 0x1F => decodeOp1F w
  | 0x20 => some (.vaddI32 (fld w 31 1) (fld w 24 7) (fld w 17 7) (fld w 10 7))
  | 0x21 => some (.vsubI32 (fld w 31 1) (fld w 24 7) (fld w 17 7) (fld w 10 7))
  | 0x22 => some (.vmulI32 (fld w 31 1) (fld w 24 7) (fld w 17 7) (fld w 10 7))
  | 0x23 => some (.vmulh (fld w 31 1) (fld w 24 7) (fld w 17 7) (fld w 10 7))
  | 0x24 => some (.vmulhz (fld w 31 1) (fld w 24 7) (fld w 17 7) (fld w 10 7))
  | 0x25 => some (.vmadI32 (fld w 31 1) (fld w 24 7) (fld w 17 7) (fld w 10 7))
  | 0x26 => some (.vand (fld w 31 1) (fld w 24 7) (fld w 17 7) (fld w 10 7))
  | 0x27 => some (.vor (fld w 31 1) (fld w 24 7) (fld w 17 7) (fld w 10 7))
  | 0x28 => some (.vxor (fld w 31 1) (fld w 24 7) (fld w 17 7) (fld w 10 7))
  | 0x29 => some (.vshl (fld w 31 1) (fld w 24 7) (fld w 17 7) (fld w 10 7))
  | 0x2A => some (.vshr (fld w 31 1) (fld w 24 7) (fld w 17 7) (fld w 10 7))
  | 0x2B => some (.vsra (fld w 31 1) (fld w 24 7) (fld w 17 7) (fld w 10 7))
  | 0x2C => some (.vminI32 (fld w 31 1) (fld w 24 7) (fld w 17 7) (fld w 10 7))
  | 0x2D => some (.vmaxI32 (fld w 31 1) (fld w 24 7) (fld w 17 7) (fld w 10 7))
  | 0x2E => some (.vminZ32 (fld w 31 1) (fld w 24 7) (fld w 17 7) (fld w 10 7))
  | 0x2F => some (.vmaxZ32 (fld w 31 1) (fld w 24 7) (fld w 17 7) (fld w 10 7))
  | 0x30 => some (.vabsd (fld w 31 1) (fld w 24 7) (fld w 17 7) (fld w 10 7))
  | 0x31 => decodeOp31 w
  | 0x32 => some (.vbfeI32 (fld w 31 1) (fld w 24 7) (fld w 17 7) (fld w 10 7))
  | 0x33 => some (.vbfeZ32 (fld w 31 1) (fld w 24 7) (fld w 17 7) (fld w 10 7))
  | 0x34 => some (.vbfi (fld w 31 1) (fld w 24 7) (fld w 17 7) (fld w 10 7))
  | 0x35 => decodeOp35 w
  | 0x36 => some (.vdot4I8 (fld w 31 1) (fld w 24 7) (fld w 17 7) (fld w 10 7))
  | 0x37 => some (.vdot4Z8 (fld w 31 1) (fld w 24 7) (fld w 17 7) (fld w 10 7))
  | 0x38 => some (.vaddi (fld w 24 8) (fld w 17 7) (fld w 10 7))
  | 0x39 => decodeOp39 w
  | 0x3A => decodeOp3A w
  | 0x3B => decodeOp3B w
  | 0x3C => some (.vandi (fld w 24 8) (fld w 17 7) (fld w 10 7))
  | 0x3D => some (.vli (fld w 17 15) (fld w 10 7))
  | 0x3E => decodeOp3E w
  | 0x3F => some (.vicmp (fld w 31 1) (fld w 24 7) (fld w 17 7) (fld w 13 4) (fld w 10 3))
  | 0x40 => some (.vfaddF32 (fld w 31 1) (fld w 24 7) (fld w 17 7) (fld w 10 7))
  | 0x41 => some (.vfsubF32 (fld w 31 1) (fld w 24 7) (fld w 17 7) (fld w 10 7))
  | 0x42 => some (.vfmulF32 (fld w 31 1) (fld w 24 7) (fld w 17 7) (fld w 10 7))
  | 0x43 => some (.vfmaF32 (fld w 31 1) (fld w 24 7) (fld w 17 7) (fld w 10 7))
  | 0x44 => some (.vfminF32 (fld w 31 1) (fld w 24 7) (fld w 17 7) (fld w 10 7))
  | 0x45 => some (.vfmaxF32 (fld w 31 1) (fld w 24 7) (fld w 17 7) (fld w 10 7))
  | 0x46 => some (.vfaddH2 (fld w 31 1) (fld w 24 7) (fld w 17 7) (fld w 10 7))
  | 0x47 => some (.vfsubH2 (fld w 31 1) (fld w 24 7) (fld w 17 7) (fld w 10 7))
  | 0x48 => some (.vfmulH2 (fld w 31 1) (fld w 24 7) (fld w 17 7) (fld w 10 7))
  | 0x49 => some (.vfmaH2 (fld w 31 1) (fld w 24 7) (fld w 17 7) (fld w 10 7))
  | 0x4A => some (.vfminH2 (fld w 31 1) (fld w 24 7) (fld w 17 7) (fld w 10 7))
  | 0x4B => some (.vfmaxH2 (fld w 31 1) (fld w 24 7) (fld w 17 7) (fld w 10 7))
  | 0x4C => some (.vfaddB2 (fld w 31 1) (fld w 24 7) (fld w 17 7) (fld w 10 7))
  | 0x4D => some (.vfsubB2 (fld w 31 1) (fld w 24 7) (fld w 17 7) (fld w 10 7))
  | 0x4E => some (.vfmulB2 (fld w 31 1) (fld w 24 7) (fld w 17 7) (fld w 10 7))
  | 0x4F => some (.vfmaB2 (fld w 31 1) (fld w 24 7) (fld w 17 7) (fld w 10 7))
  | 0x50 => some (.vfminB2 (fld w 31 1) (fld w 24 7) (fld w 17 7) (fld w 10 7))
  | 0x51 => some (.vfmaxB2 (fld w 31 1) (fld w 24 7) (fld w 17 7) (fld w 10 7))
  | 0x52 => decodeOp52 w
  | 0x53 => some (.vfcmp (fld w 31 1) (fld w 24 7) (fld w 17 7) (fld w 13 4) (fld w 10 3))
  | 0x54 => some (.vcvt (fld w 28 4) (fld w 24 4) (fld w 17 7) (fld w 10 7))
  | 0x55 => decodeOp55 w
  | 0x56 => decodeOp56 w
  | 0x57 => some (.vshflIdx (fld w 31 1) (fld w 24 7) (fld w 17 7) (fld w 10 7))
  | 0x58 => some (.vshflUp (fld w 31 1) (fld w 24 7) (fld w 17 7) (fld w 10 7))
  | 0x59 => some (.vshflDn (fld w 31 1) (fld w 24 7) (fld w 17 7) (fld w 10 7))
  | 0x5A => some (.vshflXor (fld w 31 1) (fld w 24 7) (fld w 17 7) (fld w 10 7))
  | 0x5B => decodeOp5B w
  | 0x5C => decodeOp5C w
  | 0x5D => decodeOp5D w
  | 0x5E => decodeOp5E w
  | 0x5F => decodeOp5F w
  | 0x60 => some (.ldS8 (fld w 30 2) (fld w 23 7) (fld w 17 6) (fld w 10 7))
  | 0x61 => some (.ldZ8 (fld w 30 2) (fld w 23 7) (fld w 17 6) (fld w 10 7))
  | 0x62 => some (.ldS16 (fld w 30 2) (fld w 23 7) (fld w 17 6) (fld w 10 7))
  | 0x63 => some (.ldZ16 (fld w 30 2) (fld w 23 7) (fld w 17 6) (fld w 10 7))
  | 0x64 => some (.ld32 (fld w 30 2) (fld w 23 7) (fld w 17 6) (fld w 10 7))
  | 0x65 => some (.ld64 (fld w 30 2) (fld w 23 7) (fld w 17 6) (fld w 10 7))
  | 0x66 => some (.ld128 (fld w 30 2) (fld w 23 7) (fld w 17 6) (fld w 10 7))
  | 0x67 => some (.st8 (fld w 30 2) (fld w 23 7) (fld w 17 6) (fld w 10 7))
  | 0x68 => some (.st16 (fld w 30 2) (fld w 23 7) (fld w 17 6) (fld w 10 7))
  | 0x69 => some (.st32 (fld w 30 2) (fld w 23 7) (fld w 17 6) (fld w 10 7))
  | 0x6A => some (.st64 (fld w 30 2) (fld w 23 7) (fld w 17 6) (fld w 10 7))
  | 0x6B => some (.st128 (fld w 30 2) (fld w 23 7) (fld w 17 6) (fld w 10 7))
  | 0x6C => some (.lds (fld w 30 2) (fld w 24 6) (fld w 17 7) (fld w 10 7))
  | 0x6D => some (.sts (fld w 30 2) (fld w 24 6) (fld w 17 7) (fld w 10 7))
  | 0x6E => some (.ldc (fld w 30 2) (fld w 23 7) (fld w 17 6) (fld w 10 7))
  | 0x6F => some (.ldsmp (fld w 30 2) (fld w 23 7) (fld w 17 6) (fld w 10 7))
  | 0x70 => decodeOp70 w
  | 0x71 => decodeOp71 w
  | 0x72 => decodeOp72 w
  | 0x73 => decodeOp73 w
  | 0x74 => decodeOp74 w
  | 0x75 => decodeOp75 w
  | 0x76 => decodeOp76 w
  | 0x77 => decodeOp77 w
  | 0x78 => decodeOp78 w
  | 0x79 => decodeOp79 w
  | 0x7A => decodeOp7A w
  | 0x7B => decodeOp7B w
  | 0x7C => decodeOp7C w
  | 0x7D => decodeOp7D w
  | 0x7F => decodeOp7F w
  | _ => none

/-- What a decoder finds at the head of a list of parcels. DEDUCED (assumption 34). -/
inductive Decoded where
  /-- An instruction, its stall count (R26) and the parcels after it. -/
  | instr (i : Instr) (stall : BitVec 2) (rest : List Parcel)
  /-- Not an instruction: the cause of R64. -/
  | illegal (cause : Byte)
  /-- The list ends before the instruction does. -/
  | short
deriving DecidableEq, Repr

/-- R64 step 4: a word that is no instruction, or whose operands its encoding does not allow, is illegal. -/
def accepted (o : Option Instr) (stall : BitVec 2) (rest : List Parcel) : Decoded :=
  match o with
  | some i => if WellFormed i then .instr i stall rest else .illegal 0x01
  | none => .illegal 0x01

/-- R23, R24, R64 steps 2 to 4: the instruction at the head of the parcels `ps`. -/
def decode (ps : List Parcel) : Decoded :=
  match ps with
  | [] => .short
  | p :: rest =>
    if p.toNat = 0 then .illegal 0x03
    else if p.toNat % 2 = 0 then accepted (decodeCompactRaw p.toNat) 0#2 rest
    else match rest with
      | [] => .short
      | q :: rest =>
        if sel p.toNat 3 7 = 0x7E then .illegal 0x02
        else accepted (decodeWordRaw (p.toNat + 65536 * q.toNat)) (fld p.toNat 1 2) rest

/-- R23: the `n` parcels of the word `w`, the low one first. -/
def parcelsOf (n w : Nat) : List Parcel :=
  match n with
  | 0 => []
  | n + 1 => BitVec.ofNat 16 w :: parcelsOf n (w / 65536)

/-- The instruction that the decoder reads from a word numbered as the opcode table numbers it, with zeros above. -/
def decodeTableWord (nbits w : Nat) : Option Instr :=
  match decode (parcelsOf 2 (w % 2 ^ nbits)) with
  | .instr i _ _ => some i
  | _ => none

/-- How many parcels an instruction has (R23); a step without an encoding has none. -/
def Instr.parcels (i : Instr) : Nat :=
  match i with
  | .vaddI32Compact _ _ => 1
  | .vsubI32Compact _ _ => 1
  | .vmulI32Compact _ _ => 1
  | .vandCompact _ _ => 1
  | .vorCompact _ _ => 1
  | .vxorCompact _ _ => 1
  | .vshlCompact _ _ => 1
  | .vshrCompact _ _ => 1
  | .vsraCompact _ _ => 1
  | .vmovCompact _ _ => 1
  | .vminI32Compact _ _ => 1
  | .vmaxI32Compact _ _ => 1
  | .vfaddF32Compact _ _ => 1
  | .vfsubF32Compact _ _ => 1
  | .vfmulF32Compact _ _ => 1
  | .vfmaxF32Compact _ _ => 1
  | .sadd _ _ _ => 2
  | .ssub _ _ _ => 2
  | .smul _ _ _ => 2
  | .smulh _ _ _ => 2
  | .smulhz _ _ _ => 2
  | .sdiv _ _ _ => 2
  | .sdivz _ _ _ => 2
  | .srem _ _ _ => 2
  | .sremz _ _ _ => 2
  | .sand _ _ _ => 2
  | .sor _ _ _ => 2
  | .sxor _ _ _ => 2
  | .sshl _ _ _ => 2
  | .sshr _ _ _ => 2
  | .ssra _ _ _ => 2
  | .smin _ _ _ => 2
  | .smax _ _ _ => 2
  | .sminz _ _ _ => 2
  | .smaxz _ _ _ => 2
  | .sseq _ _ _ => 2
  | .ssne _ _ _ => 2
  | .sslt _ _ _ => 2
  | .ssltz _ _ _ => 2
  | .ssle _ _ _ => 2
  | .sslez _ _ _ => 2
  | .smov _ _ => 2
  | .saddi _ _ _ => 2
  | .sandi _ _ _ => 2
  | .sori _ _ _ => 2
  | .sxori _ _ _ => 2
  | .sshli _ _ _ => 2
  | .sshri _ _ _ => 2
  | .ssrai _ _ _ => 2
  | .sli _ _ => 2
  | .slh16 _ _ => 2
  | .slh32 _ _ => 2
  | .slh48 _ _ => 2
  | .sld _ _ _ _ => 2
  | .sst _ _ _ _ => 2
  | .sldc _ _ _ _ => 2
  | .sgetl _ _ _ _ => 2
  | .ssetl _ _ _ _ => 2
  | .jmp _ => 2
  | .brz _ _ => 2
  | .brnz _ _ => 2
  | .loop _ _ => 2
  | .brp _ _ _ _ => 2
  | .jpt _ => 2
  | .call _ _ _ => 2
  | .calli _ => 2
  | .jmpi _ => 2
  | .srr _ _ => 2
  | .srw _ _ => 2
  | .sleep _ => 2
  | .bkpt _ => 2
  | .vaddI32 _ _ _ _ => 2
  | .vsubI32 _ _ _ _ => 2
  | .vmulI32 _ _ _ _ => 2
  | .vmulh _ _ _ _ => 2
  | .vmulhz _ _ _ _ => 2
  | .vmadI32 _ _ _ _ => 2
  | .vand _ _ _ _ => 2
  | .vor _ _ _ _ => 2
  | .vxor _ _ _ _ => 2
  | .vshl _ _ _ _ => 2
  | .vshr _ _ _ _ => 2
  | .vsra _ _ _ _ => 2
  | .vminI32 _ _ _ _ => 2
  | .vmaxI32 _ _ _ _ => 2
  | .vminZ32 _ _ _ _ => 2
  | .vmaxZ32 _ _ _ _ => 2
  | .vabsd _ _ _ _ => 2
  | .vpopc _ _ => 2
  | .vclz _ _ => 2
  | .vbrev _ _ => 2
  | .vnot _ _ => 2
  | .vbfeI32 _ _ _ _ => 2
  | .vbfeZ32 _ _ _ _ => 2
  | .vbfi _ _ _ _ => 2
  | .vsel _ _ _ _ => 2
  | .vdot4I8 _ _ _ _ => 2
  | .vdot4Z8 _ _ _ _ => 2
  | .vaddi _ _ _ => 2
  | .vshli _ _ _ => 2
  | .vshri _ _ _ => 2
  | .vsrai _ _ _ => 2
  | .vandi _ _ _ => 2
  | .vli _ _ => 2
  | .vbkSet _ _ _ => 2
  | .vbkGet _ _ _ => 2
  | .vicmp _ _ _ _ _ => 2
  | .vfaddF32 _ _ _ _ => 2
  | .vfsubF32 _ _ _ _ => 2
  | .vfmulF32 _ _ _ _ => 2
  | .vfmaF32 _ _ _ _ => 2
  | .vfminF32 _ _ _ _ => 2
  | .vfmaxF32 _ _ _ _ => 2
  | .vfaddH2 _ _ _ _ => 2
  | .vfsubH2 _ _ _ _ => 2
  | .vfmulH2 _ _ _ _ => 2
  | .vfmaH2 _ _ _ _ => 2
  | .vfminH2 _ _ _ _ => 2
  | .vfmaxH2 _ _ _ _ => 2
  | .vfaddB2 _ _ _ _ => 2
  | .vfsubB2 _ _ _ _ => 2
  | .vfmulB2 _ _ _ _ => 2
  | .vfmaB2 _ _ _ _ => 2
  | .vfminB2 _ _ _ _ => 2
  | .vfmaxB2 _ _ _ _ => 2
  | .vfrcp _ _ => 2
  | .vfrsq _ _ => 2
  | .vfsqrt _ _ => 2
  | .vfex2 _ _ => 2
  | .vflg2 _ _ => 2
  | .vfsin _ _ => 2
  | .vfcos _ _ => 2
  | .vftanh _ _ => 2
  | .vfcls _ _ => 2
  | .vlaneid _ => 2
  | .vtid _ => 2
  | .vfcmp _ _ _ _ _ => 2
  | .vcvt _ _ _ _ => 2
  | .vpackI8x4 _ _ => 2
  | .vpackTer16 _ _ => 2
  | .vpackE8m0 _ _ => 2
  | .vqx _ _ _ => 2
  | .vshflIdx _ _ _ _ => 2
  | .vshflUp _ _ _ _ => 2
  | .vshflDn _ _ _ _ => 2
  | .vshflXor _ _ _ _ => 2
  | .vred _ _ _ _ => 2
  | .vscan _ _ _ _ => 2
  | .vvoteAny _ _ _ => 2
  | .vvoteAll _ _ _ => 2
  | .vvoteBallot _ _ _ => 2
  | .vvotePopc _ _ _ => 2
  | .vpredAnd _ _ _ => 2
  | .vpredOr _ _ _ => 2
  | .vpredXor _ _ _ => 2
  | .vpredAndn _ _ _ => 2
  | .vpredOrn _ _ _ => 2
  | .vpredNot _ _ => 2
  | .vpredMov _ _ => 2
  | .vpredFromv _ _ => 2
  | .vflgRd _ _ => 2
  | .vflgClr _ => 2
  | .vflgRdclr _ _ => 2
  | .ldS8 _ _ _ _ => 2
  | .ldZ8 _ _ _ _ => 2
  | .ldS16 _ _ _ _ => 2
  | .ldZ16 _ _ _ _ => 2
  | .ld32 _ _ _ _ => 2
  | .ld64 _ _ _ _ => 2
  | .ld128 _ _ _ _ => 2
  | .st8 _ _ _ _ => 2
  | .st16 _ _ _ _ => 2
  | .st32 _ _ _ _ => 2
  | .st64 _ _ _ _ => 2
  | .st128 _ _ _ _ => 2
  | .lds _ _ _ _ => 2
  | .sts _ _ _ _ => 2
  | .ldc _ _ _ _ => 2
  | .ldsmp _ _ _ _ => 2
  | .atomAdd32 _ _ _ => 2
  | .atomAdd64 _ _ _ => 2
  | .atomFaddF32 _ _ _ => 2
  | .atomExch32 _ _ _ => 2
  | .atomMinI32 _ _ _ => 2
  | .atomMaxI32 _ _ _ => 2
  | .atomMinZ32 _ _ _ => 2
  | .atomMaxZ32 _ _ _ => 2
  | .atomAnd32 _ _ _ => 2
  | .atomOr32 _ _ _ => 2
  | .atomXor32 _ _ _ => 2
  | .atomExch64 _ _ _ => 2
  | .atomFminF32 _ _ _ => 2
  | .atomFmaxF32 _ _ _ => 2
  | .atomCas32 _ _ _ => 2
  | .atomCas64 _ _ _ => 2
  | .atoms _ _ _ => 2
  | .pref _ _ => 2
  | .cwb _ _ => 2
  | .cinv _ _ => 2
  | .cwbi _ _ => 2
  | .fence _ _ => 2
  | .pfence _ _ => 2
  | .opinst _ _ => 2
  | .oprem _ => 2
  | .opfire _ _ => 2
  | .opqry _ _ _ => 2
  | .cseal _ => 2
  | .cwait _ => 2
  | .cntwait _ _ => 2
  | .cntadd _ _ => 2
  | .cntinit _ _ => 2
  | .mseal _ => 2
  | .mwait _ => 2
  | .tzero _ _ => 2
  | .tsta _ _ _ => 2
  | .tlda _ _ _ => 2
  | .tmul _ _ _ _ _ => 2
  | .mbinit _ _ => 2
  | .mbarr _ => 2
  | .mbexp _ _ => 2
  | .mbwait _ _ => 2
  | .mbtry _ _ _ => 2
  | .walk _ _ => 2
  | .wnext _ => 2
  | .trda _ _ _ => 2
  | .twra _ _ _ => 2
  | .shpub _ _ _ => 2
  | .shqry _ => 2
  | .ralloc _ _ => 2
  | .rfree _ => 2
  | .trap _ => 2
  | .supcall _ => 2
  | .tlbinv _ _ => 2
  | .oppark _ => 2
  | .phint _ => 2
  | .rlabel _ => 2
  | .tcopyLd _ _ _ _ _ => 2
  | .tcopySt _ _ _ _ => 2
  | .rep _ _ _ => 2
  | .inv _ _ _ _ _ _ => 2
  | .modAlu _ _ _ _ _ _ _ _ => 2
  | .modMemory _ _ _ _ _ _ => 2
  | .join => 2
  | .ret => 2
  | .exit => 2
  | .nop => 2
  | .yield => 2
  | .barBlk => 2
  | .barClu => 2
  | .wend => 2
  | .shwait => 2
  | .trapf => 2
  | .eret => 2
  | .ckpt => 2
  | .iend => 2
  | .compactionMeeting _ => 0
  | .compactedGroupStart _ => 0
  | .compactionClose _ => 0
  | .stoseedWrite _ => 0
  | .wcodestClear _ => 0
  | .redinjArm _ => 0
  | .migcmdStart => 0
  | .migcmdRelease => 0
  | .migdescWrite _ => 0
  | .registerWrite _ _ => 0
  | .migrationCopyComplete _ => 0
  | .migrationCopyFail _ => 0
  | .groupPromotion _ => 0
  | .localityWindowEnd _ => 0
  | .sleepEnd _ => 0
  | .waitConditionMet _ => 0
  | .barrierDeparture _ _ => 0
  | .accessRepliesComplete _ => 0
  | .l1Writeback _ _ _ => 0
  | .l2SwcWriteback _ _ => 0
  | .queueWake _ => 0
  | .launchRecord _ => 0
  | .waitmemRecord _ => 0
  | .signalRecord _ => 0
  | .barrierRecord _ => 0
  | .launchStart _ => 0
  | .blockPlacement _ _ => 0
  | .launchCompletion _ => 0
  | .timeSliceExpiry _ => 0
  | .shapeApply _ => 0
  | .holdEntryDrain _ => 0
  | .inletStoreRequest _ => 0
  | .operatorWeightLoad _ => 0
  | .sequencerPass _ _ => 0
  | .slotCompletion _ _ => 0
  | .forwardDelivery _ _ => 0
  | .forwardRetry _ _ => 0
  | .forwardTimeout _ _ => 0
  | .outletWaitServe _ => 0
  | .outletWaitTimeout _ => 0
  | .operatorRemoval _ => 0
  | .arrayKstep _ _ => 0
  | .tzeroPerform _ => 0
  | .tldaPerform _ => 0
  | .tstaPerform _ => 0
  | .copyCompletion _ => 0
  | .trapRecordDelivery => 0
  | .trapRecordTimeout _ => 0
  | .answerApply _ _ _ => 0
  | .debuggerHalt _ => 0
  | .debuggerResume _ _ => 0
  | .preemptionRequest _ => 0
  | .forcedHardSave _ => 0
  | .blockSave _ => 0
  | .saveComplete _ => 0
  | .contextResume _ => 0
  | .signatureCompare _ _ => 0
  | .meetingPoint _ _ => 0
  | .fabricRequestReceive _ => 0
  | .atomicPacketReceive _ => 0
  | .opstoreReceive _ => 0
  | .dataReply _ => 0
  | .ackReply _ => 0
  | .nackReply _ => 0
  | .retryReply _ => 0
  | .inval _ => 0
  | .invack _ => 0
  | .recordPacket _ => 0
  | .noticePacket _ => 0
  | .retransmitTimeout _ => 0
  | .replyCacheExpiry _ _ _ => 0
  | .flowOff _ _ => 0
  | .flowOn _ _ => 0
  | .linkLoss _ => 0
  | .linkLossNotice _ => 0
  | .linkRetrained _ => 0
  | .swap => 0
  | .swapGraceExpiry => 0
  | .fberrClr => 0
  | .swfailClear => 0
  | .spawn _ _ _ => 0
  | .hostMemAccess _ _ _ _ => 0
  | .mailboxDoorbell _ => 0
  | .registerQueue _ _ => 0
  | .registerContext _ => 0
  | .preemptService _ => 0
  | .resumeService _ => 0
  | .discardService _ => 0
  | .fenceCore _ => 0
  | .retirePseudoChannel _ => 0
  | .retrainLink _ => 0
  | .domainCopy _ => 0
  | .reset _ => 0
  | .firmwareHandover _ _ => 0
  | .handoverTimeout => 0
  | .getVersion => 0
  | .getCapabilities => 0
  | .negotiateAlgorithms _ => 0
  | .getDigests => 0
  | .getCertificate => 0
  | .challenge _ => 0
  | .getMeasurements _ => 0
  | .replay _ => 0
  | .cap _ => 0
  | .caperrClear => 0
  | .tripClear => 0
  | .powerCapTick _ => 0
  | .thermalTick _ => 0
  | .thermalTrip _ => 0
  | .inputVoltageChange _ => 0
  | .inputRecoveryTimeout => 0
  | .retryDelayExpiry _ => 0
  | .rdmaRequestReceive _ _ _ _ _ => 0
  | .domainCopyCompletion _ _ _ => 0
  | .hostLinkTraining _ => 0
  | .journalDrain _ _ => 0

/-- R41 to R63: the word of an instruction with the stall count `s`, field by field from bit 0; a compact form has no
stall count, and a step without an encoding no word. -/
def Instr.word (i : Instr) (s : BitVec 2) : Nat :=
  match i with
  | .vaddI32Compact b d => pack 5 (0#5) (pack 6 d (pack 5 b 0))
  | .vsubI32Compact b d => pack 5 (2#5) (pack 6 d (pack 5 b 0))
  | .vmulI32Compact b d => pack 5 (4#5) (pack 6 d (pack 5 b 0))
  | .vandCompact b d => pack 5 (6#5) (pack 6 d (pack 5 b 0))
  | .vorCompact b d => pack 5 (8#5) (pack 6 d (pack 5 b 0))
  | .vxorCompact b d => pack 5 (10#5) (pack 6 d (pack 5 b 0))
  | .vshlCompact b d => pack 5 (12#5) (pack 6 d (pack 5 b 0))
  | .vshrCompact b d => pack 5 (14#5) (pack 6 d (pack 5 b 0))
  | .vsraCompact b d => pack 5 (16#5) (pack 6 d (pack 5 b 0))
  | .vmovCompact b d => pack 5 (18#5) (pack 6 d (pack 5 b 0))
  | .vminI32Compact b d => pack 5 (20#5) (pack 6 d (pack 5 b 0))
  | .vmaxI32Compact b d => pack 5 (22#5) (pack 6 d (pack 5 b 0))
  | .vfaddF32Compact b d => pack 5 (24#5) (pack 6 d (pack 5 b 0))
  | .vfsubF32Compact b d => pack 5 (26#5) (pack 6 d (pack 5 b 0))
  | .vfmulF32Compact b d => pack 5 (28#5) (pack 6 d (pack 5 b 0))
  | .vfmaxF32Compact b d => pack 5 (30#5) (pack 6 d (pack 5 b 0))
  | .sadd b a d => pack 1 (1#1) (pack 2 s (pack 7 (1#7) (pack 6 d (pack 6 a (pack 6 b (pack 4 (0#4) 0))))))
  | .ssub b a d => pack 1 (1#1) (pack 2 s (pack 7 (1#7) (pack 6 d (pack 6 a (pack 6 b (pack 4 (1#4) 0))))))
  | .smul b a d => pack 1 (1#1) (pack 2 s (pack 7 (1#7) (pack 6 d (pack 6 a (pack 6 b (pack 4 (2#4) 0))))))
  | .smulh b a d => pack 1 (1#1) (pack 2 s (pack 7 (1#7) (pack 6 d (pack 6 a (pack 6 b (pack 4 (3#4) 0))))))
  | .smulhz b a d => pack 1 (1#1) (pack 2 s (pack 7 (1#7) (pack 6 d (pack 6 a (pack 6 b (pack 4 (4#4) 0))))))
  | .sdiv b a d => pack 1 (1#1) (pack 2 s (pack 7 (1#7) (pack 6 d (pack 6 a (pack 6 b (pack 4 (5#4) 0))))))
  | .sdivz b a d => pack 1 (1#1) (pack 2 s (pack 7 (1#7) (pack 6 d (pack 6 a (pack 6 b (pack 4 (6#4) 0))))))
  | .srem b a d => pack 1 (1#1) (pack 2 s (pack 7 (1#7) (pack 6 d (pack 6 a (pack 6 b (pack 4 (7#4) 0))))))
  | .sremz b a d => pack 1 (1#1) (pack 2 s (pack 7 (1#7) (pack 6 d (pack 6 a (pack 6 b (pack 4 (8#4) 0))))))
  | .sand b a d => pack 1 (1#1) (pack 2 s (pack 7 (1#7) (pack 6 d (pack 6 a (pack 6 b (pack 4 (9#4) 0))))))
  | .sor b a d => pack 1 (1#1) (pack 2 s (pack 7 (1#7) (pack 6 d (pack 6 a (pack 6 b (pack 4 (10#4) 0))))))
  | .sxor b a d => pack 1 (1#1) (pack 2 s (pack 7 (1#7) (pack 6 d (pack 6 a (pack 6 b (pack 4 (11#4) 0))))))
  | .sshl b a d => pack 1 (1#1) (pack 2 s (pack 7 (1#7) (pack 6 d (pack 6 a (pack 6 b (pack 4 (12#4) 0))))))
  | .sshr b a d => pack 1 (1#1) (pack 2 s (pack 7 (1#7) (pack 6 d (pack 6 a (pack 6 b (pack 4 (13#4) 0))))))
  | .ssra b a d => pack 1 (1#1) (pack 2 s (pack 7 (1#7) (pack 6 d (pack 6 a (pack 6 b (pack 4 (14#4) 0))))))
  | .smin b a d => pack 1 (1#1) (pack 2 s (pack 7 (2#7) (pack 6 d (pack 6 a (pack 6 b (pack 4 (0#4) 0))))))
  | .smax b a d => pack 1 (1#1) (pack 2 s (pack 7 (2#7) (pack 6 d (pack 6 a (pack 6 b (pack 4 (1#4) 0))))))
  | .sminz b a d => pack 1 (1#1) (pack 2 s (pack 7 (2#7) (pack 6 d (pack 6 a (pack 6 b (pack 4 (2#4) 0))))))
  | .smaxz b a d => pack 1 (1#1) (pack 2 s (pack 7 (2#7) (pack 6 d (pack 6 a (pack 6 b (pack 4 (3#4) 0))))))
  | .sseq b a d => pack 1 (1#1) (pack 2 s (pack 7 (2#7) (pack 6 d (pack 6 a (pack 6 b (pack 4 (4#4) 0))))))
  | .ssne b a d => pack 1 (1#1) (pack 2 s (pack 7 (2#7) (pack 6 d (pack 6 a (pack 6 b (pack 4 (5#4) 0))))))
  | .sslt b a d => pack 1 (1#1) (pack 2 s (pack 7 (2#7) (pack 6 d (pack 6 a (pack 6 b (pack 4 (6#4) 0))))))
  | .ssltz b a d => pack 1 (1#1) (pack 2 s (pack 7 (2#7) (pack 6 d (pack 6 a (pack 6 b (pack 4 (7#4) 0))))))
  | .ssle b a d => pack 1 (1#1) (pack 2 s (pack 7 (2#7) (pack 6 d (pack 6 a (pack 6 b (pack 4 (8#4) 0))))))
  | .sslez b a d => pack 1 (1#1) (pack 2 s (pack 7 (2#7) (pack 6 d (pack 6 a (pack 6 b (pack 4 (9#4) 0))))))
  | .smov a d => pack 1 (1#1) (pack 2 s (pack 7 (2#7) (pack 6 d (pack 6 a (pack 10 (640#10) 0)))))
  | .saddi i a d => pack 1 (1#1) (pack 2 s (pack 7 (3#7) (pack 6 d (pack 6 a (pack 10 i 0)))))
  | .sandi i a d => pack 1 (1#1) (pack 2 s (pack 7 (4#7) (pack 6 d (pack 6 a (pack 10 i 0)))))
  | .sori i a d => pack 1 (1#1) (pack 2 s (pack 7 (5#7) (pack 6 d (pack 6 a (pack 10 i 0)))))
  | .sxori i a d => pack 1 (1#1) (pack 2 s (pack 7 (6#7) (pack 6 d (pack 6 a (pack 10 i 0)))))
  | .sshli i a d => pack 1 (1#1) (pack 2 s (pack 7 (7#7) (pack 6 d (pack 6 a (pack 6 i (pack 4 (0#4) 0))))))
  | .sshri i a d => pack 1 (1#1) (pack 2 s (pack 7 (8#7) (pack 6 d (pack 6 a (pack 6 i (pack 4 (0#4) 0))))))
  | .ssrai i a d => pack 1 (1#1) (pack 2 s (pack 7 (9#7) (pack 6 d (pack 6 a (pack 6 i (pack 4 (0#4) 0))))))
  | .sli i d => pack 1 (1#1) (pack 2 s (pack 7 (10#7) (pack 6 d (pack 16 i 0))))
  | .slh16 i d => pack 1 (1#1) (pack 2 s (pack 7 (11#7) (pack 6 d (pack 16 i 0))))
  | .slh32 i d => pack 1 (1#1) (pack 2 s (pack 7 (12#7) (pack 6 d (pack 16 i 0))))
  | .slh48 i d => pack 1 (1#1) (pack 2 s (pack 7 (13#7) (pack 6 d (pack 16 i 0))))
  | .sld i z b d => pack 1 (1#1) (pack 2 s (pack 7 (14#7) (pack 6 d (pack 6 b (pack 2 z (pack 8 i 0))))))
  | .sst i z b d => pack 1 (1#1) (pack 2 s (pack 7 (15#7) (pack 6 d (pack 6 b (pack 2 z (pack 8 i 0))))))
  | .sldc i z b d => pack 1 (1#1) (pack 2 s (pack 7 (16#7) (pack 6 d (pack 6 b (pack 2 z (pack 8 i 0))))))
  | .sgetl x l a d => pack 1 (1#1) (pack 2 s (pack 7 (17#7) (pack 6 d (pack 1 (0#1) (pack 7 a (pack 7 l (pack 1 x 0)))))))
  | .ssetl x l a d => pack 1 (1#1) (pack 2 s (pack 7 (18#7) (pack 7 d (pack 6 a (pack 1 (0#1) (pack 7 l (pack 1 x 0)))))))
  | .jmp o => pack 1 (1#1) (pack 2 s (pack 13 (19#13) (pack 16 o 0)))
  | .brz o r => pack 1 (1#1) (pack 2 s (pack 7 (20#7) (pack 6 r (pack 16 o 0))))
  | .brnz o r => pack 1 (1#1) (pack 2 s (pack 7 (21#7) (pack 6 r (pack 16 o 0))))
  | .loop o r => pack 1 (1#1) (pack 2 s (pack 7 (22#7) (pack 6 r (pack 16 o 0))))
  | .brp o c n p => pack 1 (1#1) (pack 2 s (pack 7 (23#7) (pack 3 p (pack 1 n (pack 1 c (pack 1 (0#1) (pack 16 o 0)))))))
  | .jpt o => pack 1 (1#1) (pack 2 s (pack 13 (24#13) (pack 16 o 0)))
  | .call o n p => pack 1 (1#1) (pack 2 s (pack 7 (26#7) (pack 3 p (pack 1 n (pack 2 (0#2) (pack 16 o 0))))))
  | .calli a => pack 1 (1#1) (pack 2 s (pack 14 (27#14) (pack 7 a (pack 8 (0#8) 0))))
  | .jmpi a => pack 1 (1#1) (pack 2 s (pack 14 (28#14) (pack 7 a (pack 8 (0#8) 0))))
  | .srr n d => pack 1 (1#1) (pack 2 s (pack 7 (31#7) (pack 6 d (pack 12 n (pack 4 (2#4) 0)))))
  | .srw n a => pack 1 (1#1) (pack 2 s (pack 7 (31#7) (pack 6 a (pack 12 n (pack 4 (3#4) 0)))))
  | .sleep a => pack 1 (1#1) (pack 2 s (pack 7 (31#7) (pack 6 a (pack 16 (16384#16) 0))))
  | .bkpt n => pack 1 (1#1) (pack 2 s (pack 13 (31#13) (pack 12 n (pack 4 (5#4) 0))))
  | .vaddI32 x b a d => pack 1 (1#1) (pack 2 s (pack 7 (32#7) (pack 7 d (pack 7 a (pack 7 b (pack 1 x 0))))))
  | .vsubI32 x b a d => pack 1 (1#1) (pack 2 s (pack 7 (33#7) (pack 7 d (pack 7 a (pack 7 b (pack 1 x 0))))))
  | .vmulI32 x b a d => pack 1 (1#1) (pack 2 s (pack 7 (34#7) (pack 7 d (pack 7 a (pack 7 b (pack 1 x 0))))))
  | .vmulh x b a d => pack 1 (1#1) (pack 2 s (pack 7 (35#7) (pack 7 d (pack 7 a (pack 7 b (pack 1 x 0))))))
  | .vmulhz x b a d => pack 1 (1#1) (pack 2 s (pack 7 (36#7) (pack 7 d (pack 7 a (pack 7 b (pack 1 x 0))))))
  | .vmadI32 x b a d => pack 1 (1#1) (pack 2 s (pack 7 (37#7) (pack 7 d (pack 7 a (pack 7 b (pack 1 x 0))))))
  | .vand x b a d => pack 1 (1#1) (pack 2 s (pack 7 (38#7) (pack 7 d (pack 7 a (pack 7 b (pack 1 x 0))))))
  | .vor x b a d => pack 1 (1#1) (pack 2 s (pack 7 (39#7) (pack 7 d (pack 7 a (pack 7 b (pack 1 x 0))))))
  | .vxor x b a d => pack 1 (1#1) (pack 2 s (pack 7 (40#7) (pack 7 d (pack 7 a (pack 7 b (pack 1 x 0))))))
  | .vshl x b a d => pack 1 (1#1) (pack 2 s (pack 7 (41#7) (pack 7 d (pack 7 a (pack 7 b (pack 1 x 0))))))
  | .vshr x b a d => pack 1 (1#1) (pack 2 s (pack 7 (42#7) (pack 7 d (pack 7 a (pack 7 b (pack 1 x 0))))))
  | .vsra x b a d => pack 1 (1#1) (pack 2 s (pack 7 (43#7) (pack 7 d (pack 7 a (pack 7 b (pack 1 x 0))))))
  | .vminI32 x b a d => pack 1 (1#1) (pack 2 s (pack 7 (44#7) (pack 7 d (pack 7 a (pack 7 b (pack 1 x 0))))))
  | .vmaxI32 x b a d => pack 1 (1#1) (pack 2 s (pack 7 (45#7) (pack 7 d (pack 7 a (pack 7 b (pack 1 x 0))))))
  | .vminZ32 x b a d => pack 1 (1#1) (pack 2 s (pack 7 (46#7) (pack 7 d (pack 7 a (pack 7 b (pack 1 x 0))))))
  | .vmaxZ32 x b a d => pack 1 (1#1) (pack 2 s (pack 7 (47#7) (pack 7 d (pack 7 a (pack 7 b (pack 1 x 0))))))
  | .vabsd x b a d => pack 1 (1#1) (pack 2 s (pack 7 (48#7) (pack 7 d (pack 7 a (pack 7 b (pack 1 x 0))))))
  | .vpopc a d => pack 1 (1#1) (pack 2 s (pack 7 (49#7) (pack 7 d (pack 7 a (pack 8 (0#8) 0)))))
  | .vclz a d => pack 1 (1#1) (pack 2 s (pack 7 (49#7) (pack 7 d (pack 7 a (pack 8 (1#8) 0)))))
  | .vbrev a d => pack 1 (1#1) (pack 2 s (pack 7 (49#7) (pack 7 d (pack 7 a (pack 8 (2#8) 0)))))
  | .vnot a d => pack 1 (1#1) (pack 2 s (pack 7 (49#7) (pack 7 d (pack 7 a (pack 8 (3#8) 0)))))
  | .vbfeI32 x b a d => pack 1 (1#1) (pack 2 s (pack 7 (50#7) (pack 7 d (pack 7 a (pack 7 b (pack 1 x 0))))))
  | .vbfeZ32 x b a d => pack 1 (1#1) (pack 2 s (pack 7 (51#7) (pack 7 d (pack 7 a (pack 7 b (pack 1 x 0))))))
  | .vbfi x b a d => pack 1 (1#1) (pack 2 s (pack 7 (52#7) (pack 7 d (pack 7 a (pack 7 b (pack 1 x 0))))))
  | .vsel n p a d => pack 1 (1#1) (pack 2 s (pack 7 (53#7) (pack 7 d (pack 7 a (pack 4 p (pack 1 n (pack 3 (0#3) 0)))))))
  | .vdot4I8 x b a d => pack 1 (1#1) (pack 2 s (pack 7 (54#7) (pack 7 d (pack 7 a (pack 7 b (pack 1 x 0))))))
  | .vdot4Z8 x b a d => pack 1 (1#1) (pack 2 s (pack 7 (55#7) (pack 7 d (pack 7 a (pack 7 b (pack 1 x 0))))))
  | .vaddi i a d => pack 1 (1#1) (pack 2 s (pack 7 (56#7) (pack 7 d (pack 7 a (pack 8 i 0)))))
  | .vshli i a d => pack 1 (1#1) (pack 2 s (pack 7 (57#7) (pack 7 d (pack 7 a (pack 5 i (pack 3 (0#3) 0))))))
  | .vshri i a d => pack 1 (1#1) (pack 2 s (pack 7 (58#7) (pack 7 d (pack 7 a (pack 5 i (pack 3 (0#3) 0))))))
  | .vsrai i a d => pack 1 (1#1) (pack 2 s (pack 7 (59#7) (pack 7 d (pack 7 a (pack 5 i (pack 3 (0#3) 0))))))
  | .vandi i a d => pack 1 (1#1) (pack 2 s (pack 7 (60#7) (pack 7 d (pack 7 a (pack 8 i 0)))))
  | .vli i d => pack 1 (1#1) (pack 2 s (pack 7 (61#7) (pack 7 d (pack 15 i 0))))
  | .vbkSet w k v => pack 1 (1#1) (pack 2 s (pack 7 (62#7) (pack 7 v (pack 2 k (pack 2 w (pack 11 (0#11) 0))))))
  | .vbkGet w k v => pack 1 (1#1) (pack 2 s (pack 7 (62#7) (pack 7 v (pack 2 k (pack 2 w (pack 11 (1#11) 0))))))
  | .vicmp x b a c p => pack 1 (1#1) (pack 2 s (pack 7 (63#7) (pack 3 p (pack 4 c (pack 7 a (pack 7 b (pack 1 x 0)))))))
  | .vfaddF32 x b a d => pack 1 (1#1) (pack 2 s (pack 7 (64#7) (pack 7 d (pack 7 a (pack 7 b (pack 1 x 0))))))
  | .vfsubF32 x b a d => pack 1 (1#1) (pack 2 s (pack 7 (65#7) (pack 7 d (pack 7 a (pack 7 b (pack 1 x 0))))))
  | .vfmulF32 x b a d => pack 1 (1#1) (pack 2 s (pack 7 (66#7) (pack 7 d (pack 7 a (pack 7 b (pack 1 x 0))))))
  | .vfmaF32 x b a d => pack 1 (1#1) (pack 2 s (pack 7 (67#7) (pack 7 d (pack 7 a (pack 7 b (pack 1 x 0))))))
  | .vfminF32 x b a d => pack 1 (1#1) (pack 2 s (pack 7 (68#7) (pack 7 d (pack 7 a (pack 7 b (pack 1 x 0))))))
  | .vfmaxF32 x b a d => pack 1 (1#1) (pack 2 s (pack 7 (69#7) (pack 7 d (pack 7 a (pack 7 b (pack 1 x 0))))))
  | .vfaddH2 x b a d => pack 1 (1#1) (pack 2 s (pack 7 (70#7) (pack 7 d (pack 7 a (pack 7 b (pack 1 x 0))))))
  | .vfsubH2 x b a d => pack 1 (1#1) (pack 2 s (pack 7 (71#7) (pack 7 d (pack 7 a (pack 7 b (pack 1 x 0))))))
  | .vfmulH2 x b a d => pack 1 (1#1) (pack 2 s (pack 7 (72#7) (pack 7 d (pack 7 a (pack 7 b (pack 1 x 0))))))
  | .vfmaH2 x b a d => pack 1 (1#1) (pack 2 s (pack 7 (73#7) (pack 7 d (pack 7 a (pack 7 b (pack 1 x 0))))))
  | .vfminH2 x b a d => pack 1 (1#1) (pack 2 s (pack 7 (74#7) (pack 7 d (pack 7 a (pack 7 b (pack 1 x 0))))))
  | .vfmaxH2 x b a d => pack 1 (1#1) (pack 2 s (pack 7 (75#7) (pack 7 d (pack 7 a (pack 7 b (pack 1 x 0))))))
  | .vfaddB2 x b a d => pack 1 (1#1) (pack 2 s (pack 7 (76#7) (pack 7 d (pack 7 a (pack 7 b (pack 1 x 0))))))
  | .vfsubB2 x b a d => pack 1 (1#1) (pack 2 s (pack 7 (77#7) (pack 7 d (pack 7 a (pack 7 b (pack 1 x 0))))))
  | .vfmulB2 x b a d => pack 1 (1#1) (pack 2 s (pack 7 (78#7) (pack 7 d (pack 7 a (pack 7 b (pack 1 x 0))))))
  | .vfmaB2 x b a d => pack 1 (1#1) (pack 2 s (pack 7 (79#7) (pack 7 d (pack 7 a (pack 7 b (pack 1 x 0))))))
  | .vfminB2 x b a d => pack 1 (1#1) (pack 2 s (pack 7 (80#7) (pack 7 d (pack 7 a (pack 7 b (pack 1 x 0))))))
  | .vfmaxB2 x b a d => pack 1 (1#1) (pack 2 s (pack 7 (81#7) (pack 7 d (pack 7 a (pack 7 b (pack 1 x 0))))))
  | .vfrcp a d => pack 1 (1#1) (pack 2 s (pack 7 (82#7) (pack 7 d (pack 7 a (pack 8 (0#8) 0)))))
  | .vfrsq a d => pack 1 (1#1) (pack 2 s (pack 7 (82#7) (pack 7 d (pack 7 a (pack 8 (1#8) 0)))))
  | .vfsqrt a d => pack 1 (1#1) (pack 2 s (pack 7 (82#7) (pack 7 d (pack 7 a (pack 8 (2#8) 0)))))
  | .vfex2 a d => pack 1 (1#1) (pack 2 s (pack 7 (82#7) (pack 7 d (pack 7 a (pack 8 (3#8) 0)))))
  | .vflg2 a d => pack 1 (1#1) (pack 2 s (pack 7 (82#7) (pack 7 d (pack 7 a (pack 8 (4#8) 0)))))
  | .vfsin a d => pack 1 (1#1) (pack 2 s (pack 7 (82#7) (pack 7 d (pack 7 a (pack 8 (5#8) 0)))))
  | .vfcos a d => pack 1 (1#1) (pack 2 s (pack 7 (82#7) (pack 7 d (pack 7 a (pack 8 (6#8) 0)))))
  | .vftanh a d => pack 1 (1#1) (pack 2 s (pack 7 (82#7) (pack 7 d (pack 7 a (pack 8 (7#8) 0)))))
  | .vfcls a d => pack 1 (1#1) (pack 2 s (pack 7 (82#7) (pack 7 d (pack 7 a (pack 8 (8#8) 0)))))
  | .vlaneid d => pack 1 (1#1) (pack 2 s (pack 7 (82#7) (pack 7 d (pack 15 (1152#15) 0))))
  | .vtid d => pack 1 (1#1) (pack 2 s (pack 7 (82#7) (pack 7 d (pack 15 (1280#15) 0))))
  | .vfcmp x b a c p => pack 1 (1#1) (pack 2 s (pack 7 (83#7) (pack 3 p (pack 4 c (pack 7 a (pack 7 b (pack 1 x 0)))))))
  | .vcvt f g a d => pack 1 (1#1) (pack 2 s (pack 7 (84#7) (pack 7 d (pack 7 a (pack 4 g (pack 4 f 0))))))
  | .vpackI8x4 a d => pack 1 (1#1) (pack 2 s (pack 7 (85#7) (pack 7 d (pack 7 a (pack 8 (0#8) 0)))))
  | .vpackTer16 a d => pack 1 (1#1) (pack 2 s (pack 7 (85#7) (pack 7 d (pack 7 a (pack 8 (1#8) 0)))))
  | .vpackE8m0 a d => pack 1 (1#1) (pack 2 s (pack 7 (85#7) (pack 7 d (pack 7 a (pack 8 (2#8) 0)))))
  | .vqx q a d => pack 1 (1#1) (pack 2 s (pack 7 (86#7) (pack 7 d (pack 7 a (pack 4 q (pack 4 (0#4) 0))))))
  | .vshflIdx x b a d => pack 1 (1#1) (pack 2 s (pack 7 (87#7) (pack 7 d (pack 7 a (pack 7 b (pack 1 x 0))))))
  | .vshflUp x b a d => pack 1 (1#1) (pack 2 s (pack 7 (88#7) (pack 7 d (pack 7 a (pack 7 b (pack 1 x 0))))))
  | .vshflDn x b a d => pack 1 (1#1) (pack 2 s (pack 7 (89#7) (pack 7 d (pack 7 a (pack 7 b (pack 1 x 0))))))
  | .vshflXor x b a d => pack 1 (1#1) (pack 2 s (pack 7 (90#7) (pack 7 d (pack 7 a (pack 7 b (pack 1 x 0))))))
  | .vred p r a d => pack 1 (1#1) (pack 2 s (pack 7 (91#7) (pack 7 d (pack 7 a (pack 4 r (pack 2 p (pack 2 (0#2) 0)))))))
  | .vscan p r a d => pack 1 (1#1) (pack 2 s (pack 7 (92#7) (pack 7 d (pack 7 a (pack 4 r (pack 2 p (pack 2 (0#2) 0)))))))
  | .vvoteAny n p d => pack 1 (1#1) (pack 2 s (pack 7 (93#7) (pack 6 d (pack 1 (0#1) (pack 4 p (pack 1 n (pack 10 (0#10) 0)))))))
  | .vvoteAll n p d => pack 1 (1#1) (pack 2 s (pack 7 (93#7) (pack 6 d (pack 1 (0#1) (pack 4 p (pack 1 n (pack 10 (1#10) 0)))))))
  | .vvoteBallot n p d => pack 1 (1#1) (pack 2 s (pack 7 (93#7) (pack 6 d (pack 1 (0#1) (pack 4 p (pack 1 n (pack 10 (2#10) 0)))))))
  | .vvotePopc n p d => pack 1 (1#1) (pack 2 s (pack 7 (93#7) (pack 6 d (pack 1 (0#1) (pack 4 p (pack 1 n (pack 10 (3#10) 0)))))))
  | .vpredAnd b a d => pack 1 (1#1) (pack 2 s (pack 7 (94#7) (pack 3 d (pack 4 a (pack 4 b (pack 11 (0#11) 0))))))
  | .vpredOr b a d => pack 1 (1#1) (pack 2 s (pack 7 (94#7) (pack 3 d (pack 4 a (pack 4 b (pack 11 (1#11) 0))))))
  | .vpredXor b a d => pack 1 (1#1) (pack 2 s (pack 7 (94#7) (pack 3 d (pack 4 a (pack 4 b (pack 11 (2#11) 0))))))
  | .vpredAndn b a d => pack 1 (1#1) (pack 2 s (pack 7 (94#7) (pack 3 d (pack 4 a (pack 4 b (pack 11 (3#11) 0))))))
  | .vpredOrn b a d => pack 1 (1#1) (pack 2 s (pack 7 (94#7) (pack 3 d (pack 4 a (pack 4 b (pack 11 (4#11) 0))))))
  | .vpredNot a d => pack 1 (1#1) (pack 2 s (pack 7 (94#7) (pack 3 d (pack 4 a (pack 15 (80#15) 0)))))
  | .vpredMov a d => pack 1 (1#1) (pack 2 s (pack 7 (94#7) (pack 3 d (pack 4 a (pack 15 (96#15) 0)))))
  | .vpredFromv v d => pack 1 (1#1) (pack 2 s (pack 7 (94#7) (pack 3 d (pack 11 (1792#11) (pack 7 v (pack 1 (0#1) 0))))))
  | .vflgRd m d => pack 1 (1#1) (pack 2 s (pack 7 (95#7) (pack 7 d (pack 2 (0#2) (pack 6 m (pack 7 (0#7) 0))))))
  | .vflgClr m => pack 1 (1#1) (pack 2 s (pack 16 (16479#16) (pack 6 m (pack 7 (0#7) 0))))
  | .vflgRdclr m d => pack 1 (1#1) (pack 2 s (pack 7 (95#7) (pack 7 d (pack 2 (2#2) (pack 6 m (pack 7 (0#7) 0))))))
  | .ldS8 g x b t => pack 1 (1#1) (pack 2 s (pack 7 (96#7) (pack 7 t (pack 6 b (pack 7 x (pack 2 g 0))))))
  | .ldZ8 g x b t => pack 1 (1#1) (pack 2 s (pack 7 (97#7) (pack 7 t (pack 6 b (pack 7 x (pack 2 g 0))))))
  | .ldS16 g x b t => pack 1 (1#1) (pack 2 s (pack 7 (98#7) (pack 7 t (pack 6 b (pack 7 x (pack 2 g 0))))))
  | .ldZ16 g x b t => pack 1 (1#1) (pack 2 s (pack 7 (99#7) (pack 7 t (pack 6 b (pack 7 x (pack 2 g 0))))))
  | .ld32 g x b t => pack 1 (1#1) (pack 2 s (pack 7 (100#7) (pack 7 t (pack 6 b (pack 7 x (pack 2 g 0))))))
  | .ld64 g x b t => pack 1 (1#1) (pack 2 s (pack 7 (101#7) (pack 7 t (pack 6 b (pack 7 x (pack 2 g 0))))))
  | .ld128 g x b t => pack 1 (1#1) (pack 2 s (pack 7 (102#7) (pack 7 t (pack 6 b (pack 7 x (pack 2 g 0))))))
  | .st8 g x b t => pack 1 (1#1) (pack 2 s (pack 7 (103#7) (pack 7 t (pack 6 b (pack 7 x (pack 2 g 0))))))
  | .st16 g x b t => pack 1 (1#1) (pack 2 s (pack 7 (104#7) (pack 7 t (pack 6 b (pack 7 x (pack 2 g 0))))))
  | .st32 g x b t => pack 1 (1#1) (pack 2 s (pack 7 (105#7) (pack 7 t (pack 6 b (pack 7 x (pack 2 g 0))))))
  | .st64 g x b t => pack 1 (1#1) (pack 2 s (pack 7 (106#7) (pack 7 t (pack 6 b (pack 7 x (pack 2 g 0))))))
  | .st128 g x b t => pack 1 (1#1) (pack 2 s (pack 7 (107#7) (pack 7 t (pack 6 b (pack 7 x (pack 2 g 0))))))
  | .lds z i x t => pack 1 (1#1) (pack 2 s (pack 7 (108#7) (pack 7 t (pack 7 x (pack 6 i (pack 2 z 0))))))
  | .sts z i x t => pack 1 (1#1) (pack 2 s (pack 7 (109#7) (pack 7 t (pack 7 x (pack 6 i (pack 2 z 0))))))
  | .ldc g x b t => pack 1 (1#1) (pack 2 s (pack 7 (110#7) (pack 7 t (pack 6 b (pack 7 x (pack 2 g 0))))))
  | .ldsmp g x b t => pack 1 (1#1) (pack 2 s (pack 7 (111#7) (pack 7 t (pack 6 b (pack 7 x (pack 2 g 0))))))
  | .atomAdd32 x b t => pack 1 (1#1) (pack 2 s (pack 7 (112#7) (pack 7 t (pack 6 b (pack 7 x (pack 2 (0#2) 0))))))
  | .atomAdd64 x b t => pack 1 (1#1) (pack 2 s (pack 7 (112#7) (pack 7 t (pack 6 b (pack 7 x (pack 2 (1#2) 0))))))
  | .atomFaddF32 x b t => pack 1 (1#1) (pack 2 s (pack 7 (112#7) (pack 7 t (pack 6 b (pack 7 x (pack 2 (2#2) 0))))))
  | .atomExch32 x b t => pack 1 (1#1) (pack 2 s (pack 7 (112#7) (pack 7 t (pack 6 b (pack 7 x (pack 2 (3#2) 0))))))
  | .atomMinI32 x b t => pack 1 (1#1) (pack 2 s (pack 7 (113#7) (pack 7 t (pack 6 b (pack 7 x (pack 2 (0#2) 0))))))
  | .atomMaxI32 x b t => pack 1 (1#1) (pack 2 s (pack 7 (113#7) (pack 7 t (pack 6 b (pack 7 x (pack 2 (1#2) 0))))))
  | .atomMinZ32 x b t => pack 1 (1#1) (pack 2 s (pack 7 (113#7) (pack 7 t (pack 6 b (pack 7 x (pack 2 (2#2) 0))))))
  | .atomMaxZ32 x b t => pack 1 (1#1) (pack 2 s (pack 7 (113#7) (pack 7 t (pack 6 b (pack 7 x (pack 2 (3#2) 0))))))
  | .atomAnd32 x b t => pack 1 (1#1) (pack 2 s (pack 7 (114#7) (pack 7 t (pack 6 b (pack 7 x (pack 2 (0#2) 0))))))
  | .atomOr32 x b t => pack 1 (1#1) (pack 2 s (pack 7 (114#7) (pack 7 t (pack 6 b (pack 7 x (pack 2 (1#2) 0))))))
  | .atomXor32 x b t => pack 1 (1#1) (pack 2 s (pack 7 (114#7) (pack 7 t (pack 6 b (pack 7 x (pack 2 (2#2) 0))))))
  | .atomExch64 x b t => pack 1 (1#1) (pack 2 s (pack 7 (114#7) (pack 7 t (pack 6 b (pack 7 x (pack 2 (3#2) 0))))))
  | .atomFminF32 x b t => pack 1 (1#1) (pack 2 s (pack 7 (115#7) (pack 7 t (pack 6 b (pack 7 x (pack 2 (0#2) 0))))))
  | .atomFmaxF32 x b t => pack 1 (1#1) (pack 2 s (pack 7 (115#7) (pack 7 t (pack 6 b (pack 7 x (pack 2 (1#2) 0))))))
  | .atomCas32 x b t => pack 1 (1#1) (pack 2 s (pack 7 (115#7) (pack 7 t (pack 6 b (pack 7 x (pack 2 (2#2) 0))))))
  | .atomCas64 x b t => pack 1 (1#1) (pack 2 s (pack 7 (115#7) (pack 7 t (pack 6 b (pack 7 x (pack 2 (3#2) 0))))))
  | .atoms o x t => pack 1 (1#1) (pack 2 s (pack 7 (116#7) (pack 7 t (pack 7 x (pack 4 o (pack 4 (0#4) 0))))))
  | .pref b a => pack 1 (1#1) (pack 2 s (pack 7 (117#7) (pack 6 a (pack 6 b (pack 10 (0#10) 0)))))
  | .cwb b a => pack 1 (1#1) (pack 2 s (pack 7 (117#7) (pack 6 a (pack 6 b (pack 10 (64#10) 0)))))
  | .cinv b a => pack 1 (1#1) (pack 2 s (pack 7 (117#7) (pack 6 a (pack 6 b (pack 10 (128#10) 0)))))
  | .cwbi b a => pack 1 (1#1) (pack 2 s (pack 7 (117#7) (pack 6 a (pack 6 b (pack 10 (192#10) 0)))))
  | .fence k c => pack 1 (1#1) (pack 2 s (pack 7 (118#7) (pack 3 c (pack 2 k (pack 17 (0#17) 0)))))
  | .pfence t f => pack 1 (1#1) (pack 2 s (pack 7 (119#7) (pack 4 f (pack 4 t (pack 14 (0#14) 0)))))
  | .opinst b a => pack 1 (1#1) (pack 2 s (pack 7 (120#7) (pack 6 a (pack 6 b (pack 10 (0#10) 0)))))
  | .oprem b => pack 1 (1#1) (pack 2 s (pack 13 (120#13) (pack 6 b (pack 10 (64#10) 0))))
  | .opfire c b => pack 1 (1#1) (pack 2 s (pack 13 (120#13) (pack 6 b (pack 6 c (pack 4 (2#4) 0)))))
  | .opqry c b a => pack 1 (1#1) (pack 2 s (pack 7 (120#7) (pack 6 a (pack 6 b (pack 6 c (pack 4 (3#4) 0))))))
  | .cseal a => pack 1 (1#1) (pack 2 s (pack 7 (120#7) (pack 6 a (pack 16 (16384#16) 0))))
  | .cwait b => pack 1 (1#1) (pack 2 s (pack 13 (120#13) (pack 6 b (pack 10 (320#10) 0))))
  | .cntwait c b => pack 1 (1#1) (pack 2 s (pack 13 (120#13) (pack 6 b (pack 6 c (pack 4 (6#4) 0)))))
  | .cntadd c b => pack 1 (1#1) (pack 2 s (pack 13 (120#13) (pack 6 b (pack 6 c (pack 4 (7#4) 0)))))
  | .cntinit c b => pack 1 (1#1) (pack 2 s (pack 13 (120#13) (pack 6 b (pack 6 c (pack 4 (8#4) 0)))))
  | .mseal a => pack 1 (1#1) (pack 2 s (pack 7 (120#7) (pack 6 a (pack 16 (36864#16) 0))))
  | .mwait b => pack 1 (1#1) (pack 2 s (pack 13 (120#13) (pack 6 b (pack 10 (640#10) 0))))
  | .tzero c a => pack 1 (1#1) (pack 2 s (pack 7 (120#7) (pack 5 a (pack 7 (0#7) (pack 5 c (pack 5 (22#5) 0))))))
  | .tsta c b a => pack 1 (1#1) (pack 2 s (pack 7 (120#7) (pack 5 a (pack 1 (0#1) (pack 6 b (pack 5 c (pack 5 (24#5) 0)))))))
  | .tlda c b a => pack 1 (1#1) (pack 2 s (pack 7 (120#7) (pack 5 a (pack 1 (0#1) (pack 6 b (pack 5 c (pack 5 (26#5) 0)))))))
  | .tmul j q f c u => pack 1 (1#1) (pack 2 s (pack 7 (121#7) (pack 5 u (pack 5 c (pack 2 f (pack 6 q (pack 2 j (pack 2 (0#2) 0))))))))
  | .mbinit c b => pack 1 (1#1) (pack 2 s (pack 13 (122#13) (pack 6 b (pack 6 c (pack 4 (2#4) 0)))))
  | .mbarr b => pack 1 (1#1) (pack 2 s (pack 13 (122#13) (pack 6 b (pack 10 (192#10) 0))))
  | .mbexp c b => pack 1 (1#1) (pack 2 s (pack 13 (122#13) (pack 6 b (pack 6 c (pack 4 (4#4) 0)))))
  | .mbwait c b => pack 1 (1#1) (pack 2 s (pack 13 (122#13) (pack 6 b (pack 6 c (pack 4 (5#4) 0)))))
  | .mbtry c b a => pack 1 (1#1) (pack 2 s (pack 7 (122#7) (pack 6 a (pack 6 b (pack 6 c (pack 4 (6#4) 0))))))
  | .walk b a => pack 1 (1#1) (pack 2 s (pack 7 (122#7) (pack 6 a (pack 6 b (pack 10 (448#10) 0)))))
  | .wnext a => pack 1 (1#1) (pack 2 s (pack 7 (122#7) (pack 6 a (pack 16 (32768#16) 0))))
  | .trda c u t => pack 1 (1#1) (pack 2 s (pack 7 (123#7) (pack 7 t (pack 5 u (pack 2 (0#2) (pack 6 c (pack 2 (0#2) 0)))))))
  | .twra c u t => pack 1 (1#1) (pack 2 s (pack 7 (123#7) (pack 7 t (pack 5 u (pack 2 (1#2) (pack 6 c (pack 2 (0#2) 0)))))))
  | .shpub c b a => pack 1 (1#1) (pack 2 s (pack 7 (124#7) (pack 6 a (pack 6 b (pack 6 c (pack 4 (0#4) 0))))))
  | .shqry a => pack 1 (1#1) (pack 2 s (pack 7 (124#7) (pack 6 a (pack 16 (8192#16) 0))))
  | .ralloc b a => pack 1 (1#1) (pack 2 s (pack 7 (124#7) (pack 6 a (pack 6 b (pack 10 (192#10) 0)))))
  | .rfree b => pack 1 (1#1) (pack 2 s (pack 13 (124#13) (pack 6 b (pack 10 (256#10) 0))))
  | .trap n => pack 1 (1#1) (pack 2 s (pack 13 (124#13) (pack 12 n (pack 4 (6#4) 0))))
  | .supcall n => pack 1 (1#1) (pack 2 s (pack 13 (124#13) (pack 12 n (pack 4 (7#4) 0))))
  | .tlbinv c b => pack 1 (1#1) (pack 2 s (pack 13 (124#13) (pack 6 b (pack 6 c (pack 4 (9#4) 0)))))
  | .oppark b => pack 1 (1#1) (pack 2 s (pack 13 (124#13) (pack 6 b (pack 10 (640#10) 0))))
  | .phint n => pack 1 (1#1) (pack 2 s (pack 13 (124#13) (pack 12 n (pack 4 (11#4) 0))))
  | .rlabel n => pack 1 (1#1) (pack 2 s (pack 13 (124#13) (pack 12 n (pack 4 (12#4) 0))))
  | .tcopyLd m e v c h => pack 1 (1#1) (pack 2 s (pack 7 (125#7) (pack 6 h (pack 6 c (pack 7 v (pack 1 (0#1) (pack 1 e (pack 1 m 0))))))))
  | .tcopySt e v c h => pack 1 (1#1) (pack 2 s (pack 7 (125#7) (pack 6 h (pack 6 c (pack 7 v (pack 1 (1#1) (pack 1 e (pack 1 (0#1) 0))))))))
  | .rep r p c => pack 1 (1#1) (pack 2 s (pack 9 (127#9) (pack 6 c (pack 3 p (pack 2 r (pack 9 (0#9) 0))))))
  | .inv l d m y x k => pack 1 (1#1) (pack 2 s (pack 9 (255#9) (pack 2 k (pack 7 x (pack 7 y (pack 1 m (pack 1 d (pack 2 l 0))))))))
  | .modAlu p c k e f h i u => pack 1 (1#1) (pack 2 s (pack 9 (383#9) (pack 2 u (pack 1 i (pack 1 h (pack 1 f (pack 1 e (pack 5 k (pack 1 c (pack 6 p (pack 2 (0#2) 0)))))))))))
  | .modMemory o k w h c r => pack 1 (1#1) (pack 2 s (pack 9 (383#9) (pack 2 r (pack 3 c (pack 2 h (pack 1 w (pack 1 k (pack 9 o (pack 2 (1#2) 0)))))))))
  | .join => pack 1 (1#1) (pack 2 s (pack 29 (25#29) 0))
  | .ret => pack 1 (1#1) (pack 2 s (pack 29 (29#29) 0))
  | .exit => pack 1 (1#1) (pack 2 s (pack 29 (30#29) 0))
  | .nop => pack 1 (1#1) (pack 2 s (pack 29 (31#29) 0))
  | .yield => pack 1 (1#1) (pack 2 s (pack 29 (33554463#29) 0))
  | .barBlk => pack 1 (1#1) (pack 2 s (pack 29 (122#29) 0))
  | .barClu => pack 1 (1#1) (pack 2 s (pack 29 (33554554#29) 0))
  | .wend => pack 1 (1#1) (pack 2 s (pack 29 (301990010#29) 0))
  | .shwait => pack 1 (1#1) (pack 2 s (pack 29 (33554556#29) 0))
  | .trapf => pack 1 (1#1) (pack 2 s (pack 29 (167772284#29) 0))
  | .eret => pack 1 (1#1) (pack 2 s (pack 29 (268435580#29) 0))
  | .ckpt => pack 1 (1#1) (pack 2 s (pack 29 (436207740#29) 0))
  | .iend => pack 1 (1#1) (pack 2 s (pack 29 (469762172#29) 0))
  | .compactionMeeting _ => 0
  | .compactedGroupStart _ => 0
  | .compactionClose _ => 0
  | .stoseedWrite _ => 0
  | .wcodestClear _ => 0
  | .redinjArm _ => 0
  | .migcmdStart => 0
  | .migcmdRelease => 0
  | .migdescWrite _ => 0
  | .registerWrite _ _ => 0
  | .migrationCopyComplete _ => 0
  | .migrationCopyFail _ => 0
  | .groupPromotion _ => 0
  | .localityWindowEnd _ => 0
  | .sleepEnd _ => 0
  | .waitConditionMet _ => 0
  | .barrierDeparture _ _ => 0
  | .accessRepliesComplete _ => 0
  | .l1Writeback _ _ _ => 0
  | .l2SwcWriteback _ _ => 0
  | .queueWake _ => 0
  | .launchRecord _ => 0
  | .waitmemRecord _ => 0
  | .signalRecord _ => 0
  | .barrierRecord _ => 0
  | .launchStart _ => 0
  | .blockPlacement _ _ => 0
  | .launchCompletion _ => 0
  | .timeSliceExpiry _ => 0
  | .shapeApply _ => 0
  | .holdEntryDrain _ => 0
  | .inletStoreRequest _ => 0
  | .operatorWeightLoad _ => 0
  | .sequencerPass _ _ => 0
  | .slotCompletion _ _ => 0
  | .forwardDelivery _ _ => 0
  | .forwardRetry _ _ => 0
  | .forwardTimeout _ _ => 0
  | .outletWaitServe _ => 0
  | .outletWaitTimeout _ => 0
  | .operatorRemoval _ => 0
  | .arrayKstep _ _ => 0
  | .tzeroPerform _ => 0
  | .tldaPerform _ => 0
  | .tstaPerform _ => 0
  | .copyCompletion _ => 0
  | .trapRecordDelivery => 0
  | .trapRecordTimeout _ => 0
  | .answerApply _ _ _ => 0
  | .debuggerHalt _ => 0
  | .debuggerResume _ _ => 0
  | .preemptionRequest _ => 0
  | .forcedHardSave _ => 0
  | .blockSave _ => 0
  | .saveComplete _ => 0
  | .contextResume _ => 0
  | .signatureCompare _ _ => 0
  | .meetingPoint _ _ => 0
  | .fabricRequestReceive _ => 0
  | .atomicPacketReceive _ => 0
  | .opstoreReceive _ => 0
  | .dataReply _ => 0
  | .ackReply _ => 0
  | .nackReply _ => 0
  | .retryReply _ => 0
  | .inval _ => 0
  | .invack _ => 0
  | .recordPacket _ => 0
  | .noticePacket _ => 0
  | .retransmitTimeout _ => 0
  | .replyCacheExpiry _ _ _ => 0
  | .flowOff _ _ => 0
  | .flowOn _ _ => 0
  | .linkLoss _ => 0
  | .linkLossNotice _ => 0
  | .linkRetrained _ => 0
  | .swap => 0
  | .swapGraceExpiry => 0
  | .fberrClr => 0
  | .swfailClear => 0
  | .spawn _ _ _ => 0
  | .hostMemAccess _ _ _ _ => 0
  | .mailboxDoorbell _ => 0
  | .registerQueue _ _ => 0
  | .registerContext _ => 0
  | .preemptService _ => 0
  | .resumeService _ => 0
  | .discardService _ => 0
  | .fenceCore _ => 0
  | .retirePseudoChannel _ => 0
  | .retrainLink _ => 0
  | .domainCopy _ => 0
  | .reset _ => 0
  | .firmwareHandover _ _ => 0
  | .handoverTimeout => 0
  | .getVersion => 0
  | .getCapabilities => 0
  | .negotiateAlgorithms _ => 0
  | .getDigests => 0
  | .getCertificate => 0
  | .challenge _ => 0
  | .getMeasurements _ => 0
  | .replay _ => 0
  | .cap _ => 0
  | .caperrClear => 0
  | .tripClear => 0
  | .powerCapTick _ => 0
  | .thermalTick _ => 0
  | .thermalTrip _ => 0
  | .inputVoltageChange _ => 0
  | .inputRecoveryTimeout => 0
  | .retryDelayExpiry _ => 0
  | .rdmaRequestReceive _ _ _ _ _ => 0
  | .domainCopyCompletion _ _ _ => 0
  | .hostLinkTraining _ => 0
  | .journalDrain _ _ => 0

/-- The parcels of an instruction, in address order (R23). -/
def encode (i : Instr) (s : BitVec 2) : List Parcel := parcelsOf i.parcels (i.word s)

end Sys2Proof
end

