-- ==== Sys2Proof/Machine/Cells.lean ====
section
/-! DEFINITION. Sparse tables in canonical form (keys strictly rising, no zero value listed) and sets of copied bytes
(keys strictly rising): reading, writing, and writing a run of keys. Memory, scratchpad, registers and caches are held
in them, so equal contents are equal data. -/

namespace Sys2Proof.Machine

/-- Keys rise strictly, and all of them are at least `lo`. -/
def keysRise {α : Type} (lo : Nat) (c : List (Nat × α)) : Bool :=
  match c with
  | [] => true
  | (k, _) :: rest => decide (lo ≤ k) && keysRise (k + 1) rest

/-- The canonical form of a sparse table. -/
def cellsWf {w : Nat} (c : Cells w) : Bool :=
  keysRise 0 c && c.all (fun e => decide (e.2 ≠ 0#w))

/-- Memory is in its canonical form: addresses strictly rising, and no entry equal to what an unlisted address reads as,
which is 0 (assumption 3). -/
def Memory.wf (m : Cells 8) : Bool := cellsWf m

/-- The value at a key: 0 where none is listed. DESIGN CHOICE (assumption 3). -/
def readCell {w : Nat} (c : Cells w) (k : Nat) : BitVec w :=
  match c with
  | [] => 0#w
  | (j, v) :: rest => if j = k then v else readCell rest k

/-- The table with an entry put at its place. -/
def insertCell {w : Nat} (c : Cells w) (k : Nat) (v : BitVec w) : Cells w :=
  match c with
  | [] => [(k, v)]
  | (j, u) :: rest =>
    if j < k then (j, u) :: insertCell rest k v
    else if j = k then (k, v) :: rest
    else (k, v) :: (j, u) :: rest

/-- The table with one value changed; writing 0 removes the entry. -/
def writeCell {w : Nat} (c : Cells w) (k : Nat) (v : BitVec w) : Cells w :=
  if v = 0#w then c.filter (fun e => decide (e.1 ≠ k)) else insertCell c k v

/-- The entries `f lo`, …, `f (lo + n - 1)` that are not 0, in rising order. -/
def runCells {w : Nat} (lo n : Nat) (f : Nat → BitVec w) : Cells w :=
  match n with
  | 0 => []
  | n + 1 => if f lo = 0#w then runCells (lo + 1) n f else (lo, f lo) :: runCells (lo + 1) n f

/-- The table with the keys `lo` to `lo + n - 1` replaced by the values of `f`. -/
def writeRun {w : Nat} (c : Cells w) (lo n : Nat) (f : Nat → BitVec w) : Cells w :=
  c.filter (fun e => decide (e.1 < lo)) ++ (runCells lo n f ++ c.filter (fun e => decide (lo + n ≤ e.1)))

/-- The table `new` with the keys of a list as they are in `old`. -/
def keepCells {w : Nat} (old new : Cells w) (keys : List Nat) : Cells w :=
  keys.foldl (fun c k => writeCell c k (readCell old k)) new

/-- The keys at which two tables differ. -/
def changedKeys {w : Nat} (old new : Cells w) : List Nat :=
  ((old ++ new).map Prod.fst).eraseDups.filter (fun k => decide (readCell old k ≠ readCell new k))

/-- The byte copied at a key, if there is one. -/
def findCopy (c : Copies) (k : Nat) : Option Byte :=
  match c with
  | [] => none
  | (j, v) :: rest => if j = k then some v else findCopy rest k

/-- The copies with one byte put in. -/
def putCopy (c : Copies) (k : Nat) (v : Byte) : Copies :=
  match c with
  | [] => [(k, v)]
  | (j, u) :: rest =>
    if j < k then (j, u) :: putCopy rest k v
    else if j = k then (k, v) :: rest
    else (k, v) :: (j, u) :: rest

/-- The copies without the byte at a key. -/
def dropCopy (c : Copies) (k : Nat) : Copies := c.filter (fun e => decide (e.1 ≠ k))

/-- The table with every copied byte written into it. -/
def mergeCopies (m : Cells 8) (c : Copies) : Cells 8 := c.foldl (fun m e => writeCell m e.1 e.2) m

/-- `n` bytes from `a`, the lowest address first. -/
def readBytes (m : Cells 8) (a n : Nat) : List Byte :=
  match n with
  | 0 => []
  | n + 1 => readCell m a :: readBytes m (a + 1) n

/-- The bytes `bs` at `a` and above. -/
def writeBytes (m : Cells 8) (a : Nat) (bs : List Byte) : Cells 8 :=
  match bs with
  | [] => m
  | b :: rest => writeBytes (writeCell m a b) (a + 1) rest

/-- The little-endian number of a list of bytes (R2). -/
def bytesNat (bs : List Byte) : Nat :=
  match bs with
  | [] => 0
  | b :: rest => b.toNat + 256 * bytesNat rest

/-- The `n` bytes of a number, the low byte first (R2). -/
def natBytes (n v : Nat) : List Byte :=
  match n with
  | 0 => []
  | n + 1 => BitVec.ofNat 8 v :: natBytes n (v / 256)

end Sys2Proof.Machine
end

