-- ==== Sys2Proof/Machine/Num.lean ====
section
/-! DEFINITION. Numbers and formats (R113 to R119, R122): exact values, the rounding functions of R125, R126 and R128,
minimumNumber and maximumNumber (R131), and the conversions of R132 to R134. -/

namespace Sys2Proof.Machine

/-- The six sticky flags of one lane (R135): NV in bit 0, then DZ, OF, UF, NX and MV. -/
abbrev LaneFlags := BitVec 6

/-- The flags as a value, from which of them are raised (R135). -/
def flagsOf (nv dz of uf nx : Bool) : LaneFlags :=
  (if nv then 1#6 else 0#6) ||| (if dz then 2#6 else 0#6) ||| (if of then 4#6 else 0#6) |||
  (if uf then 8#6 else 0#6) ||| (if nx then 16#6 else 0#6)

/-- An exact value: a NaN (signalling or not), an infinity, or `(-1)^neg * m * 2^e` (R115). -/
inductive FVal where
  | nan (signalling : Bool)
  | inf (neg : Bool)
  | fin (neg : Bool) (m : Nat) (e : Int)
deriving DecidableEq, Repr

/-- A floating-point format (R114): its exponent and fraction bits, and whether it has infinities (E4M3 has none). -/
structure Fmt where
  ebits : Nat
  fbits : Nat
  infs  : Bool
deriving DecidableEq, Repr

/-- FP32 (R114). -/
def fp32 : Fmt := ⟨8, 23, true⟩
/-- FP16 (R114). -/
def fp16 : Fmt := ⟨5, 10, true⟩
/-- BF16 (R114). -/
def bf16 : Fmt := ⟨8, 7, true⟩
/-- E5M2 (R114). -/
def e5m2 : Fmt := ⟨5, 2, true⟩
/-- E4M3 (R114, R116). -/
def e4m3 : Fmt := ⟨4, 3, false⟩

/-- The exponent bias (R114). -/
def Fmt.bias (f : Fmt) : Nat := 2 ^ (f.ebits - 1) - 1

/-- The weight of the sign bit. -/
def Fmt.signWeight (f : Fmt) : Nat := 2 ^ (f.ebits + f.fbits)

/-- The canonical NaN (R114): the top fraction bit set; every fraction bit in E4M3. -/
def Fmt.canonical (f : Fmt) : Nat :=
  if f.infs then (2 ^ f.ebits - 1) * 2 ^ f.fbits + 2 ^ (f.fbits - 1) else 2 ^ (f.ebits + f.fbits) - 1

/-- The bits of a signed infinity (R115). -/
def Fmt.infBits (f : Fmt) (neg : Bool) : Nat :=
  (if neg then f.signWeight else 0) + (2 ^ f.ebits - 1) * 2 ^ f.fbits

/-- The bits of the largest finite value (R114). -/
def Fmt.maxBits (f : Fmt) : Nat := if f.infs then (2 ^ f.ebits - 1) * 2 ^ f.fbits - 1 else 2 ^ (f.ebits + f.fbits) - 2

/-- The value of a bit pattern (R115, R116). -/
def decodeF (f : Fmt) (x : Nat) : FVal :=
  let neg := decide (x / f.signWeight % 2 = 1)
  let e := x / 2 ^ f.fbits % 2 ^ f.ebits
  let frac := x % 2 ^ f.fbits
  let low : Int := 1 - (f.bias : Int) - (f.fbits : Int)
  if e = 0 then .fin neg frac low
  else if e + 1 = 2 ^ f.ebits && f.infs then
    (if frac = 0 then .inf neg else .nan (decide (frac < 2 ^ (f.fbits - 1))))
  else if e + 1 = 2 ^ f.ebits && frac + 1 = 2 ^ f.fbits then .nan false
  else .fin neg (2 ^ f.fbits + frac) ((e : Int) - 1 + low)

/-- A rounding mode (R123); stochastic rounding carries the lane's state (R128). -/
inductive RMode where
  | rne
  | rtz
  | rdn
  | rup
  | sto (state : BitVec 32)
deriving DecidableEq, Repr

/-- The number of bits of a magnitude. -/
def bitLen (m : Nat) : Nat := if m = 0 then 0 else Nat.log2 m + 1

/-- Round `m / 2^k` to an integer in a mode (R125, R128): the integer, and whether it is inexact. -/
def roundQuot (mode : RMode) (neg : Bool) (m k : Nat) : Nat × Bool :=
  let q := m / 2 ^ k
  let r := m % 2 ^ k
  let up :=
    match mode with
    | .rne => decide (2 ^ k < 2 * r) || (decide (2 * r = 2 ^ k) && decide (q % 2 = 1))
    | .rtz => false
    | .rdn => neg && decide (r ≠ 0)
    | .rup => !neg && decide (r ≠ 0)
    | .sto st => decide (2 ^ 32 ≤ r * 2 ^ 32 / 2 ^ k + st.toNat)
  (if up then q + 1 else q, decide (r ≠ 0))

/-- Round `m * 2^e` to a multiple of `2^q` in a mode: the multiple, and whether it is inexact. -/
def roundTo (mode : RMode) (neg : Bool) (m : Nat) (e q : Int) : Nat × Bool :=
  if q ≤ e then (m * 2 ^ (e - q).toNat, false) else roundQuot mode neg m (q - e).toNat

/-- The overflow result of a mode (R125). -/
def overflowBits (f : Fmt) (mode : RMode) (neg : Bool) : Nat :=
  let sign := if neg then f.signWeight else 0
  let big := sign + f.maxBits
  if f.infs then
    match mode with
    | .rne => f.infBits neg
    | .sto _ => f.infBits neg
    | .rtz => big
    | .rdn => if neg then f.infBits true else big
    | .rup => if neg then big else f.infBits false
  else big

/-- R125, R126, R128: an exact finite value rounded into a format, with the flags. DEDUCED (assumption 30). -/
def roundFin (f : Fmt) (mode : RMode) (neg : Bool) (m : Nat) (e : Int) : Nat × LaneFlags :=
  let sign := if neg then f.signWeight else 0
  if m = 0 then (sign, 0#6) else
  let p : Int := (f.fbits : Int) + 1
  let low : Int := 1 - (f.bias : Int) - (f.fbits : Int)
  let q := e + (bitLen m : Int) - p
  let (r, inx) := roundTo mode neg m e q
  let top : Int := (2 ^ f.ebits : Nat) - (if f.infs then 2 else 1) - (f.bias : Int) - (f.fbits : Int)
  let maxSig := if f.infs then 2 ^ (f.fbits + 1) - 1 else 2 ^ (f.fbits + 1) - 2
  if top < q ∨ (q = top ∧ maxSig < r) then (overflowBits f mode neg, flagsOf false false true false true)
  else if q + (bitLen r : Int) ≤ low + (f.fbits : Int) then
    let (s, inx') := roundTo mode neg m e low
    (sign + s, flagsOf false false false inx' inx')
  else if q < low then
    -- The value is below the smallest normal value and rounds up to it: R128 still rounds on the subnormal grid.
    match mode with
    | .sto _ =>
      let (s, inx') := roundTo mode neg m e low
      (sign + s, flagsOf false false false false inx')
    | _ => (sign + 2 ^ f.fbits, flagsOf false false false false inx)
  else
    let (r', q') := if r = 2 ^ (f.fbits + 1) then (2 ^ f.fbits, q + 1) else (r, q)
    (sign + (q' - low + 1).toNat * 2 ^ f.fbits + (r' - 2 ^ f.fbits), flagsOf false false false false inx)

/-- A value delivered in a format with infinities or E4M3: canonical NaN, infinity, or rounded (R125, R130). -/
def deliver (f : Fmt) (mode : RMode) (v : FVal) : Nat × LaneFlags :=
  match v with
  | .nan _ => (f.canonical, 0#6)
  | .inf neg => (if f.infs then f.infBits neg else f.canonical, 0#6)
  | .fin neg m e => roundFin f mode neg m e

/-! ## Exact arithmetic -/

/-- The signed integer that a finite value is at the exponent `b`, where `b ≤ e`. -/
def scaled (neg : Bool) (m : Nat) (e b : Int) : Int :=
  let k : Int := m * 2 ^ (e - b).toNat
  if neg then -k else k

/-- Is this a signalling NaN (R130)? -/
def FVal.isSig (v : FVal) : Bool :=
  match v with
  | .nan s => s
  | _ => false

/-- Is this a NaN? -/
def FVal.isNan (v : FVal) : Bool :=
  match v with
  | .nan _ => true
  | _ => false

/-- The value with its sign changed; a NaN stays a NaN (R171). -/
def FVal.negate (v : FVal) : FVal :=
  match v with
  | .nan s => .nan s
  | .inf n => .inf (!n)
  | .fin n m e => .fin (!n) m e

/-- The value without its sign (R171). -/
def FVal.abs (v : FVal) : FVal :=
  match v with
  | .nan s => .nan s
  | .inf _ => .inf false
  | .fin _ m e => .fin false m e

/-- The value times a power of two (R171, R278). -/
def FVal.scale (v : FVal) (k : Int) : FVal :=
  match v with
  | .fin n m e => .fin n m (e + k)
  | v => v

/-- An exact sum (R126): a zero sum of unlike signs is +0, or −0 when rounding down. -/
def addFin (down : Bool) (n1 : Bool) (m1 : Nat) (e1 : Int) (n2 : Bool) (m2 : Nat) (e2 : Int) : FVal :=
  let b := min e1 e2
  let t := scaled n1 m1 e1 b + scaled n2 m2 e2 b
  if t = 0 then .fin (if n1 = n2 then n1 else down) 0 b
  else .fin (decide (t < 0)) t.natAbs b

/-- `a + b`, and whether the operation is invalid (R130, R153). -/
def FVal.add (down : Bool) (a b : FVal) : FVal × Bool :=
  match a, b with
  | .nan s, b => (.nan false, s || b.isSig)
  | a, .nan s => (.nan false, s || a.isSig)
  | .inf x, .inf y => if x = y then (.inf x, false) else (.nan false, true)
  | .inf x, _ => (.inf x, false)
  | _, .inf y => (.inf y, false)
  | .fin n1 m1 e1, .fin n2 m2 e2 => (addFin down n1 m1 e1 n2 m2 e2, false)

/-- `a * b`, and whether the operation is invalid (R153). -/
def FVal.mul (a b : FVal) : FVal × Bool :=
  match a, b with
  | .nan s, b => (.nan false, s || b.isSig)
  | a, .nan s => (.nan false, s || a.isSig)
  | .inf x, .inf y => (.inf (x != y), false)
  | .inf x, .fin y m _ => if m = 0 then (.nan false, true) else (.inf (x != y), false)
  | .fin x m _, .inf y => if m = 0 then (.nan false, true) else (.inf (x != y), false)
  | .fin n1 m1 e1, .fin n2 m2 e2 => (.fin (n1 != n2) (m1 * m2) (e1 + e2), false)

/-- `a * b + d` without rounding the product (R153): 0 times infinity is invalid whatever `d` holds. -/
def FVal.fma (down : Bool) (a b d : FVal) : FVal × Bool :=
  let p := FVal.mul a b
  let s := FVal.add down p.1 d
  (s.1, p.2 || s.2)

/-- Strictly below, with −0 below +0 (R131, R172); false when either is a NaN. -/
def FVal.lt (a b : FVal) : Bool :=
  match a, b with
  | .nan _, _ => false
  | _, .nan _ => false
  | .inf x, .inf y => x && !y
  | .inf x, .fin _ _ _ => x
  | .fin _ _ _, .inf y => !y
  | .fin n1 m1 e1, .fin n2 m2 e2 =>
    let b := min e1 e2
    let x := scaled n1 m1 e1 b
    let y := scaled n2 m2 e2 b
    decide (x < y) || (decide (x = 0 ∧ y = 0) && n1 && !n2)

/-- Numerically equal: both zeros are equal, a NaN equals nothing (R151). -/
def FVal.eqv (a b : FVal) : Bool :=
  match a, b with
  | .inf x, .inf y => x == y
  | .fin n1 m1 e1, .fin n2 m2 e2 =>
    let b := min e1 e2
    decide (scaled n1 m1 e1 b = scaled n2 m2 e2 b)
  | _, _ => false

/-- min(max(v, lo), hi) on exact values (R172): a NaN bound is ignored, a NaN passes through. -/
def FVal.clamp (v lo hi : FVal) : FVal :=
  if v.isNan then v
  else
    let v' := if FVal.lt v lo then lo else v
    if FVal.lt hi v' then hi else v'

/-- R131 on bit patterns: minimumNumber (`big` false) or maximumNumber, and whether a signalling NaN sets NV. -/
def minMaxBits (f : Fmt) (big : Bool) (x y : Nat) : Nat × Bool :=
  let a := decodeF f x
  let b := decodeF f y
  let nv := a.isSig || b.isSig
  if a.isNan && b.isNan then (f.canonical, nv)
  else if a.isNan then (y, nv)
  else if b.isNan then (x, nv)
  else if big then (if FVal.lt a b then y else x, nv)
  else (if FVal.lt b a then y else x, nv)

/-! ## Integers -/

/-- The signed reading of the low `n` bits (R113). -/
def signedOf (n x : Nat) : Int :=
  let y := x % 2 ^ n
  if 2 ^ (n - 1) ≤ y then (y : Int) - 2 ^ n else y

/-- x modulo 2^n as an unsigned value (R8). -/
def wrapNat (n : Nat) (x : Int) : Nat := (x % (2 ^ n : Nat)).toNat

/-- `sat_i` (R8): the value clamped to the signed n-bit range, and whether it was clamped. -/
def satI (n : Nat) (x : Int) : Int × Bool :=
  let lo : Int := -(2 ^ (n - 1) : Nat)
  let hi : Int := (2 ^ (n - 1) : Nat) - 1
  if x < lo then (lo, true) else if hi < x then (hi, true) else (x, false)

/-- `sat_z` (R8): the value clamped to the unsigned n-bit range, and whether it was clamped. -/
def satZ (n : Nat) (x : Int) : Int × Bool :=
  let hi : Int := (2 ^ n : Nat) - 1
  if x < 0 then (0, true) else if hi < x then (hi, true) else (x, false)

/-- An integer as an exact value. -/
def FVal.ofInt (x : Int) : FVal := .fin (decide (x < 0)) x.natAbs 0

/-! ## Conversions (R132 to R134, R158) -/

/-- A format code of VCVT (R55). -/
inductive CvtFmt where
  | int (bits : Nat)
  | nat (bits : Nat)
  | float (f : Fmt)
  | e8m0
deriving DecidableEq, Repr

/-- R55: the format of a code; codes above 11 are refused by the decoder. -/
def cvtFmt (c : BitVec 4) : CvtFmt :=
  match c.toNat with
  | 0 => .int 32
  | 1 => .nat 32
  | 2 => .float fp32
  | 3 => .float fp16
  | 4 => .float bf16
  | 5 => .float e4m3
  | 6 => .float e5m2
  | 7 => .e8m0
  | 8 => .int 8
  | 9 => .nat 8
  | 10 => .int 16
  | _ => .nat 16

/-- The exact value of a source in its format (R118, R158). -/
def cvtRead (c : CvtFmt) (x : Nat) : FVal :=
  match c with
  | .int n => .ofInt (signedOf n x)
  | .nat n => .ofInt (x % 2 ^ n : Nat)
  | .float f => decodeF f (x % (2 * f.signWeight))
  | .e8m0 => if x % 256 = 255 then .nan false else .fin false 1 ((x % 256 : Nat) - 127)

/-- Is the format an integer one? -/
def CvtFmt.isInt (c : CvtFmt) : Bool :=
  match c with
  | .int _ => true
  | .nat _ => true
  | _ => false

/-- R133: a finite value into an integer format, from an integer source or not. -/
def toInteger (signed : Bool) (n : Nat) (fromInt : Bool) (mode : RMode) (neg : Bool) (m : Nat) (e : Int) :
    Int × LaneFlags :=
  let (q, inx) := roundTo mode neg m e 0
  let r : Int := if neg then -(q : Int) else q
  let (s, out) := if signed then satI n r else satZ n r
  if out then (s, if fromInt then flagsOf false false true false false else flagsOf true false false false false)
  else (r, flagsOf false false false false inx)

/-- R134: a positive finite value `m * 2^e` into E8M0. -/
def toE8m0 (mode : RMode) (m : Nat) (e : Int) : Nat × LaneFlags :=
  let l := bitLen m
  let x : Int := e + (l : Int) - 1
  let k := l - 1
  let r := m - 2 ^ k
  let up :=
    match mode with
    | .rne => decide (2 ^ k < 2 * r) || (decide (2 * r = 2 ^ k) && decide ((x + 127) % 2 = 1))
    | .rtz => false
    | .rdn => false
    | .rup => decide (r ≠ 0)
    | .sto st => decide (2 ^ 32 ≤ r * 2 ^ 32 / 2 ^ k + st.toNat)
  let y := if up then x + 1 else x
  if y < -127 then (0, flagsOf false false false true true)
  else if 127 < y then (254, flagsOf false false true false true)
  else ((y + 127).toNat, flagsOf false false false false (decide (r ≠ 0)))

/-- R132 to R134, R158: the bits a conversion writes in a 32-bit lane, and its flags. -/
def convert (fromInt : Bool) (dst : CvtFmt) (mode : RMode) (v : FVal) : Nat × LaneFlags :=
  let nv := flagsOf true false false false false
  match dst, v with
  | .int _, .nan _ => (0, nv)
  | .nat _, .nan _ => (0, nv)
  | .int n, .inf neg => (wrapNat 32 (if neg then -(2 ^ (n - 1) : Nat) else (2 ^ (n - 1) : Nat) - 1), nv)
  | .nat n, .inf neg => (if neg then 0 else 2 ^ n - 1, nv)
  | .int n, .fin neg m e => let r := toInteger true n fromInt mode neg m e; (wrapNat 32 r.1, r.2)
  | .nat n, .fin neg m e => let r := toInteger false n fromInt mode neg m e; (r.1.toNat, r.2)
  | .float f, .nan s => (f.canonical, if s then nv else 0#6)
  | .float f, .inf neg => if f.infs then (f.infBits neg, 0#6) else (f.canonical, nv)
  | .float f, .fin neg m e => roundFin f mode neg m e
  | .e8m0, .nan s => (255, if s then nv else 0#6)
  | .e8m0, .inf _ => (255, nv)
  | .e8m0, .fin neg m e =>
    if m = 0 then (0, flagsOf false false false true true)
    else if neg then (255, nv)
    else toE8m0 mode m e

/-- R117: the ordered-integer key of an FP32 bit pattern, as a signed number. -/
def keyF32 (x : BitVec 32) : Int :=
  (if x.msb then x ^^^ 0x7FFFFFFF#32 else x).toInt

/-- R117: the FP32 bit pattern of a key. -/
def unkeyF32 (k : Int) : BitVec 32 :=
  if 0 ≤ k then BitVec.ofInt 32 k else BitVec.ofInt 32 k ^^^ 0x7FFFFFFF#32

/-- R127: one step of a lane's xorshift state. -/
def xorshift (x : BitVec 32) : BitVec 32 :=
  let a := x ^^^ (x <<< 13)
  let b := a ^^^ (a >>> 17)
  b ^^^ (b <<< 5)

/-- R127: the state of lane `l` after seeding with `s`. -/
def seedState (s : BitVec 32) (l : Nat) : BitVec 32 :=
  let x := s ^^^ BitVec.ofNat 32 ((l + 1) * 0x9E3779B9)
  if x = 0#32 then 1#32 else x

end Sys2Proof.Machine
end

