-- ==== Sys2Proof/Machine/State.lean ====
section
/-! DEFINITION. The state of the device: groups, blocks, cores, operators, launches, queues, contexts, the fabric, the
firmware complex and the power management, and what a step may stop with. Everything is plain data. INVENTORY.md lists
each piece with the rule that names it and its reset value. -/

namespace Sys2Proof.Machine

/-! ## Traps -/

/-- The 128-byte trap record (R350). -/
structure TrapRecord where
  cause  : Byte := 0
  sec    : Byte := 0
  kind   : Nat := 1
  pv     : Bool := false
  sup    : Bool := false
  code   : BitVec 12 := 0
  pc     : Word := 0
  va     : Word := 0
  token  : Word := 0
  fmask  : Mask := 0
  pmask  : Mask := 0
  repidx : BitVec 6 := 0
  invst  : BitVec 12 := 0
  origin : Word := 0
  ctx    : BitVec 32 := 0
  gid    : Nat := 0
  block  : Nat := 0
  time   : Word := 0
  unit   : Word := 0
  arg0   : Word := 0
  arg1   : Word := 0
  arg2   : Word := 0
deriving DecidableEq, Repr

/-- A stop that waits for an answer (R346, R353): its record, the length of the stopping unit in bytes, whether the unit
is a REP unit, and whether the stop is a refusal of a draining entry (R308). -/
structure Stop where
  record : TrapRecord
  length : Nat
  isRep  : Bool
  drain  : Bool
deriving DecidableEq, Repr

/-- A record on its way to a trap queue (R351): the device that serves it (none: the policy firmware), the launch it came
from, and the request in which it travels to a peer, whose acceptance it awaits. -/
structure FlyingRecord where
  server : Option (BitVec 13)
  launch : Nat
  record : TrapRecord
  sent   : Option Nat
deriving DecidableEq, Repr

/-! ## Groups -/

/-- The kind of a reconvergence entry (R80). -/
inductive EntryKind where
  | join
  | path
  | call
deriving DecidableEq, Repr

/-- A reconvergence entry (R80, R101): `seq` is its age within the block; a spilled entry names the tick at which it was
written to the spill area, and its place there. -/
structure Entry where
  kind    : EntryKind
  pc      : Word
  mask    : Mask
  seq     : Nat
  spilled : Option (Nat × Nat)
deriving DecidableEq, Repr

/-- What an undersized distance may return old (R26, R30): a vector register or the lane flags. -/
inductive HazardReg where
  | vector (r : Nat)
  | flags
  | span
deriving DecidableEq, Repr

/-- A result that is not yet at its required distance (R27): the register, the class's distance, the distance so far,
and the values before the producer (lane words, or the six flag masks). -/
structure Hazard where
  reg      : HazardReg
  need     : Nat
  gone     : Nat
  oldLanes : Cells 32
  oldFlags : Cells 96
deriving DecidableEq, Repr

/-- A piece of engine work that a batch covers (R325, R327): its number, the batch it was sealed into (0: the open
batch), whether it is complete, and a recorded cause with its address. -/
structure Work where
  id    : Nat
  batch : Nat
  done  : Bool
  cause : Option (Byte × Word)
deriving DecidableEq, Repr

/-- A tile walk in progress (R298, R332): the tile counts, which permutation was chosen, and how many tiles have been
given. -/
structure Walk where
  counts : List Nat
  order  : Nat
  given  : Nat
deriving DecidableEq, Repr

/-- The access that an entry of the hold buffer or a store request carries (R214, R303). -/
structure Ordering where
  order : BitVec 2
  scope : BitVec 3
deriving DecidableEq, Repr

/-- An entry of the hold buffer (R303): one aligned 64-byte line, its bytes by virtual address with the store unit that
wrote each, the unit's address and ordering, whether it may still merge, the barriers passed before it (R305): of the
block, and of the cluster, the request that its release awaits, the unit number before which every entry of another group
of the block that the group has synchronised with was made (R239), and FSTRM.ID as its units read it (R412). -/
structure HoldEntry where
  line     : Nat
  bytes    : List (Nat × Byte × Nat)
  pc       : Word
  ordering : Ordering
  mayMerge : Bool
  epoch    : Nat × Nat
  sent     : Option Nat
  after    : Nat
  stream   : BitVec 12
deriving DecidableEq, Repr

/-- A signature of a store unit that its partner has not matched yet (R373). -/
structure Signature where
  unit : Nat
  crc  : BitVec 32
deriving DecidableEq, Repr

/-- What a group of a pair waits to meet (R376): the unit's address, its signature, and what kind of unit it is. -/
structure Meeting where
  kind : Nat
  crc  : BitVec 32
deriving DecidableEq, Repr

/-- What a waiting group waits for (R212, R296, R302, R311, R377). The PC stands at the waiting unit. -/
inductive Wait where
  | copyBatch (n : Nat)
  | matrixBatch (n : Nat)
  | counter (addr : Nat) (limit : BitVec 32)
  | phase (addr : Nat) (old : Bool)
  | barrierBlock
  | barrierCluster
  | shape
  | removal (handle : Word)
  | parking (handle : Word)
  | invalidation (core : Nat) (scope : Nat) (ctx : BitVec 32)
  | replies
  | outlet
  | confirmation
  | holdRoom
  | slack
  | drained
  | partner (m : Meeting)
  | forwarded
  | sleep
  | compaction (target : Word) (taken other : Mask) (join : Word)
  | regionEnd
deriving DecidableEq, Repr

/-- Where a group stands (R346, R360, R363, R376). -/
inductive Status where
  | running
  | waiting (w : Wait)
  | stopped
  | held
  | saved (live : Option Nat)
  | ended
deriving DecidableEq, Repr

/-- A debugger halt (R92, R354): the code of a BKPT, and whether the group stands at one. -/
structure Halt where
  code     : BitVec 12
  atBkpt   : Bool
deriving DecidableEq, Repr

/-- Where an access writes what it reads (R76, R217, R223): nowhere, vector registers from `t`, or the scalar `d`;
`size` is in bytes, and `signed` says that a short value is sign-extended. -/
inductive Dest where
  | none
  | lanes (t size : Nat) (signed : Bool)
  | scalar (d size : Nat) (signed : Bool)
deriving DecidableEq, Repr

/-- The replies a group's instruction waits for (R212): the requests still out, each with its lanes and their offsets in
the request's line, the addresses of those lanes, the length of the unit, where values go, the lanes accepted, the lanes
refused with their causes and addresses, the values read so far, the ordering, whether it is a scalar access or an atomic,
the lanes whose `.wt` loads a sequencer of this device holds, with their addresses (R266), whether it is a `.take` load,
and the held entries that the group's loads saw when the access was issued (R302, R373). -/
structure Pending where
  requests : List (Nat × List (Nat × Nat))
  vas      : List (Nat × Word)
  length   : Nat
  dest     : Dest
  got      : Mask
  refused  : List (Nat × Byte × Word)
  values   : List (Nat × Nat)
  order    : Nat
  scope    : Nat
  scalar   : Bool
  atomic   : Bool
  waits    : List (Nat × Word)
  take     : Bool
  held     : List HoldEntry
deriving DecidableEq, Repr

/-- The reply to a request for a peer's line: its bytes, or the cause that refuses it (R408), with the stream and the number
of the request (R417). -/
inductive RemoteReply where
  | bytes (bs : List (Nat × Byte))
  | refused (c : Byte) (stream seq : Word)
deriving DecidableEq, Repr

/-- A line of a peer page that an instruction reads before it can be performed (R212, R393): its device and number, the
offsets that it reads, the request for it, and, once the reply is there, its bytes or the cause it was refused with. -/
structure RemoteLine where
  dev    : BitVec 13
  line   : Nat
  offs   : List Nat
  id     : Nat
  answer : Option RemoteReply
deriving DecidableEq, Repr

/-- One group (R12, R94): its PC, registers, masks, reconvergence entries and engine work. A compacted group (R104) holds
its control state here and takes its lane state from the groups its quads come from, which `carrier` names. `pace` is the
stall count of the unit it executes (R26); `aim` holds the target words that an INV unit in progress read too early
(R187); `remote` the lines of peer pages that the unit at the PC has asked for. -/
structure Group where
  pc       : Word
  scalars  : Cells 64
  exec     : Mask
  present  : Mask
  helper   : Mask
  vectors  : Cells 32
  preds    : Cells 96
  flags    : Cells 96
  brackets : Cells 32
  rng      : Cells 32
  frm      : BitVec 3
  ten      : BitVec 7
  chk      : Bool
  invtol   : BitVec 32
  invst    : BitVec 12
  repidx   : BitVec 6
  idz      : Bool
  stoseed  : BitVec 32
  opkey    : BitVec 16
  cklive   : BitVec 12
  fstrm    : BitVec 12
  sepc     : Word
  gid      : Nat
  role     : Nat
  roleGid  : Nat
  budget   : Nat
  slot     : Nat
  entries  : List Entry
  hazards  : List Hazard
  copies   : List Work
  copySeal : Nat
  matrix   : List Work
  matSeal  : Nat
  walk     : Option Walk
  rlabel   : Option (Nat × Nat)
  redo     : Mask
  arrivedB : Bool
  arrivedC : Bool
  status   : Status
  halt     : Option Halt
  stop     : Option Stop
  active   : Bool
  readyAt  : Nat
  pending  : Option Pending
  holds    : List HoldEntry
  sigs     : List Signature
  met      : Option Meeting
  carrier  : List (Option Nat)
  started  : Bool
  pace     : BitVec 2
  aim      : Option (Cells 32)
  remote   : List RemoteLine
deriving DecidableEq, Repr

/-! ## Blocks -/

/-- The mode of a block under a maquette launch (R302, R304). -/
inductive Mode where
  | normal
  | tentative
  | confirmed
deriving DecidableEq, Repr

/-- What a checkpoint holds of one group (R377, R379): the group as it was, with the PC after the checkpoint, which of its
vectors, scalars, predicates and bracket registers the checkpoint holds beside the always-saved state, the engine work of
the trailing group, and the scratchpad bytes and accumulator cells of its record in each block of the pair. -/
structure Checkpoint where
  gid    : Nat
  group  : Group
  vecIn  : BitVec 128
  sclIn  : BitVec 64
  prdIn  : BitVec 8
  brkIn  : BitVec 4
  trailC : List Work
  trailM : List Work
  scrIn  : List (Nat × Nat)
  scr    : Cells 8
  accIn  : BitVec 32
  acc    : Cells 32
  poison : BitVec 128
deriving DecidableEq, Repr

/-- A block's place in a redundant pair (R371): its partner, whether it leads, the mismatch count of each pair of groups,
the values that leading groups have read for trailing ones (R372), and the checkpoint of each group. -/
structure Pair where
  partner  : Nat
  leading  : Bool
  mismatch : List Nat
  forward  : List (Nat × Word)
  checks   : List Checkpoint
deriving DecidableEq, Repr

/-- A block (R94): where it runs, its groups, its share of the pool with the poison marks of its units (R273), its modes,
how many block and cluster barriers it has left (R305), and whether the record of a hard save has gone (R363). -/
structure Block where
  id       : Nat
  launch   : Nat
  lin      : Nat
  core     : Nat
  groups   : List Group
  region   : Option (List Group × Word)
  seq      : Nat
  spillCap : Nat
  scratch  : Cells 8
  acc      : Cells 32
  poison   : BitVec 128
  weights  : Cells 8
  arena    : Nat
  allocs   : List Nat
  mode     : Mode
  pair     : Option Pair
  fatal    : Bool
  took85   : Bool
  ended    : Bool
  epoch    : Nat × Nat
  hard     : Bool
deriving DecidableEq, Repr

/-! ## Cores -/

/-- A piece of queued matrix work (R315, R318, R320). -/
inductive ArrayWork where
  | kstep (unit cols accf code : Nat) (clear : Bool) (aOff wOff : Nat) (wScratch : Bool) (ks : Nat)
      (actScales weightScales : List Byte)
  | zero (unit count : Nat)
  | load (unit count addr : Nat)
  | store (unit count addr : Nat)
deriving DecidableEq, Repr

/-- Queued matrix work with the group that issued it. `did` holds the keys of the accumulator cells, or for TSTA the
scratchpad offsets, that the work has written ahead of its completion (R320); `img` is the block whose scratchpad holds
the image of a TLDA or TSTA, and `passed` says that the checks of a K-step have passed (R283). -/
structure ArrayJob where
  id   : Nat
  blk  : Nat
  grp  : Nat
  work : ArrayWork
  did  : List Nat
  img  : Nat
  passed : Bool
deriving DecidableEq, Repr

/-- The state of an operator slot (R263). -/
inductive SlotState where
  | empty
  | filling
  | queued
  | computing
  | ready
deriving DecidableEq, Repr

/-- An operator slot (R257, R260, R263): the bytes written (bit `k` of `mask`: byte `k`), the element bytes a fire captured,
the claim holder, the firing writer, the generation, the error and the tag of the trailer (R264), whether its result is
poisoned, and a number that rises from fire to fire (R261). -/
structure Slot where
  state   : SlotState
  mask    : Nat
  capture : List Byte
  claim   : Option (BitVec 32)
  firing  : BitVec 32
  gen     : BitVec 24
  err     : BitVec 4
  tag     : BitVec 32
  poisoned : Bool
  stamp   : Nat
deriving DecidableEq, Repr

/-- The operator descriptor as OPINST read it (R248). -/
structure OpDesc where
  wimg  : Word
  wscl  : Word
  inlet : Word
  outlet : Word
  kop   : Nat
  nop   : Nat
  slots : Nat
  tmo   : Nat
  wfmt  : Nat
  afmt  : Nat
  accf  : Nat
  ofmt  : Nat
  wpol  : Nat
  fpol  : Bool
  rmode : Nat
  racc  : Bool
  key   : BitVec 16
  fstr  : Nat
  store : Nat
  cnt   : Nat
  cnten : Bool
deriving DecidableEq, Repr

/-- An installed operator (R253 to R256, R368): its handle, the context and block that installed it, its index on the
core, the weights, scales and checksum columns by plane (R282) once loaded, the slots, the fired slots in firing order,
the pass in progress, the results being delivered, the words of a delivery that are left (R268) and those that await
replies, and whether it is being removed, is parked, or is to be installed again, and whether its load has been counted
(R254). -/
structure Operator where
  handle  : Nat
  index   : Nat
  ctx     : BitVec 32
  blk     : Nat
  desc    : OpDesc
  weights : Cells 8
  scales  : Cells 8
  sums    : List (List Int)
  loaded  : Bool
  failed  : Bool
  slots   : List Slot
  fired   : List Nat
  pass    : List Nat
  results : List (Nat × List Byte)
  poison  : Bool
  left    : Option (List Nat)
  awaiting : List (Nat × List Nat)
  removing : Bool
  parked  : Bool
  reinstall : Bool
  counted : Bool
deriving DecidableEq, Repr

/-- A core (R193, R200, R201, R297, R446): its array queue, its operators, the dirty and clean bytes of its L1, its
constant and sampler caches, the load throttle with the victim tags and the loads and victim hits of its window (R297),
and how often a spare has taken its place. A key of the L1 is twice the physical address, plus 1 for a byte of a
software-coherent page (R400). A core that is not listed is a fresh one. -/
structure Core where
  id       : Nat
  rsv      : Bool
  queue    : List ArrayJob
  ops      : List Operator
  l1Dirty  : Copies
  l1Clean  : Copies
  constant : Copies
  sampler  : Copies
  throttle : Nat
  spare    : Nat
  fenced   : Bool
  victims  : List Nat
  loads    : Nat
  hits     : Nat
deriving DecidableEq, Repr

/-- One die: its L2's copies of software-coherent lines (R400), and the last CYCLE value read on it (R34). -/
structure Die where
  id    : Nat
  dirty : Copies
  clean : Copies
  cycle : Nat
deriving DecidableEq, Repr

/-! ## Copies -/

/-- Where translation says an access is served (R393). -/
inductive Place where
  | local (pa : Nat) (swc uncached migrating : Bool)
  | peer (dev : BitVec 13) (pa : Nat) (rap : Bool)
  | host (pa : Nat)
  | window (va : Nat)
deriving DecidableEq, Repr

/-- One element of a box (R323): its offset in the box, where its global bytes stand when it is in bounds, what its source
held when the copy was issued, whether it has landed ahead of the completion (R326), whether single bytes of it have, and
whether its source has been read for good. -/
structure CopyElem where
  off : Nat
  at_ : Option (Word × Place)
  was : List Byte
  landed : Bool
  torn : Bool
  taken : Bool
deriving DecidableEq, Repr

/-- A copy in progress (R321 to R325): the issuing group, the direction, whether it goes to every block of the cluster or to
the weight store, the block and the offset of its scratchpad side, its elements in order, its counter and its credit (block
and offset), the box bytes, the writer tag, and the requests it has sent, each with the number of its element. -/
structure Copy where
  id     : Nat
  blk    : Nat
  grp    : Nat
  store  : Bool
  mcast  : Bool
  toStore : Bool
  dst    : Nat
  base   : Nat
  esz    : Nat
  elems  : List CopyElem
  cnt    : Option (Nat × Nat)
  credit : Option (Nat × Nat)
  bytes  : Nat
  tag    : BitVec 32
  requests : List (Nat × Nat)
deriving DecidableEq, Repr

/-! ## Launches, queues and contexts -/

/-- The header of a context image (R357), with its bytes as the launch engine read them. -/
structure Header where
  bytes    : List Byte
  saved    : Bool
  entry    : Word
  grid     : Word
  threads  : Nat
  clsize   : Nat
  debug    : Bool
  red      : Bool
  part     : BitVec 32
  roles    : List (Nat × Nat)
  budget   : Nat
  wres     : Nat
  deadline : Nat
  spill    : Word
  spillN   : Nat
  slack    : Nat
  ckpta    : Word
  live     : Word
  nlive    : Nat
  nrest    : Nat
  rest     : Word
  sdecl    : Word
  save     : Word
  svals    : List Word
deriving DecidableEq, Repr

/-- A launch record (R290) or a spawn (R423). -/
structure LaunchRecord where
  tag    : BitVec 16
  ord    : Bool
  maq    : Bool
  img    : Word
  grid   : Word
  done   : Word
  cntr   : Word
  shaddr : Word
  px     : Nat
  psel   : Nat
  fx     : Nat
  lx     : Nat
  arena  : Word
  quota  : Nat
  badRes : Bool
  hcnt   : Word
  args   : List Word
deriving DecidableEq, Repr

/-- A published shape record (R309, R333). -/
structure Shape where
  low  : Word
  high : Word
deriving DecidableEq, Repr

/-- How far a pre-emption of a launch has come (R363). -/
inductive Saving where
  | no
  | requested
  | forced
  | saved
deriving DecidableEq, Repr

/-- A launch (R290 to R292, R300, R305, R365). `code` holds, by parcel number, the parcels that stores of this launch
have changed: the old values a fetch may still return (R22); `finals` how many of its completion's stores have been made
(R292, R426). -/
structure Launch where
  id       : Nat
  queue    : Option Nat
  ctx      : BitVec 32
  fsrv     : BitVec 13
  super    : Bool
  record   : LaunchRecord
  header   : Header
  started  : Bool
  predict  : Nat
  shape    : Option Shape
  judged   : Bool
  truth    : Option Nat
  applied  : Bool
  next     : Nat
  limit    : Nat
  redo     : List Nat
  status   : Option Nat
  torn     : Bool
  saving   : Saving
  savedBlk : List Block
  savedOps : List Operator
  sliceDue : Bool
  replay   : Bool
  complete : Bool
  code     : List (Nat × BitVec 16)
  finals   : Nat
deriving DecidableEq, Repr

/-- An entry of a queue's predictor (R301): its tag, up to four last true x (newest last), and its confidence. -/
structure Predictor where
  tag  : BitVec 16
  hist : List Nat
  conf : Nat
deriving DecidableEq, Repr

/-- A command queue (R286, R287, R289): its descriptor, its indexes, and its predictor, least recently used first. -/
structure Queue where
  id      : Nat
  ctx     : BitVec 32
  ring    : Word
  lsize   : Nat
  prio    : Nat
  quant   : Nat
  slice   : Nat
  widxVa  : Word
  ridxVa  : Word
  wakeVa  : Word
  errVa   : Word
  fsrv    : BitVec 13
  ridx    : Nat
  widx    : Nat
  stopped : Bool
  predictor : List Predictor
deriving DecidableEq, Repr

/-- The spawn window of a context (R423): the launches of its spawns that have not started, in arrival order, and its drop
count. -/
structure SpawnWindow where
  ctx   : BitVec 32
  queue : List Nat
  drops : Nat
deriving DecidableEq, Repr

/-- An entry of a capture journal (R449). -/
structure JournalEntry where
  seq   : Nat
  kind  : Nat
  who   : Nat
  value : List Word
deriving DecidableEq, Repr

/-- The capture journal of a context (R449): the room of its ring, the entries in it, and the ring's address, with how many
of the entries have their bytes there. -/
structure Journal where
  ctx     : BitVec 32
  room    : Nat
  entries : List JournalEntry
  seq     : Nat
  lost    : Bool
  replay  : Option (List JournalEntry)
  ring    : Word
  stored  : Nat
deriving DecidableEq, Repr

/-- A retained entry of a page table (R396): the cores and dies that an invalidation has taken it from (R397), the
context, the lowest VA bit that its level indexes, the VA bits from there up, and the entry. -/
structure Translation where
  lost   : List Nat
  gone   : List Nat
  ctx    : BitVec 32
  shift  : Nat
  place  : Nat
  entry  : Word
deriving DecidableEq, Repr

/-! ## Fabric and host -/

/-- A request that awaits its reply (R412, R416): its packet, how often it was sent again, whether a RETRY is awaited
(R404), and the reply once it is there; the context and the core that the request works for (R398). -/
structure Outstanding where
  id       : Nat
  packet   : Packet
  attempts : Nat
  retrying : Bool
  sent     : Bool
  reply    : Option Packet
  ctx      : BitVec 32
  core     : Nat
deriving DecidableEq, Repr

/-- One bank of the fabric configuration (R419, R420): the destination table and the plane map. -/
structure Bank where
  table : Cells 64
  ports : Cells 64
deriving DecidableEq, Repr

/-- The migration engine (R403, R404). -/
structure Migration where
  desc  : Word
  cause : Byte
  state : BitVec 2
  src   : Nat
  sdev  : BitVec 13
  dst   : Nat
  size  : Nat
  queue : List Packet
deriving DecidableEq, Repr

/-- A migration that another device makes of a frame of this one (R404): the frame, the device and the address that it
moves to, and whether the copy is complete. -/
structure Away where
  src     : Nat
  size    : Nat
  dev     : BitVec 13
  dst     : Nat
  forward : Bool
deriving DecidableEq, Repr

/-- The fabric (R405 to R421). `expected` holds the next number to accept of each incoming stream; `early`, `parts`,
`waiting` and `invals` the packets received that wait for their predecessors (R413), their other parts (R411), a result
(R266) and old requests (R398); `replies` the reply cache (R417), newest first; `due` the ports with a notice to send
(R421); `blocked` the packets without a reply that wait for their class (R415); `written` the RDMA writes that have left
(R448): the device, the address and the bytes; `told` the ports and classes for which this device has signalled OFF (R415).
-/
structure Fabric where
  devid    : BitVec 13
  active   : Bool
  bank0    : Bank
  bank1    : Bank
  grace    : Bool
  fmdev    : BitVec 13
  fberr    : BitVec 32
  swfail   : Bool
  up       : BitVec 16
  live     : BitVec 16
  off      : List (Nat × Nat)
  seqs     : List (BitVec 13 × BitVec 12 × BitVec 24)
  requests : List Outstanding
  expected : List (BitVec 13 × BitVec 12 × BitVec 24)
  early    : List Packet
  parts    : List Packet
  replies  : List Packet
  invals   : List Packet
  waiting  : List Packet
  due      : List Nat
  outbox   : List Packet
  rdma     : List Byte
  blocked  : List Packet
  written  : List (BitVec 13 × Word × List Byte)
  told     : List (Nat × Nat)
deriving DecidableEq, Repr

/-- A write or an atomic that this device makes in the host's memory (R393, R428): the address, the operation of R57 for an
atomic, the bytes of a write or of the operand, and those of the new value of a compare-and-swap. -/
structure HostAccess where
  pa   : Nat
  aop  : Option Nat
  data : List Byte
  new  : List Byte
deriving DecidableEq, Repr

/-- The host's side (R422 to R424, R428, R429): the width of its link, what its last load returned, and what the device has
written there, in order. -/
structure HostLink where
  lanes : Nat
  value : Word
  out   : List HostAccess
deriving DecidableEq, Repr

/-! ## Firmware, power and management -/

/-- A domain copy in progress (R448). -/
structure DomainCopy where
  id  : Nat
  req : CopyRequest
deriving DecidableEq, Repr

/-- What the SPDM responder answers (R444): the measurement registers of blocks 1 to 8, and a signature as the leaf it used
and its value. DESIGN CHOICE (assumption 89). -/
inductive SpdmReply where
  | version (v : Byte)
  | capabilities
  | algorithms
  | digests (d : Word)
  | certificate (c : Word)
  | challenged (nonce : List Byte) (leaf : Nat) (signature : Word)
  | measured (blocks : List (BitVec 256)) (nonce : List Byte) (leaf : Nat) (signature : Word)
  | error
deriving DecidableEq, Repr

/-- The firmware complex (R441 to R448). `fencing` holds the core of a fence request in progress with the contexts it
pre-empts (R446); `retiring` the frames of a channel that is about to be retired (R447); `results` the status of each
completed request, and `lastAt` where the mailbox held the last one (R455). `keys` and `revoked` are the key slots in
fuses (R443), `strap` the boot-source strap, and `asks` the fault servers asked to migrate a frame of a context (R447). -/
structure Firmware where
  stage    : BitVec 4
  reason   : BitVec 8
  mrs      : List (BitVec 256)
  minVer   : Nat
  image    : BitVec 256
  oldImage : BitVec 256
  version  : Nat
  bank     : Bool
  handover : Bool
  leaf     : Nat
  records  : List TrapRecord
  notices  : List (BitVec 32 × Nat)
  spares   : List (Nat × Nat)
  retired  : List Nat
  copies   : List DomainCopy
  results  : List (BitVec 32 × Nat)
  spdm     : Option SpdmReply
  fencing  : Option (Nat × List (BitVec 32))
  retiring : Option (List Nat)
  keys     : List (BitVec 256)
  revoked  : BitVec 4
  strap    : Bool
  asks     : List (BitVec 13 × BitVec 32 × Nat)
  lastAt   : Word
deriving DecidableEq, Repr

/-- Power, cooling and the management registers (R451 to R455). `freq` is the clock that the cap and the thermal limit
leave; `input` the input voltage in mV; `half` the tick that this millisecond has seen: whether it was the thermal one,
and whether it stepped the clock down (1) or up (2) (R454). -/
structure Power where
  on      : Bool
  cap     : BitVec 12
  power   : BitVec 12
  freq    : BitVec 12
  capped  : Bool
  throt   : Bool
  vinlo   : Bool
  vinhi   : Bool
  input   : Nat
  half    : Option (Bool × Nat)
  caperr  : Bool
  diet    : BitVec 8
  inlet   : BitVec 8
  trip    : Bool
  holding : Bool
  mbase   : Word
  mwidx   : BitVec 16
  mridx   : BitVec 16
deriving DecidableEq, Repr

/-! ## The machine -/

/-- Who moves next: a group that issues its next unit, or another agent's step. -/
inductive Move where
  | issue (g : GRef)
  | event (i : Instr)
deriving DecidableEq, Repr

/-- A scratchpad as a group's loads have read it ahead of their turn (R237, R243): the group, the block, what its scratchpad
held then, the offsets that the group has stored to since, and the tick at which it was read. -/
structure Ahead where
  group  : GRef
  blk    : Nat
  seen   : Cells 8
  stored : List Nat
  tick   : Nat
deriving DecidableEq, Repr

/-- An aligned word of memory that a load of a group has read ahead of its turn (R235, R238): the group, the physical
address and the attributes of its page, its bytes, and the tick at which it was read. -/
structure Early where
  group    : GRef
  pa       : Nat
  swc      : Bool
  uncached : Bool
  bytes    : List Byte
  tick     : Nat
deriving DecidableEq, Repr

/-- A relaxed load that may still be performed, since its group has issued nothing after it but stores that do not depend on
it (R235): the group, the parcels of the unit, the group before the unit, and the tick of the last issue since. -/
structure Later where
  group   : GRef
  parcels : List (BitVec 16)
  before  : Group
  tick    : Nat
deriving DecidableEq, Repr

/-- What an engine's write to a peer works for (R289, R292): a SIGNAL record of a queue, or the completion of a launch in a
context, with the address. -/
inductive EngineUse where
  | signal (queue : Nat) (va : Word)
  | final (launch : Nat) (va : Word)
deriving DecidableEq, Repr

/-- A byte of a replica (R204): the launch whose `.rep` load left it, the slice, the physical address, the byte, and the
virtual address of that load. -/
structure Replica where
  launch : Nat
  slice  : Nat
  pa     : Nat
  byte   : Byte
  va     : Nat
deriving DecidableEq, Repr

/-- The device. `bad` lists the physical addresses of bytes that HBM cannot correct (R206); a store to one mends it.
`released` holds the tick of the last release by an agent outside the device's groups, and `relBy` that of each group's
last; `syncs` the number that the next store unit had when a group last synchronised while stores were held (R239);
`writes` the requests of engine writes whose refusal something awaits. `visits` holds, for a priority, the queue that the
dispatcher visits and the blocks it has placed on this visit (R293). -/
structure State where
  mem      : Cells 8
  bad      : List Nat
  blocks   : List Block
  cores    : List Core
  dies     : List Die
  copies   : List Copy
  launches : List Launch
  queues   : List Queue
  windows  : List SpawnWindow
  visits   : List (Nat × Nat × Nat)
  contexts : List ContextInfo
  tornCtx  : List (BitVec 32)
  tornWin  : List (BitVec 32 × Nat × Nat)
  journals : List Journal
  tlb      : List Translation
  replicas : List Replica
  aheads   : List Ahead
  earlies  : List Early
  laters   : List Later
  released : Nat
  relBy    : List (GRef × Nat)
  syncs    : List (GRef × Nat)
  writes   : List (Nat × EngineUse)
  records  : List FlyingRecord
  answers  : List (Word × Byte × Word)
  redinj   : Word
  mig      : Migration
  away     : Option Away
  fabric   : Fabric
  host     : HostLink
  firmware : Firmware
  power    : Power
  cycle    : Nat
  nstime   : Nat
  nextId   : Nat
  cur      : GRef
  tick     : Nat
  agenda   : List Move
deriving DecidableEq, Repr

/-- Why a step stops with a fault. -/
inductive Fault where
  /-- Raised by `exec` of an encoded instruction when `cur` names no group that could issue it: no group of the device
  executes the instruction, so the spec gives it no effect. Safe: the machine never issues for an absent group. -/
  | noGroup
deriving DecidableEq, Repr

/-- Why a step refuses. -/
inductive Refusal where
  /-- Raised by an arm of `exec` whose instruction has no meaning yet. Safe: nothing can be proved of its effect. -/
  | notModelled (mnemonic : String)
deriving DecidableEq, Repr

/-! ## Reset -/

/-- The fabric right after reset (R419, R420): every entry of both banks 0, so no port is in the live set. -/
def Fabric.reset : Fabric :=
  { devid := 0, active := false, bank0 := ⟨[], []⟩, bank1 := ⟨[], []⟩, grace := false, fmdev := 0, fberr := 0,
    swfail := false, up := 0xFFFF, live := 0, off := [], seqs := [], requests := [], expected := [], early := [],
    parts := [], replies := [], invals := [], waiting := [], due := [], outbox := [], rdma := [], blocked := [], written := [],
    told := [] }

/-- The firmware complex right after reset (R443, R444, R455): stage 0, the measurement registers 0, no image started. -/
def Firmware.reset : Firmware :=
  { stage := 0, reason := 0, mrs := List.replicate 8 0, minVer := 0, image := 0, oldImage := 0, version := 0,
    bank := false, handover := false, leaf := 0, records := [], notices := [], spares := [], retired := [], copies := [],
    results := [], spdm := none, fencing := none, retiring := none, keys := List.replicate 4 0, revoked := 0, strap := false,
    asks := [], lastAt := 0 }

/-- Power and the management registers right after reset (R451 to R455). -/
def Power.reset : Power :=
  { on := true, cap := 0, power := 0, freq := 2250, capped := false, throt := false, vinlo := false, vinhi := false,
    input := 50000, half := none, caperr := false, diet := 0, inlet := 0, trip := false, holding := false, mbase := 0, mwidx := 0,
    mridx := 0 }

/-- The machine right after reset: no context, queue, launch or block exists, and no agent has moved. DESIGN CHOICE
(assumption 27). DESIGN CHOICE (assumption 28). -/
def State.reset : State :=
  { mem := [], bad := [], blocks := [], cores := [], dies := [], copies := [], launches := [], queues := [], windows := [],
    visits := [], contexts := [], tornCtx := [], tornWin := [], journals := [], tlb := [], replicas := [], aheads := [],
    earlies := [], laters := [], released := 0, relBy := [], syncs := [], writes := [], records := [], answers := [], redinj := 0,
    mig := ⟨0, 0, 0, 0, 0, 0, 0, []⟩, away := none, fabric := .reset, host := ⟨16, 0, []⟩, firmware := .reset, power := .reset,
    cycle := 0, nstime := 0, nextId := 1, cur := ⟨0, 0, false⟩, tick := 0, agenda := [] }

end Sys2Proof.Machine
end

