-- ==== Sys2Proof/Machine/Flags.lean ====
section
/-! DEFINITION. Lane masks, the predicate-number space (R138), the sticky lane flags (R135, R168) and the scalar flag
(R137). -/

namespace Sys2Proof.Machine

/-- Lane `l` is in a mask (R97). -/
def hasLane (m : Mask) (l : Nat) : Bool := m.getLsbD l

/-- The mask of the lanes below 96 that `f` holds. -/
def maskOf (f : Nat → Bool) : Mask :=
  BitVec.ofNat 96 ((List.range 96).foldr (fun l acc => (if f l then 2 ^ l else 0) + acc) 0)

/-- The number of lanes in a mask. -/
def countLanes (m : Mask) : Nat := ((List.range 96).filter (hasLane m)).length

/-- The lanes of a mask, rising. -/
def lanesOf (m : Mask) : List Nat := (List.range 96).filter (hasLane m)

/-- The lowest lane of a mask. -/
def lowLane (m : Mask) : Option Nat := (lanesOf m).head?

/-- The active lanes that are not helpers (R7, R100). -/
def Group.workers (g : Group) : Mask := g.exec &&& ~~~g.helper

/-- R138: the value of predicate number `n` in lane `l`. -/
def Group.pnum (g : Group) (n l : Nat) : Bool :=
  if n = 0 then true
  else if n ≤ 7 then hasLane (readCell g.preds n) l
  else if n ≤ 13 then hasLane (readCell g.flags n) l
  else if n = 14 then hasLane g.helper l
  else hasLane g.exec l

/-- A change of the lane flags, made in the flags and in the values before late ones; `late` says that the change itself
is late (R26, R30). -/
def Group.changeFlags (g : Group) (late : Bool) (f : Nat → Mask → Mask) : Group :=
  let change := fun (c : Cells 96) => writeRun c 8 6 (fun n => f n (readCell c n))
  { g with
    flags := change g.flags
    hazards := g.hazards.map (fun h => if h.reg = .flags && !late then { h with oldFlags := change h.oldFlags } else h) }

/-- R135: raise in each lane the flags of `f`; lanes that are inactive, and helpers, keep theirs (R100). -/
def Group.raise (g : Group) (m : Mask) (f : Nat → LaneFlags) (late : Bool := false) : Group :=
  g.changeFlags late (fun n x => x ||| maskOf (fun l => hasLane m l && !hasLane g.helper l && (f l).getLsbD (n - 8)))

/-- R168: the six flags of lane `l`, NV in bit 0. -/
def Group.laneFlags (g : Group) (l : Nat) : LaneFlags :=
  BitVec.ofNat 6 ((List.range 6).foldr (fun k acc => (if hasLane (readCell g.flags (8 + k)) l then 2 ^ k else 0) + acc) 0)

/-- R168, R353: clear in the lanes of `m` the flags that `f` names for each lane. -/
def Group.clearFlags (g : Group) (m : Mask) (f : Nat → LaneFlags) : Group :=
  g.changeFlags false (fun n x => x &&& ~~~(maskOf (fun l => hasLane m l && (f l).getLsbD (n - 8))))

/-- R150: write predicate `p` in the lanes of `m`; p0 is read-only (R138). -/
def Group.setPred (g : Group) (p : Nat) (m : Mask) (f : Nat → Bool) : Group :=
  if p = 0 then g
  else { g with preds := writeCell g.preds p ((readCell g.preds p &&& ~~~m) ||| (m &&& maskOf f)) }

end Sys2Proof.Machine
end

