-- ==== Sys2Proof/Machine/Operands.lean ====
section
/-! DEFINITION. Reading and writing the registers of a group, and the operand forms: scalars with the activity mask in
s61 to s63 (R13 to R15), vector registers (R45), the second operand that bs selects (R45, R140), and immediates (R47). -/

namespace Sys2Proof.Machine

/-- Does the group run inside a compacted region (R104)? -/
def Group.compacted (g : Group) : Bool := !g.carrier.isEmpty

/-- R13: beat `b` of the activity mask as a scalar. -/
def beatOf (m : Mask) (b : Nat) : Word := BitVec.ofNat 64 (m.toNat / 2 ^ (32 * b) % 2 ^ 32)

/-- R13, R95: the activity mask with beat `b` replaced by bits [31:0] of a value. -/
def withBeat (m : Mask) (b : Nat) (v : Word) : Mask :=
  let low := m.toNat % 2 ^ (32 * b)
  let high := m.toNat / 2 ^ (32 * (b + 1)) * 2 ^ (32 * (b + 1))
  BitVec.ofNat 96 (high + v.toNat % 2 ^ 32 * 2 ^ (32 * b) + low)

/-- R13, R14: the scalar `n`; inside a compacted region every scalar is group 0's (R67), which the group's view holds. -/
def Group.scalar (g : Group) (n : Nat) : Word :=
  if n = 0 then 0
  else if n < 61 || g.compacted then readCell g.scalars n
  else beatOf g.exec (n - 61)

/-- R13, R14: write the scalar `n`; s0 ignores writes, and s61 to s63 write the activity mask, where absent lanes stay 0
(R95). -/
def Group.setScalar (g : Group) (n : Nat) (v : Word) : Group :=
  if n = 0 then g
  else if n < 61 then { g with scalars := writeCell g.scalars n v }
  else { g with exec := withBeat g.exec (n - 61) v &&& g.present }

/-- Lane `l` of the vector register `r` (R45). -/
def Group.vec (g : Group) (r l : Nat) : LaneWord := readCell g.vectors (r * 96 + l)

/-- R31: a later write to the register of a late result stands, so in its lanes the value before it counts as `f`.
DEDUCED (assumption 29). -/
def Hazard.overwrite (h : Hazard) (r : Nat) (m : Mask) (f : Nat → LaneWord) : Hazard :=
  if h.reg = .vector r then
    { h with oldLanes := runCells 0 96 (fun l => if hasLane m l then f l else readCell h.oldLanes l) }
  else h

/-- Write the vector register `r` in the lanes of `m`; `late` says that the result is not at its distance yet (R26). -/
def Group.setVec (g : Group) (r : Nat) (m : Mask) (f : Nat → LaneWord) (late : Bool := false) : Group :=
  { g with
    vectors := writeRun g.vectors (r * 96) 96 (fun k =>
      if hasLane m (k - r * 96) then f (k - r * 96) else readCell g.vectors k)
    hazards := g.hazards.map (fun h => h.overwrite r m (if late then g.vec r else f)) }

/-- The 64-bit value of the register pair `r`, `r + 1` in lane `l`, the low word first (R122). -/
def Group.pair (g : Group) (r l : Nat) : Word := BitVec.ofNat 64 ((g.vec r l).toNat + 2 ^ 32 * (g.vec (r + 1) l).toNat)

/-- The word of bracket register `k` in lane `l` (R169). -/
def Group.bracket (g : Group) (k w l : Nat) : LaneWord := readCell g.brackets ((k * 4 + w) * 96 + l)

/-- Write a word of a bracket register in the lanes of `m` (R169). -/
def Group.setBracket (g : Group) (k w : Nat) (m : Mask) (f : Nat → LaneWord) : Group :=
  let base := (k * 4 + w) * 96
  { g with brackets := writeRun g.brackets base 96 (fun j =>
      if hasLane m (j - base) then f (j - base) else readCell g.brackets j) }

/-- Where a lane instruction takes its second operand (R45, R148). -/
inductive Operand where
  | none
  | reg (r : Nat)
  | scalar (n : Nat)
  | imm (v : LaneWord)
deriving DecidableEq, Repr

/-- R45: the operand that bs and the 7-bit field name. -/
def operandB (x : BitVec 1) (b : BitVec 7) : Operand :=
  if x = 1#1 then .scalar (b.toNat % 64) else .reg b.toNat

/-- R140: the operand's value in lane `l`. -/
def Group.operand (g : Group) (o : Operand) (l : Nat) : LaneWord :=
  match o with
  | .none => 0
  | .reg r => g.vec r l
  | .scalar n => BitVec.ofNat 32 (g.scalar n).toNat
  | .imm v => v

/-- R17: bits [63:52] of a canonical address equal bit [51]. -/
def canonical (a : Word) : Bool :=
  let top := a.toNat / 2 ^ 51
  decide (top = 0) || decide (top = 2 ^ 13 - 1)

/-- R19: an address `off16` parcels from `pc`. -/
def branchTarget (pc : Word) (o : BitVec 16) : Word := pc + (o.signExtend 64 <<< 1)

end Sys2Proof.Machine
end

