-- ==== Sys2Proof/Machine/Translate.lean ====
section
/-! DEFINITION. Finding blocks, groups, cores and launches, and translating addresses: the page table (R389 to R391), the
checks of R392, the apertures (R393), retained translations (R396), and the form of packets (R407 to R410). -/

namespace Sys2Proof.Machine

/-! ## Finding things -/

/-- The block numbered `k`. -/
def State.block? (s : State) (k : Nat) : Option Block := s.blocks.find? (fun b => b.id == k)

/-- The block in place of the one with its number. -/
def State.putBlock (s : State) (b : Block) : State :=
  { s with blocks := s.blocks.map (fun x => if x.id = b.id then b else x) }

/-- The launch numbered `k`. -/
def State.launch? (s : State) (k : Nat) : Option Launch := s.launches.find? (fun l => l.id == k)

/-- The launch in place of the one with its number. -/
def State.putLaunch (s : State) (l : Launch) : State :=
  { s with launches := s.launches.map (fun x => if x.id = l.id then l else x) }

/-- A core of which nothing is listed. -/
def Core.fresh (k : Nat) : Core :=
  { id := k, rsv := false, queue := [], ops := [], l1Dirty := [], l1Clean := [], constant := [], sampler := [],
    throttle := 0, spare := 0, fenced := false, victims := [], loads := 0, hits := 0 }

/-- The core at position `k`: 512 times its die plus its core slot (R33). -/
def State.core (s : State) (k : Nat) : Core := (s.cores.find? (fun c => c.id == k)).getD (Core.fresh k)

/-- The list of cores with `c` in place of the one at its position. -/
def insertCore (cs : List Core) (c : Core) : List Core :=
  match cs with
  | [] => [c]
  | d :: rest => if d.id < c.id then d :: insertCore rest c else if d.id = c.id then c :: rest else c :: d :: rest

/-- The core in place of the one at its position. -/
def State.putCore (s : State) (c : Core) : State := { s with cores := insertCore s.cores c }

/-- The L2 of die `k`: an L2 that is not listed holds no copy. -/
def State.die (s : State) (k : Nat) : Die := (s.dies.find? (fun d => d.id == k)).getD ⟨k, [], [], 0⟩

/-- The list of dies with `d` in place of the one with its number. -/
def insertDie (ds : List Die) (d : Die) : List Die :=
  match ds with
  | [] => [d]
  | e :: rest => if e.id < d.id then e :: insertDie rest d else if e.id = d.id then d :: rest else d :: e :: rest

/-- The die in place of the one with its number. -/
def State.putDie (s : State) (d : Die) : State := { s with dies := insertDie s.dies d }

/-- The die of a core position (R33). -/
def dieOf (core : Nat) : Nat := core / 512

/-- The context with an identifier (R441). -/
def State.context? (s : State) (c : BitVec 32) : Option ContextInfo := s.contexts.find? (fun x => x.ctx == c)

/-- The context of a block's launch; 0 when the launch is gone. -/
def State.ctxOf (s : State) (b : Block) : BitVec 32 :=
  match s.launch? b.launch with
  | some l => l.ctx
  | none => 0

/-- R352: does the block run in supervisor mode? DEDUCED (assumption 68). -/
def State.superOf (s : State) (b : Block) : Bool :=
  match s.launch? b.launch with
  | some l => l.super
  | none => false

/-- One of a value and its alternatives; with no alternative that differs, nothing is free. DESIGN CHOICE
(assumption 99). -/
def choose {α : Type} [DecidableEq α] (tick salt : Nat) (x : α) (others : List α) : α :=
  let rest := others.filter (fun y => decide (y ≠ x))
  if rest.isEmpty then x else (x :: rest).getD (Config.freeNat tick salt % (rest.length + 1)) x

/-! ## Packets (R407 to R410) -/

/-- A packet with every field 0 that a rule does not give. -/
def blankPacket : Packet :=
  { op := 0, src := 0, dst := 0, stream := 0, seq := 0, retx := false, pkey := 0, opkey := 0, cause := 0, pa := 0,
    size := 0, aop := 0, order := 0, scope := 0, wt := false, take := false, tag := 0, part := 0, npart := 0,
    reservedOk := true, cls := 0, ndata := 0, fwd := none, bytes := [], entries := [] }

/-- R408: the class of an operation code. -/
def classOf (op : BitVec 8) : BitVec 2 :=
  if op = 0x04 then 0 else if op.toNat < 0x80 then 1 else if op.toNat < 0xC0 then 2 else 3

/-- R408, R409: how many data flits a packet carries: the lines its marked bytes lie in, its entries, or the data of a
management packet. -/
def flitsOf (p : Packet) : Nat :=
  if p.op = 0x01 ∨ p.op = 0x05 ∨ p.op = 0x82 ∨ p.op = 0x83 ∨ p.op = 0x84 then 0
  else if p.op = 0x03 then ((if p.aop = 15 then 32 else 16) * p.entries.length + 63) / 64
  else (p.bytes.map (fun e => e.1 / 64 + 1)).foldl max 0

/-- R418: does a peer address name an operator window of the peer? -/
def peerWindow (pa : Nat) : Bool := decide (pa / 2 ^ 44 = 0xF)

/-- R408, R418: the class of a packet: an atomic to an inlet travels with the operator stores. -/
def travelClass (p : Packet) : BitVec 2 := if p.op = 0x03 ∧ peerWindow p.pa.toNat = true then 0 else classOf p.op

/-- R407, R408: the packet with its CLASS and NDATA. -/
def framed (p : Packet) : Packet := { p with cls := travelClass p, ndata := BitVec.ofNat 3 (flitsOf p) }

/-- R410, R411: the bytes that a packet marks: those it carries or names, and of an atomic those that its entries access. -/
def markedBytes (p : Packet) : List Nat :=
  if p.op = 0x03 then
    let n := if p.aop = 1 ∨ p.aop = 11 ∨ p.aop = 15 then 8 else 4
    (p.entries.flatMap (fun e => (List.range n).map (fun k => e.2.1 + k))).eraseDups
  else (p.bytes.map Prod.fst).eraseDups

/-- R407: the header flit's fields up to the mask, by offset: 0x00, 0x08, 0x10 and 0x18, and then the mask's 32 bytes. -/
def headerOf (p : Packet) : List Byte :=
  let bit := fun (x : Bool) (k : Nat) => if x then 2 ^ k else 0
  let w0 := p.op.toNat + 2 ^ 8 * p.cls.toNat + 2 ^ 10 * p.ndata.toNat + bit p.retx 13 + 2 ^ 16 * p.src.toNat +
    2 ^ 29 * p.dst.toNat + 2 ^ 42 * p.stream.toNat
  let w1 := p.seq.toNat + 2 ^ 24 * p.pkey.toNat + 2 ^ 40 * p.opkey.toNat + 2 ^ 56 * p.cause.toNat
  let w2 := p.pa.toNat + 2 ^ 48 * p.size.toNat + 2 ^ 52 * p.aop.toNat + 2 ^ 56 * p.order.toNat + 2 ^ 58 * p.scope.toNat +
    bit p.wt 61 + bit p.take 62
  let w3 := p.tag.toNat + 2 ^ 32 * p.part.toNat + 2 ^ 36 * p.npart.toNat
  let mask := (markedBytes p).foldl (fun m k => m + 2 ^ k) 0
  natBytes 8 w0 ++ natBytes 8 w1 ++ natBytes 8 w2 ++ natBytes 8 w3 ++ natBytes 32 mask

/-- A packet with its code, destination, stream, line address and marked bytes (R407). -/
def aimPacket (p : Packet) (op : BitVec 8) (dst : BitVec 13) (stream : BitVec 12) (pa : Nat)
    (bytes : List (Nat × Byte)) : Packet :=
  { p with op := op, dst := dst, stream := stream, pa := BitVec.ofNat 48 (pa / 64 * 64), bytes := bytes }

/-! ## The page table -/

/-- Why an access fails: the place of the failing check in the order of R211 and R392, its cause, and SEC. -/
structure Fail where
  rank  : Nat
  cause : Byte
  sec   : Byte
deriving DecidableEq, Repr

/-- The places of the checks: canonical form, alignment, bounds, then the steps of R392. -/
def Fail.canonical : Fail := ⟨1, 0x20, 0⟩
/-- R207. DEDUCED (assumption 57). -/
def Fail.misaligned : Fail := ⟨2, 0x40, 0⟩
/-- R197. -/
def Fail.bounds : Fail := ⟨3, 0x47, 0⟩
/-- R392 step 1. -/
def Fail.invalid : Fail := ⟨4, 0x20, 0⟩
/-- R206: the walk meets an entry that HBM cannot correct. -/
def Fail.uncorrected : Fail := ⟨4, 0xA0, 0⟩
/-- R392 step 2. -/
def Fail.malformed : Fail := ⟨5, 0x20, 1⟩
/-- R392 step 3. -/
def Fail.user : Fail := ⟨6, 0x23, 0⟩
/-- R392 step 4. -/
def Fail.permission (cause : Byte) : Fail := ⟨7, cause, 0⟩
/-- R392 step 5. -/
def Fail.aperture (cause : Byte) : Fail := ⟨8, cause, 0⟩
/-- R392 step 6, R447: the frame is not backed, or its channel is retired (SEC 2). -/
def Fail.backing (sec : Byte) : Fail := ⟨9, 0x20, sec⟩
/-- R392 step 7. -/
def Fail.peer (cause : Byte) : Fail := ⟨10, cause, 0⟩

/-- What kind of access is translated (R392). -/
inductive Access where
  | fetch
  | load
  | store
  | atomic
  | probe
deriving DecidableEq, Repr

/-- R388: the offset of a physical address is one that HBM backs. -/
def backed (pa : Nat) : Bool := decide (pa < 2 ^ 39) && decide (pa % 2 ^ 36 < 48000000000)

/-- R388, R447: may a local frame be accessed? -/
def State.frameFail (s : State) (pa : Nat) : Option Fail :=
  if backed pa then (if s.firmware.retired.contains (pa / 2 ^ 16) then some (.backing 2) else none) else some (.backing 0)

/-- R404: an address in the source frame of a migration on this device. -/
def State.migrates (s : State) (pa : Nat) : Bool :=
  s.mig.sdev == s.fabric.devid && decide (s.mig.src ≤ pa) && decide (pa < s.mig.src + s.mig.size)

/-- R404: while the home forwards, a request for the source frame is performed at the destination. -/
def State.route (s : State) (pa : Nat) : Nat :=
  if s.mig.state = 2#2 ∧ s.migrates pa then s.mig.dst + (pa - s.mig.src) else pa

/-- R404: an address in a frame of this device that another device migrates. -/
def Away.covers (a : Away) (pa : Nat) : Bool := decide (a.src ≤ pa) && decide (pa < a.src + a.size)

/-- R206: does an access of `n` bytes meet a byte that HBM cannot correct? DESIGN CHOICE (assumption 38). -/
def State.spoiled (s : State) (pa n : Nat) : Bool :=
  s.bad.any (fun a => decide (s.route pa ≤ a) && decide (a < s.route pa + n))

/-- R404: does the frame of an address stand on another device now? -/
def State.movedAway (s : State) (pa : Nat) : Bool :=
  match s.away with
  | some a => a.forward && a.covers pa
  | none => false

/-- The 8 bytes at a physical address (R389); what a frame that another device has taken holds there is not known here
(R404). DESIGN CHOICE (assumption 115). -/
def State.homeWord (s : State) (pa : Nat) : Word :=
  if s.movedAway pa then Config.freeWord s.tick (16 * pa + 13) else BitVec.ofNat 64 (bytesNat (readBytes s.mem (s.route pa) 8))

/-- The four levels (R389): the lowest VA bit that a level indexes, and its entries. -/
def tableLevels : List (Nat × Nat) := [(39, 8192), (30, 512), (21, 512), (16, 32)]

/-- R390: a pointer entry's reserved bits are 0, and its table is aligned to its size. -/
def pointerOk (e : Word) (entries : Nat) : Bool :=
  decide (e.toNat / 2 ^ 48 = 0) && decide (e.toNat / 4 % 64 = 0) && decide (e.toNat / 256 * 256 % (8 * entries) = 0)

/-- R391: APT of a leaf. -/
def leafApt (e : Word) : Nat := e.toNat / 64 % 8

/-- R391: PA of the page a leaf maps. -/
def leafFrame (e : Word) : Nat := e.toNat / 2 ^ 32 * 2 ^ 16

/-- R391: a leaf's reserved bits and combinations. -/
def leafOk (e : Word) (shift : Nat) : Bool :=
  decide (e.toNat / 2 ^ 29 % 8 = 0) && decide (e.toNat / 2 ^ 14 % 4 = 0) && decide (e.toNat / 2 ^ 11 % 4 < 2) &&
  decide (leafFrame e % 2 ^ shift = 0) &&
  (!e.getLsbD 10 || (decide (leafApt e = 0) && decide (e.toNat / 2 ^ 11 % 4 = 0))) &&
  (!e.getLsbD 9 || decide (leafApt e = 1)) &&
  (decide (e.toNat / 2 ^ 16 % 2 ^ 13 = 0) || decide (leafApt e = 1)) &&
  (decide (leafFrame e = 0) || decide (leafApt e ≠ 3))

/-- R389: does a leaf below the table at `base` map a physical address of this device? -/
def State.mapsUnder (s : State) (pa : Nat) (levels : List (Nat × Nat)) (base : Nat) : Bool :=
  match levels with
  | [] => false
  | (shift, entries) :: rest =>
    (List.range entries).any (fun k =>
      let e := s.homeWord (base + 8 * k)
      if !e.getLsbD 0 then false
      else if e.getLsbD 1 then s.mapsUnder pa rest (e.toNat / 256 % 2 ^ 40 * 256)
      else leafOk e shift && decide (leafApt e = 0) && decide (leafFrame e ≤ pa) && decide (pa < leafFrame e + 2 ^ shift))

/-- R389, R447, R449: does the page table of a context map a physical address of this device? Its frames are the context's.
DESIGN CHOICE (assumption 82). -/
def State.owns (s : State) (c : ContextInfo) (pa : Nat) : Bool := s.mapsUnder pa tableLevels c.root.toNat

/-- What a walk finds: a leaf with the lowest VA bit its page keeps, or a failing check. -/
inductive Walked where
  | leaf (e : Word) (shift : Nat)
  | fail (f : Fail)
deriving DecidableEq, Repr

/-- R396, R397: may a core use a retained entry? -/
def Translation.servesCore (t : Translation) (core : Nat) : Bool := !t.lost.contains core && !t.gone.contains (dieOf core)

/-- R396, R206: the entry that a walk of a core uses: the one in memory, or one retained since; none when HBM cannot
correct the entry in memory. DESIGN CHOICE (assumption 7). -/
def State.tableEntry (s : State) (core : Nat) (ctx : BitVec 32) (va shift entries base : Nat) : Option Word :=
  let kept := s.tlb.filter (fun t => t.servesCore core && t.ctx == ctx && t.shift == shift && t.place == va / 2 ^ shift)
  let pa := base + 8 * (va / 2 ^ shift % entries)
  choose s.tick (16 * (64 * (va / 2 ^ shift) + shift)) (if s.spoiled pa 8 then none else some (s.homeWord pa))
    (kept.map (fun t => some t.entry))

/-- R389, R390: walk the levels from the table at `base`. -/
def State.walkFrom (s : State) (core : Nat) (ctx : BitVec 32) (va : Nat) (levels : List (Nat × Nat)) (base : Nat) : Walked :=
  match levels with
  | [] => .fail .malformed
  | (shift, entries) :: rest =>
    match s.tableEntry core ctx va shift entries base with
    | none => .fail .uncorrected
    | some e =>
      if !e.getLsbD 0 then .fail .invalid
      else if e.getLsbD 1 then
        match rest with
        | [] => .fail .malformed
        | (_, next) :: _ =>
          if pointerOk e next then s.walkFrom core ctx va rest (e.toNat / 256 % 2 ^ 40 * 256) else .fail .malformed
      else if shift = 39 then .fail .malformed
      else if leafOk e shift then .leaf e shift
      else .fail .malformed

/-- R389, R396: the translation that a core uses for an address. -/
def State.lookup (s : State) (core : Nat) (ctx : BitVec 32) (va : Word) : Walked :=
  match s.context? ctx with
  | some c => s.walkFrom core ctx (va.toNat % 2 ^ 52) tableLevels c.root.toNat
  | none => .fail .invalid

/-- R396: the valid entries that a walk uses, as far as they come from memory, with the VA bits that each level indexes; a
leaf whose page is migrating is left out. -/
def State.walkEntries (s : State) (core : Nat) (ctx : BitVec 32) (va : Nat) (levels : List (Nat × Nat)) (base : Nat) :
    List Translation :=
  match levels with
  | [] => []
  | (shift, entries) :: rest =>
    match s.tableEntry core ctx va shift entries base with
    | none => []
    | some e =>
      let here := if s.homeWord (base + 8 * (va / 2 ^ shift % entries)) = e then
          [(⟨[], [], ctx, shift, va / 2 ^ shift, e⟩ : Translation)]
        else []
      if !e.getLsbD 0 then []
      else if e.getLsbD 1 then here ++ s.walkEntries core ctx va rest (e.toNat / 256 % 2 ^ 40 * 256)
      else if e.getLsbD 13 then []
      else here

/-- R396: the entries of a walk are retained. -/
def State.retain (s : State) (core : Nat) (ctx : BitVec 32) (va : Word) : State :=
  match s.context? ctx with
  | some c =>
    let new := s.walkEntries core ctx (va.toNat % 2 ^ 52) tableLevels c.root.toNat
    { s with tlb := new.filter (fun t => !s.tlb.contains t) ++ s.tlb }
  | none => s

/-- R393, R404: where a local frame is served: here, or where another device has moved it to. -/
def State.servedAt (s : State) (pa : Nat) (swc uncached migrating : Bool) : Place :=
  match s.away with
  | some a => if a.forward && a.covers pa then .peer a.dev (a.dst + (pa - a.src)) true else .local pa swc uncached migrating
  | none => .local pa swc uncached migrating

/-- R392 steps 3 to 7 and R393: where a leaf says an access is served. -/
def State.judge (s : State) (user : Bool) (k : Access) (va : Word) (e : Word) (shift : Nat) : Except Fail Place :=
  let pa := leafFrame e + va.toNat % 2 ^ shift
  let apt := leafApt e
  let peer : BitVec 13 := BitVec.ofNat 13 (e.toNat / 2 ^ 16)
  let rap := e.getLsbD 9
  let perm : Option Byte :=
    match k with
    | .fetch => if e.getLsbD 4 then none else some 0x22
    | .load => if e.getLsbD 2 then none else some 0x20
    | .store => if e.getLsbD 3 then none else some 0x21
    | .atomic => if !e.getLsbD 2 then some 0x20 else if e.getLsbD 3 then none else some 0x21
    | .probe => none
  if user && !e.getLsbD 5 then .error .user
  else match perm with
  | some c => .error (.permission c)
  | none =>
    if 3 < apt then .error (.aperture 0x25)
    else if apt = 3 ∧ k = .fetch then .error (.aperture 0x25)
    else if apt = 1 ∧ k = .atomic ∧ !rap then .error (.aperture 0x24)
    else if apt = 0 then
      match s.frameFail pa with
      | some f => .error f
      | none => .ok (s.servedAt pa (e.getLsbD 10) (e.getLsbD 11) (e.getLsbD 13))
    else if apt = 1 then
      if k = .probe then .ok (.peer peer pa rap)
      else if peer.toNat / 512 ≠ s.fabric.devid.toNat / 512 then .error (.peer 0x28)
      else if peer = s.fabric.devid then .error (.peer 0x25)
      else .ok (.peer peer pa rap)
    else if apt = 2 then .ok (.host pa)
    else .ok (.window (va.toNat % 2 ^ 52))

/-- R392: the translation of one address for a core and a context. -/
def State.translate (s : State) (core : Nat) (ctx : BitVec 32) (user : Bool) (k : Access) (va : Word) :
    Except Fail Place :=
  if canonical va then
    match s.lookup core ctx va with
    | .fail f => .error f
    | .leaf e shift => s.judge user k va e shift
  else .error .canonical

end Sys2Proof.Machine
end

