-- ==== Sys2Proof/Machine/Cache.lean ====
section
/-! DEFINITION. The levels of memory: HBM behind the home dies (R388, R204), the L1 of a core (R202), the copies a die
keeps of software-coherent lines (R400), the constant and sampler caches (R236) and replicas (R204). A key of the L1 is
twice the physical address, plus 1 for a byte of a software-coherent page. Where the manual lets an access return one of
several values, `choose` picks one that nothing constrains. -/

namespace Sys2Proof.Machine

/-! ## HBM -/

/-- R411: does the home hold a line for an atomic unit whose parts have not all arrived? -/
def State.lineHeld (s : State) (pa : Nat) : Bool :=
  s.fabric.parts.any (fun p => decide (p.pa.toNat / 64 = pa / 64) && !peerWindow p.pa.toNat)

/-- R404: does the home copy the frame of an address? -/
def State.copying (s : State) (pa : Nat) : Bool :=
  (decide (s.mig.state = 1#2) && s.migrates pa) || (match s.away with
    | some a => !a.forward && a.covers pa
    | none => false)

/-- R404, R411: while the frame is copied, or an atomic unit holds the line, the home holds its requests. DEDUCED
(assumption 39). -/
def State.heldByHome (s : State) (pa : Nat) : Bool := s.copying pa || s.lineHeld pa

/-- One byte of HBM changes, and it holds no error any more. -/
def State.putByte (s : State) (pa : Nat) (v : Byte) : State :=
  let p := s.route pa
  { s with mem := writeCell s.mem p v, bad := s.bad.filter (fun a => decide (a ≠ p)) }

/-- Bytes of HBM change, from `pa` upward. -/
def State.putBytes (s : State) (pa : Nat) (bs : List Byte) : State :=
  match bs with
  | [] => s
  | b :: rest => (s.putByte pa b).putBytes (pa + 1) rest

/-- R404: bytes that this device writes to a frame which another one moves go there, line by line: at once when the frame
is forwarded, and behind the held requests while it is copied. DESIGN CHOICE (assumption 115). -/
def State.sendAway (s : State) (cells : List (Nat × Byte)) : State :=
  match s.away with
  | none => s
  | some a =>
    let mine := cells.filter (fun e => a.covers e.1)
    ((mine.map (fun e => e.1 / 64)).eraseDups).foldl (fun (s : State) (k : Nat) =>
      let bytes := (mine.filter (fun e => decide (e.1 / 64 = k))).map (fun e => (e.1 % 64, e.2))
      let home := s.fabric.devid
      if a.forward then
        let p : Packet := { aimPacket blankPacket 0x02 a.dev 0 (a.dst + (64 * k - a.src)) bytes with src := home, fwd := some home }
        { s with fabric := { s.fabric with outbox := s.fabric.outbox ++ [framed p] } }
      else
        let p : Packet := { aimPacket blankPacket 0x02 home 0 (64 * k) bytes with src := home, fwd := some home }
        { s with mig := { s.mig with queue := s.mig.queue ++ [p] } }) s

/-- The byte at home. -/
def State.home (s : State) (pa : Nat) : Byte := readCell s.mem (s.route pa)

/-! ## What a core sees -/

/-- The L1 key of a byte. DESIGN CHOICE (assumption 73). -/
def l1Key (swc : Bool) (pa : Nat) : Nat := 2 * pa + (if swc then 1 else 0)

/-- The physical address of an L1 key. -/
def keyPa (k : Nat) : Nat := k / 2

/-- Does an L1 key name a byte of a software-coherent page? -/
def keySwc (k : Nat) : Bool := decide (k % 2 = 1)

/-- R400: what the L2 of a die holds of a byte, dirty bytes first. -/
def State.l2Byte (s : State) (die : Nat) (swc : Bool) (pa : Nat) : Byte :=
  if swc then (findCopy (s.die die).dirty pa).getD (s.home pa) else s.home pa

/-- R233: what the latest store that a core has seen leaves in a byte: its own L1's dirty byte, else the L2's. This is the
model's read of one byte of memory. DEDUCED (assumption 6). -/
def State.look (s : State) (core : Nat) (swc : Bool) (pa : Nat) : Byte :=
  (findCopy (s.core core).l1Dirty (l1Key swc pa)).getD (s.l2Byte (dieOf core) swc pa)

/-! ## What fetches may still see (R22) -/

/-- The parcel numbered `p`, as a die sees it. -/
def State.parcelOn (s : State) (die : Nat) (swc : Bool) (p : Nat) : BitVec 16 :=
  BitVec.ofNat 16 ((s.l2Byte die swc (2 * p)).toNat + 256 * (s.l2Byte die swc (2 * p + 1)).toNat)

/-- R22: the parcels that the state `t` after stores to some addresses has changed, by number, with their values in `s`. -/
def State.changedParcels (s t : State) (die : Nat) (swc : Bool) (pas : List Nat) : List (Nat × BitVec 16) :=
  ((pas.map (fun a => a / 2)).eraseDups.filter (fun p => decide (s.parcelOn die swc p ≠ t.parcelOn die swc p))).map
    (fun p => (s.route (2 * p) / 2, s.parcelOn die swc p))

/-- R22: a launch that is running keeps the old values of parcels that have changed. -/
def Launch.noteCode (l : Launch) (ps : List (Nat × BitVec 16)) : Launch :=
  if l.started && !l.complete then { l with code := ps.filter (fun e => !l.code.contains e) ++ l.code } else l

/-- R22: the stores that lead from `s` to `t` leave the old parcels for the fetches of the launches that run. -/
def State.noted (s t : State) (die : Nat) (swc : Bool) (pas : List Nat) : State :=
  { t with launches := t.launches.map (fun l => l.noteCode (s.changedParcels t die swc pas)) }

/-- The bytes of one store change at home, from `pa` upward. -/
def State.putHomeBytes (s : State) (pa : Nat) (bs : List Byte) : State :=
  { s.noted (s.putBytes pa bs) 0 false ((List.range bs.length).map (fun k => pa + k)) with released := s.tick }

/-- The marked bytes of one store change at home, each at its distance from `pa`. -/
def State.putHomeCells (s : State) (pa : Nat) (bs : List (Nat × Byte)) : State :=
  let t := bs.foldl (fun (s : State) (e : Nat × Byte) => s.putByte (pa + e.1) e.2) s
  { s.noted t 0 false (bs.map (fun e => pa + e.1)) with released := s.tick }

/-- One byte changes at home. -/
def State.putHome (s : State) (pa : Nat) (v : Byte) : State :=
  { s.noted (s.putByte pa v) 0 false [pa] with released := s.tick }

/-- The `n` bytes from `a` that `f` gives. -/
def bytesOf (f : Nat → Byte) (a n : Nat) : List Byte :=
  match n with
  | 0 => []
  | n + 1 => f a :: bytesOf f (a + 1) n

/-- Put the bytes `bs` at `a` and above into copies. -/
def putCopies (c : Copies) (a : Nat) (bs : List Byte) : Copies :=
  match bs with
  | [] => c
  | b :: rest => putCopies (putCopy c a b) (a + 1) rest

/-- Does a table of copies hold each of the eight bytes from `base`? -/
def hasWord (f : Nat → Option Byte) (base : Nat) : Bool := (List.range 8).all (fun k => (f (base + k)).isSome)

/-- R400, R401: the aligned word that a die's L2 serves: the latest bytes, or on a software-coherent page the copy that
the die holds of the whole word, which its dirty bytes stand over (R205). -/
def State.l2Word (s : State) (die : Nat) (swc : Bool) (base : Nat) : List Byte :=
  let d := s.die die
  let now := bytesOf (fun a => s.l2Byte die swc a) base 8
  let held := fun a => match findCopy d.dirty a with
    | some v => some v
    | none => findCopy d.clean a
  if swc && hasWord held base then choose s.tick (16 * base + 9) now [bytesOf (fun a => (held a).getD 0) base 8] else now

/-- R400: the copy of a software-coherent word that a load leaves in its die's L2, or with the hint `.na` does not (R203).
-/
def State.fillL2 (s : State) (die : Nat) (swc : Bool) (base : Nat) (alloc : Bool) (w : List Byte) : State :=
  if swc then
    let d := s.die die
    let there := (List.range 8).any (fun k => (findCopy d.clean (base + k)).isSome)
    if alloc || there then
      let kept := w.zipIdx.filter (fun e => (findCopy d.dirty (base + e.2)).isNone)
      s.putDie { d with clean := kept.foldl (fun m e => putCopy m (base + e.2) e.1) d.clean }
    else s
  else s

/-- R235, R242: the bytes of an aligned word with the dirty bytes of a core's L1 over them. -/
def State.overDirty (s : State) (core : Nat) (swc : Bool) (base : Nat) (w : List Byte) : List Byte :=
  w.zipIdx.map (fun e => (findCopy (s.core core).l1Dirty (l1Key swc (base + e.2))).getD e.1)

/-- R206: does an access of a core to a local page ask HBM for a byte that it cannot correct? It does not ask for a byte
that its L1, on the generic path, or its die's L2 holds dirty. DESIGN CHOICE (assumption 38). -/
def State.meetsError (s : State) (core : Nat) (l1 swc : Bool) (pa n : Nat) : Bool :=
  s.spoiled pa n && (List.range n).any (fun k => s.spoiled (pa + k) 1 &&
    !(l1 && (findCopy (s.core core).l1Dirty (l1Key swc (pa + k))).isSome) &&
    !(swc && (findCopy (s.die (dieOf core)).dirty (pa + k)).isSome))

/-- R202, R242: the copy of an aligned word that a core's L1 holds, if it holds the whole word (R205). -/
def State.l1Word (s : State) (core : Nat) (swc : Bool) (base : Nat) : Option (List Byte) :=
  let c := s.core core
  let held := fun a => match findCopy c.l1Dirty (l1Key swc a) with
    | some v => some v
    | none => findCopy c.l1Clean (l1Key swc a)
  if hasWord held base then some (bytesOf (fun a => (held a).getD 0) base 8) else none

/-- R202, R203: the clean copy of an aligned word in a core's L1; a word that was not there is allocated when `alloc` says
so. -/
def State.fillL1 (s : State) (core : Nat) (swc : Bool) (base : Nat) (alloc : Bool) (w : List Byte) : State :=
  let c := s.core core
  let there := (List.range 8).any (fun k => (findCopy c.l1Clean (l1Key swc (base + k))).isSome)
  if alloc || there then
    s.putCore { c with l1Clean := w.zipIdx.foldl (fun m e => putCopy m (l1Key swc (base + e.2)) e.1) c.l1Clean }
  else s

/-- R202, R203, R235, R242, R400: the aligned word that a load of the generic path returns, with the copies it leaves:
what the die's L2 serves under the L1's dirty bytes, or the copy in the L1. The hint is that of R63. -/
def State.genericWord (s : State) (core : Nat) (swc : Bool) (base hint : Nat) : List Byte × State :=
  let w := s.l2Word (dieOf core) swc base
  let far := s.overDirty core swc base w
  let near := s.l1Word core swc base
  let got := choose s.tick (16 * base + 1) far near.toList
  if near = some got then (got, s)
  else (got, (s.fillL2 (dieOf core) swc base (decide (hint ≠ 3)) w).fillL1 core swc base (decide (hint < 2)) got)

/-- R236, R203, R400: the aligned word that a load of the constant or sampler path returns, with the copies it leaves: what
the die's L2 serves, or the copy in the path's cache. -/
def State.pathWord (s : State) (core : Nat) (swc : Bool) (base hint : Nat) (sampler : Bool) : List Byte × State :=
  let c := s.core core
  let copies := if sampler then c.sampler else c.constant
  let w := s.l2Word (dieOf core) swc base
  let near := if hasWord (findCopy copies) base then [bytesOf (fun a => (findCopy copies a).getD 0) base 8] else []
  let got := choose s.tick (16 * base + (if sampler then 3 else 2)) w near
  if near = [got] then (got, s)
  else
    let s1 := s.fillL2 (dieOf core) swc base (decide (hint ≠ 3)) w
    let c1 := s1.core core
    (got, if sampler then s1.putCore { c1 with sampler := putCopies c1.sampler base got }
      else s1.putCore { c1 with constant := putCopies c1.constant base got })

/-- R204: the L2 slice that serves a core's replicas: the nearest one of its die. -/
def sliceOf (core : Nat) : Nat := 32 * dieOf core + (Config.nearSlice core).val

/-- R204: the aligned word that a `.rep` load of a launch returns, with the copies it leaves: the ordinary value, or the
replica in the core's nearest slice. `va` is the virtual address of the word's first byte in that load. -/
def State.replicaWord (s : State) (core launch va base : Nat) : List Byte × State :=
  let slice := sliceOf core
  let (now, s1) := s.genericWord core false base 1
  let held := fun a => (s.replicas.find? (fun (r : Replica) => r.launch == launch && r.slice == slice && r.pa == a)).map Replica.byte
  let near := if hasWord held base then [bytesOf (fun a => (held a).getD 0) base 8] else []
  let got := choose s.tick (16 * base + 4) now near
  if near = [got] then (got, s)
  else
    let others := s1.replicas.filter (fun (r : Replica) =>
      !(r.launch == launch && r.slice == slice && decide (base ≤ r.pa) && decide (r.pa < base + 8)))
    (got, { s1 with replicas := (got.zipIdx.map (fun e => ⟨launch, slice, base + e.2, e.1, va + e.2⟩)) ++ others })

/-- R204: the replicas of a launch are dropped. -/
def State.dropReplicas (s : State) (launch : Nat) : State :=
  { s with replicas := s.replicas.filter (fun (r : Replica) => r.launch != launch) }

/-! ## Stores, write-backs and invalidations -/

/-- R202: a relaxed generic store of one byte stays dirty in the L1. -/
def State.putDirty (s : State) (core : Nat) (swc : Bool) (pa : Nat) (v : Byte) : State :=
  let c := s.core core
  let k := l1Key swc pa
  s.putCore { c with l1Dirty := putCopy c.l1Dirty k v, l1Clean := dropCopy c.l1Clean k }

/-- R400, R204: a byte that leaves an L1 reaches the die's L2 on a software-coherent page, and its home otherwise. -/
def State.putL2 (s : State) (die : Nat) (swc : Bool) (pa : Nat) (v : Byte) : State :=
  if swc then
    let d := s.die die
    s.putDie { d with dirty := putCopy d.dirty pa v, clean := dropCopy d.clean pa }
  else s.putByte pa v

/-- R202: write back one dirty byte of an L1, which then holds a clean copy of it. -/
def State.writeBackByte (s : State) (core key : Nat) : State :=
  let c := s.core core
  match findCopy c.l1Dirty key with
  | none => s
  | some v =>
    let s1 := s.putCore { c with l1Dirty := dropCopy c.l1Dirty key, l1Clean := putCopy c.l1Clean key v }
    s1.putL2 (dieOf core) (keySwc key) (keyPa key) v

/-- R202: write back the dirty bytes of an L1 whose keys `f` holds. -/
def State.writeBack (s : State) (core : Nat) (f : Nat → Bool) : State :=
  let keys := ((s.core core).l1Dirty.map (·.1)).filter f
  let t := keys.foldl (fun s k => s.writeBackByte core k) s
  let pas := fun (swc : Bool) => (keys.filter (fun k => keySwc k == swc)).map keyPa
  (s.noted (s.noted t (dieOf core) false (pas false)) (dieOf core) true (pas true)).sendAway
    ((pas false).map (fun a => (a, (findCopy (s.core core).l1Dirty (l1Key false a)).getD 0)))

/-- R242: a release at cluster scope or wider writes back every dirty byte of the L1. -/
def State.writeBackAll (s : State) (core : Nat) : State := s.writeBack core (fun _ => true)

/-- R242: an acquire at cluster scope or wider drops every clean line of the L1. -/
def State.dropClean (s : State) (core : Nat) : State := s.putCore { s.core core with l1Clean := [] }

/-- R400: a die writes one dirty byte of a software-coherent page back to its home. -/
def State.writeBackDie (s : State) (die pa : Nat) : State :=
  let d := s.die die
  match findCopy d.dirty pa with
  | none => s
  | some v => (s.putDie { d with dirty := dropCopy d.dirty pa, clean := putCopy d.clean pa v }).putByte pa v

/-- R400: a die writes back the dirty bytes that `f` holds. -/
def State.writeBackDieAll (s : State) (die : Nat) (f : Nat → Bool) : State :=
  let pas := ((s.die die).dirty.map (·.1)).filter f
  (s.noted (pas.foldl (fun s a => s.writeBackDie die a) s) die false pas).sendAway
    (pas.map (fun a => (a, (findCopy (s.die die).dirty a).getD 0)))

/-- R225, R402: before an atomic, the dirty bytes of its location go home, and the core's copies of them go. -/
def State.beforeAtomic (s : State) (core : Nat) (swc : Bool) (pa n : Nat) : State :=
  let hit := fun a => decide (pa ≤ a) && decide (a < pa + n)
  let s1 := s.writeBack core (fun k => hit (keyPa k))
  let s2 := if swc then s1.writeBackDieAll (dieOf core) hit else s1
  let c := s2.core core
  let s3 := s2.putCore { c with l1Clean := c.l1Clean.filter (fun e => !hit (keyPa e.1)) }
  if swc then
    let d := s3.die (dieOf core)
    s3.putDie { d with clean := d.clean.filter (fun e => !hit e.1) }
  else s3

/-! ## Releases and acquires -/

/-- R239: the tick of the last release by an agent other than the executing group. -/
def State.releasedTo (s : State) : Nat :=
  (s.relBy.filter (fun e => !(e.1 == s.cur))).foldl (fun m e => max m e.2) s.released

/-- R235, R239: a load of the executing group that was read ahead of its turn stays usable past an acquire only while no
other agent has released anything since: then there is nothing that the acquire synchronises with. DESIGN CHOICE
(assumption 98). -/
def State.dropEarly (s : State) : State :=
  let last := s.releasedTo
  { s with earlies := s.earlies.filter (fun e => !(e.group == s.cur && decide (e.tick ≤ last))) }

/-- R228, R233: nothing that the executing group has read ahead of its turn is usable any more. -/
def State.forgetEarly (s : State) : State := { s with earlies := s.earlies.filter (fun e => !(e.group == s.cur)) }

/-- R239: the executing group releases. -/
def State.noteRelease (s : State) : State :=
  { s with relBy := (s.cur, s.tick) :: s.relBy.filter (fun e => !(e.1 == s.cur)) }

/-- R214, R242: what a release of an access at a scope does before it: 0 group, 1 block, 2 cluster and wider. -/
def State.releaseAt (s : State) (core scope : Nat) : State :=
  if 2 ≤ scope then (s.writeBackAll core).noteRelease else s.noteRelease

/-- R239: the executing group synchronises with what others have released: its later held stores drain after theirs. -/
def State.noteSync (s : State) : State :=
  if s.blocks.any (fun b => b.groups.any (fun g => !g.holds.isEmpty)) then
    { s with syncs := (s.cur, s.nextId) :: s.syncs.filter (fun e => !(e.1 == s.cur)) }
  else s

/-- R214, R242, R239: what an acquire at a scope does after it. -/
def State.acquireAt (s : State) (core scope : Nat) : State :=
  if 2 ≤ scope then (s.dropClean core).dropEarly.noteSync else if scope = 1 then s.dropEarly.noteSync else s

/-! ## Accesses -/

/-- The word that the executing group has read ahead of its turn, when its load takes it (R235): one choice for each word of
an instruction (R213). -/
def State.earlyWord (s : State) (swc uncached : Bool) (base : Nat) : Option (List Byte) :=
  match s.earlies.find? (fun e => e.group == s.cur && e.pa == base && e.swc == swc && e.uncached == uncached) with
  | some e => if decide (e.bytes.length = 8) && Config.freeBool s.tick (16 * base + 10) then some e.bytes else none
  | none => none

/-- R213, R217: one aligned access of at most 8 bytes on the generic path: its bytes and the copies it leaves. -/
def State.readGeneric (s : State) (core : Nat) (swc uncached : Bool) (pa n hint : Nat) : List Byte × State :=
  let base := pa / 8 * 8
  let part := fun (w : List Byte) => (w.drop (pa - base)).take n
  match s.earlyWord swc uncached base with
  | some w => (part w, s)
  | none =>
    if uncached then (part (bytesOf s.home base 8), s)
    else
      let (w, s1) := s.genericWord core swc base hint
      (part w, s1)

/-- One aligned access of at most 8 bytes on the constant or sampler path. -/
def State.readPath (s : State) (core : Nat) (swc uncached : Bool) (pa n hint : Nat) (sampler : Bool) : List Byte × State :=
  if uncached then (bytesOf s.home pa n, s)
  else
    let base := pa / 8 * 8
    let (w, s1) := s.pathWord core swc base hint sampler
    ((w.drop (pa - base)).take n, s1)

/-- One aligned `.rep` access of at most 8 bytes to a hardware-coherent page. -/
def State.readReplica (s : State) (core launch va pa n : Nat) : List Byte × State :=
  let base := pa / 8 * 8
  let (w, s1) := s.replicaWord core launch (va - pa % 8) base
  ((w.drop (pa - base)).take n, s1)

/-- R233: a group has accessed bytes: what it read of their words ahead of its turn is used up. -/
def State.usedBy (s : State) (r : GRef) (pa n : Nat) : State :=
  { s with earlies := s.earlies.filter (fun e => !(e.group == r && decide (e.pa < pa + n) && decide (pa < e.pa + 8))) }

/-- R233: the executing group has accessed bytes. -/
def State.useEarly (s : State) (pa n : Nat) : State := s.usedBy s.cur pa n

/-- R235, R238: a load of a group reads one aligned word ahead of its turn, with the copies that it leaves. -/
def State.readEarly (s : State) (r : GRef) (core : Nat) (swc uncached : Bool) (base : Nat) : State :=
  let w := bytesOf (fun a => s.l2Byte (dieOf core) swc a) base 8
  let got := if uncached then bytesOf s.home base 8 else s.overDirty core swc base w
  let s1 := if uncached then s else (s.fillL2 (dieOf core) swc base true w).fillL1 core swc base true got
  let others := s1.earlies.filter (fun e => !(e.group == r && e.pa == base))
  { s1 with earlies := ⟨r, base, swc, uncached, got, s.tick⟩ :: others }

/-- R203: a store that is not to allocate in the L1 finds nothing of its word there. -/
def State.passesL1 (s : State) (core : Nat) (swc : Bool) (pa hint : Nat) : Bool :=
  let c := s.core core
  let base := pa / 8 * 8
  decide (2 ≤ hint) && (List.range 8).all (fun k =>
    (findCopy c.l1Dirty (l1Key swc (base + k))).isNone && (findCopy c.l1Clean (l1Key swc (base + k))).isNone)

/-- R203, R205: a `.na` store that finds nothing of its word in its die's L2 goes home. -/
def State.passesL2 (s : State) (die pa hint : Nat) : Bool :=
  let d := s.die die
  let base := pa / 8 * 8
  decide (hint = 3) && (List.range 8).all (fun k => (findCopy d.dirty (base + k)).isNone && (findCopy d.clean (base + k)).isNone)

/-- R203, R218, R242: store bytes on the generic path, dirty in the L1, past it when the hint says so, or, `through`, at
their home. What fetches may still see of them is noted by the whole store. -/
def State.storeBytes (s : State) (core : Nat) (swc uncached through : Bool) (hint pa : Nat) (bs : List Byte) : State :=
  match bs with
  | [] => s
  | b :: rest =>
    let s1 :=
      if uncached then s.putByte pa b
      else if s.passesL1 core swc pa hint then
        s.putL2 (dieOf core) (swc && !s.passesL2 (dieOf core) pa hint) pa b
      else
        let s0 := s.putDirty core swc pa b
        if through then s0.writeBackByte core (l1Key swc pa) else s0
    s1.storeBytes core swc uncached through hint (pa + 1) rest

/-- R218: one store of a lane on the generic path. -/
def State.storeGeneric (s : State) (core : Nat) (swc uncached through : Bool) (hint pa : Nat) (bs : List Byte) : State :=
  s.noted (s.storeBytes core swc uncached through hint pa bs) (dieOf core) swc ((List.range bs.length).map (fun k => pa + k))

end Sys2Proof.Machine
end

