-- ==== Sys2Proof/Machine/Fetch.lean ====
section
/-! DEFINITION. Fetching: parcels with the checks of R21, the bytes a fetch may return (R22), and how long a unit is
(R23, R25, R60, R174). -/

namespace Sys2Proof.Machine

/-- R22, R400: the parcels numbered `p` of a software-coherent page that a fetch finds: what the dies' stores have left,
and with none what stands at home; never a copy that a load has left. DEDUCED (assumption 8). -/
def State.storedParcels (s : State) (p : Nat) : BitVec 16 × List (BitVec 16) :=
  let home := BitVec.ofNat 16 ((s.home (2 * p)).toNat + 256 * (s.home (2 * p + 1)).toNat)
  match (s.dies.map (fun d => s.parcelOn d.id true p)).filter (fun v => decide (v ≠ home)) with
  | [] => (home, [])
  | v :: rest => (v, rest)

/-- R21: the parcel at an address, or the failing check. A page on the host or a peer holds parcels that this device does
not know. DEDUCED (assumption 8). -/
def State.fetchParcel (s : State) (b : Block) (va : Word) : Except Fail Parcel :=
  match s.translate b.core (s.ctxOf b) (!s.superOf b) .fetch va with
  | .error f => .error f
  | .ok (.local pa swc _ _) =>
    if s.spoiled pa 2 then .error ⟨20, 0xA0, 0⟩
    else
      let old := match s.launch? b.launch with
        | some l => (l.code.filter (fun e => decide (e.1 = s.route pa / 2))).map Prod.snd
        | none => []
      let (now, more) := if swc then s.storedParcels (pa / 2) else (s.parcelOn (dieOf b.core) false (pa / 2), [])
      .ok (choose s.tick (16 * pa + 6) now (more ++ old))
  | .ok _ =>
    .ok (BitVec.ofNat 16 (bytesNat [Config.freeByte s.tick (2 * va.toNat), Config.freeByte s.tick (2 * va.toNat + 1)]))

/-- Up to `n` parcels from an address: those before the first failing check, with that check and its address. -/
def State.fetchParcels (s : State) (b : Block) (va : Word) (n : Nat) : List Parcel × Option (Fail × Word) :=
  match n with
  | 0 => ([], none)
  | n + 1 =>
    match s.fetchParcel b va with
    | .error f => ([], some (f, va))
    | .ok p =>
      let r := s.fetchParcels b (va + 2) n
      (p :: r.1, r.2)

/-- R23: how many parcels an instruction that begins with this one has. -/
def parcelCount (p : Parcel) : Nat := if p.toNat % 2 = 0 then 1 else 2

/-- R60: the kind of a prefix word, from its first parcel: 0 REP, 1 INV, 2 MOD, 3 illegal. -/
def prefixKind (p : Parcel) : Option Nat :=
  if p.toNat % 2 = 1 ∧ sel p.toNat 3 7 = 0x7F then some (sel p.toNat 10 2) else none

/-- R174: the parcels of a routine with its IEND, among at most `n` instructions. -/
def routineCount (n : Nat) (ps : List Parcel) : Nat :=
  match n, ps with
  | 0, _ => 0
  | _, [] => 0
  | n + 1, p :: rest =>
    if p.toNat % 2 = 0 then 1 + routineCount n rest
    else match rest with
      | [] => 2
      | q :: rest => if p.toNat / 8 = 0x7C ∧ q.toNat = 0xE000 then 2 else 2 + routineCount n rest

/-- R25: the parcels of the unit that the list begins with. -/
def unitCount (ps : List Parcel) : Nat :=
  match ps with
  | [] => 0
  | p :: _ =>
    match prefixKind p with
    | none => parcelCount p
    | some k =>
      if k = 0 then
        match ps.drop 2 with
        | [] => 2
        | q :: _ =>
          if prefixKind q = some 2 then
            match ps.drop 4 with
            | [] => 4
            | r :: _ => 4 + parcelCount r
          else 2 + parcelCount q
      else if k = 1 then 2 + routineCount 17 (ps.drop 2)
      else if k = 2 then
        match ps.drop 2 with
        | [] => 2
        | q :: _ => 2 + parcelCount q
      else 2

/-- The parcels that a unit can have at most: an INV word and 17 instructions. -/
def unitMost : Nat := 36

/-- The parcels of the unit at an address, as far as they can be fetched. -/
def State.unitAt (s : State) (b : Block) (pc : Word) : List Parcel :=
  let ps := (s.fetchParcels b pc unitMost).1
  ps.take (unitCount ps)

/-- R350: the unit's first two 32-bit words, the first in bits [31:0]. -/
def unitWords (ps : List Parcel) : Word :=
  BitVec.ofNat 64 ((ps.take 4).foldr (fun p acc => p.toNat + 65536 * acc) 0)

/-- R64 step 1: what issuing needs to fetch, which is the whole unit, but for an INV unit whose routine is examined by
R178: its parcels, or the first failing check. -/
def State.fetchUnit (s : State) (b : Block) (pc : Word) : Except (Fail × Word) (List Parcel) :=
  let go := fun (n : Nat) =>
    let r := s.fetchParcels b pc n
    match r.2 with
    | some f => (.error f : Except (Fail × Word) (List Parcel))
    | none => .ok r.1
  match s.fetchParcel b pc with
  | .error f => .error (f, pc)
  | .ok p =>
    match prefixKind p with
    | none => go (parcelCount p)
    | some k =>
      if k = 1 ∨ k = 3 then go 2
      else
        match go 3 with
        | .error f => .error f
        | .ok ps =>
          if k = 0 ∧ (prefixKind (ps.getD 2 0)) = some 2 then
            match go 5 with
            | .error f => .error f
            | .ok qs => go (4 + parcelCount (qs.getD 4 0))
          else go (2 + parcelCount (ps.getD 2 0))

end Sys2Proof.Machine
end

