-- ==== Sys2Proof/Machine/Ops.lean ====
section
/-! DEFINITION. The operations that instructions share: the group that executes, with the lanes of a compacted group
gathered (R104); stall distances (R26 to R31); taking a trap (R345 to R352) and what an answer or ERET undoes of it
(R353); ending blocks (R353, R355); clocks (R34) and the capture journal (R449). -/

namespace Sys2Proof.Machine

/-! ## The executing group -/

/-- R104: the original group whose lane `l` stands in a compacted group. -/
def Group.carrierOf (c : Group) (l : Nat) : Option Nat := c.carrier.getD (l / 4) none

/-- Cells by lane, taken for each lane from the group that carries it; the lane of a key is its remainder by 96. -/
def gatherCells (gs : List Group) (c : Group) (n : Nat) (f : Group → Cells 32) : Cells 32 :=
  runCells 0 n (fun k =>
    match c.carrierOf (k % 96) with
    | some j => match gs[j]? with
      | some g => readCell (f g) k
      | none => 0
    | none => 0)

/-- Masks by lane, taken for each lane from the group that carries it. -/
def gatherMasks (gs : List Group) (c : Group) (f : Group → Cells 96) : Cells 96 :=
  runCells 0 14 (fun k => maskOf (fun l =>
    match c.carrierOf l with
    | some j => match gs[j]? with
      | some g => hasLane (readCell (f g) k) l
      | none => false
    | none => false))

/-- R67, R95: the scalars that a compacted group reads: those of group 0, its activity mask included, where an absent lane
reads 0. -/
def regionScalars (gs : List Group) : Cells 64 :=
  match gs with
  | [] => []
  | g :: _ => writeRun g.scalars 61 3 (fun n => beatOf (g.exec &&& g.present) (n - 61))

/-- Does a mask hold a lane of the quad of `l`? -/
def inQuad (m : Mask) (l : Nat) : Bool := (List.range 4).any (fun k => hasLane m (l / 4 * 4 + k))

/-- R89: the lanes of `new` whose quad holds a lane of `live`. -/
def besideLive (new live : Mask) : Mask := if new = 0 then 0 else maskOf (fun l => hasLane new l && inQuad live l)

/-- A mask by lane, taken for each lane from the group that carries it. -/
def gatherMask (gs : List Group) (c : Group) (f : Group → Mask) : Mask :=
  maskOf (fun l =>
    match c.carrierOf l with
    | some j => match gs[j]? with
      | some g => hasLane (f g) l
      | none => false
    | none => false)

/-- R104: a compacted group with the lane state of the groups its quads come from. -/
def Block.gather (b : Block) (c : Group) : Group :=
  let present := gatherMask b.groups c Group.present
  { c with
    present := present
    exec := c.exec &&& present
    helper := gatherMask b.groups c Group.helper
    scalars := regionScalars b.groups
    vectors := gatherCells b.groups c 12288 Group.vectors
    brackets := gatherCells b.groups c 1536 Group.brackets
    rng := gatherCells b.groups c 96 Group.rng
    preds := gatherMasks b.groups c Group.preds
    flags := gatherMasks b.groups c Group.flags }

/-- R27, R104: the late results of one view of some lanes, as another view of them sees them: in the lanes of `m` the values
before them, and in every other lane what stands there. -/
def Hazard.carried (h : Hazard) (view : Group) (m : Mask) : Hazard :=
  { h with
    oldLanes := match h.reg with
      | .vector r => runCells 0 96 (fun l => if hasLane m l then readCell h.oldLanes l else view.vec r l)
      | _ => []
    oldFlags := match h.reg with
      | .flags => runCells 0 14 (fun k => (readCell h.oldFlags k &&& m) ||| (readCell view.flags k &&& ~~~m))
      | _ => [] }

/-- R104: the lanes that a compacted group carries for the group numbered `j`. -/
def Group.carries (c : Group) (j : Nat) : Mask := maskOf (fun l => decide (c.carrierOf l = some j))

/-- R104, R89, R99: the group numbered `j` takes back the lanes that a compacted group carries for it: lanes that have ended
leave its masks, and a lane that has become a helper enters each of its entries that holds a live lane of its quad. -/
def Group.takeBack (g : Group) (j : Nat) (c : Group) : Group :=
  let cells := fun (n : Nat) (old new : Cells 32) =>
    writeRun old 0 n (fun k => if c.carrierOf (k % 96) = some j then readCell new k else readCell old k)
  let mine := maskOf (fun l => decide (c.carrierOf l = some j))
  let masks := fun (old new : Cells 96) =>
    writeRun old 0 14 (fun k => (readCell old k &&& ~~~mine) ||| (readCell new k &&& mine))
  let here := (g.present &&& ~~~mine) ||| (c.present &&& mine)
  let help := (g.helper &&& ~~~mine) ||| (c.helper &&& mine)
  { g with
    present := here
    helper := help
    exec := g.exec &&& here
    entries := g.entries.map (fun (e : Entry) =>
      { e with mask := (e.mask ||| besideLive (help &&& ~~~g.helper) (e.mask &&& here &&& ~~~help)) &&& here })
    vectors := cells 12288 g.vectors c.vectors
    brackets := cells 1536 g.brackets c.brackets
    rng := cells 96 g.rng c.rng
    preds := masks g.preds c.preds
    flags := masks g.flags c.flags }

/-- The list with its element `k` replaced. -/
def setNth {α : Type} (xs : List α) (k : Nat) (x : α) : List α :=
  match xs, k with
  | [], _ => []
  | _ :: rest, 0 => x :: rest
  | y :: rest, k + 1 => y :: setNth rest k x

/-- Replace every group by a function of its number and itself. -/
def mapGroups (k : Nat) (f : Nat → Group → Group) (gs : List Group) : List Group :=
  match gs with
  | [] => []
  | g :: rest => f k g :: mapGroups (k + 1) f rest

/-- The group that a reference names, as it stands in its block. -/
def Block.rawGroup (b : Block) (r : GRef) : Option Group :=
  if r.cmp then
    match b.region with
    | some (cs, _) => cs[r.grp]?
    | none => none
  else b.groups[r.grp]?

/-- The group that a reference names, with its lanes. -/
def Block.view (b : Block) (r : GRef) : Option Group :=
  match b.rawGroup r with
  | some g => if r.cmp then some (b.gather g) else some g
  | none => none

/-- The block with a group put back as it stands. -/
def Block.putRaw (b : Block) (r : GRef) (g : Group) : Block :=
  if r.cmp then
    match b.region with
    | some (cs, pc) => { b with region := some (setNth cs r.grp g, pc) }
    | none => b
  else { b with groups := setNth b.groups r.grp g }

/-- The block with a group's view put back: a compacted group's lanes go to the groups that carry them. -/
def Block.putView (b : Block) (r : GRef) (g : Group) : Block :=
  if r.cmp then
    let b1 := { b with groups := mapGroups 0 (fun j o => o.takeBack j g) b.groups }
    b1.putRaw r { g with scalars := [], vectors := [], brackets := [], rng := [], preds := [], flags := [] }
  else b.putRaw r g

/-- The block and the group that `cur` names. -/
def State.current (s : State) : Option (Block × Group) :=
  match s.block? s.cur.blk with
  | some b => match b.view s.cur with
    | some g => some (b, g)
    | none => none
  | none => none

/-- A group's view put back. -/
def State.putAt (s : State) (r : GRef) (g : Group) : State :=
  match s.block? r.blk with
  | some b => s.putBlock (b.putView r g)
  | none => s

/-- The executing group's view put back. -/
def State.putGroup (s : State) (g : Group) : State := s.putAt s.cur g

/-- Change a group as it stands, without its lanes. -/
def State.changeAt (s : State) (r : GRef) (f : Group → Group) : State :=
  match s.block? r.blk with
  | some b => match b.rawGroup r with
    | some g => s.putBlock (b.putRaw r (f g))
    | none => s
  | none => s

/-- The group that a reference names, with its block. -/
def State.groupAt (s : State) (r : GRef) : Option (Block × Group) :=
  match s.block? r.blk with
  | some b => match b.view r with
    | some g => some (b, g)
    | none => none
  | none => none

/-! ## Advancing and distances -/

/-- R18: the PC after `n` parcels. -/
def Group.advance (g : Group) (n : Nat) : Group := { g with pc := g.pc + BitVec.ofNat 64 (2 * n) }

/-- R27: a unit has executed, with the results `new`; distances grow by it and its stall count, and a result at its
distance is done. -/
def Group.age (g : Group) (new : List Hazard) : Group :=
  let more := fun (k : Nat) (h : Hazard) => { h with gone := h.gone + k }
  { g with
    hazards := ((new ++ g.hazards.map (more 1)).map (more g.pace.toNat)).filter (fun h => decide (h.gone < h.need))
    redo := 0
    remote := [] }

/-- The executing unit completes with the group `g`. -/
def State.done (s : State) (g : Group) (new : List Hazard := []) : State := s.putGroup (g.age new)

/-- R27: does a unit that reads these registers meet a result at too short a distance? -/
def Group.undersized (g : Group) (reads : List Nat) (flags : Bool) : Bool :=
  g.hazards.any (fun h =>
    match h.reg with
    | .vector r => reads.contains r
    | .flags => flags
    | .span => false)

/-- The lanes of beat `b`. -/
def beatLanes (b : Nat) : List Nat := (List.range 32).map (fun i => 32 * b + i)

/-- R30: what a read of register `r` returns in beat `b`: its value, or the value before one of its late producers. The
operands of one unit that name one register share the choice of a beat. DESIGN CHOICE (assumption 103). -/
def Group.beatSeen (g : Group) (tick r b : Nat) : List LaneWord :=
  let olds := g.hazards.filterMap (fun h =>
    if h.reg = .vector r then some ((beatLanes b).map (fun l => readCell h.oldLanes l)) else none)
  choose tick (16 * (3 * r + b) + 7) ((beatLanes b).map (g.vec r)) olds

/-- R30: what a read of the flags returns in beat `b`. -/
def Group.flagsSeen (g : Group) (tick b : Nat) : List LaneFlags :=
  let of := fun (c : Cells 96) (l : Nat) =>
    BitVec.ofNat 6 ((List.range 6).foldr (fun k acc => (if hasLane (readCell c (8 + k)) l then 2 ^ k else 0) + acc) 0)
  let olds := g.hazards.filterMap (fun h => if h.reg = .flags then some ((beatLanes b).map (of h.oldFlags)) else none)
  choose tick (16 * b + 8) ((beatLanes b).map g.laneFlags) olds

/-- R30: the group as a unit that reads these registers sees it. -/
def Group.seen (g : Group) (tick : Nat) (reads : List Nat) (flags : Bool) : Group :=
  if g.undersized reads flags then
    let late := reads.filter (fun r => g.undersized [r] false)
    let g1 := late.foldl (fun x r => x.setVec r (BitVec.allOnes 96)
      (fun l => (g.beatSeen tick r (l / 32)).getD (l % 32) 0)) g
    if flags && g.undersized [] true then
      { g1 with flags := runCells 0 14 (fun n => if n < 8 then 0 else
          maskOf (fun l => ((g.flagsSeen tick (l / 32)).getD (l % 32) 0).getLsbD (n - 8))) }
    else g1
  else g

/-- R26: a late result in register `r`, with the values before it. -/
def Group.lateVector (g : Group) (need r : Nat) : Hazard :=
  ⟨.vector r, need, 0, runCells 0 96 (fun l => g.vec r l), []⟩

/-- R26: late flags, with the values before them. -/
def Group.lateFlags (g : Group) (need : Nat) : Hazard := ⟨.flags, need, 0, [], g.flags⟩

/-! ## Clocks and the journal -/

/-- A count that a 64-bit register holds goes on from `low` by `n`: it stops at the register's last value and never wraps.
DEDUCED (assumption 5). -/
def capCount (low n : Nat) : Nat := max low (min (low + n) (2 ^ 64 - 1))

/-- R34: read NSTIME, which never decreases. -/
def State.nsTime (s : State) : Nat × State :=
  let t := capCount s.nstime (Config.freeNat s.tick 9)
  (t, { s with nstime := t })

/-- R34: read CYCLE on a die: it never decreases there, and the dies differ by at most 8. DEDUCED (assumption 5). -/
def State.readCycle (s : State) (die : Nat) : Nat × State :=
  let d := s.die die
  let t := capCount (max d.cycle (s.cycle - 8)) (Config.freeNat s.tick 10)
  (t, { s.putDie { d with cycle := t } with cycle := max s.cycle t })

/-- R449: append an entry; a full journal notes the loss. DESIGN CHOICE (assumption 81). -/
def Journal.append (j : Journal) (kind who : Nat) (value : List Word) : Journal :=
  if j.entries.length < j.room then
    { j with seq := j.seq + 1, entries := j.entries ++ [⟨j.seq + 1, kind, who, value⟩] }
  else { j with lost := true }

/-- R449: a value enters a context from outside: it is journalled, or replaced by the journal's next value in a replay. -/
def State.enter (s : State) (ctx : BitVec 32) (kind who : Nat) (live : List Word) : List Word × State :=
  match s.journals.find? (fun j => j.ctx == ctx) with
  | none => (live, s)
  | some j =>
    let put := fun (j' : Journal) => { s with journals := s.journals.map (fun x => if x.ctx = ctx then j' else x) }
    match j.replay with
    | none => (live, put (j.append kind who live))
    | some (e :: rest) =>
      if e.kind = kind ∧ !j.lost then (e.value, put { j with replay := some rest })
      else
        let s1 := put { j with replay := none }
        (live, { s1 with firmware := { s1.firmware with notices := s1.firmware.notices ++ [(ctx, 449)] } })
    | some [] =>
      let s1 := put { j with replay := none }
      (live, { s1 with firmware := { s1.firmware with notices := s1.firmware.notices ++ [(ctx, 449)] } })

/-! ## Records and traps -/

/-- What a unit, an engine or a launch met (R345, R350, R356). -/
structure Cond where
  cause : Byte
  sec   : Byte := 0
  kind  : Nat := 1
  va    : Word := 0
  fmask : Mask := 0
  pmask : Option Mask := none
  code  : BitVec 12 := 0
  arg0  : Word := 0
  arg1  : Word := 0
  arg2  : Word := 0
deriving DecidableEq, Repr

/-- R350: ORIGIN: device, die, core slot and scheduler slot. -/
def State.origin (s : State) (core slot : Nat) : Word :=
  BitVec.ofNat 64 (s.fabric.devid.toNat * 2 ^ 51 + dieOf core % 8 * 2 ^ 48 + core % 512 * 2 ^ 39 + slot % 32 * 2 ^ 34)

/-- A name that the device gives: never 0, never given twice, its other bits open (R312, R350). DESIGN CHOICE
(assumption 35). -/
def State.freshName (s : State) : Nat := s.nextId + 2 ^ 32 * (Config.freeNat s.tick 11 % 2 ^ 32)

/-- R350: the record of a group's stop. -/
def State.stopRecord (s : State) (b : Block) (g : Group) (c : Cond) (token time : Nat) : TrapRecord :=
  { cause := c.cause, sec := c.sec, kind := c.kind, pv := c.pmask.isSome, sup := s.superOf b, code := c.code,
    pc := g.pc, va := c.va, token := BitVec.ofNat 64 token, fmask := c.fmask, pmask := c.pmask.getD 0,
    repidx := g.repidx, invst := g.invst, origin := s.origin b.core g.slot, ctx := s.ctxOf b, gid := g.gid,
    block := b.lin, time := BitVec.ofNat 64 time, unit := unitWords (s.unitAt b g.pc), arg0 := c.arg0, arg1 := c.arg1,
    arg2 := c.arg2 }

/-- R345, R350: a KIND 3 record of a core's engine, or of a launch or the fabric. -/
def State.engineRecord (s : State) (ctx : BitVec 32) (core : Nat) (c : Cond) (time : Nat) : TrapRecord :=
  { cause := c.cause, sec := c.sec, kind := 3, va := c.va, origin := s.origin core 0, ctx := ctx,
    time := BitVec.ofNat 64 time, arg0 := c.arg0, arg1 := c.arg1, arg2 := c.arg2 }

/-- R351: a record leaves for the trap queue of a device; `none` names the policy firmware of this one. -/
def State.send (s : State) (server : Option (BitVec 13)) (launch : Nat) (r : TrapRecord) : State :=
  { s with records := s.records ++ [⟨server, launch, r, none⟩] }

/-- R345: an engine's record for a context goes to the fault server of the launch that it works for. -/
def State.report (s : State) (launch core : Nat) (c : Cond) : State :=
  match s.launch? launch with
  | some l =>
    let (t, s1) := s.nsTime
    s1.send (some l.fsrv) launch (s1.engineRecord l.ctx core c t)
  | none => s

/-- A record for the policy firmware (R352, R353). -/
def State.reportFirmware (s : State) (launch core : Nat) (sup : Bool) (c : Cond) : State :=
  let (t, s1) := s.nsTime
  let ctx := match s.launch? launch with
    | some l => l.ctx
    | none => 0
  let tr := s1.engineRecord ctx core c t
  s1.send none launch { tr with sup := sup }

/-- The CRC-32C register after one byte (R373). -/
def crcByte (c : BitVec 32) (x : Byte) : BitVec 32 :=
  (List.range 8).foldl
    (fun r _ => if r.getLsbD 0 then (r >>> 1) ^^^ 0x82F63B78#32 else r >>> 1) (c ^^^ x.setWidth 32)

/-- R373: CRC-32C of a byte string. -/
def crc32c (bs : List Byte) : BitVec 32 := ~~~(bs.foldl crcByte 0xFFFFFFFF#32)

/-- R256: the operators that a block installed are to be removed. -/
def State.dropOperators (s : State) (b : Block) : State :=
  let c := s.core b.core
  if c.ops.any (fun o => o.blk == b.id) then
    s.putCore { c with ops := c.ops.map (fun o => if o.blk = b.id then { o with removing := true } else o) }
  else s

/-- A group that has ended, with nothing held. -/
def Group.finished (g : Group) : Group :=
  { g with status := .ended, stop := none, halt := none, holds := [], sigs := [], pending := none, met := none,
           active := false }

/-- R104: the groups of a block, its compacted groups among them. -/
def Block.allGroups (b : Block) : List Group :=
  b.groups ++ (match b.region with
    | some (cs, _) => cs
    | none => [])

/-- R325: the causes of copies that a group never raised. -/
def Group.unraised (g : Group) : List (Byte × Word) := g.copies.filterMap (fun w => if w.done then w.cause else none)

/-- R325: the failures that the groups of a block never raised leave for the fault server; a pair's once. -/
def State.reportUnraised (s : State) (b : Block) : State :=
  let mine : Bool := match b.pair with
    | some p => p.leading
    | none => true
  if mine then
    (b.allGroups.flatMap Group.unraised).foldl (fun (s : State) (c : Byte × Word) =>
      s.report b.launch b.core { cause := c.1, va := c.2 }) s
  else s

/-- R292, R353: the status of a launch that something ends: 7, or 8 of a driver's abort, over what its shape gave it; the
first of the two stands. -/
def endedStatus (old : Option Nat) (code : Nat) : Option Nat := if old = some 7 ∨ old = some 8 then old else some code

/-- R353, R355: one block ends fatally: its groups end, what they never raised is reported (R325), its held effects go, and
its operators are to be removed (R256). -/
def State.endOne (s : State) (k : Nat) : State :=
  match s.block? k with
  | none => s
  | some b =>
    if b.ended then s
    else
      let s1 := s.putBlock { b with ended := true, fatal := true, groups := b.groups.map Group.finished, region := none }
      let s2 := match s1.launch? b.launch with
        | some l => s1.putLaunch { l with status := endedStatus l.status 7 }
        | none => s1
      (s2.reportUnraised b).dropOperators b

/-- R353, R371: a block ends fatally, and its partner with it. -/
def State.endFatal (s : State) (k : Nat) : State :=
  match s.block? k with
  | none => s
  | some b =>
    match b.pair with
    | some p => (s.endOne k).endOne p.partner
    | none => s.endOne k

/-- R353: every block of a launch ends. -/
def State.endLaunchBlocks (s : State) (launch : Nat) : State :=
  ((s.blocks.filter (fun b => b.launch == launch)).map Block.id).foldl State.endFatal s

/-- R352, R353: the tokens that a supervisor group's lanes hold. -/
def Group.tokens (g : Group) : List Word :=
  ((lanesOf (g.present &&& ~~~g.helper)).map (g.pair 0)).filter (fun t => decide (t ≠ 0))

/-- R352: a whole-group condition ends a supervisor group: its records are answered with ENDBLK, and the policy firmware
gets a record with cause 0xA3. -/
def State.endSupervisor (s : State) (b : Block) (g : Group) (c : Cond) : State :=
  let s1 := { s with answers := s.answers ++ g.tokens.map (fun t => (t, 3, 0)) }
  (s1.reportFirmware b.launch b.core true { cause := 0xA3, sec := c.cause, kind := 3 }).endFatal b.id

/-- R352: the lanes of a fault leave a supervisor group's masks, v3 tells them, and the lanes already performed do not
perform the unit again. -/
def Group.dropLanes (g : Group) (c : Cond) : Group :=
  let g1 := { g with
    exec := g.exec &&& ~~~c.fmask
    entries := g.entries.map (fun (e : Entry) => { e with mask := e.mask &&& ~~~c.fmask })
    redo := g.redo ||| c.pmask.getD 0, remote := [] }
  g1.setVec 3 c.fmask (fun _ => 0x80000000#32 ||| c.cause.setWidth 32)

/-- R346, R350, R351: a group stops: its state stays, its record is formed with a new token and leaves for the fault
server. -/
def State.stopGroup (s : State) (r : GRef) (b : Block) (g : Group) (c : Cond) (drain : Bool) : State :=
  let (t, s1) := s.nsTime
  let tr := s1.stopRecord b g c s1.freshName t
  let len := 2 * (s1.unitAt b g.pc).length
  let rep := decide (prefixKind ((s1.unitAt b g.pc).getD 0 0) = some 0)
  let s2 := { s1 with nextId := s1.nextId + 1 }
  let s3 := s2.changeAt r (fun x => { x with status := .stopped, stop := some ⟨tr, len, rep, drain⟩, active := false, remote := [] })
  match s3.launch? b.launch with
  | some l => s3.send (some l.fsrv) b.launch tr
  | none => s3

/-- R376, R381: a group of a pair stops with one record for the leading group, and its partner with it. -/
def State.stopPair (s : State) (r : GRef) (b : Block) (g : Group) (c : Cond) (drain : Bool) : State :=
  let s1 := (s.changeAt r (fun x => { x with met := none })).stopGroup r b g c drain
  match b.pair with
  | some p => s1.changeAt { r with blk := p.partner } (fun t => { t with status := .stopped, stop := none, met := none, active := false })
  | none => s1

/-- R302: a tentative block's stop is held: no record leaves. -/
def State.holdStop (s : State) (r : GRef) (b : Block) (g : Group) (c : Cond) : State :=
  let tr := s.stopRecord b g c 0 0
  let len := 2 * (s.unitAt b g.pc).length
  let rep := decide (prefixKind ((s.unitAt b g.pc).getD 0 0) = some 0)
  s.changeAt r (fun x => { x with status := .held, stop := some ⟨tr, len, rep, false⟩, active := false, remote := [] })

/-- R376: the meeting of a stop: the unit's words, the cause and the mask. -/
def State.stopMeeting (s : State) (b : Block) (g : Group) (c : Cond) : Meeting :=
  ⟨1, crc32c (natBytes 8 (unitWords (s.unitAt b g.pc)).toNat ++ c.cause :: natBytes 12 c.fmask.toNat)⟩

/-- R376: a stop of a group of a pair is a meeting point: the group waits for its partner with the unit's words, the cause
and the mask. -/
def State.meetStop (s : State) (r : GRef) (b : Block) (g : Group) (c : Cond) : State :=
  let tr := s.stopRecord b g c 0 0
  let len := 2 * (s.unitAt b g.pc).length
  let rep := decide (prefixKind ((s.unitAt b g.pc).getD 0 0) = some 0)
  s.changeAt r (fun x => { x with
    status := .waiting (.partner (s.stopMeeting b g c)), stop := some ⟨tr, len, rep, false⟩, met := none, active := false
    remote := [] })

/-- R376: a unit at which a pair has met already meets a condition when it is performed: both groups are at that stop, where
they meet. -/
def State.meetBoth (s : State) (r : GRef) (b : Block) (g : Group) (c : Cond) : State :=
  match b.pair with
  | some p => (s.meetStop r b g c).changeAt { r with blk := p.partner } (fun t => { t with
      status := .waiting (.partner (s.stopMeeting b g c)), active := false })
  | none => s.meetStop r b g c

/-- Taking a trap (R345, R346): what becomes of the executing group when its unit meets a condition. A tentative block
holds it (R302), a pair meets at it (R376), a supervisor group loses lanes or ends (R352), and any other group stops and
its record leaves for the fault server (R350, R351). -/
def State.trap (s : State) (c : Cond) : State :=
  match s.current with
  | none => s
  | some (b, g) =>
    if b.mode = .tentative then s.holdStop s.cur b g c
    else if b.pair.isSome then
      if g.met.isSome then s.meetBoth s.cur b g c else s.meetStop s.cur b g c
    else if s.superOf b then
      if c.kind ≠ 1 ∧ c.fmask ≠ 0 then s.putGroup (g.dropLanes c) else s.endSupervisor b g c
    else s.stopGroup s.cur b g c false

/-- The executing group leaves the active set and waits at its unit (R212, R302, R311). -/
def State.wait (s : State) (w : Wait) : State :=
  s.changeAt s.cur (fun x => { x with status := .waiting w, active := false })

/-! ## Running a unit -/

/-- What R64 checks of a unit before it has any effect: whether it is privileged, the cause it raises inside a compacted
region, the vector registers it names, those it reads, and whether it reads the flags. -/
structure Need where
  priv   : Bool := false
  region : Option Byte := none
  regs   : List Nat := []
  reads  : List Nat := []
  flags  : Bool := false
deriving DecidableEq, Repr

/-- R64 steps 5 to 8, R109: the first cause that applies. DESIGN CHOICE (assumption 37). -/
def unitCause (s : State) (b : Block) (g : Group) (n : Need) : Option Byte :=
  if n.priv && !s.superOf b then some 0x09
  else if g.compacted && n.region.isSome then n.region
  else if n.regs.any (fun r => decide (g.budget ≤ r)) then some 0x0C
  else if g.chk && g.undersized n.reads n.flags then some 0x06
  else none

/-- Run a unit of the executing group: trap with the first cause of R64, or perform `f` on the block, the group, and the
group as the unit's reads see it (R30). -/
def onGroup (s : State) (n : Need) (f : Block → Group → Group → State) : Host.Outcome State Fault Refusal :=
  match s.current with
  | none => .fault .noGroup
  | some (b, g) =>
    match unitCause s b g n with
    | some c => .next (s.trap { cause := c })
    | none => .next (f b g (g.seen s.tick n.reads n.flags))

end Sys2Proof.Machine
end

