-- ==== Sys2Proof/Machine/Engine.lean ====
section
/-! DEFINITION. What engines do beside groups: reading and writing memory by virtual address (R201, R394, R432), and
sending requests over the fabric (R407 to R414, R419). -/

namespace Sys2Proof.Machine

/-! ## The fabric -/

/-- One of the two banks (R419). -/
def Fabric.bank (f : Fabric) (b : Bool) : Bank := if b then f.bank1 else f.bank0

/-- R419: the destination entry of a device in a bank. -/
def Bank.entry (b : Bank) (dev : BitVec 13) : Word := readCell b.table dev.toNat

/-- R420: the planes of the ports that a bank enables. -/
def Fabric.planes (f : Fabric) : BitVec 16 :=
  let m := (f.bank f.active).ports
  BitVec.ofNat 16 ((List.range 16).foldr (fun p acc =>
    let e := readCell m p
    (if e.getLsbD 4 && f.live.getLsbD p then (2 ^ (e.toNat % 16)) else 0) ||| acc) 0)

/-- R415, R420: the planes of the ports that a bank enables and whose receivers take packets of a class. -/
def Fabric.openPlanes (f : Fabric) (cls : Nat) : BitVec 16 :=
  let m := (f.bank f.active).ports
  BitVec.ofNat 16 ((List.range 16).foldr (fun p acc =>
    let e := readCell m p
    (if e.getLsbD 4 && f.live.getLsbD p && !f.off.contains (p, cls) then (2 ^ (e.toNat % 16)) else 0) ||| acc) 0)

/-- R419: a request for a device has an entry and a plane in common with the live set. -/
def Fabric.reaches (f : Fabric) (dev : BitVec 13) : Bool :=
  let e := (f.bank f.active).entry dev
  e.getLsbD 32 && decide (e.setWidth 16 &&& f.planes ≠ 0#16)

/-- R415: must a packet wait at the sender: every plane that leads to its destination has its class stopped? -/
def Fabric.stops (f : Fabric) (p : Packet) : Bool :=
  !f.off.isEmpty && f.reaches p.dst && decide (((f.bank f.active).entry p.dst).setWidth 16 &&& f.openPlanes p.cls.toNat = 0#16)

/-- R419: the partition key for a device. -/
def Fabric.keyFor (f : Fabric) (dev : BitVec 13) : BitVec 16 := BitVec.ofNat 16 (((f.bank f.active).entry dev).toNat / 65536)

/-! ## Memory by virtual address -/

/-- The bytes of a page that this device does not hold: the host's or a peer's, which nothing constrains. DESIGN CHOICE
(assumption 32). -/
def State.outsideByte (s : State) (a : Nat) : Byte := Config.freeByte s.tick (4 * a + 2)

/-- The bytes of a block's scratchpad. -/
def State.readScratch (s : State) (blk off n : Nat) : List Byte :=
  match s.block? blk with
  | some b => readBytes b.scratch off n
  | none => []

/-- The bytes that the tile path reads of an element's page now. -/
def State.tileBytes (s : State) (core : Nat) (p : Place) (n : Nat) : List Byte :=
  match p with
  | .local pa swc _ _ => ((s.l2Word (dieOf core) swc (pa / 8 * 8)).drop (pa % 8)).take n
  | .peer _ pa _ => bytesOf s.outsideByte pa n
  | .host pa => bytesOf s.outsideByte pa n
  | .window _ => []

/-- R326: per byte, what the source held at issue or what it holds now. DESIGN CHOICE (assumption 18). -/
def mixBytes (tick : Nat) (key : Nat) (old now : List Byte) : List Byte :=
  now.zipIdx.map (fun e => let o := old.getD e.2 e.1
    if o = e.1 then e.1 else if Config.freeBool tick (16 * (key + e.2) + 14) then o else e.1)

/-- Does an element that has not landed lie on local bytes that meet a range? -/
def CopyElem.meets (e : CopyElem) (size pa n : Nat) : Bool :=
  !e.landed && (match e.at_ with
    | some (_, .local a _ _ _) => decide (a < pa + n) && decide (pa < a + size)
    | _ => false)

/-- R205, R323: the source of an element as a store of another agent than a group meets it: read for good before, or after
the store. -/
def CopyElem.meetStore (e : CopyElem) (s : State) (core pa : Nat) (bs : List Byte) : CopyElem :=
  match e.at_ with
  | some (_, .local a swc u m) =>
    if e.taken then e
    else if Config.freeBool s.tick (16 * a + 15) then
      { e with was := mixBytes s.tick a e.was (s.tileBytes core (.local a swc u m) e.was.length), taken := true }
    else { e with was := e.was.zipIdx.map (fun x =>
        if pa ≤ a + x.2 ∧ a + x.2 < pa + bs.length then bs.getD (a + x.2 - pa) x.1 else x.1) }
  | _ => e

/-- The block of a copy's scratchpad side holds these bytes for an element that is to be stored (R326). -/
def State.storedElem (s : State) (c : Copy) (e : CopyElem) (va : Word) : List Byte :=
  mixBytes s.tick (va.toNat + 2 ^ 52) e.was (s.readScratch c.dst (c.base + e.off) (2 ^ c.esz))

/-- An element of a copy replaced. -/
def State.putElem (s : State) (copy k : Nat) (e : CopyElem) : State :=
  { s with copies := s.copies.map (fun (d : Copy) => if d.id = copy then { d with elems := d.elems.set k e } else d) }

/-- R205, R323: an element of which single bytes have landed on a LOCAL page lands whole. -/
def State.landWhole (s : State) (c : Copy) (k : Nat) (e : CopyElem) : State :=
  match e.at_ with
  | some (va, .local pa _ _ _) => (s.putHomeBytes pa (s.storedElem c e va)).putElem c.id k { e with landed := true }
  | _ => s

/-- R205, R323: an element is one access for every agent but a group: before an access of the host, a peer, an engine or
another copy to a range of bytes, elements of which single bytes have landed there land whole; a store, of bytes `bs`, comes
before or after the elements that are to be read there. `but` is the copy that accesses the bytes. -/
def State.meetCopies (s : State) (pa n : Nat) (bs : Option (List Byte)) (but : Option Nat := none) : State :=
  s.copies.foldl (fun (s : State) (c : Copy) =>
    match s.block? c.blk with
    | none => s
    | some b =>
      if but = some c.id then s
      else c.elems.zipIdx.foldl (fun (s : State) (e : CopyElem × Nat) =>
        if !e.1.meets (2 ^ c.esz) pa n then s
        else if c.store then (if e.1.torn then s.landWhole c e.2 e.1 else s)
        else match bs with
          | some xs => s.putElem c.id e.2 (e.1.meetStore s b.core pa xs)
          | none => s) s) s

/-- R205, R323: the byte of an element of which single bytes have landed, as an engine that reads it whole sees it. -/
def State.tornByte (s : State) (a : Nat) : Option Byte :=
  s.copies.findSome? (fun (c : Copy) =>
    if !c.store || (s.block? c.blk).isNone then none
    else c.elems.findSome? (fun (e : CopyElem) =>
      if !e.torn || !e.meets (2 ^ c.esz) a 1 then none
      else match e.at_ with
        | some (va, .local pa _ _ _) => (s.storedElem c e va)[a - pa]?
        | _ => none))

/-- The bytes of a range after a store of marked bytes to it, each at its distance from `pa`. -/
def State.rangeAfter (s : State) (pa n : Nat) (bs : List (Nat × Byte)) : List Byte :=
  (List.range n).map (fun k => match bs.find? (fun e => e.1 == k) with
    | some e => e.2
    | none => s.home (pa + k))

/-- How a peer answers an engine that reads a line of one of its pages: with bytes, or with a refusal: its key, the reply
that is lost, or an uncorrectable error (R212). DESIGN CHOICE (assumption 32). -/
def State.peerRefusal (s : State) (dev : BitVec 13) (pa : Nat) : Option Byte :=
  if !s.fabric.reaches dev then some 0x27
  else [none, some 0x26, some 0x27, some 0xA0].getD (Config.freeNat s.tick (16 * (pa / 64) + 14) % 4) none

/-- One byte for an engine, from where its page is served; the tile path reads the L2 (R201). -/
def State.placeByte (s : State) (core : Nat) (p : Place) (off : Nat) : Except Fail Byte :=
  match p with
  | .local pa swc _ _ =>
    if s.spoiled (pa + off) 1 then .error ⟨20, 0xA0, 0⟩
    else
      let a := pa + off
      .ok ((s.tornByte a).getD ((s.l2Word (dieOf core) swc (a / 8 * 8)).getD (a % 8) 0))
  | .peer dev pa _ =>
    match s.peerRefusal dev (pa + off) with
    | some c => .error ⟨20, c, 0⟩
    | none => .ok (s.outsideByte (pa + off))
  | .host pa => .ok (s.outsideByte (pa + off))
  | .window _ => .error (.aperture 0x25)

/-- R392: `n` bytes for an engine of a core under a context's translation; a failing check comes with its address. -/
def State.engineRead (s : State) (core : Nat) (ctx : BitVec 32) (user : Bool) (va : Word) (n : Nat) :
    Except (Fail × Word) (List Byte) :=
  match n with
  | 0 => .ok []
  | n + 1 =>
    match s.translate core ctx user .load va with
    | .error f => .error (f, va)
    | .ok p =>
      match s.placeByte core p 0 with
      | .error f => .error (f, va)
      | .ok b =>
        match s.engineRead core ctx user (va + 1) n with
        | .error f => .error f
        | .ok rest => .ok (b :: rest)

/-- A little-endian word of an engine's read, or 0 bytes past its end. -/
def wordAt (bs : List Byte) (off n : Nat) : Nat := bytesNat ((bs.drop off).take n)

/-! ## Requests -/

/-- R412: the last sequence number used towards a device on a stream. -/
def Fabric.lastSeq (f : Fabric) (dev : BitVec 13) (stream : BitVec 12) : BitVec 24 :=
  match f.seqs.find? (fun e => e.1 == dev && e.2.1 == stream) with
  | some e => e.2.2
  | none => 0

/-- R412: the number after the last one; after 0xFF_FFFF comes 1. -/
def nextSeq (n : BitVec 24) : BitVec 24 := if n = 0xFFFFFF#24 then 1 else n + 1

/-- R411: two parts of one atomic unit of one sender. -/
def partsOfOne (p q : Packet) : Bool :=
  decide (p.op = 0x03) && decide (q.op = 0x03) && p.pa == q.pa && p.npart == q.npart && p.aop == q.aop && p.tag == q.tag &&
  decide (p.part ≠ q.part)

/-- R412, R413: may a request leave now: at most 256 of its stream are out, and on stream 0 none of its core for its line,
other than a part of its own atomic unit. -/
def mayGo (before : List Outstanding) (p : Packet) : Bool :=
  let out := before.filter (fun r => r.packet.dst == p.dst && r.packet.stream == p.stream && r.reply.isNone)
  decide (out.length < 256) &&
  (decide (p.stream ≠ 0) ||
    out.all (fun r => partsOfOne r.packet p ||
      !(r.packet.pa.toNat / 64 == p.pa.toNat / 64 && r.packet.tag.toNat / 128 == p.tag.toNat / 128)))

/-- R412, R414, R419: a request leaves with its sequence number and key, or waits at the sender (R413, R415). The
number names it until its reply is consumed. `ctx` and `core` say whom it works for (R398). -/
def State.request (s : State) (p : Packet) (ctx : BitVec 32 := 0) (core : Nat := 0) : Nat × State :=
  let f := s.fabric
  let n := nextSeq (f.lastSeq p.dst p.stream)
  let q := framed { p with src := f.devid, seq := n, pkey := f.keyFor p.dst }
  let goes := mayGo f.requests q && !f.stops q
  let seqs := (p.dst, p.stream, n) :: f.seqs.filter (fun e => !(e.1 == p.dst && e.2.1 == p.stream))
  (s.nextId,
   { s with
     nextId := s.nextId + 1
     fabric := { f with
       seqs := seqs
       requests := f.requests ++ [⟨s.nextId, q, 0, false, goes, none, ctx, core⟩]
       outbox := if goes then f.outbox ++ [q] else f.outbox } })

/-- R407, R415: a framed packet leaves, or waits at the sender while its class is stopped. -/
def Fabric.emit (f : Fabric) (p : Packet) : Fabric :=
  if f.stops p then { f with blocked := f.blocked ++ [p] } else { f with outbox := f.outbox ++ [p] }

/-- R407: a packet without a reply of its own leaves. DESIGN CHOICE (assumption 48). -/
def State.post (s : State) (p : Packet) : State := { s with fabric := s.fabric.emit (framed p) }

/-- R393, R428: this device writes to the host's memory. -/
def State.toHost (s : State) (x : HostAccess) : State := { s with host := { s.host with out := s.host.out ++ [x] } }

/-- The bytes of a packet's lines, from the byte at `off` in its first line. -/
def packetBytes (off : Nat) (bs : List Byte) : List (Nat × Byte) := bs.zipIdx.map (fun e => (off + e.2, e.1))

/-- R407: log2 of the size that a store of `n` bytes carries. -/
def sizeField (n : Nat) : BitVec 4 := BitVec.ofNat 4 (min 4 (Nat.log2 n))

/-- R267, R292: an engine writes bytes of one page where it is served: at the home agent, on a software-coherent page too,
on a peer through a request, or on the host. A number names the request that leaves. DESIGN CHOICE (assumption 111).
DESIGN CHOICE (assumption 48). -/
def State.placeWrite (s : State) (core : Nat) (ctx : BitVec 32) (p : Place) (bs : List Byte) (stream : BitVec 12) :
    Option Nat × State :=
  match p with
  | .local pa _ _ _ =>
    (none, ((s.meetCopies pa bs.length (some bs)).putHomeBytes pa bs).sendAway (bs.zipIdx.map (fun e => (pa + e.2, e.1))))
  | .peer dev pa _ =>
    let q := aimPacket { blankPacket with order := 2, scope := 5, size := sizeField bs.length } 0x02 dev stream pa
      (packetBytes (pa % 64) bs)
    let r := s.request q ctx core
    (some r.1, r.2)
  | .host pa => (none, s.toHost ⟨pa, none, bs, []⟩)
  | .window _ => (none, s)

/-- R392: an engine writes an aligned word of at most 64 bytes under a context's translation; a number names the request
that leaves for a peer. -/
def State.engineStore (s : State) (core : Nat) (ctx : BitVec 32) (user : Bool) (va : Word) (bs : List Byte) :
    Except Fail (Option Nat × State) :=
  match s.translate core ctx user .store va with
  | .error f => .error f
  | .ok (.window _) => .error (.aperture 0x25)
  | .ok (.peer dev pa rap) =>
    if s.fabric.reaches dev then .ok (s.placeWrite core ctx (.peer dev pa rap) bs 0xFFE#12) else .error (.peer 0x27)
  | .ok p => .ok (s.placeWrite core ctx p bs 0xFFE#12)

/-- R392: an engine writes an aligned word of at most 64 bytes under a context's translation. -/
def State.engineWrite (s : State) (core : Nat) (ctx : BitVec 32) (user : Bool) (va : Word) (bs : List Byte) :
    Except Fail State :=
  match s.engineStore core ctx user va bs with
  | .error f => .error f
  | .ok r => .ok r.2

/-- An engine's write whose failing check the manual gives no effect: it is dropped. -/
def State.engineWriteOr (s : State) (core : Nat) (ctx : BitVec 32) (va : Word) (bs : List Byte) : State :=
  match s.engineWrite core ctx false va bs with
  | .ok t => t
  | .error _ => s

/-- The replies to some requests are consumed. -/
def State.consume (s : State) (ids : List Nat) : State :=
  { s with fabric := { s.fabric with requests := s.fabric.requests.filter (fun r => !ids.contains r.id) } }

/-! ## What a unit reads of peer pages before it is performed (R212, R393) -/

/-- The line of a peer that the unit at the PC has asked for, which holds a byte. -/
def Group.lineFor (g : Group) (dev : BitVec 13) (pa : Nat) : Option RemoteLine :=
  g.remote.find? (fun x => x.dev == dev && decide (x.line = pa / 64) && x.offs.contains (pa % 64))

/-- R212: a byte of a peer page that a unit of the group reads: the byte, the cause that refuses it, or none while it has
not come. -/
def State.peerByte (s : State) (g : Group) (dev : BitVec 13) (pa : Nat) : Except (Option Byte) Byte :=
  match (g.lineFor dev pa).map RemoteLine.answer with
  | some (some (.bytes bs)) => .ok (match bs.find? (fun e => e.1 == pa % 64) with
      | some e => e.2
      | none => 0)
  | some (some (.refused c _ _)) => .error (some c)
  | _ => if s.fabric.reaches dev then .error none else .error (some 0x27)

/-- R212: `n` bytes of a peer page that the unit has been given, or the cause that refuses them. -/
def State.peerBytes (s : State) (g : Group) (dev : BitVec 13) (pa n : Nat) : Except Byte (List Byte) :=
  match n with
  | 0 => .ok []
  | n + 1 =>
    match s.peerByte g dev pa, s.peerBytes g dev (pa + 1) n with
    | .ok v, .ok rest => .ok (v :: rest)
    | .error c, _ => .error (c.getD 0x27)
    | _, .error c => .error c

/-- A byte that a unit of the group reads where its page is served; a failing check comes with its address, and none says
that a peer's reply, or a home that migrates (R404), is awaited. -/
def State.groupByte (s : State) (b : Block) (g : Group) (va : Word) : Except (Option (Fail × Word)) Byte :=
  match s.translate b.core (s.ctxOf b) (!s.superOf b) .load va with
  | .error f => .error (some (f, va))
  | .ok (.peer dev pa _) =>
    match s.peerByte g dev pa with
    | .ok v => .ok v
    | .error (some c) => .error (some (⟨20, c, 0⟩, va))
    | .error none => .error none
  | .ok p =>
    let waits := match p with
      | .local pa _ _ _ => s.heldByHome pa
      | _ => false
    if waits then .error none
    else match s.placeByte b.core p 0 with
      | .error f => .error (some (f, va))
      | .ok v => .ok v

/-- `n` bytes that a unit of the group reads. -/
def State.groupRead (s : State) (b : Block) (g : Group) (va : Word) (n : Nat) : Except (Option (Fail × Word)) (List Byte) :=
  match n with
  | 0 => .ok []
  | n + 1 =>
    match s.groupByte b g va, s.groupRead b g (va + 1) n with
    | .ok v, .ok rest => .ok (v :: rest)
    | .error f, _ => .error f
    | _, .error f => .error f

/-- The bytes of peer pages among some ranges that the unit has not asked for yet. -/
def State.unasked (s : State) (b : Block) (g : Group) (ranges : List (Word × Nat)) : List (BitVec 13 × Nat) :=
  (ranges.flatMap (fun r => (List.range r.2).map (fun k => r.1 + BitVec.ofNat 64 k))).filterMap (fun va =>
    match s.translate b.core (s.ctxOf b) (!s.superOf b) .load va with
    | .ok (.peer dev pa _) => if s.fabric.reaches dev && (g.lineFor dev pa).isNone then some (dev, pa) else none
    | _ => none)

/-- Does the unit still await bytes of peer pages among some ranges? -/
def State.awaits (s : State) (b : Block) (g : Group) (ranges : List (Word × Nat)) : Bool :=
  (ranges.flatMap (fun r => (List.range r.2).map (fun k => r.1 + BitVec.ofNat 64 k))).any (fun va =>
    match s.translate b.core (s.ctxOf b) (!s.superOf b) .load va with
    | .ok (.peer dev pa _) => (match s.peerByte g dev pa with
      | .error none => true
      | _ => false)
    | _ => false)

/-- R212, R410, R418: the unit asks the peers for the bytes of some ranges, one packet for a line, and waits for the
replies; it is issued again once they are there. `size` is log2 of the access size, `order` and `scope` those of the access.
A record of more than 8 bytes is asked for in words of 8. DESIGN CHOICE (assumption 48). -/
def State.askFor (s : State) (b : Block) (g : Group) (ranges : List (Word × Nat)) (size : Nat := 3) (order : Nat := 0)
    (scope : Nat := 0) : State :=
  let bytes := s.unasked b g ranges
  let keys := (bytes.map (fun e => (e.1, e.2 / 64))).eraseDups
  let r := keys.foldl (fun (acc : List RemoteLine × State) (k : BitVec 13 × Nat) =>
    let offs := ((bytes.filter (fun e => e.1 == k.1 && decide (e.2 / 64 = k.2))).map (fun e => e.2 % 64)).eraseDups
    let window := peerWindow (64 * k.2)
    let base : Packet := { blankPacket with
      size := BitVec.ofNat 4 size, order := BitVec.ofNat 2 order, scope := BitVec.ofNat 3 scope
      opkey := if window then g.opkey else 0
      tag := BitVec.ofNat 32 (s.fabric.devid.toNat * 2 ^ 19 + dieOf b.core % 8 * 2 ^ 16 + b.core % 512 * 2 ^ 7 + g.slot % 32 * 4) }
    let q := aimPacket base (if window then 0x05 else 0x01) k.1 g.fstrm (64 * k.2) (offs.map (fun o => (o, (0 : Byte))))
    let a := acc.2.request q (acc.2.ctxOf b) b.core
    (acc.1 ++ [⟨k.1, k.2, offs, a.1, none⟩], a.2)) ([], s)
  (r.2.changeAt r.2.cur (fun x => { x with remote := x.remote ++ r.1 })).wait .replies

/-- R224: the new value of an atomic operation on `m`, with the operand `a` and the replacement `n` of a compare-and-swap.
-/
def atomicNew (aop m a n : Nat) : Nat :=
  let w := fun (x : Nat) => x % 2 ^ 32
  let i := fun (x : Nat) => signedOf 32 x
  match aop with
  | 0 => w (m + a)
  | 1 => (m + a) % 2 ^ 64
  | 2 =>
    let r := FVal.add false (decodeF fp32 m) (decodeF fp32 a)
    (deliver fp32 .rne r.1).1
  | 3 => a
  | 4 => if i a < i m then a else m
  | 5 => if i m < i a then a else m
  | 6 => min m a
  | 7 => max m a
  | 8 => m &&& a
  | 9 => m ||| a
  | 10 => m ^^^ a
  | 11 => a
  | 12 => (minMaxBits fp32 false m a).1
  | 13 => (minMaxBits fp32 true m a).1
  | _ => if m = a then n else m

/-- R57, R223: the size in bytes of an atomic operation. -/
def atomicSize (aop : Nat) : Nat := if aop = 1 ∨ aop = 11 ∨ aop = 15 then 8 else 4

/-- R225: one atomic step at a home address: the old value, and the state after it. -/
def State.atomicHome (s : State) (aop pa a n : Nat) : Nat × State :=
  let k := atomicSize aop
  let old := bytesNat (bytesOf s.home pa k)
  (old, s.putHomeBytes pa (natBytes k (atomicNew aop old a n)))

/-- R205, R225: an atomic step of an engine at a home address, before or after the elements of copies there. -/
def State.engineAtomic (s : State) (aop pa a n : Nat) : Nat × State :=
  let k := atomicSize aop
  let s0 := s.meetCopies pa k none
  let r := s0.atomicHome aop pa a n
  (r.1, { r.2 with copies := (s0.meetCopies pa k (some (bytesOf r.2.home pa k))).copies })

end Sys2Proof.Machine
end

