-- ==== Sys2Proof/Machine/Slots.lean ====
section
/-! DEFINITION. Operator windows and slots: where a window's byte lies (R251, R252), judging and applying store requests
(R257, R258, R260, R263), firing, and reading inlet and outlet slots (R264 to R266). The bytes of the slots stand in the
scratchpad of the installing block (R251). -/

namespace Sys2Proof.Machine

/-! ## Sizes (R251) -/

/-- The size of an activation element (R251). -/
def OpDesc.actSize (d : OpDesc) : Nat := if d.afmt < 3 then 1 else 2

/-- The size of an output element (R251). -/
def OpDesc.outSize (d : OpDesc) : Nat := if d.ofmt < 2 then 4 else if d.ofmt < 4 then 2 else 1

/-- A size rounded up to a multiple of 64. -/
def upTo64 (n : Nat) : Nat := (n + 63) / 64 * 64

/-- The inlet stride IS (R251). -/
def OpDesc.inStride (d : OpDesc) : Nat := upTo64 (d.kop * d.actSize + 8)

/-- The outlet stride OS (R251). -/
def OpDesc.outStride (d : OpDesc) : Nat := upTo64 (d.nop * d.outSize + 8)

/-- Does the operator keep its results in outlet slots (KEEP and TAKE)? -/
def OpDesc.hasOutlet (d : OpDesc) : Bool := decide (d.rmode < 2)

/-- The scratchpad offset of byte `off` of inlet slot `i` (R251). -/
def OpDesc.inByte (d : OpDesc) (i off : Nat) : Nat := d.store % 2 ^ 28 + i * d.inStride + off

/-- The scratchpad offset of byte `off` of outlet slot `i` (R251). -/
def OpDesc.outByte (d : OpDesc) (i off : Nat) : Nat :=
  d.store % 2 ^ 28 + d.slots * d.inStride + i * d.outStride + off

/-- The bytes of slot storage (R251). -/
def OpDesc.storeSize (d : OpDesc) : Nat := d.slots * (d.inStride + (if d.hasOutlet then d.outStride else 0))

/-- The planes of the weight format (R253). -/
def OpDesc.planes (d : OpDesc) : Nat := if d.wfmt = 0 then 1 else if d.wfmt = 1 then 4 else 8

/-- Kp of R253. -/
def OpDesc.kPad (d : OpDesc) : Nat := (d.kop + 95) / 96 * 96

/-- Np of R253. -/
def OpDesc.nPad (d : OpDesc) : Nat := (d.nop + 31) / 32 * 32

/-- The weight-store bytes that an operator needs (R253). -/
def OpDesc.weightRoom (d : OpDesc) : Nat := d.planes * d.kPad * d.nPad / 4

/-! ## Finding operators -/

/-- Every installed operator: on cores, and with saved blocks (R368). -/
def State.operators (s : State) : List Operator := s.cores.flatMap Core.ops ++ s.launches.flatMap Launch.savedOps

/-- The operator that a handle names. -/
def State.operator? (s : State) (h : Nat) : Option Operator := s.operators.find? (fun o => o.handle == h)

/-- The operator in place of the one with its handle. -/
def State.putOperator (s : State) (o : Operator) : State :=
  let put := fun (xs : List Operator) => xs.map (fun x => if x.handle = o.handle then o else x)
  { s with
    cores := s.cores.map (fun c => { c with ops := put c.ops })
    launches := s.launches.map (fun l => { l with savedOps := put l.savedOps }) }

/-- A block that is resident or saved. -/
def State.anyBlock? (s : State) (k : Nat) : Option Block :=
  match s.block? k with
  | some b => some b
  | none => (s.launches.flatMap Launch.savedBlk).find? (fun b => b.id == k)

/-- A resident or saved block in place of the one with its number. -/
def State.putAnyBlock (s : State) (b : Block) : State :=
  let put := fun (xs : List Block) => xs.map (fun x => if x.id = b.id then b else x)
  { s with
    blocks := put s.blocks
    launches := s.launches.map (fun l => { l with savedBlk := put l.savedBlk }) }

/-- The scratchpad of the installing block. -/
def State.slotStore (s : State) (o : Operator) : Cells 8 :=
  match s.anyBlock? o.blk with
  | some b => b.scratch
  | none => []

/-- Change the scratchpad of the installing block. -/
def State.changeSlotStore (s : State) (o : Operator) (f : Cells 8 → Cells 8) : State :=
  match s.anyBlock? o.blk with
  | some b => s.putAnyBlock { b with scratch := f b.scratch }
  | none => s

/-- The core that holds an operator; for a parked one, the core it would have. -/
def State.coreOfOperator (s : State) (h : Nat) : Nat :=
  match s.cores.find? (fun c => c.ops.any (fun o => o.handle == h)) with
  | some c => c.id
  | none => 0

/-- What stands at a window address (R252, R369): an inlet or outlet slot with an offset in it, or the refusing cause. -/
inductive WindowAt where
  | inlet (o : Operator) (slot off : Nat)
  | outlet (o : Operator) (slot off : Nat)
  | refused (cause : Byte)
deriving DecidableEq, Repr

/-- R252, R369: the window byte at a virtual address; a window that was torn down refuses the context whose it was, or, when
none is given, any. DEDUCED (assumption 15). -/
def State.windowAt (s : State) (va : Nat) (ctx : Option (BitVec 32) := none) : WindowAt :=
  let inOf := fun (o : Operator) =>
    let base := o.desc.inlet.toNat % 2 ^ 52
    decide (base ≤ va) && decide (va < base + o.desc.slots * o.desc.inStride)
  let outOf := fun (o : Operator) =>
    let base := o.desc.outlet.toNat % 2 ^ 52
    o.desc.hasOutlet && decide (base ≤ va) && decide (va < base + o.desc.slots * o.desc.outStride)
  match s.operators.find? inOf with
  | some o =>
    let d := va - o.desc.inlet.toNat % 2 ^ 52
    .inlet o (d / o.desc.inStride) (d % o.desc.inStride)
  | none =>
    match s.operators.find? outOf with
    | some o =>
      let d := va - o.desc.outlet.toNat % 2 ^ 52
      .outlet o (d / o.desc.outStride) (d % o.desc.outStride)
    | none =>
      if s.tornWin.any (fun w => decide (w.2.1 ≤ va) && decide (va < w.2.1 + w.2.2) && ctx.all (fun c => c == w.1)) then .refused 0x45
      else .refused 0x25

/-! ## Slots -/

/-- R251: the windows of a descriptor: base and extent. -/
def OpDesc.windows (d : OpDesc) : List (Nat × Nat) :=
  (d.inlet.toNat % 2 ^ 52, d.slots * d.inStride) ::
  (if d.hasOutlet then [(d.outlet.toNat % 2 ^ 52, d.slots * d.outStride)] else [])

/-- A slot right after installation (R253). -/
def Slot.empty : Slot :=
  { state := .empty, mask := 0, capture := [], claim := none, firing := 0, gen := 0, err := 0, tag := 0, poisoned := false, stamp := 0 }

/-- The slot `i` of an operator. -/
def Operator.slot (o : Operator) (i : Nat) : Slot := o.slots.getD i .empty

/-- The operator with its slot `i` replaced. -/
def Operator.putSlot (o : Operator) (i : Nat) (x : Slot) : Operator := { o with slots := setNth o.slots i x }

/-- R263: the generation after `g`. -/
def nextGen (g : BitVec 24) : BitVec 24 := if g = 0xFFFFFF#24 then 1 else g + 1

/-- R264: the code of a slot's state. -/
def SlotState.code (x : SlotState) : Nat :=
  match x with
  | .empty => 0
  | .filling => 1
  | .queued => 2
  | .computing => 3
  | .ready => 4

/-- R264: the trailer. -/
def Slot.trailer (x : Slot) : Word :=
  BitVec.ofNat 64 (x.gen.toNat + 2 ^ 24 * x.state.code + 2 ^ 28 * x.err.toNat + 2 ^ 32 * x.tag.toNat)

/-- R257: a writer tag: class 0 a group, 1 the copy engine, 2 the host, 3 a sequencer. DEDUCED (assumption 78). -/
def State.writerTag (s : State) (core group cls : Nat) : BitVec 32 :=
  BitVec.ofNat 32 (s.fabric.devid.toNat * 2 ^ 19 + dieOf core % 8 * 2 ^ 16 + core % 512 * 2 ^ 7 + group % 32 * 4 + cls)

/-- R258: the first rule that refuses a store request to a slot. -/
def Operator.judge (o : Operator) (r : SlotRequest) : Option Byte :=
  let x := o.slot r.slot
  let d := o.desc
  if r.remote && (!d.racc || (decide (d.key ≠ 0) && decide (d.key ≠ r.key))) then some 0x44
  else if d.wpol = 2 ∧ r.isGroup ∧ r.ctx ≠ o.ctx then some 0x44
  else if x.state = .queued ∨ x.state = .computing ∨ (d.rmode = 1 ∧ x.state = .ready) then some 0x42
  else if d.wpol = 1 ∧ x.state = .filling ∧ x.claim ≠ none ∧ x.claim ≠ some r.tag then some 0x41
  else none

/-- R255: a completion with error 3: no data, no delivery. -/
def Operator.failSlot (o : Operator) (i : Nat) : Operator :=
  let x := o.slot i
  o.putSlot i { x with
    state := if o.desc.rmode = 0 then .ready else .empty
    gen := nextGen x.gen, err := 3, tag := x.firing, mask := 0, claim := none, poisoned := false }

/-- R260: a slot fires: it captures its element bytes, missing ones as 0, and is queued; after a failed installation the
fire completes at once (R255). -/
def Operator.fire (o : Operator) (scratch : Cells 8) (i : Nat) (tag : BitVec 32) (stamp : Nat) : Operator :=
  let x := o.slot i
  let n := o.desc.kop * o.desc.actSize
  let bytes := (List.range n).map (fun k => if x.mask.testBit k then readCell scratch (o.desc.inByte i k) else 0)
  let o1 := o.putSlot i { x with state := .queued, capture := bytes, claim := none, firing := tag, stamp := stamp }
  if o.failed then o1.failSlot i else { o1 with fired := o1.fired ++ [i] }

/-- R260: is every element byte of a mask present? -/
def maskFull (mask n : Nat) : Bool := (List.range n).all (fun k => mask.testBit k)

/-- R257, R263: the element bytes of an accepted request are written and marked, and under CLAIM its writer holds the
claim. -/
def State.writeElems (s : State) (o : Operator) (i : Nat) (tag : BitVec 32) (elems : List (Nat × Byte)) : State :=
  let d := o.desc
  let x := o.slot i
  let s1 := s.changeSlotStore o (fun c => elems.foldl (fun c e => writeCell c (d.inByte i e.1) e.2) c)
  let claim := if d.wpol = 1 ∧ x.state ≠ .filling then some tag else x.claim
  s1.putOperator (o.putSlot i { x with
    state := .filling, mask := elems.foldl (fun m e => m ||| 2 ^ e.1) x.mask, claim := claim })

/-- R260: the test for a fire, once a whole request is applied: the slot fires by its fire word, or under FULL by a complete
mask. -/
def State.testFire (s : State) (h i : Nat) (tag : BitVec 32) (fires : Bool) : State :=
  match s.operator? h with
  | none => s
  | some o =>
    if fires || (!o.desc.fpol && maskFull (o.slot i).mask (o.desc.kop * o.desc.actSize)) then
      { s.putOperator (o.fire (s.slotStore o) i tag s.nextId) with nextId := s.nextId + 1 }
    else s

/-- R257, R260, R263: an accepted store request writes its element bytes, and fires the slot by its fire word or by a
complete mask. One of fire-word bytes alone that does not fire changes nothing, an EMPTY slot neither. DESIGN CHOICE
(assumption 102). -/
def State.applyStore (s : State) (o : Operator) (r : SlotRequest) : State :=
  let elems := r.bytes.filter (fun e => decide (e.1 < o.desc.kop * o.desc.actSize))
  let fires := match (r.bytes.filter (fun e => decide (e.1 = o.desc.inStride - 8))).getLast? with
    | some e => e.2.getLsbD 0
    | none => false
  if elems.isEmpty && !fires then s
  else (s.writeElems o r.slot r.tag elems).testFire o.handle r.slot r.tag fires

/-- R258: judge and apply a store request. A request that touches padding alone is judged like any other. DESIGN CHOICE
(assumption 102). -/
def State.storeRequest (s : State) (r : SlotRequest) : Except Byte State :=
  match s.operator? r.handle with
  | none => .error 0x25
  | some o =>
    match o.judge r with
    | some c => .error c
    | none => .ok (s.applyStore o r)

/-- R252: the byte that a load of an inlet slot returns. -/
def State.inletByte (s : State) (o : Operator) (i off : Nat) : Byte :=
  if off < o.desc.kop * o.desc.actSize ∧ (o.slot i).mask.testBit off then readCell (s.slotStore o) (o.desc.inByte i off)
  else 0

/-- R265: the byte that a load of an outlet slot returns. -/
def State.outletByte (s : State) (o : Operator) (i off : Nat) : Byte :=
  let d := o.desc
  if d.outStride - 8 ≤ off then BitVec.ofNat 8 ((o.slot i).trailer.toNat / 2 ^ (8 * (off - (d.outStride - 8))))
  else if off < d.nop * d.outSize then readCell (s.slotStore o) (d.outByte i off)
  else 0

/-- R265: is a result present? -/
def Operator.present (o : Operator) (i : Nat) : Bool :=
  if o.desc.rmode = 0 then decide ((o.slot i).gen ≠ 0) else decide ((o.slot i).state = .ready)

/-- R265: does an access to an outlet slot touch a data or padding byte? -/
def OpDesc.touchesData (d : OpDesc) (off : Nat) : Bool := decide (off < d.outStride - 8)

/-- R265, R262: why a load of `n` bytes of an outlet slot is refused. -/
def Operator.outletCause (o : Operator) (i off n : Nat) : Option Byte :=
  let x := o.slot i
  if !o.desc.touchesData off then none
  else if !o.present i || decide (x.err = 3) then some 0x43
  else if x.poisoned && decide (off < o.desc.nop * o.desc.outSize) && decide (0 < n) then some 0xA1
  else none

/-- R266, R255: must a `.wt` load of an outlet slot wait? A load of data or padding does not wait for a result that
completed with error 3. -/
def Operator.mustWait (o : Operator) (i : Nat) (data : Bool) : Bool :=
  let x := o.slot i
  decide (x.state = .queued) || decide (x.state = .computing) || (!o.present i && !(data && decide (x.err = 3)))

/-- R263, R266: a `.take` load empties the slot it has read. -/
def State.takeResult (s : State) (h i : Nat) : State :=
  match s.operator? h with
  | some o => s.putOperator (o.putSlot i { o.slot i with state := .empty })
  | none => s

/-- R263: one element of a pair add in an inlet slot, in the format of the activations. -/
def addElement (afmt : Nat) (m a : Nat) : Nat :=
  let f := if afmt = 3 then bf16 else fp16
  (deliver f .rne (FVal.add false (decodeF f m) (decodeF f a)).1).1

/-- R263: the old pair and the bytes that FADD.F32 of `v` writes at an offset of an inlet slot. -/
def State.pairAdd (s : State) (o : Operator) (i off v : Nat) : Nat × List (Nat × Byte) :=
  let n := o.desc.kop * o.desc.actSize
  let one := fun (k : Nat) =>
    let at' := off + 2 * k
    if n ≤ at' then (0, [])
    else
      let m := (s.inletByte o i at').toNat + 256 * (s.inletByte o i (at' + 1)).toNat
      let r := addElement o.desc.afmt m (v / 65536 ^ k % 65536)
      (m, [(at', BitVec.ofNat 8 r), (at' + 1, BitVec.ofNat 8 (r / 256))])
  ((one 0).1 + 65536 * (one 1).1, (one 0).2 ++ (one 1).2)

/-- R263: the pair adds of an accepted request in turn, each with its number, its offset and its operand: the old pairs, and
the state after them. -/
def State.addPairs (s : State) (r : SlotRequest) (adds : List (Nat × Nat × Nat)) : List (Nat × Nat) × State :=
  adds.foldl (fun (acc : List (Nat × Nat) × State) (e : Nat × Nat × Nat) =>
    match acc.2.operator? r.handle with
    | none => acc
    | some o =>
      let (old, bytes) := acc.2.pairAdd o r.slot e.2.1 e.2.2
      (acc.1 ++ [(e.1, old)], if bytes.isEmpty then acc.2 else acc.2.writeElems o r.slot r.tag bytes)) ([], s)

/-- R257, R258, R260, R263: the FADD.F32 accesses of one instruction or packet to one inlet slot are one store request:
judged once, applied in order, and tested for a fire once. The answer holds each access's old pair. -/
def State.addRequest (s : State) (r : SlotRequest) (adds : List (Nat × Nat × Nat)) :
    Except Byte (List (Nat × Nat) × State) :=
  match s.operator? r.handle with
  | none => .error 0x25
  | some o =>
    match o.judge r with
    | some c => .error c
    | none =>
      let (olds, s1) := s.addPairs r adds
      if adds.all (fun e => (s.pairAdd o r.slot e.2.1 e.2.2).2.isEmpty) then .ok (olds, s1)
      else .ok (olds, s1.testFire r.handle r.slot r.tag false)

end Sys2Proof.Machine
end

