-- ==== Sys2Proof/Machine/Hold.lean ====
section
/-! DEFINITION. The hold buffer (R302, R303, R373, R375): entries of tentative blocks and redundant pairs, and what a
group's own loads see of them. -/

namespace Sys2Proof.Machine

/-- R302, R305, R373: does a block hold its stores? -/
def Block.holding (b : Block) : Bool := decide (b.mode ≠ .normal) || b.pair.isSome

/-- R302: the youngest held byte at an address. -/
def heldByte (es : List HoldEntry) (va : Nat) : Option Byte :=
  let hits := (es.flatMap HoldEntry.bytes).filter (fun e => decide (e.1 = va))
  match hits.foldl (fun best e => match best with
    | none => some e
    | some f => if f.2.2 ≤ e.2.2 then some e else some f) none with
  | some e => some e.2.1
  | none => none

/-- R374: the bytes of an entry whose units are matched and that an own entry does not cover. -/
def HoldEntry.releasedPart (e : HoldEntry) (sigs : List Signature) (own : List HoldEntry) : HoldEntry :=
  { e with bytes := e.bytes.filter (fun x =>
      sigs.all (fun g => decide (g.unit ≠ x.2.2)) && (heldByte own x.1).isNone) }

/-- R302, R303: the entries of the hold buffer that a block's groups have. -/
def Block.entriesHeld (b : Block) : List HoldEntry := b.allGroups.flatMap Group.holds

/-- R373, R374: what a trailing group still sees of its matched units: their bytes wait in the leading group's entries until
they have drained. -/
def State.releasedFor (s : State) (b : Block) (g : Group) : List HoldEntry :=
  match b.pair with
  | some p =>
    if p.leading then []
    else match (s.block? p.partner).bind (fun t => t.rawGroup s.cur) with
      | some o => o.holds.map (fun e => e.releasedPart o.sigs g.holds)
      | none => []
  | none => []

/-- The entries whose bytes a group's loads see: the block's in a maquette launch (R302), the group's own in a pair
(R373). -/
def State.heldFor (s : State) (b : Block) (g : Group) : List HoldEntry :=
  if b.mode = .normal then g.holds ++ s.releasedFor b g else b.entriesHeld ++ s.releasedFor b g

/-- R302, R373: bytes read at an address with the held ones over them. -/
def overlayHeld (es : List HoldEntry) (va : Nat) (bs : List Byte) : List Byte :=
  if es.isEmpty then bs else bs.zipIdx.map (fun e => (heldByte es (va + e.2)).getD e.1)

/-- The entry of a store unit for one line (R303): merged into the newest entry, or a new one. -/
def holdLine (hs : List HoldEntry) (relaxed : Bool) (e : HoldEntry) : List HoldEntry :=
  match hs.getLast? with
  | some x =>
    if x.line = e.line ∧ x.mayMerge ∧ relaxed ∧ x.sent.isNone ∧ x.after = e.after ∧ x.stream = e.stream then
      hs.dropLast ++ [{ x with bytes := x.bytes ++ e.bytes }]
    else hs ++ [e]
  | none => [e]

/-- The lines that bytes touch, rising. -/
def linesOf (bs : List (Nat × Byte)) : List Nat := ((bs.map (fun e => e.1 / 64)).mergeSort (fun a b => decide (a ≤ b))).eraseDups

/-- R239: the number before which the entries of other groups were made that the executing group has synchronised with. -/
def State.syncedAt (s : State) : Nat :=
  match s.syncs.find? (fun e => e.1 == s.cur) with
  | some e => e.2
  | none => 0

/-- R303: the entries of a group after a store unit numbered `unit` writes `bs`: one for each line, by rising line
address, the order in which they drain. DESIGN CHOICE (assumption 104). -/
def Group.holdStore (g : Group) (bs : List (Nat × Byte)) (o : Ordering) (unit : Nat) (epoch : Nat × Nat) (after : Nat) :
    List HoldEntry :=
  (linesOf bs).foldl (fun hs line =>
    holdLine hs (decide (o.order = 0#2))
      ⟨line, (bs.filter (fun e => decide (e.1 / 64 = line))).map (fun e => (e.1, e.2, unit)), g.pc, o,
       decide (o.order = 0#2), epoch, none, after, g.fstrm⟩) g.holds

/-- R303: the entries that stand in the hold buffer of a core. -/
def State.heldOn (s : State) (core : Nat) : Nat :=
  ((s.blocks.filter (fun b => b.core == core)).flatMap Block.entriesHeld).length

/-- R303: is there room for a unit's entries? -/
def State.holdRoom (s : State) (b : Block) (g : Group) (bs : List (Nat × Byte)) (o : Ordering) : Bool :=
  decide (s.heldOn b.core + (g.holdStore bs o 0 b.epoch s.syncedAt).length ≤ 512 + g.holds.length)

/-- R303: an ordered access stands between the stores before it and those after it. -/
def Group.sealHolds (g : Group) : Group :=
  { g with holds := g.holds.map (fun e => { e with mayMerge := false }) }

/-- R303: seal the entries of a group when its access is ordered. -/
def Group.sealIf (g : Group) (x : Bool) : Group := if x && !g.holds.isEmpty then g.sealHolds else g

/-- R374: is every unit of an entry matched? -/
def HoldEntry.matchedIn (e : HoldEntry) (sigs : List Signature) : Bool :=
  e.bytes.all (fun x => sigs.all (fun g => decide (g.unit ≠ x.2.2)))

/-- R373: the byte string that a store unit signs: for each lane its address, its size and its data. -/
def signatureBytes (lanes : List (Word × List Byte)) : List Byte :=
  lanes.flatMap (fun e => natBytes 8 e.1.toNat ++ (BitVec.ofNat 8 e.2.length :: e.2))

end Sys2Proof.Machine
end

