-- ==== Sys2Proof/Machine/Pair.lean ====
section
/-! DEFINITION. Redundant pairs (R371 to R384): checkpoints, meeting points, rollback and test injection; the liveness
records that name what is saved (R359); and the parts of a context image that the device reads while a launch runs. -/

namespace Sys2Proof.Machine

/-! ## Image records -/

/-- R359: a liveness record. -/
structure LiveRecord where
  vectors  : BitVec 128
  scalars  : BitVec 64
  preds    : BitVec 8
  brackets : BitVec 4
  units    : BitVec 32
  ranges   : List (Nat × Nat)
deriving DecidableEq, Repr

/-- The bits of a little-endian list of bytes. -/
def bitsAt (bs : List Byte) (off n w : Nat) : BitVec w := BitVec.ofNat w (wordAt bs off n)

/-- R359: the fields of a record's 64 bytes. -/
def parseLive (bs : List Byte) : LiveRecord :=
  let range := fun (off : Nat) => (wordAt bs off 4, wordAt bs (off + 4) 4)
  { vectors := bitsAt bs 0 16 128, scalars := bitsAt bs 16 8 64, preds := bitsAt bs 24 1 8,
    brackets := bitsAt bs 25 1 4, units := bitsAt bs 32 4 32,
    ranges := [range 40, range 48, range 56].filter (fun r => decide (r.2 ≠ 0)) }

/-- R359: the liveness record `n` of a launch, read by an engine of a core. DEDUCED (assumption 59). -/
def State.liveRecord (s : State) (core : Nat) (l : Launch) (n : Nat) : Except (Fail × Word) LiveRecord :=
  match s.engineRead core l.ctx (!l.super) (l.header.live + BitVec.ofNat 64 (64 * n)) 64 with
  | .error f => .error f
  | .ok bs => .ok (parseLive bs)

/-- R193: the scratchpad bytes of a partition word. -/
def scratchBytes (part : BitVec 32) : Nat := part.toNat / 2 ^ 8 % 2 ^ 8 * 4096

/-- R193: the accumulator units of a partition word. -/
def accUnits (part : BitVec 32) : Nat := part.toNat / 2 ^ 16 % 2 ^ 8

/-- R365: SAVEB. -/
def saveBytes (h : Header) : Nat :=
  98304 + 4096 * (h.part.toNat % 256 + h.part.toNat / 256 % 256) + 12288 * accUnits h.part + h.wres

/-- R102, R365, R379: an area whose layout is not architectural: its bytes hold values that nothing constrains. A failing
check comes with its address. -/
def State.scribble (s : State) (core : Nat) (ctx : BitVec 32) (pages : Nat) (va : Word) (n : Nat) :
    Except (Fail × Word) State :=
  match pages with
  | 0 => .ok s
  | pages + 1 =>
    let k := min n (65536 - va.toNat % 65536)
    if k = 0 then .ok s
    else
      match s.translate core ctx false .store va with
      | .error f => .error (f, va)
      | .ok p =>
        let s1 := match p with
          | .local pa _ _ _ => { s with mem := writeRun s.mem (s.route pa) k (fun a => Config.freeByte s.tick (4 * a + 3)) }
          | _ => s
        s1.scribble core ctx pages (va + BitVec.ofNat 64 k) (n - k)

/-! ## How a stopped group goes on -/

/-- R353: the flags that a SKIPCLR clears. -/
def Group.clearRaised (g : Group) (r : TrapRecord) : Group :=
  let keep := fun (k : Nat) => if r.arg0.getLsbD k then ~~~r.fmask else BitVec.allOnes 96
  { g with
    flags := runCells 0 14 (fun n => if n < 8 then 0 else readCell g.flags n &&& keep (n - 8))
    idz := g.idz && !r.arg0.getLsbD 6 }

/-- Is a cause one that TRAPF raises? -/
def trapfCause (c : Byte) : Bool := decide (0x60 ≤ c.toNat ∧ c.toNat ≤ 0x66)

/-- R353, R346: a stopped group goes on, in the pending set. -/
def Group.goOn (g : Group) : Group := { g with status := .running, stop := none, active := false }

/-- RETRY (R353, R212, R308): the lanes that earlier passes of the unit have performed, and those of this one, do not
perform it again; after a drain refusal the refused entry is released again, and the group waits for its drain. -/
def Group.retry (g : Group) (x : Stop) : Group :=
  { g.goOn with
    redo := g.redo ||| (if x.record.pv then x.record.pmask else 0)
    status := if x.drain then .waiting .drained else .running }

/-- SKIP and SKIPCLR (R353, R111, R308); the skipped unit counts as executed for distances (R27), and after a drain
refusal the group waits for its drain. DEDUCED (assumption 65). -/
def Group.skip (g : Group) (x : Stop) (clear : Bool) : Group :=
  if x.drain then { g.goOn with holds := g.holds.drop 1, status := .waiting .drained }
  else
    let g1 := if clear && trapfCause x.record.cause then g.clearRaised x.record else g
    let g2 := { g1.goOn with
      pc := g.pc + BitVec.ofNat 64 x.length
      repidx := if x.isRep then 0 else g.repidx
      aim := none, arrivedB := false, arrivedC := false }
    g2.age []

/-! ## A launch that is torn down -/

/-- R353, R369: every block of a launch ends, saved ones too, and the launch is torn down. -/
def State.tearLaunch (s : State) (launch : Nat) (status : Nat) : State :=
  let s1 := match s.launch? launch with
    | some l =>
      let windows := l.savedOps.flatMap (fun (o : Operator) => o.desc.windows.map (fun (w : Nat × Nat) => (o.ctx, w.1, w.2)))
      let s0 := { s with tornWin := windows ++ s.tornWin }
      s0.putLaunch { l with
        status := endedStatus l.status status, torn := true, savedBlk := [], savedOps := []
        saving := if l.saving = Saving.saved then Saving.no else l.saving }
    | none => s
  s1.endLaunchBlocks launch

/-! ## Checkpoints -/

/-- The accumulator cells of the units in a mask. -/
def unitCells (acc : Cells 32) (m : BitVec 32) : Cells 32 := acc.filter (fun e => m.getLsbD (e.1 / 3072))

/-- R273, R284: the marks of the units in a mask: four to a unit, one for eight columns of its cells. -/
def unitMarks (m : BitVec 32) : BitVec 128 :=
  BitVec.ofNat 128 ((List.range 32).foldl (fun a u => if m.getLsbD u then a + 15 * 2 ^ (4 * u) else a) 0)

/-- The scratchpad bytes of some ranges. -/
def rangeCells (scr : Cells 8) (rs : List (Nat × Nat)) : Cells 8 :=
  scr.filter (fun e => rs.any (fun r => decide (r.1 ≤ e.1) && decide (e.1 < r.1 + r.2)))

/-- R377: what a checkpoint of a group holds, with the engine work of its trailing partner: the whole group, with the whole
scratchpad and every unit, or the always-saved state and what a record names. -/
def checkpointOf (b : Block) (part : BitVec 32) (g : Group) (tg : Option Group) (live : Option LiveRecord) : Checkpoint :=
  let works := match tg with
    | some t => (t.copies, t.matrix)
    | none => ([], [])
  match live with
  | none =>
    { gid := g.gid, group := g, vecIn := BitVec.allOnes 128, sclIn := BitVec.allOnes 64, prdIn := BitVec.allOnes 8,
      brkIn := BitVec.allOnes 4, trailC := works.1, trailM := works.2, scrIn := [(0, scratchBytes part)], scr := b.scratch,
      accIn := BitVec.allOnes 32, acc := b.acc, poison := b.poison }
  | some r =>
    { gid := g.gid, group := g, vecIn := r.vectors, sclIn := r.scalars, prdIn := r.preds, brkIn := r.brackets,
      trailC := works.1, trailM := works.2, scrIn := r.ranges, scr := rangeCells b.scratch r.ranges, accIn := r.units,
      acc := unitCells b.acc r.units, poison := b.poison &&& unitMarks r.units }

/-- R376, R377: a group as the checkpoint of a meeting point holds it: a stop's has the PC after the stopping unit. -/
def Group.afterStop (g : Group) : Group :=
  match g.stop with
  | some x => if x.drain then g.goOn else g.skip x false
  | none => g

/-- R384: the armed injection of a context flips one bit of a trailing group, and disarms. -/
def State.inject (s : State) (ctx : BitVec 32) (g : Group) : Group × State :=
  let w := s.redinj
  let kind := w.toNat / 2 ^ 8 % 4
  if kind = 0 ∨ BitVec.ofNat 32 (w.toNat / 2 ^ 32) ≠ ctx then (g, s)
  else
    let s1 := { s with redinj := w &&& ~~~0x300#64 }
    let bit := w.toNat / 2 ^ 10 % 64
    let r := w.toNat % 128
    if kind = 1 then
      let l := w.toNat / 2 ^ 16 % 128
      if r < g.budget ∧ hasLane g.present l then
        (g.setVec r (maskOf (fun k => decide (k = l))) (fun k => g.vec r k ^^^ (1#32 <<< bit)), s1)
      else (g, s1)
    else if r = 0 ∨ 63 < r then (g, s1)
    else (g.setScalar r (g.scalar r ^^^ (1#64 <<< bit)), s1)

/-- The number of a group of a pair's block: a compacted group counts after the original ones. -/
def Block.pairIndex (b : Block) (r : GRef) : Nat := if r.cmp then b.groups.length + r.grp else r.grp

/-- The reference of a pair's group with a number. -/
def Block.pairRef (b : Block) (k : Nat) : GRef :=
  if k < b.groups.length then ⟨b.id, k, false⟩ else ⟨b.id, k - b.groups.length, true⟩

/-- The name under which a pair keeps the checkpoint of a group: its number in the block, or one of its own for a compacted
group (assumption 116). -/
def checkName (r : GRef) (g : Group) : Nat := if r.cmp then 32 + r.grp else g.gid

/-- R376, R377, R379: a checkpoint of group `k` of a pair, taken from its leading block: the region is written, the count
of the group's pair goes to 0, and an armed injection applies to the trailing group. `whole` saves the whole group state
before the first unit, where no injection applies (R379, R384); so does a record number that the image does not have. A
write of the region that faults ends the launch with status 7 and a KIND 3 record. -/
def State.checkpoint (s : State) (lead : Block) (k : Nat) (whole : Bool) : State :=
  let r := lead.pairRef k
  match lead.pair, lead.view r, s.launch? lead.launch with
  | some p, some g, some l =>
    let h := l.header
    let q : GRef := { r with blk := p.partner }
    let n := g.cklive.toNat
    let live : Except (Fail × Word) (Option LiveRecord) :=
      if whole ∨ n = 0xFFF ∨ h.nlive ≤ n then .ok none
      else match s.liveRecord lead.core l n with
        | .ok r => .ok (some r)
        | .error f => .error f
    let region := h.ckpta + BitVec.ofNat 64 (lead.lin * saveBytes h)
    match live, s.scribble lead.core l.ctx 40 region (saveBytes h) with
    | .ok x, .ok s1 =>
      let cp := checkpointOf lead h.part g.afterStop ((s.groupAt q).map Prod.snd) x
      let p1 := { p with
        checks := { cp with gid := checkName r g } :: p.checks.filter (fun c => decide (c.gid ≠ checkName r g))
        mismatch := setNth p.mismatch k 0 }
      let s2 := s1.putBlock { lead with pair := some p1 }
      match s2.groupAt q with
      | some (_, tg) => if whole then s2 else
        let (tg1, s3) := s2.inject l.ctx tg
        s3.putAt q tg1
      | none => s2
    | .error f, _ => (s.report l.id lead.core { cause := f.1.cause, sec := f.1.sec, va := f.2 }).tearLaunch l.id 7
    | _, .error f => (s.report l.id lead.core { cause := f.1.cause, sec := f.1.sec, va := f.2 }).tearLaunch l.id 7
  | _, _, _ => s

/-- R380: the bytes of an entry whose units are matched; none when no byte is left. -/
def HoldEntry.matchedPart (e : HoldEntry) (sigs : List Signature) : Option HoldEntry :=
  let kept := e.bytes.filter (fun x => sigs.all (fun g => decide (g.unit ≠ x.2.2)))
  if kept.isEmpty then none else some { e with bytes := kept, mayMerge := false }

/-- R380: engine work as a checkpoint holds it, each piece complete if it is complete by now. -/
def refreshWorks (old now : List Work) : List Work :=
  old.map (fun w => match now.find? (fun x => x.id == w.id) with
    | some x => { w with done := x.done, cause := x.cause }
    | none => { w with done := true })

/-- R380: a group as a rollback restores it: the always-saved state and the registers that the checkpoint holds, in the
group's own place and with its own engine work, and the entries already matched. -/
def restoreGroup (g : Group) (c : Checkpoint) (trailing : Bool) : Group :=
  let o := c.group
  let mix := fun {w : Nat} (n : Nat) (held : Nat → Bool) (old now : Cells w) =>
    runCells 0 n (fun k => if held k then readCell old k else readCell now k)
  { o with
    vectors := mix 12288 (fun k => c.vecIn.getLsbD (k / 96)) o.vectors g.vectors
    scalars := mix 61 (fun n => c.sclIn.getLsbD n) o.scalars g.scalars
    preds := mix 8 (fun p => c.prdIn.getLsbD p) o.preds g.preds
    brackets := mix 1536 (fun k => c.brkIn.getLsbD (k / 384)) o.brackets g.brackets
    copies := refreshWorks (if trailing then c.trailC else o.copies) g.copies
    matrix := refreshWorks (if trailing then c.trailM else o.matrix) g.matrix
    slot := g.slot, started := g.started, status := .running
    holds := g.holds.filterMap (fun e => e.matchedPart g.sigs), sigs := [], met := none,
    stop := none, pending := none, remote := [], halt := g.halt, active := g.active }

/-- R380: a block with the checkpoint's scratchpad ranges and units back, and nothing else of them. -/
def restoreBlock (b : Block) (k : Nat) (c : Checkpoint) (trailing : Bool) : Block :=
  let inRange := fun (a : Nat) => c.scrIn.any (fun r => decide (r.1 ≤ a) && decide (a < r.1 + r.2))
  let keepScr := b.scratch.filter (fun e => !inRange e.1)
  let keepAcc := b.acc.filter (fun e => !c.accIn.getLsbD (e.1 / 3072))
  let b1 := { b with
    scratch := c.scr.foldl (fun m e => writeCell m e.1 e.2) keepScr
    acc := c.acc.foldl (fun m e => writeCell m e.1 e.2) keepAcc
    poison := (b.poison &&& ~~~unitMarks c.accIn) ||| c.poison }
  match b.view (b.pairRef k) with
  | some g => b1.putView (b.pairRef k) (restoreGroup g c trailing)
  | none => b1

/-- R380: both groups of a pair return to their checkpoint. -/
def State.rollBack (s : State) (lead : Block) (k : Nat) : State :=
  match lead.pair, lead.view (lead.pairRef k) with
  | some p, some g =>
    match p.checks.find? (fun c => decide (c.gid = checkName (lead.pairRef k) g)), s.block? p.partner with
    | some c, some t =>
      let p1 := { p with forward := p.forward.filter (fun e => decide (e.1 ≠ k)) }
      let s0 := { s with
        aheads := s.aheads.filter (fun e => decide (e.group.blk ≠ lead.id) && decide (e.group.blk ≠ t.id))
        earlies := s.earlies.filter (fun e => decide (e.group.blk ≠ lead.id) && decide (e.group.blk ≠ t.id)) }
      (s0.putBlock { restoreBlock lead k c false with pair := some p1 }).putBlock (restoreBlock t k c true)
    | _, _ => s
  | _, _ => s

/-- R381: a group that a mismatch stops awaits nothing any more: what it has asked peers for is dropped. -/
def State.dropAccess (s : State) (r : GRef) : State :=
  match s.block? r.blk with
  | none => s
  | some b =>
    match b.rawGroup r with
    | none => s
    | some g =>
      let asked := (match g.pending with
        | some p => p.requests.map Prod.fst
        | none => []) ++ (g.remote.filter (fun x => x.answer.isNone)).map RemoteLine.id
      (s.consume asked).changeAt r (fun x => { x with pending := none, remote := [] })

/-- R380, R381: a mismatch of the groups numbered `k` of a pair whose leading block is `lead`: roll both groups back, or,
at a second mismatch from one checkpoint, stop the leading group where it stands with cause 0x83, once. DEDUCED (assumption
40). DEDUCED (assumption 70). -/
def State.mismatch (s : State) (lead : Block) (k : Nat) : State :=
  let r := lead.pairRef k
  match lead.pair with
  | none => s
  | some p =>
    if 1 ≤ p.mismatch.getD k 0 then
      let s1 := (s.dropAccess r).dropAccess { r with blk := p.partner }
      match s1.groupAt r with
      | some (b, x) => if x.status = .stopped then s else s1.stopPair r b x { cause := 0x83 } false
      | none => s
    else
      match s.block? lead.id with
      | some b => s.rollBack (match b.pair with
        | some q => { b with pair := some { q with mismatch := setNth q.mismatch k 1 } }
        | none => b) k
      | none => s

/-! ## Meeting points -/

/-- R376: the kinds of unit that meet: one performed once, a stop, a CKPT, an EXIT that ends the group. -/
def meetOnce : Nat := 0
/-- A stop (R376). -/
def meetStopKind : Nat := 1
/-- CKPT (R377). -/
def meetCkpt : Nat := 2
/-- EXIT that ends the group (R376). -/
def meetExit : Nat := 3

/-- R376: a meeting point's signature: the unit's two instruction words, then its operands. -/
def State.meetSignature (s : State) (b : Block) (g : Group) (operands : List Byte) : BitVec 32 :=
  crc32c (natBytes 8 (unitWords (s.unitAt b g.pc)).toNat ++ operands)

/-- R239: are entries of the blocks of a launch older than a number, which its groups have synchronised with, still held? -/
def State.olderHeld (s : State) (launch after : Nat) : Bool :=
  s.blocks.any (fun x => x.launch == launch && (match x.pair with
    | some p => p.leading
    | none => true) && x.entriesHeld.any (fun e => e.bytes.any (fun y => decide (y.2.2 < after))))

/-- R305, R239: in a confirmed block, have a group's own entries drained, and those of others that it has synchronised
with? -/
def State.drainedFor (s : State) (b : Block) (r : GRef) (g : Group) : Bool :=
  decide (b.mode ≠ .confirmed) || (g.holds.isEmpty && (match s.syncs.find? (fun e => e.1 == r) with
    | some e => !s.olderHeld b.launch e.2
    | none => true))

/-- R302, R376, R383: a unit that a tentative block does not perform before it is confirmed, and that a pair performs once
at a meeting point: `perform` is called when nothing is awaited. -/
def State.once (s : State) (b : Block) (g : Group) (operands : List Byte) (perform : State → State) : State :=
  if b.mode = .tentative then s.wait .confirmation
  else if !s.drainedFor b s.cur g then s.wait .drained
  else if b.pair.isSome && g.met.isNone then s.wait (.partner ⟨meetOnce, s.meetSignature b g operands⟩)
  else perform s

/-- R372, R376: what the trailing group of a meeting point takes over from the leading one: registers, vectors in the
lanes of `m` alone, and the engine work that the unit began. The unit counts for its distances too (R27). -/
def Group.follow (t g : Group) (m : Mask) (vectors scalars : List Nat) (works : List Work) : Group :=
  let t1 := vectors.foldl (fun x r => x.setVec r m (g.vec r)) t
  let t2 := scalars.foldl (fun x r => x.setScalar r (g.scalar r)) t1
  { t2.age [] with pc := g.pc, copies := t2.copies ++ works, status := .running, met := none, redo := 0 }

/-- R372, R376: what the executing group of a pair performs once counts for its partner too: `f` acts for each group on its
core. DEDUCED (assumption 71). -/
def State.forBoth (s : State) (b : Block) (f : State → Nat → State) : State :=
  let s1 := f s b.core
  match b.pair.bind (fun p => s.block? p.partner) with
  | some t => { f { s1 with cur := { s1.cur with blk := t.id } } t.core with cur := s1.cur }
  | none => s1

/-- R371: the other block of a pair. -/
def State.otherHalf (s : State) (b : Block) : Option Block := b.pair.bind (fun p => s.block? p.partner)

/-- The executing unit completes with the group `g`; at a meeting point the trailing group takes over the registers named,
in the lanes of `m`, and both take a checkpoint (R376). -/
def State.doneOnce (s : State) (b : Block) (g : Group) (vectors scalars : List Nat) (m : Mask := 0) : State :=
  match g.met, b.pair with
  | some _, some p =>
    let g1 := { g with met := none }
    let old := match b.rawGroup s.cur with
      | some x => x.copies
      | none => []
    let works := g.copies.filter (fun w => old.all (fun x => decide (x.id ≠ w.id)))
    let s1 := s.done g1
    let s2 := match s1.groupAt { s.cur with blk := p.partner } with
      | some (_, t) => s1.putAt { s.cur with blk := p.partner } (t.follow g1 m vectors scalars works)
      | none => s1
    match s2.block? b.id with
    | some lead => s2.checkpoint lead (lead.pairIndex s.cur) false
    | none => s2
  | _, _ => s.done g

/-- R371: the leading block of the pair that a block belongs to. -/
def State.leadOf (s : State) (b : Block) : Option Block :=
  match b.pair with
  | some p => if p.leading then some b else s.block? p.partner
  | none => none

/-- R372: the value that both groups of a pair read: the leading group's, for a source that can differ between them. -/
def State.pairCore (s : State) (b : Block) : Nat :=
  match s.leadOf b with
  | some l => l.core
  | none => b.core

end Sys2Proof.Machine
end

