-- ==== Sys2Proof/Machine/Access.lean ====
section
/-! DEFINITION. One instruction's accesses on the generic, constant and sampler paths (R209 to R215, R217 to R225): the
checks of R211, who serves each lane (R393), refusals and the performed mask (R212), same bytes (R213), held stores
(R302, R373), and requests to peers (R410, R411). -/

namespace Sys2Proof.Machine

/-- The paths of R201 that instructions name. -/
inductive Path where
  | generic
  | constant
  | sampler
deriving DecidableEq, Repr

/-- What a memory instruction does with each lane's bytes. -/
inductive Effect where
  | load
  | store
  | atomic (aop : Nat)
deriving DecidableEq, Repr

/-- How an instruction accesses memory: its effect, path, element size, destination, the MOD fields (R63, R214, R215), the
length of its unit in parcels, and whether it is a scalar access, whose faults carry an empty mask (R76). -/
structure Mem where
  effect : Effect
  path   : Path
  size   : Nat
  dest   : Dest
  order  : Nat
  scope  : Nat
  hint   : Nat
  wt     : Bool
  take   : Bool
  length : Nat
  scalar : Bool
deriving DecidableEq, Repr

/-- One lane's access: its address, the bytes that a store writes, and the operands of an atomic. -/
structure LaneReq where
  lane : Nat
  va   : Word
  data : List Byte
  a    : Nat
  n    : Nat
deriving DecidableEq, Repr

/-- R214: an access is an acquire. -/
def Mem.acquires (m : Mem) : Bool := decide (m.order = 1 ∨ m.order = 3)

/-- R214: an access is a release. -/
def Mem.releases (m : Mem) : Bool := decide (m.order = 2 ∨ m.order = 3)

/-! ## Checks (R211) -/

/-- The kind of access that translation judges (R392). -/
def Effect.access (e : Effect) : Access :=
  match e with
  | .load => .load
  | .store => .store
  | .atomic _ => .atomic

/-- R225, R252, R263: what an access to an operator window may not do. -/
def State.windowFail (s : State) (m : Mem) (va : Nat) (ctx : Option (BitVec 32) := none) : Option Fail :=
  match s.windowAt va ctx with
  | .refused c =>
    let adds : Bool := match m.effect with
      | .atomic aop => decide (aop = 2)
      | _ => decide (m.path ≠ .sampler)
    if c = 0x45 ∧ adds then none else some (.aperture (if c = 0x45 then 0x25 else c))
  | .inlet o _ _ =>
    match m.effect with
    | .atomic aop => if aop = 2 ∧ (o.desc.afmt = 3 ∨ o.desc.afmt = 4) then none else some (.aperture 0x25)
    | _ => if m.path = .sampler then some (.aperture 0x25) else none
  | .outlet _ _ _ =>
    match m.effect with
    | .atomic _ => some (.aperture 0x25)
    | _ => if m.path = .sampler then some (.aperture 0x25) else none

/-- R211: canonical form, alignment, translation, protection and aperture of one lane. -/
def State.checkLane (s : State) (b : Block) (m : Mem) (q : LaneReq) : Except Fail Place :=
  if !canonical q.va then .error .canonical
  else if q.va.toNat % m.size ≠ 0 then .error .misaligned
  else match s.translate b.core (s.ctxOf b) (!s.superOf b) m.effect.access q.va with
    | .error f => .error f
    | .ok (.window va) =>
      match s.windowFail m va (some (s.ctxOf b)) with
      | some f => .error f
      | none => .ok (.window va)
    | .ok p => .ok p

/-- R211: among failing lanes, the earliest check, then the lowest cause, with the lanes that fail it. -/
def pickFail (fails : List (Nat × Fail)) : Option (Fail × List Nat) :=
  match fails with
  | [] => none
  | e :: rest =>
    let better := fun (x y : Fail) =>
      decide (x.rank < y.rank) || (decide (x.rank = y.rank) && decide (x.cause.toNat < y.cause.toNat))
    let best := rest.foldl (fun acc x => if better x.2 acc then x.2 else acc) e.2
    some (best, (fails.filter (fun x => decide (x.2.rank = best.rank ∧ x.2.cause = best.cause))).map (·.1))

/-- The mask of some lanes. -/
def maskOfList (ls : List Nat) : Mask := maskOf (fun l => ls.contains l)

/-- The address of a lane among requests. -/
def addressOf (qs : List LaneReq) (l : Nat) : Word :=
  match qs.find? (fun q => q.lane == l) with
  | some q => q.va
  | none => 0

/-- R211: the checks of all lanes: a fault of non-helper lanes, or the lanes that may access, and the helpers that may
not. -/
def State.checkLanes (s : State) (b : Block) (g : Group) (m : Mem) (qs : List LaneReq) :
    Except Cond (List (LaneReq × Place) × List Nat) :=
  let checked := qs.map (fun q => (q, s.checkLane b m q))
  let fails := checked.filterMap (fun e =>
    match e.2 with
    | .error f => if hasLane g.helper e.1.lane && !m.scalar then none else some (e.1.lane, f)
    | .ok _ => none)
  match pickFail fails with
  | some (f, ls) =>
    .error { cause := f.cause, sec := f.sec, kind := 0, va := addressOf qs (ls.headD 0),
             fmask := if m.scalar then 0 else maskOfList ls }
  | none =>
    .ok (checked.filterMap (fun e => match e.2 with
           | .ok p => some (e.1, p)
           | .error _ => none),
         checked.filterMap (fun e => match e.2 with
           | .ok _ => none
           | .error _ => some e.1.lane))

/-- R396: the translations that an instruction uses are retained. -/
def State.retainAll (s : State) (b : Block) (qs : List (LaneReq × Place)) : State :=
  qs.foldl (fun s q => s.retain b.core (s.ctxOf b) q.1.va) s

/-! ## Serving lanes -/

/-- How far the lanes of an instruction have come: the state, the values read, the refusals with their addresses, the lanes
for peers with their device and physical address, and the outlet slots that a `.take` empties. -/
structure Served where
  state   : State
  values  : List (Nat × Nat)
  refused : List (Nat × Byte × Word)
  done    : List Nat
  peers   : List (BitVec 13 × Nat × LaneReq)
  taken   : List (Nat × Nat)
deriving DecidableEq, Repr

/-- A lane is accepted, with the value that it read. -/
def Served.accept (x : Served) (l v : Nat) : Served := { x with values := x.values ++ [(l, v)], done := x.done ++ [l] }

/-- A lane is refused (R212). -/
def Served.refuse (x : Served) (q : LaneReq) (c : Byte) : Served := { x with refused := x.refused ++ [(q.lane, c, q.va)] }

/-- R217, R205: bytes of a local page, in aligned pieces of at most 8. -/
def State.readLocal (s : State) (core launch va : Nat) (m : Mem) (pa : Nat) (swc uncached : Bool) : List Byte × State :=
  let one := fun (s : State) (a n : Nat) =>
    if m.path = .generic then
      if m.hint = 1 && !swc && !uncached then s.readReplica core launch (va + (a - pa)) a n
      else s.readGeneric core swc uncached a n m.hint
    else s.readPath core swc uncached a n m.hint (decide (m.path = .sampler))
  if m.size ≤ 8 then one s pa m.size
  else
    let r := one s pa 8
    let t := one r.2 (pa + 8) 8
    (r.1 ++ t.1, t.2)

/-- R217: one lane of a load. -/
def Served.load (x : Served) (b : Block) (held : List HoldEntry) (m : Mem) (q : LaneReq) (p : Place) : Served :=
  let s := x.state
  match p with
  | .local pa swc uncached _ =>
    if s.meetsError b.core (decide (m.path = .generic) && !uncached) swc pa m.size then x.refuse q 0xA0
    else
      let (bs, s1) := s.readLocal b.core b.launch q.va.toNat m pa swc uncached
      { x with state := s1 }.accept q.lane (bytesNat (overlayHeld held q.va.toNat bs))
  | .host pa =>
    x.accept q.lane (bytesNat (overlayHeld held q.va.toNat (bytesOf s.outsideByte pa m.size)))
  | .peer dev pa _ =>
    if s.fabric.reaches dev then { x with peers := x.peers ++ [(dev, pa, q)] } else x.refuse q 0x27
  | .window va =>
    let shown := fun (bs : List Byte) => bytesNat (overlayHeld held q.va.toNat bs)
    match s.windowAt va with
    | .refused c => x.refuse q c
    | .inlet o i off => x.accept q.lane (shown ((List.range m.size).map (fun k => s.inletByte o i (off + k))))
    | .outlet o i off =>
      match o.outletCause i off m.size with
      | some c => x.refuse q c
      | none =>
        let y := x.accept q.lane (shown ((List.range m.size).map (fun k => s.outletByte o i (off + k))))
        if m.take && decide (o.desc.rmode = 1) && o.desc.touchesData off && !y.taken.contains (o.handle, i) then
          { y with taken := y.taken ++ [(o.handle, i)] }
        else y

/-- R218: one lane of a store, but for operator windows, whose lanes make one request for each slot. -/
def Served.store (x : Served) (b : Block) (m : Mem) (q : LaneReq) (p : Place) : Served :=
  let s := x.state
  match p with
  | .local pa swc uncached _ =>
    { x with state := s.storeBytes b.core swc uncached (m.releases && decide (2 ≤ m.scope)) m.hint pa q.data }.accept q.lane 0
  | .host pa => { x with state := s.toHost ⟨pa, none, q.data, []⟩ }.accept q.lane 0
  | .peer dev pa _ =>
    if s.fabric.reaches dev then { x with peers := x.peers ++ [(dev, pa, q)] } else x.refuse q 0x27
  | .window _ => x

/-- R449: the old value of an atomic enters a group's context. -/
def State.enterOld (s : State) (b : Block) (g : Group) (v : Nat) : Nat × State :=
  let r := s.enter (s.ctxOf b) 2 (b.lin * 32 + g.gid) [BitVec.ofNat 64 v]
  ((r.1.headD 0).toNat, r.2)

/-- R428, R213: what a host location holds as an instruction's atomics come to it: what nothing constrains, changed by the
lanes before. -/
def hostBefore (tick aop size pa : Nat) (before : List LaneReq) : Nat :=
  before.foldl (fun m q => atomicNew aop m q.a q.n % 2 ^ (8 * size))
    (bytesNat (bytesOf (fun a => Config.freeByte tick (4 * a + 1)) pa size))

/-- R224, R225, R428: one lane of an atomic; `before` are the earlier lanes that address the same host location. A window's
lanes make one request for each slot. -/
def Served.atomic (x : Served) (b : Block) (g : Group) (m : Mem) (aop : Nat) (q : LaneReq) (p : Place)
    (before : List LaneReq) : Served :=
  let s := x.state
  match p with
  | .local pa swc _ _ =>
    if s.meetsError b.core true swc pa m.size then x.refuse q 0xA0
    else
      let s1 := s.forBoth b (fun s core => (s.beforeAtomic core swc pa m.size).useEarly pa m.size)
      let (old, s2) := s1.atomicHome aop pa q.a q.n
      let (v, s3) := s2.enterOld b g old
      { x with state := s3 }.accept q.lane v
  | .host pa =>
    let (v, s1) := s.enterOld b g (hostBefore s.tick aop m.size pa before)
    let new := if aop = 14 ∨ aop = 15 then natBytes m.size q.n else []
    { x with state := s1.toHost ⟨pa, some aop, natBytes m.size q.a, new⟩ }.accept q.lane v
  | .peer dev pa _ =>
    if s.fabric.reaches dev then { x with peers := x.peers ++ [(dev, pa, q)] } else x.refuse q 0x27
  | .window va =>
    match s.windowAt va (some (s.ctxOf b)) with
    | .inlet _ _ _ => x
    | .outlet _ _ _ => x.refuse q 0x25
    | .refused c => x.refuse q c

/-- R213: the lanes of an atomic in turn. -/
def Served.atomics (x : Served) (b : Block) (g : Group) (m : Mem) (aop : Nat) (before rest : List (LaneReq × Place)) :
    Served :=
  match rest with
  | [] => x
  | e :: more =>
    (x.atomic b g m aop e.1 e.2 ((before.filter (fun f => decide (f.2 = e.2))).map Prod.fst)).atomics b g m aop
      (before ++ [e]) more

/-- The window lanes of a store, with the inlet slot of each; a lane that names no inlet slot is refused. -/
def windowLanes (s : State) (qs : List (LaneReq × Place)) : List (LaneReq × Operator × Nat × Nat) :=
  qs.filterMap (fun e =>
    match e.2 with
    | .window va => match s.windowAt va with
      | .inlet o i off => some (e.1, o, i, off)
      | _ => none
    | _ => none)

/-- R252, R257, R258: the window lanes of a store: one request for each slot, its lanes ascending; a store to an outlet
window is refused with 0x44. -/
def Served.windows (x : Served) (b : Block) (g : Group) (qs : List (LaneReq × Place)) : Served :=
  let ins := windowLanes x.state qs
  let slots := (ins.map (fun e => (e.2.1.handle, e.2.2.1))).eraseDups
  let outs := qs.filter (fun e => match e.2 with
    | .window va => match x.state.windowAt va with
      | .inlet _ _ _ => false
      | _ => true
    | _ => false)
  let y := outs.foldl (fun y e =>
    match e.2 with
    | .window va => match y.state.windowAt va (some (y.state.ctxOf b)) with
      | .refused c => y.refuse e.1 c
      | _ => y.refuse e.1 0x44
    | _ => y) x
  slots.foldl (fun y k =>
    let mine := ins.filter (fun e => e.2.1.handle == k.1 && e.2.2.1 == k.2)
    let bytes := mine.flatMap (fun e => e.1.data.zipIdx.map (fun d => (e.2.2.2 + d.2, d.1)))
    match y.state.storeRequest { handle := k.1, slot := k.2, bytes := bytes, tag := y.state.writerTag b.core g.slot 0,
                                 remote := false, key := 0, ctx := y.state.ctxOf b, isGroup := true } with
    | .error c => mine.foldl (fun y e => y.refuse e.1 c) y
    | .ok s1 => mine.foldl (fun y e => y.accept e.1.lane 0) { y with state := s1 }) y

/-- R257, R263: the FADD.F32 lanes of an instruction on inlet windows: one request for each slot, its lanes ascending. -/
def Served.windowAdds (x : Served) (b : Block) (g : Group) (qs : List (LaneReq × Place)) : Served :=
  let ins := windowLanes x.state qs
  let slots := (ins.map (fun e => (e.2.1.handle, e.2.2.1))).eraseDups
  slots.foldl (fun y k =>
    let mine := ins.filter (fun e => e.2.1.handle == k.1 && e.2.2.1 == k.2)
    match y.state.addRequest { handle := k.1, slot := k.2, bytes := [], tag := y.state.writerTag b.core g.slot 0,
                               remote := false, key := 0, ctx := y.state.ctxOf b, isGroup := true }
        (mine.map (fun e => (e.1.lane, e.2.2.2, e.1.a))) with
    | .error c => mine.foldl (fun y e => y.refuse e.1 c) y
    | .ok (olds, s1) => olds.foldl (fun (y : Served) o =>
        let (v, s2) := y.state.enterOld b g o.2
        { y with state := s2 }.accept o.1 v) { y with state := s1 }) x

/-! ## Requests to peers -/

/-- R409, R411: how many entries one ATOMIC packet holds. -/
def entriesPer (aop : Nat) : Nat := if aop = 15 then 8 else 16

/-- A list cut into pieces of `k`. -/
def cut {α : Type} (fuel k : Nat) (xs : List α) : List (List α) :=
  match fuel with
  | 0 => []
  | fuel + 1 => if xs.isEmpty then [] else xs.take k :: cut fuel k (xs.drop k)

/-- R409: the operand fields of an atomic entry: OPND and NEW. -/
def entryOperands (aop a n : Nat) : Word × Word :=
  if aop = 14 then (BitVec.ofNat 64 (a + 2 ^ 32 * n), 0) else (BitVec.ofNat 64 a, BitVec.ofNat 64 n)

/-- R410, R411, R418: the packets for one device and line, each with the lanes it carries and where each lane's value will
stand in the reply. -/
def State.linePackets (s : State) (b : Block) (g : Group) (m : Mem) (dev : BitVec 13) (line : Nat)
    (qs : List (Nat × LaneReq)) : List (Packet × List (Nat × Nat)) :=
  let base : Packet := { blankPacket with
    dst := dev
    stream := g.fstrm
    pa := BitVec.ofNat 48 (line * 64)
    opkey := if peerWindow (line * 64) then g.opkey else 0
    size := BitVec.ofNat 4 (Nat.log2 m.size)
    order := BitVec.ofNat 2 m.order
    scope := BitVec.ofNat 3 m.scope
    wt := m.wt
    take := m.take
    tag := s.writerTag b.core g.slot 0 }
  match m.effect with
  | .load =>
    let bytes := (List.range 64).filterMap (fun k =>
      if qs.any (fun e => decide (e.1 % 64 ≤ k) && decide (k < e.1 % 64 + m.size)) then some (k, (0 : Byte)) else none)
    [({ base with op := if peerWindow (line * 64) then 0x05 else 0x01, bytes := bytes },
      qs.map (fun e => (e.2.lane, e.1 % 64)))]
  | .store =>
    let all := qs.flatMap (fun e => e.2.data.zipIdx.map (fun d => (e.1 % 64 + d.2, d.1)))
    let bytes := (List.range 64).filterMap (fun k =>
      match (all.filter (fun e => decide (e.1 = k))).getLast? with
      | some e => some e
      | none => none)
    [({ base with op := if peerWindow (line * 64) then 0x04 else 0x02, bytes := bytes },
      qs.map (fun e => (e.2.lane, e.1 % 64)))]
  | .atomic aop =>
    let parts := cut 96 (entriesPer aop) qs
    parts.zipIdx.map (fun p =>
      ({ base with
         op := 0x03
         aop := BitVec.ofNat 4 aop
         part := BitVec.ofNat 4 p.2
         npart := BitVec.ofNat 4 (parts.length - 1)
         entries := p.1.map (fun e =>
           let o := entryOperands aop e.2.a e.2.n
           (e.2.lane, e.1 % 64, o.1, o.2)) },
       p.1.zipIdx.map (fun e => (e.1.2.lane, 8 * e.2))))

/-- R410: the peer lanes by device and line, in packets. -/
def State.peerPackets (s : State) (b : Block) (g : Group) (m : Mem) (qs : List (BitVec 13 × Nat × LaneReq)) :
    List (Packet × List (Nat × Nat)) :=
  let keys := (qs.map (fun e => (e.1, e.2.1 / 64))).eraseDups
  keys.flatMap (fun k =>
    s.linePackets b g m k.1 k.2 ((qs.filter (fun e => e.1 == k.1 && e.2.1 / 64 == k.2)).map (fun e => e.2)))

/-- The packets leave, for a context and a core; the requests with the lanes that they carry. -/
def State.sendAll (s : State) (ctx : BitVec 32) (core : Nat) (ps : List (Packet × List (Nat × Nat))) :
    List (Nat × List (Nat × Nat)) × State :=
  ps.foldl (fun acc p =>
    let r := acc.2.request p.1 ctx core
    (acc.1 ++ [(r.1, p.2)], r.2)) ([], s)

/-! ## Ending an access -/

/-- A short value with its sign or zeros above it. -/
def extendValue (v size : Nat) (signed : Bool) : Nat :=
  if signed then wrapNat 64 (signedOf (8 * size) v) else v

/-- The value that a lane read. -/
def valueOf (vs : List (Nat × Nat)) (l : Nat) : Nat :=
  match vs.find? (fun e => e.1 == l) with
  | some e => e.2
  | none => 0

/-- R217, R223, R76: the values read go to the destination in the lanes that have one. -/
def Group.receive (g : Group) (d : Dest) (vs : List (Nat × Nat)) : Group :=
  match d with
  | .none => g
  | .scalar n size signed =>
    match vs with
    | [] => g
    | v :: _ => g.setScalar n (BitVec.ofNat 64 (extendValue v.2 size signed))
  | .lanes t size signed =>
    let m := maskOfList (vs.map (·.1))
    (List.range ((size + 3) / 4)).foldl (fun x j =>
      x.setVec (t + j) m (fun l => BitVec.ofNat 32 (extendValue (valueOf vs l) size signed / 2 ^ (32 * j)))) g

/-- The registers that a destination names. -/
def Dest.registers (d : Dest) : List Nat :=
  match d with
  | .lanes t size _ => (List.range ((size + 3) / 4)).map (fun j => t + j)
  | _ => []

/-- The scalars that a destination names. -/
def Dest.scalars (d : Dest) : List Nat :=
  match d with
  | .scalar n _ _ => [n]
  | _ => []

/-- R212: the refusals of an instruction as one precise fault: the lowest cause, the lanes refused with it, and the
performed mask. -/
def refusalCond (refused : List (Nat × Byte × Word)) (done : List Nat) (scalar : Bool) (args : Word × Word) :
    Option Cond :=
  match refused with
  | [] => none
  | e :: rest =>
    let cause := rest.foldl (fun c x => if x.2.1.toNat < c.toNat then x.2.1 else c) e.2.1
    let hit := refused.filter (fun x => x.2.1 == cause)
    some { cause := cause, kind := 0, va := (hit.headD e).2.2,
           fmask := if scalar then 0 else maskOfList (hit.map (·.1)),
           pmask := some (if scalar then 0 else maskOfList done),
           arg0 := if cause = 0x46 then args.1 else 0, arg1 := if cause = 0x46 then args.2 else 0 }

/-- R100: the helper lanes whose load is refused where it is served read zero. -/
def helperZeros (m : Mem) (helper : Mask) (refused : List (Nat × Byte × Word)) : List (Nat × Nat) :=
  if m.scalar then [] else (refused.filter (fun e => hasLane helper e.1)).map (fun e => (e.1, 0))

/-- R100, R212, R214, R372: every lane of the executing group's access has been served: the destination is written, an
acquire drops the clean lines, and refusals end in a precise fault whose performed mask holds the lanes of earlier passes
too. -/
def State.endAccess (s : State) (b : Block) (g : Group) (m : Mem) (vs : List (Nat × Nat))
    (refused : List (Nat × Byte × Word)) (done : List Nat) (args : Word × Word) : State :=
  let acquire := fun (s : State) core => s.acquireAt core m.scope
  let s1 := if !m.acquires then s else if g.met.isSome then s.forBoth b acquire else acquire s b.core
  let values := vs ++ helperZeros m g.helper refused
  let g1 := g.receive m.dest values
  let lanes := maskOfList (values.map Prod.fst)
  match refusalCond (refused.filter (fun e => m.scalar || !hasLane g.helper e.1)) (done ++ lanesOf g.redo) m.scalar args with
  | some c =>
    let s2 := s1.putGroup { g1 with pending := none }
    let s3 := match g.met, b.pair with
      | some _, some p => match s2.groupAt { s.cur with blk := p.partner } with
        | some (_, t) => s2.putAt { s.cur with blk := p.partner } (m.dest.registers.foldl (fun x r => x.setVec r lanes (g1.vec r)) t)
        | none => s2
      | _, _ => s2
    s3.trap c
  | none =>
    s1.doneOnce b ({ g1 with pending := none, status := .running }.advance m.length) m.dest.registers m.dest.scalars lanes

/-! ## An instruction's accesses -/

/-- R233: an instruction has accessed its local bytes: what its group read of their words ahead of its turn is used up. -/
def State.useAll (s : State) (size : Nat) (qs : List (LaneReq × Place)) : State :=
  if s.earlies.isEmpty then s
  else qs.foldl (fun (s : State) e => match e.2 with
    | .local pa _ _ _ => s.useEarly pa size
    | _ => s) s

/-- R302, R373, R375: the store unit of a block that holds its stores. -/
def State.holdUnit (s : State) (b : Block) (g : Group) (m : Mem) (qs : List (LaneReq × Place)) : State :=
  let bytes := qs.flatMap (fun e => e.1.data.zipIdx.map (fun d => (e.1.va.toNat + d.2, d.1)))
  let o : Ordering := ⟨BitVec.ofNat 2 m.order, BitVec.ofNat 3 m.scope⟩
  let limit := match s.launch? b.launch with
    | some l => l.header.slack
    | none => 0
  if bytes.isEmpty then s.done (g.advance m.length)
  else if b.pair.isSome && decide (limit ≤ g.sigs.length) then s.wait .slack
  else if !s.holdRoom b g bytes o then s.wait .holdRoom
  else
    let hs := g.holdStore bytes o s.nextId b.epoch s.syncedAt
    let sigs :=
      if b.pair.isSome then
        g.sigs ++ [⟨s.nextId, crc32c (signatureBytes (qs.map (fun e => (e.1.va, e.1.data))))⟩]
      else g.sigs
    let s1 := { s with nextId := s.nextId + 1 }.useAll m.size qs
    let g1 := { g with holds := hs, sigs := sigs }
    s1.done (g1.advance m.length)

/-- R404: does a lane name a frame whose requests the home holds? -/
def State.anyHeld (s : State) (qs : List (LaneReq × Place)) : Bool :=
  qs.any (fun e => match e.2 with
    | .local pa _ _ _ => s.heldByHome pa
    | _ => false)

/-- R266: does the sequencer hold a lane of a `.wt` load? -/
def State.laneWaits (s : State) (m : Mem) (e : LaneReq × Place) : Bool :=
  m.wt && (match e.2 with
    | .window va => match s.windowAt va with
      | .outlet o i off => o.mustWait i (o.desc.touchesData off)
      | _ => false
    | _ => false)

/-- R271: does a `.take` load read an operator window? -/
def anyTake (m : Mem) (qs : List (LaneReq × Place)) : Bool :=
  m.take && qs.any (fun e => match e.2 with
    | .window _ => true
    | .peer _ pa _ => peerWindow pa
    | _ => false)

/-- R22, R213: what an instruction's stores on local pages leave for fetches. -/
def State.noteStores (s t : State) (core size : Nat) (qs : List (LaneReq × Place)) : State :=
  let pas := fun (which : Bool) => qs.flatMap (fun e => match e.2 with
    | .local pa swc _ _ => if swc = which then (List.range size).map (fun k => pa + k) else []
    | _ => [])
  s.noted (s.noted t (dieOf core) false (pas false)) (dieOf core) true (pas true)

/-- R213, R218, R224, R217: the lanes of an instruction are served, but for those whose reply has to come. -/
def State.serveLanes (s : State) (b : Block) (g : Group) (m : Mem) (qs : List (LaneReq × Place)) (zeros : List Nat) : Served :=
  let x0 : Served := ⟨s, zeros.map (fun l => (l, 0)), [], zeros, [], []⟩
  match m.effect with
  | .load => qs.foldl (fun (x : Served) (e : LaneReq × Place) => x.load b (s.heldFor b g) m e.1 e.2) x0
  | .store =>
    let x1 := qs.foldl (fun (x : Served) (e : LaneReq × Place) => x.store b m e.1 e.2) x0
    { x1 with state := s.noteStores x1.state b.core m.size qs }.windows b g qs
  | .atomic aop => (x0.atomics b g m aop [] qs).windowAdds b g qs

/-- The slots that a `.take` load has read are emptied (R263). -/
def Served.emptied (x : Served) : State := x.taken.foldl (fun (s : State) k => s.takeResult k.1 k.2) x.state

/-- R297: a generic-path load of a core is counted, and each line that it asks for whose tag stands among the victims: a
victim hit, whose tag goes. -/
def State.countLoad (s : State) (core : Nat) (m : Mem) (qs : List (LaneReq × Place)) : State :=
  if m.effect = .load && decide (m.path = .generic) then
    let lines := (qs.filterMap (fun e => match e.2 with
      | .local pa _ false _ => some (pa / 64)
      | _ => none)).eraseDups
    let c := s.core core
    let hit := lines.filter (fun k => c.victims.contains k)
    s.putCore { c with loads := c.loads + 1, hits := c.hits + hit.length, victims := c.victims.filter (fun k => !hit.contains k) }
  else s

/-- R212, R266: perform the lanes that have passed the checks; the group waits when some go to peers, and when the
sequencer of a window holds some. -/
def State.performAccess (s : State) (b : Block) (g : Group) (m : Mem) (qs : List (LaneReq × Place))
    (zeros : List Nat) : State :=
  let s0 := ((if m.releases then s.releaseAt b.core m.scope else s).retainAll b qs).countLoad b.core m qs
  let late := qs.filter (s0.laneWaits m)
  let x := s0.serveLanes b g m (qs.filter (fun e => !s0.laneWaits m e)) zeros
  let s1 := x.emptied.useAll m.size qs
  if x.peers.isEmpty && late.isEmpty then s1.endAccess b g m x.values x.refused x.done (0, 0)
  else
    let (reqs, s2) := s1.sendAll (s1.ctxOf b) b.core (s1.peerPackets b g m x.peers)
    let p : Pending :=
      { requests := reqs
        vas := x.peers.map (fun e => (e.2.2.lane, e.2.2.va)) ++ late.map (fun e => (e.1.lane, e.1.va))
        length := m.length, dest := m.dest, got := maskOfList x.done, refused := x.refused, values := x.values,
        order := m.order, scope := m.scope, scalar := m.scalar
        atomic := match m.effect with
          | .atomic _ => true
          | _ => false
        waits := late.map (fun e => (e.1.lane, e.1.va)), take := m.take, held := s.heldFor b g }
    (s2.putGroup { g with pending := some p }).wait (if late.isEmpty then .replies else .outlet)

/-- The bytes of an atomic's or a `.take` load's signature (R376). -/
def laneOperands (m : Mem) (qs : List LaneReq) : List Byte :=
  qs.flatMap (fun q => natBytes 8 q.va.toNat ++
    (match m.effect with
     | .atomic _ => natBytes 8 q.a ++ natBytes 8 q.n
     | _ => []))

/-- One instruction's accesses (R209 to R215): the checks of every lane, then waiting, holding or performing. `qs` are the
participating lanes, helpers among them only for loads. -/
def State.access (s : State) (b : Block) (g : Group) (m : Mem) (qs : List LaneReq) : State :=
  match s.checkLanes b g m qs with
  | .error c => s.trap c
  | .ok (ok, zeros) =>
    let g1 := g.sealIf (decide (m.order ≠ 0))
    if s.anyHeld ok then s.wait .replies
    else
      match m.effect with
      | .store =>
        if b.holding then s.holdUnit b g1 m ok
        else s.performAccess b g1 m ok []
      | .atomic _ =>
        if ok.isEmpty then s.performAccess b g1 m ok []
        else if b.holding then s.once b g (laneOperands m qs) (fun s => s.performAccess b g1 m ok [])
        else s.performAccess b g1 m ok []
      | .load =>
        if b.holding && anyTake m ok then
          s.once b g (laneOperands m qs) (fun s => s.performAccess b g1 m ok zeros)
        else s.performAccess b g1 m ok zeros

end Sys2Proof.Machine
end

