-- ==== Sys2Proof/Machine/Scratch.lean ====
section
/-! DEFINITION. The scratchpads of a cluster: naming and bounds (R196 to R198), accesses by lanes (R219, R226) and by
words of barrier objects and counters, and what the fatal end of a peer block does (R355). -/

namespace Sys2Proof.Machine

/-! ## Clusters -/

/-- The cluster size of a block's launch (R292). -/
def State.clusterSize (s : State) (b : Block) : Nat :=
  match s.launch? b.launch with
  | some l => max 1 l.header.clsize
  | none => 1

/-- R33, R96: the rank of a block in its cluster. -/
def State.clusterRank (s : State) (b : Block) : Nat := b.lin % s.clusterSize b

/-- The blocks of a block's cluster. -/
def State.clusterOf (s : State) (b : Block) : List Block :=
  let n := s.clusterSize b
  s.blocks.filter (fun x => x.launch == b.launch && x.lin / n == b.lin / n &&
    x.pair.map Pair.leading == b.pair.map Pair.leading)

/-- R355: is there a block of the cluster, other than this one, that has ended fatally? -/
def State.peerEnded (s : State) (b : Block) : Bool := (s.clusterOf b).any (fun x => x.id != b.id && x.fatal)

/-- R355: must a cluster-scope access of the block raise cause 0x85 now? DEDUCED (assumption 45). -/
def State.peerFault (s : State) (b : Block) : Bool := !b.took85 && s.peerEnded b

/-- R355: the executing group takes cause 0x85, and its block will not take it again. -/
def State.trapPeer (s : State) (c : Cond) : State :=
  match s.block? s.cur.blk with
  | some b => (s.putBlock { b with took85 := true }).trap { c with cause := 0x85, kind := 0 }
  | none => s

/-- R355, R98, R209: does an ordered access at cluster scope raise cause 0x85? Only for a lane that takes part and is no
helper: without one there is no access. -/
def State.orderedFault (s : State) (b : Block) (g : Group) (m : Mem) (lanes : List Nat) : Bool :=
  decide (m.order ≠ 0 ∧ m.scope = 2) && s.peerFault b && (m.scalar || lanes.any (fun l => !hasLane g.helper l))

/-! ## Addresses (R196, R197) -/

/-- R193: the scratchpad bytes of a block. -/
def State.scratchRoom (s : State) (b : Block) : Nat :=
  match s.launch? b.launch with
  | some l => scratchBytes l.header.part
  | none => 0

/-- R196: the block that an address selects. -/
def State.selected (s : State) (b : Block) (a : Nat) : Option Block :=
  let sel := a / 2 ^ 28 % 16
  if sel = 15 ∨ sel = s.clusterRank b then s.block? b.id
  else if s.clusterSize b ≤ sel then none
  else (s.clusterOf b).find? (fun x => x.lin % s.clusterSize b == sel)

/-- R251: does a range of a block's scratchpad meet the slot storage of an installed operator? -/
def State.boundAsSlots (s : State) (b : Block) (off n : Nat) : Bool :=
  s.operators.any (fun o => o.blk == b.id &&
    decide (o.desc.store % 2 ^ 28 < off + n) && decide (off < o.desc.store % 2 ^ 28 + o.desc.storeSize))

/-- R197: the block whose scratchpad an access of `n` bytes reaches, if it may. -/
def State.inScratch (s : State) (b : Block) (a n : Nat) : Option Block :=
  match s.selected b a with
  | none => none
  | some t =>
    let off := a % 2 ^ 28
    if s.scratchRoom t < off + n ∨ s.boundAsSlots t off n then none else some t

/-- R355: the place of cause 0x85 among the checks. -/
def Fail.peerGone : Fail := ⟨11, 0x85, 0⟩

/-- R207, R197, R355: the checks of one scratchpad access. -/
def State.scratchCheck (s : State) (b : Block) (writes : Bool) (a n : Nat) : Except Fail Block :=
  if a % n ≠ 0 then .error .misaligned
  else match s.inScratch b a n with
    | none => .error .bounds
    | some t => if t.id != b.id && t.fatal && (!b.took85 || writes) then .error .peerGone else .ok t

/-- A block's scratchpad with bytes written. -/
def State.writeScratch (s : State) (blk off : Nat) (bs : List Byte) : State :=
  match s.block? blk with
  | some b => s.putBlock { b with scratch := writeBytes b.scratch off bs }
  | none => s

/-! ## Loads ahead of their turn (R237, R243) -/

/-- R237: what the executing group has read ahead of a block's scratchpad, if it has. -/
def State.aheadOf (s : State) (blk : Nat) : Option Ahead := s.aheads.find? (fun e => e.group == s.cur && e.blk == blk)

/-- R237: may a load of the executing group return, at some places of a block's scratchpad, what it has read ahead? It may
not where the group has stored since. -/
def State.mayUseAhead (s : State) (blk : Nat) (places : List (Nat × Nat)) : Bool :=
  match s.aheadOf blk with
  | none => false
  | some a => places.all (fun p => a.stored.all (fun o => !(decide (p.1 ≤ o) && decide (o < p.1 + p.2))))

/-- R237, R205: one choice for all that an instruction loads from a block's scratchpad: what its group has read ahead, or
what stands there now. -/
def State.usesAhead (s : State) (blk : Nat) (places : List (Nat × Nat)) : Bool :=
  s.mayUseAhead blk places && Config.freeBool s.tick (16 * blk + 8)

/-- R237: the bytes that a load of the executing group returns. -/
def State.loadScratch (s : State) (ahead : Bool) (blk off n : Nat) : List Byte :=
  match ahead, s.aheadOf blk with
  | true, some a => readBytes a.seen off n
  | _, _ => s.readScratch blk off n

/-- What the executing group has read ahead of the blocks that `f` holds is dropped. -/
def State.dropAhead (s : State) (f : Ahead → Bool) : State :=
  { s with aheads := s.aheads.filter (fun e => !(e.group == s.cur && f e)) }

/-- R237: the executing group stores to a block's scratchpad: its loads there do not return older bytes any more. -/
def State.storeAhead (s : State) (blk off n : Nat) : State :=
  { s with aheads := s.aheads.map (fun e =>
      if e.group == s.cur && e.blk == blk then { e with stored := (List.range n).map (fun k => off + k) ++ e.stored } else e) }

/-- R237, R243: a group that can issue reads a scratchpad of its cluster ahead of its next loads. DESIGN CHOICE
(assumption 44). -/
def State.readAhead (s : State) (r : GRef) : State :=
  match s.groupAt r with
  | none => s
  | some (b, g) =>
    let peers := s.clusterOf b
    match peers[Config.freeNat s.tick 70 % max 1 peers.length]? with
    | none => s
    | some t =>
      if decide (g.status = .running) && g.active && g.started && g.halt.isNone && !b.ended && !t.ended then
        { s with aheads := ⟨r, t.id, t.scratch, [], s.tick⟩ :: s.aheads.filter (fun e => !(e.group == r && e.blk == t.id)) }
      else s

/-! ## Accesses by lanes -/

/-- The scratchpad accesses of one instruction after its checks: the state and the values read. -/
structure ScratchRun where
  state  : State
  values : List (Nat × Nat)
deriving DecidableEq, Repr

/-- R219, R224, R226: one lane's access to a block's scratchpad; a load takes what its group has read ahead when `ahead`
says so. -/
def ScratchRun.lane (x : ScratchRun) (m : Mem) (q : LaneReq) (blk : Nat) (ahead : Bool) : ScratchRun :=
  let off := q.va.toNat % 2 ^ 28
  match m.effect with
  | .load => { x with values := x.values ++ [(q.lane, bytesNat (x.state.loadScratch ahead blk off m.size))] }
  | .store => { x with state := (x.state.writeScratch blk off q.data).storeAhead blk off m.size }
  | .atomic aop =>
    let old := bytesNat (x.state.readScratch blk off m.size)
    { state := x.state.writeScratch blk off (natBytes m.size (atomicNew aop old q.a q.n)),
      values := x.values ++ [(q.lane, old)] }

/-- The places of a block's scratchpad that an instruction accesses. -/
def placesIn (checked : List (LaneReq × Except Fail Block)) (size blk : Nat) : List (Nat × Nat) :=
  checked.filterMap (fun e => match e.2 with
    | .ok t => if t.id = blk then some (e.1.va.toNat % 2 ^ 28, size) else none
    | .error _ => none)

/-- The blocks that an instruction's lanes reach. -/
def blocksIn (checked : List (LaneReq × Except Fail Block)) : List Nat :=
  (checked.filterMap (fun e => match e.2 with
    | .ok t => some t.id
    | .error _ => none)).eraseDups

/-- The lanes that fail a scratchpad check, helpers apart. -/
def scratchFails (g : Group) (checked : List (LaneReq × Except Fail Block)) : List (Nat × Fail) :=
  checked.filterMap (fun e =>
    match e.2 with
    | .error f => if hasLane g.helper e.1.lane then none else some (e.1.lane, f)
    | .ok _ => none)

/-- R211, R219, R226, R237: the scratchpad accesses of one instruction, with its ordering (R214). DESIGN CHOICE
(assumption 44). -/
def State.scratchAccess (s : State) (b : Block) (g : Group) (m : Mem) (qs : List LaneReq) : State :=
  let writes := match m.effect with
    | .load => false
    | _ => true
  let checked := qs.map (fun q => (q, s.scratchCheck b writes q.va.toNat m.size))
  match pickFail (scratchFails g checked) with
  | some (f, ls) =>
    let c : Cond := { cause := f.cause, kind := 0, va := addressOf qs (ls.headD 0), fmask := maskOfList ls }
    if f.cause = 0x85 then s.trapPeer c else s.trap c
  | none =>
    if s.orderedFault b g m (qs.map LaneReq.lane) then
      s.trapPeer { cause := 0x85, fmask := maskOfList (qs.map LaneReq.lane) &&& ~~~g.helper }
    else
      let s1 := if m.releases then s.releaseAt b.core m.scope else s
      let blks := blocksIn checked
      let ahead := blks.filter (fun k => s1.usesAhead k (placesIn checked m.size k))
      let r := checked.foldl (fun (x : ScratchRun) (e : LaneReq × Except Fail Block) =>
        match e.2 with
        | .ok t => x.lane m e.1 t.id (ahead.contains t.id)
        | .error _ => { x with values := x.values ++ [(e.1.lane, 0)] }) ⟨s1, []⟩
      let s2 := if m.acquires then r.state.acquireAt b.core m.scope else r.state
      let s3 := match m.effect with
        | .store => s2
        | .load => s2.dropAhead (fun e => blks.contains e.blk && !ahead.contains e.blk)
        | .atomic _ => s2.dropAhead (fun e => blks.contains e.blk)
      let g1 := (g.sealIf (decide (m.order ≠ 0))).receive m.dest r.values
      s3.done (g1.advance m.length)

/-! ## Words of engines -/

/-- R198, R328, R331: an 8-byte or 4-byte word of a cluster's scratchpad that an instruction names by a scalar: the block
that holds it and its offset; misalignment raises cause 0x80. -/
def State.scratchWord (s : State) (b : Block) (writes : Bool) (a n : Nat) : Except Fail (Nat × Nat) :=
  if a % n ≠ 0 then .error ⟨2, 0x80, 0⟩
  else match s.scratchCheck b writes (a % 2 ^ 32) n with
    | .error f => .error f
    | .ok t => .ok (t.id, a % 2 ^ 28)

/-- The little-endian value of a word of scratchpad. -/
def State.scratchNat (s : State) (blk off n : Nat) : Nat := bytesNat (s.readScratch blk off n)

/-- The cause of a scratchpad word that fails its check, with an empty mask (R355) and no address (R350). -/
def State.trapWord (s : State) (f : Fail) : State :=
  let c : Cond := { cause := f.cause, kind := 0 }
  if f.cause = 0x85 then s.trapPeer c else s.trap c

end Sys2Proof.Machine
end

