-- ==== Sys2Proof/Machine/Control.lean ====
section
/-! DEFINITION. Control transfers (R78 to R89): uniform branches, the block reconvergence stack with its spill area (R80
to R82, R101, R102), divergent branches, calls and returns, and the ending of lanes, groups and blocks. -/

namespace Sys2Proof.Machine

/-! ## The reconvergence stack -/

/-- The entries of every group of a block, those of its compacted groups among them. -/
def Block.allEntries (b : Block) : List Entry :=
  b.groups.flatMap Group.entries ++ (match b.region with
    | some (cs, _) => cs.flatMap Group.entries
    | none => [])

/-- Change every entry of a block. -/
def Block.mapEntries (b : Block) (f : Entry → Entry) : Block :=
  let change := fun (g : Group) => { g with entries := g.entries.map f }
  { b with
    groups := b.groups.map change
    region := match b.region with
      | some (cs, pc) => some (cs.map change, pc)
      | none => none }

/-- R102: the 32 bytes of a spilled entry: their layout is not architectural. DESIGN CHOICE (assumption 26). -/
def spillBytes (tick place : Nat) : List Byte := (List.range 32).map (fun k => Config.freeByte tick (4 * (32 * place + k) + 1))

/-- R102: the place of a spilled entry in the block's area. -/
def State.spillAddress (s : State) (b : Block) (place : Nat) : Word :=
  match s.launch? b.launch with
  | some l => l.header.spill + BitVec.ofNat 64 ((b.lin * b.spillCap + place) * 32)
  | none => 0

/-- The smallest number of `xs`, and `d` of none. -/
def least (d : Nat) (xs : List Nat) : Nat :=
  match xs with
  | [] => d
  | x :: rest => rest.foldl min x

/-- R80, R101, R102: make room on the chip for one entry: spill the block's oldest, or say why that fails. -/
def State.makeRoom (s : State) (b : Block) (g : Group) : Except Cond (State × Group) :=
  let all := b.allEntries
  let onChip := all.filter (fun e => e.spilled.isNone)
  if onChip.length < 32 then .ok (s, g)
  else
    let places := all.filterMap (fun e => e.spilled.map Prod.snd)
    if b.spillCap ≤ places.length then .error { cause := 0x84 }
    else
      let oldest := least 0 (onChip.map Entry.seq)
      let place := least 0 ((List.range b.spillCap).filter (fun p => !places.contains p))
      let va := s.spillAddress b place
      match s.engineWrite b.core (s.ctxOf b) (!s.superOf b) va (spillBytes s.tick place) with
      | .error f => .error { cause := 0x84, sec := f.cause, va := va }
      | .ok s1 =>
        let mark := fun (e : Entry) => if e.seq = oldest then { e with spilled := some (s.tick, place) } else e
        let s2 := match s1.block? b.id with
          | some b1 => s1.putBlock (b1.mapEntries mark)
          | none => s1
        .ok (s2, { g with entries := g.entries.map mark })

/-- R80: push an entry. -/
def State.push (s : State) (b : Block) (g : Group) (kind : EntryKind) (pc : Word) (mask : Mask) :
    Except Cond (State × Group) :=
  match s.makeRoom b g with
  | .error c => .error c
  | .ok (s1, g1) =>
    match s1.block? b.id with
    | some b1 =>
      .ok (s1.putBlock { b1 with seq := b1.seq + 1 },
        { g1 with entries := ⟨kind, pc, mask, b1.seq, none⟩ :: g1.entries })
    | none => .ok (s1, g1)

/-- R102: an entry as it comes back from the spill area: its pc, whose bit 0 is 0 (R17), and its mask are open when the
area was written to. -/
def State.refilled (s : State) (b : Block) (e : Entry) : Entry :=
  match e.spilled with
  | none => e
  | some (tick, place) =>
    match s.engineRead b.core (s.ctxOf b) (!s.superOf b) (s.spillAddress b place) 32 with
    | .ok bs =>
      if bs = spillBytes tick place then { e with spilled := none }
      else { e with
        spilled := none
        pc := Config.freeWord s.tick place &&& ~~~1#64
        mask := BitVec.ofNat 96 (Config.freeNat s.tick (16 * place + 12)) }
    | .error _ => { e with
        spilled := none
        pc := Config.freeWord s.tick place &&& ~~~1#64
        mask := BitVec.ofNat 96 (Config.freeNat s.tick (16 * place + 12)) }

/-- The live non-helper lanes of a group (R89). -/
def Group.live (g : Group) : Mask := g.present &&& ~~~g.helper

/-- R81: the first entry with a live non-helper lane, and those below it. -/
def State.firstLive (s : State) (b : Block) (g : Group) (es : List Entry) : Option (Entry × List Entry) :=
  match es with
  | [] => none
  | e :: rest =>
    let e1 := s.refilled b e
    if e1.mask &&& g.live ≠ 0 then some (e1, rest) else s.firstLive b g rest

/-- R101: a group whose entries were `was` has popped all but `es`: when it has popped its last entry on the chip, its
newest spilled entry comes back. One whose entries were all spilled reads the popped one where it stands. DESIGN CHOICE
(assumption 26). -/
def State.refillTop (s : State) (b : Block) (was es : List Entry) : List Entry :=
  if es.any (fun e => e.spilled.isNone) || was.all (fun e => e.spilled.isSome) then es
  else match es with
    | [] => []
    | e :: rest => s.refilled b e :: rest

/-- R81: resume from the entries `es`: where the group goes on, or none when it ends. -/
def State.resumeFrom (s : State) (b : Block) (g : Group) (es : List Entry) : Option Group :=
  match s.firstLive b g es with
  | none => none
  | some (e, rest) =>
    some { g with
      exec := e.mask &&& g.present
      pc := if e.kind = .join then e.pc + 4 else e.pc
      entries := s.refillTop b g.entries rest }

/-! ## Ending groups and blocks -/

/-- R325: a recorded failure of a copy leaves for the fault server, and the launch ends with status 7. -/
def State.reportCopy (s : State) (launch core : Nat) (c : Byte × Word) : State :=
  let s1 := s.report launch core { cause := c.1, va := c.2 }
  let s2 := match s1.launch? launch with
    | some l => s1.putLaunch { l with status := endedStatus l.status 7 }
    | none => s1
  s2.endLaunchBlocks launch

/-- R89, R292: a block whose groups have all ended has ended; its operators are to be removed (R256). -/
def State.settleBlock (s : State) (k : Nat) : State :=
  match s.block? k with
  | none => s
  | some b =>
    if b.ended || b.region.isSome || b.groups.any (fun g => decide (g.status ≠ .ended)) then s
    else (s.putBlock { b with ended := true }).dropOperators { b with ended := true }

/-- R89: the group that a reference names ends: its walk ends (R332), failures that it never raised are reported (R325),
and its block ends with its last group. -/
def State.endGroup (s : State) (r : GRef) (g : Group) : State :=
  let s1 := s.changeAt r (fun x => { x with
    status := .ended
    active := false
    pending := none
    met := none
    stop := none
    walk := none
    entries := [] })
  match s1.block? r.blk with
  | none => s1
  | some b =>
    let s2 := g.unraised.foldl (fun (s : State) (c : Byte × Word) => s.reportCopy b.launch b.core c) s1
    s2.settleBlock r.blk

/-- The executing group goes on as `g`, or ends. -/
def State.goOn (s : State) (old : Group) (g : Option Group) : State :=
  match g with
  | some g => s.done g
  | none => (s.done old).endGroup s.cur old

/-! ## Uniform branches (R79) -/

/-- JMP (R79). -/
def execJmp (o : BitVec 16) (s : State) : Host.Outcome State Fault Refusal :=
  onGroup s {} (fun _ g _ => s.done { g with pc := branchTarget g.pc o })

/-- BRZ (R79). -/
def execBrz (o : BitVec 16) (r : BitVec 6) (s : State) : Host.Outcome State Fault Refusal :=
  onGroup s {} (fun _ g _ => s.done { g with pc := if g.scalar r.toNat = 0 then branchTarget g.pc o else g.pc + 4 })

/-- BRNZ (R79). -/
def execBrnz (o : BitVec 16) (r : BitVec 6) (s : State) : Host.Outcome State Fault Refusal :=
  onGroup s {} (fun _ g _ => s.done { g with pc := if g.scalar r.toNat = 0 then g.pc + 4 else branchTarget g.pc o })

/-- LOOP (R79, R67). -/
def execLoop (o : BitVec 16) (r : BitVec 6) (s : State) : Host.Outcome State Fault Refusal :=
  onGroup s { region := some 0x07 } (fun _ g _ =>
    let g1 := g.setScalar r.toNat (g.scalar r.toNat - 1)
    s.done { g1 with pc := if g1.scalar r.toNat = 0 then g.pc + 4 else branchTarget g.pc o })

/-! ## Divergence (R82 to R85) -/

/-- The lowest active non-helper lane of the quad of `l` (R83). -/
def Group.leader (g : Group) (l : Nat) : Option Nat :=
  ((List.range 4).map (fun k => l / 4 * 4 + k)).find? (fun k => hasLane g.exec k && !hasLane g.helper k)

/-- R83, R86: the lanes of EXEC on the taken side of a lane predicate; helpers follow the leader of their quad. -/
def Group.takenSide (g : Group) (f : Nat → Bool) : Mask :=
  maskOf (fun l => hasLane g.exec l && f (if hasLane g.helper l then (g.leader l).getD l else l))

/-- JPT (R82). -/
def execJpt (o : BitVec 16) (s : State) : Host.Outcome State Fault Refusal :=
  onGroup s {} (fun b g _ =>
    match s.push b g .join (branchTarget g.pc o) g.exec with
    | .error c => s.trap c
    | .ok (s1, g1) => s1.done (g1.advance 2))

/-- R103: does the group break the rule of an open compaction meeting, or its own top entry? -/
def meetingCause (b : Block) (g : Group) (join : Option Word) : Bool :=
  match join with
  | none => true
  | some j => b.groups.any (fun x =>
      match x.status with
      | .waiting (.compaction _ _ _ k) => decide (x.pc ≠ g.pc ∨ k ≠ j)
      | _ => false)

/-- R103: the join pc that a group names at a `brp.cmp`. -/
def Group.joinPc (g : Group) : Option Word :=
  match g.entries with
  | e :: _ => if e.kind = .join then some e.pc else none
  | [] => none

/-- BRP (R83, R84). -/
def execBrp (o : BitVec 16) (c n : BitVec 1) (p : BitVec 3) (s : State) : Host.Outcome State Fault Refusal :=
  onGroup s { region := if c = 1#1 then some 0x04 else none } (fun b g _ =>
    let t := g.takenSide (fun l => g.pnum p.toNat l != decide (n = 1#1))
    let f := g.exec &&& ~~~t
    let target := branchTarget g.pc o
    if c = 1#1 then
      if meetingCause b g g.joinPc then s.trap { cause := 0x0B }
      else s.wait (.compaction target t f (g.joinPc.getD 0))
    else if t &&& ~~~g.helper = 0 then s.done (g.advance 2)
    else if f &&& ~~~g.helper = 0 then s.done { g with pc := target }
    else match s.push b g .path (g.pc + 4) f with
      | .error e => s.trap e
      | .ok (s1, g1) => s1.done { g1 with exec := t, pc := target })

/-- JOIN (R85, R107). -/
def execJoin (s : State) : Host.Outcome State Fault Refusal :=
  onGroup s {} (fun b g _ =>
    match g.entries with
    | [] =>
      match b.region with
      | some (_, pc) => if g.compacted && decide (pc = g.pc) then s.wait .regionEnd else s.trap { cause := 0x0B }
      | none => s.trap { cause := 0x0B }
    | e :: rest =>
      let e1 := s.refilled b e
      if e1.kind = .call ∨ (e1.kind = .join ∧ e1.pc ≠ g.pc) then s.trap { cause := 0x0B }
      else s.goOn g (s.resumeFrom b g (e1 :: rest)))

/-! ## Calls and returns (R86 to R88) -/

/-- CALL (R86, R67). -/
def execCall (o : BitVec 16) (n : BitVec 1) (p : BitVec 3) (s : State) : Host.Outcome State Fault Refusal :=
  onGroup s {} (fun b g _ =>
    let t := g.takenSide (fun l => g.pnum p.toNat l != decide (n = 1#1))
    if t &&& ~~~g.helper = 0 then s.done (g.advance 2)
    else if g.compacted then s.trap { cause := 0x07 }
    else match s.push b g .call (g.pc + 4) g.exec with
      | .error c => s.trap c
      | .ok (s1, g1) =>
        s1.done { g1.setScalar 59 (g.pc + 4) with exec := t, pc := branchTarget g.pc o })

/-- R20, R87, R98: the target of an indirect transfer: none when no lane is active, the target, or the cause. -/
def indirectTarget (g r : Group) (a : Nat) : Except Cond (Option Word) :=
  match lowLane g.workers with
  | none => .ok none
  | some l =>
    let t := r.pair a l
    let d := maskOf (fun k => hasLane g.workers k && decide (r.pair a k ≠ t))
    if d ≠ 0 then .error { cause := 0x08, fmask := d }
    else if t.getLsbD 0 then .error { cause := 0x40, kind := 0 }
    else .ok (some t)

/-- CALLI (R87, R67). Inside a region an active lane raises 0x07 before the targets are judged (0x08, 0x40), an order that
the rules leave open. DESIGN CHOICE (assumption 37). -/
def execCalli (a : BitVec 7) (s : State) : Host.Outcome State Fault Refusal :=
  onGroup s { regs := [a.toNat, a.toNat + 1], reads := [a.toNat, a.toNat + 1] } (fun b g r =>
    if g.compacted && decide (g.workers ≠ 0) then s.trap { cause := 0x07 }
    else match indirectTarget g r a.toNat with
      | .error c => s.trap c
      | .ok none => s.done (g.advance 2)
      | .ok (some t) =>
        match s.push b g .call (g.pc + 4) g.exec with
        | .error c => s.trap c
        | .ok (s1, g1) => s1.done { g1.setScalar 59 (g.pc + 4) with pc := t })

/-- JMPI (R87). -/
def execJmpi (a : BitVec 7) (s : State) : Host.Outcome State Fault Refusal :=
  onGroup s { regs := [a.toNat, a.toNat + 1], reads := [a.toNat, a.toNat + 1] } (fun _ g r =>
    match indirectTarget g r a.toNat with
    | .error c => s.trap c
    | .ok none => s.done (g.advance 2)
    | .ok (some t) => s.done { g with pc := t })

/-- RET (R88): the popped entry's own pc is not used. -/
def execRet (s : State) : Host.Outcome State Fault Refusal :=
  onGroup s {} (fun b g _ =>
    match g.entries with
    | [] => s.trap { cause := 0x0B }
    | e :: rest =>
      let e1 := s.refilled b e
      if e1.kind ≠ .call then s.trap { cause := 0x0B }
      else if (g.scalar 59).getLsbD 0 then s.trap { cause := 0x40, kind := 0 }
      else s.goOn g (s.resumeFrom b g ({ e1 with pc := g.scalar 59 } :: rest)))

/-! ## Ending lanes (R89, R99) -/

/-- R89, R99: the active non-helper lanes end. One whose quad still holds a live lane becomes a helper beside it; helpers of
quads that hold none end too. A live lane of a quad, for the masks that a new helper joins, is one that is no helper. DESIGN
CHOICE (assumption 25). -/
def Group.endLanes (g : Group) : Group :=
  let ending := g.workers
  let live := g.live &&& ~~~ending
  let becomes := maskOf (fun l => hasLane ending l && inQuad live l)
  let gone := maskOf (fun l => hasLane g.present l && !inQuad live l)
  { g with
    present := g.present &&& ~~~gone
    helper := (g.helper ||| becomes) &&& ~~~gone
    exec := g.exec &&& ~~~ending &&& ~~~gone
    entries := g.entries.map (fun (e : Entry) =>
      { e with mask := (e.mask ||| besideLive becomes (e.mask &&& live)) &&& ~~~gone }) }

/-- EXIT (R89, R376, R383): the end of a group of a pair is a meeting point, which a tentative pair comes to when it is
confirmed. -/
def execExit (s : State) : Host.Outcome State Fault Refusal :=
  onGroup s {} (fun b g _ =>
    let g1 := g.endLanes
    match s.resumeFrom b g1 g1.entries with
    | some g2 => s.done g2
    | none =>
      if b.pair.isSome && decide (b.mode = .tentative) then s.wait .confirmation
      else if b.pair.isSome && g.met.isNone && !g.compacted then
        s.wait (.partner ⟨meetExit, s.meetSignature b g (natBytes 12 g.live.toNat)⟩)
      else (s.done g1).endGroup s.cur g1)

end Sys2Proof.Machine
end

