-- ==== Sys2Proof/Machine/Matrix.lean ====
section
/-! DEFINITION. The matrix array (R272 to R285) and the matrix instructions (R314 to R320): block sums, scales, the order of
accumulation, residues, poison, the array queue, and matrix batches (R327). -/

namespace Sys2Proof.Machine

/-! ## Block sums (R274 to R277) -/

/-- An aligned activation, or a block sum: an integer on the grid, or a special value. -/
inductive Act where
  | int (v : Int)
  | inf (neg : Bool)
  | nan
deriving DecidableEq, Repr

/-- R59: the format of a floating activation code. -/
def actFmt (code : Nat) : Fmt :=
  match code with
  | 1 => e4m3
  | 2 => e5m2
  | 4 => fp16
  | _ => bf16

/-- A finite significand moved by `k` places, truncated toward zero, with its sign. -/
def shifted (neg : Bool) (m : Nat) (k : Int) : Int :=
  let a : Nat := if 0 ≤ k then m * 2 ^ k.toNat else m / 2 ^ (-k).toNat
  if neg then -(a : Int) else (a : Int)

/-- An activation moved onto the grid `2 ^ (-g)`. -/
def alignTo (g : Int) (v : FVal) : Act :=
  match v with
  | .nan _ => .nan
  | .inf neg => .inf neg
  | .fin neg m e => .int (shifted neg m (e + g))

/-- The exponent of a finite value that is not zero. -/
def exponentOf (v : FVal) : Option Int :=
  match v with
  | .fin _ m e => if m = 0 then none else some e
  | _ => none

/-- R276: the largest exponent of the finite values that are not zero. -/
def largestExponent (vs : List FVal) : Option Int :=
  match vs.filterMap exponentOf with
  | [] => none
  | q :: rest => some (rest.foldl max q)

/-- R275, R276: the aligned elements of one row and block, and the grid exponent G. -/
def alignBlock (code : Nat) (xs : List Nat) : List Act × Int :=
  if code = 0 then (xs.map (fun x => .int (signedOf 8 x)), 0)
  else
    let vs := xs.map (decodeF (actFmt code))
    let g : Int :=
      if code = 1 then 9
      else if code = 2 then 16
      else match largestExponent vs with
        | some q => (if code = 4 then 15 else 18) - q
        | none => 0
    (vs.map (alignTo g), g)

/-- R277: the sum of two block terms. -/
def Act.plus (a b : Act) : Act :=
  match a, b with
  | .int x, .int y => .int (x + y)
  | .nan, _ => .nan
  | _, .nan => .nan
  | .inf x, .inf y => if x = y then .inf x else .nan
  | .inf x, .int _ => .inf x
  | .int _, .inf y => .inf y

/-- R274: what one element contributes under its weight code. -/
def Act.term (a : Act) (code : Nat) : Act :=
  if code = 1 then a
  else if code = 3 then
    match a with
    | .int v => .int (-v)
    | .inf neg => .inf (!neg)
    | .nan => .nan
  else .int 0

/-- R274, R277: the block sum of aligned elements under their weight codes. -/
def blockSum (xs : List Act) (codes : List Nat) : Act :=
  (xs.zip codes).foldl (fun acc e => acc.plus (e.1.term e.2)) (.int 0)

/-! ## Scales and accumulation (R278, R281) -/

/-- R121, R278: is a plane the negative top plane? -/
def topPlane (planes p : Nat) : Bool := decide (1 < planes) && decide (p + 1 = planes)

/-- R278: a block sum times its scales and its plane's weight. -/
def scaleFloat (u : Act) (g : Int) (sw sa planes p : Nat) : FVal :=
  if sw = 255 ∨ sa = 255 then .nan false
  else match u with
  | .nan => .nan false
  | .inf neg => .inf (neg != topPlane planes p)
  | .int v =>
    if v = 0 then .fin false 0 0
    else .fin (decide (v < 0) != topPlane planes p) v.natAbs ((sw : Int) + sa - 254 + p - g)

/-- R278: a block sum times its scales and its plane's weight, under I32 accumulation, where both scales are at least
127. -/
def scaleInt (u : Act) (sw sa planes p : Nat) : Int :=
  match u with
  | .int v => (if topPlane planes p then -v else v) * 2 ^ (sw + sa - 254 + p)
  | _ => 0

/-- R59: the format of an accumulation code. -/
def accFmt (accf : Nat) : Fmt :=
  match accf with
  | 1 => fp16
  | 2 => bf16
  | _ => fp32

/-- R281: one step of a cell. -/
def accStep (accf : Nat) (u : Act) (g : Int) (sw sa planes p acc : Nat) : Nat :=
  if accf = 0 then wrapNat 32 ((acc : Int) + scaleInt u sw sa planes p)
  else
    let f := accFmt accf
    let s := (deliver f .rne (scaleFloat u g sw sa planes p)).1
    (deliver f .rne (FVal.add false (decodeF f acc) (decodeF f s)).1).1

/-- R281: the planes from the top, and the four blocks in each. -/
def stepOrder (planes : Nat) : List (Nat × Nat) :=
  (List.range planes).reverse.flatMap (fun p => (List.range 4).map (fun b => (p, b)))

/-- R281: one K-step of one cell: `row b` gives the aligned block of its row, `codes p b` the weight codes of its column,
`sw b` and `sa b` the scales. -/
def kCell (accf planes : Nat) (row : Nat → List Act × Int) (codes : Nat → Nat → List Nat) (sw sa : Nat → Nat)
    (start : Nat) : Nat :=
  (stepOrder planes).foldl (fun acc e =>
    let r := row e.2
    accStep accf (blockSum r.1 (codes e.1 e.2)) r.2 (sw e.2) (sa e.2) planes e.1 acc) start

/-! ## Residues (R282) -/

/-- R282: a weight code read as +1, −1 or 0. -/
def codeValue (c : Nat) : Int := if c = 1 then 1 else if c = 3 then -1 else 0

/-- The integer of an aligned element, for the residues. -/
def Act.value (a : Act) : Int :=
  match a with
  | .int v => v
  | _ => 0

/-- R282: does a row of a block take part in the checks? -/
def checkedRow (xs : List Act) : Bool :=
  xs.all (fun a => match a with
    | .int _ => true
    | _ => false)

/-- R282: the sum of some numbers. -/
def sumInts (xs : List Int) : Int := xs.foldr (· + ·) 0

/-- R282: the checksum column of a plane and block: for each k, the sum of the columns' codes. -/
def checksumColumn (cols : List (List Nat)) (n : Nat) : List Int :=
  (List.range n).map (fun k => sumInts (cols.map (fun c => codeValue (c.getD k 0))))

/-- R282: the column check of a row: its block sums `us` against the checksum column. -/
def columnCheck (xs : List Act) (us : List Int) (sums : List Int) : Bool :=
  !checkedRow xs || decide (sumInts us % 255 = sumInts ((sums.zip xs).map (fun e => e.1 * e.2.value)) % 255)

/-- R282: the row check of a column: its block sums `us` of the checked rows against its codes. -/
def rowCheck (rows : List (List Act)) (us : List Int) (codes : List Nat) : Bool :=
  let kept := rows.filter checkedRow
  let expected := codes.zipIdx.map (fun e => codeValue e.1 * sumInts (kept.map (fun r => (r.getD e.2 (.int 0)).value)))
  decide (sumInts us % 255 = sumInts expected % 255)

/-- An error that strikes one block sum of an attempt: its plane, block, row and column, and what it adds. -/
structure Strike where
  plane : Nat
  blk   : Nat
  row   : Nat
  col   : Nat
  delta : Int
deriving DecidableEq, Repr

/-- What an error adds to a block sum. -/
def Strike.adds (e : Strike) (p b m n : Nat) : Int :=
  if e.plane = p ∧ e.blk = b ∧ e.row = m ∧ e.col = n then e.delta else 0

/-- An error of the attempt numbered `k` of a step: where it strikes is open, and residues tell it. DESIGN
CHOICE (assumption 16). -/
def strikeAt (tick k planes rows cols : Nat) : Strike :=
  let f := fun (n : Nat) => Config.freeNat tick (16 * (5 * k + n) + 5)
  ⟨f 0 % planes, f 1 % 4, f 2 % rows, f 3 % cols, 1 + f 4 % 254⟩

/-- R282: do all checks of one plane and block pass, with an error among the block sums of the rows `xs` and the columns'
codes? -/
def blockPasses (xs : List (List Act)) (codes : List (List Nat)) (sums : List Int) (err : Nat → Nat → Int) : Bool :=
  let u := fun (m n : Nat) => (blockSum (xs.getD m []) (codes.getD n [])).value + err m n
  let ms := List.range xs.length
  let ns := List.range codes.length
  let kept := ms.filter (fun m => checkedRow (xs.getD m []))
  ms.all (fun m => columnCheck (xs.getD m []) (ns.map (u m)) sums) &&
  ns.all (fun n => rowCheck xs (kept.map (fun m => u m n)) (codes.getD n []))

/-- R282: do all checks of a struck attempt at a step pass? `row m b` gives the aligned elements of a row's block,
`codes n p b` the codes of a column's block, and `sums p b` the checksum column. -/
def stepPasses (planes rows cols : Nat) (row : Nat → Nat → List Act) (codes : Nat → Nat → Nat → List Nat)
    (sums : Nat → Nat → List Int) (e : Strike) : Bool :=
  (List.range planes).all (fun p => (List.range 4).all (fun b =>
    blockPasses ((List.range rows).map (fun m => row m b)) ((List.range cols).map (fun n => codes n p b)) (sums p b)
      (e.adds p b)))

/-! ## Cells (R199) -/

/-- The key of a cell in accumulator memory. -/
def cellKey (unit row cell : Nat) : Nat := (unit * 96 + row) * 32 + cell

/-- R273: how many units `n` columns span. -/
def unitSpan (accf n : Nat) : Nat := if accf = 1 ∨ accf = 2 then (n + 63) / 64 else (n + 31) / 32

/-- R317: the columns that a cell of a tile holds, with their places in it: whole, or the halves. -/
def cellColumns (accf unitOff cell : Nat) : List (Nat × Nat) :=
  if accf = 1 ∨ accf = 2 then [(64 * unitOff + 2 * cell, 0), (64 * unitOff + 2 * cell + 1, 1)]
  else [(32 * unitOff + cell, 2)]

/-- The part of a cell at a place: a half, or the whole. -/
def cellPart (c : BitVec 32) (place : Nat) : Nat :=
  if place = 0 then c.toNat % 65536 else if place = 1 then c.toNat / 65536 else c.toNat

/-- A cell with the part at a place replaced. -/
def putPart (c : BitVec 32) (place v : Nat) : BitVec 32 :=
  if place = 0 then BitVec.ofNat 32 (c.toNat / 65536 * 65536 + v % 65536)
  else if place = 1 then BitVec.ofNat 32 (c.toNat % 65536 + 65536 * (v % 65536))
  else BitVec.ofNat 32 v

/-- R59: the planes of a weight code. -/
def planesOf (w : Nat) : Nat := if w = 0 then 1 else if w = 1 then 4 else 8

/-! ## One queued K-step (R316, R317) -/

/-- A K-step as the array performs it: the activation code, the planes, and what TMUL queued. -/
structure KStep where
  unit    : Nat
  cols    : Nat
  accf    : Nat
  act     : Nat
  planes  : Nat
  clear   : Bool
  aOff    : Nat
  wOff    : Nat
  wScratch : Bool
  ks      : Nat
  actScales : List Byte
  weightScales : List Byte
deriving DecidableEq, Repr

/-- R317: the activation element (m, k) of a step. -/
def Block.activation (b : Block) (q : KStep) (m k : Nat) : Nat :=
  if q.act = 5 then
    (deliver bf16 .rne (decodeF fp32 (readCell b.acc (cellKey (q.aOff % 32 + k / 32) m (k % 32))).toNat)).1
  else
    let a := if q.act < 3 then 1 else 2
    bytesNat (readBytes b.scratch (q.aOff + (96 * m + k) * a) a)

/-- R316: the weight code of row k, column n and plane p. -/
def Block.weightCode (b : Block) (q : KStep) (k n p : Nat) : Nat :=
  let at' := q.wOff + p * q.cols * 192 + n * 192 + 24 * q.ks + k / 4
  (readCell (if q.wScratch then b.scratch else b.weights) at').toNat / 4 ^ (k % 4) % 4

/-- R279, R280: the activation scale of row m and block b. -/
def KStep.actScale (q : KStep) (m b : Nat) : Nat := (q.actScales.getD (4 * m + b) 0x7F).toNat

/-- R280: the weight scale of column n and block b. -/
def KStep.weightScale (q : KStep) (n b : Nat) : Nat := (q.weightScales.getD (4 * n + b) 0x7F).toNat

/-- The codes of a column's block. -/
def Block.columnCodes (b : Block) (q : KStep) (n p blk : Nat) : List Nat :=
  (List.range 24).map (fun k => b.weightCode q (24 * blk + k) n p)

/-- R281: the accumulator cells after a step. -/
def Block.stepCells (b : Block) (q : KStep) : Cells 32 :=
  let act := if q.act = 5 then 3 else q.act
  let rows := (List.range 96).map (fun m => (List.range 4).map (fun blk =>
    alignBlock act ((List.range 24).map (fun k => b.activation q m (24 * blk + k)))))
  let codes := (List.range q.cols).map (fun n => (List.range q.planes).map (fun p => (List.range 4).map (fun blk =>
    b.columnCodes q n p blk)))
  let one := fun (m n old : Nat) =>
    kCell q.accf q.planes (fun blk => (rows.getD m []).getD blk ([], 0))
      (fun p blk => ((codes.getD n []).getD p []).getD blk []) (q.weightScale n) (q.actScale m) (if q.clear then 0 else old)
  let lo := cellKey q.unit 0 0
  writeRun b.acc lo (3072 * unitSpan q.accf q.cols) (fun key =>
    let u := (key - lo) / 3072
    let m := (key - lo) / 32 % 96
    (cellColumns q.accf u (key % 32)).foldl (fun (c : BitVec 32) (e : Nat × Nat) =>
      if e.1 < q.cols then putPart c e.2 (one m e.1 (cellPart c e.2)) else c) (readCell b.acc key))

/-- R120: does a step read a reserved code? -/
def Block.reservedCode (b : Block) (q : KStep) : Bool :=
  (List.range q.cols).any (fun n => (List.range q.planes).any (fun p => (List.range 96).any (fun k =>
    decide (b.weightCode q k n p = 2))))

/-- R282: do the checks of a struck attempt at a step pass? The array forms the checksum columns from the weights it
reads. -/
def Block.stepPasses (b : Block) (q : KStep) (e : Strike) : Bool :=
  let act := if q.act = 5 then 3 else q.act
  Sys2Proof.Machine.stepPasses q.planes 96 q.cols
    (fun m blk => (alignBlock act ((List.range 24).map (fun k => b.activation q m (24 * blk + k)))).1)
    (fun n p blk => b.columnCodes q n p blk)
    (fun p blk => checksumColumn ((List.range q.cols).map (fun n => b.columnCodes q n p blk)) 24) e

/-- The units `u` to `u + n - 1` as a mask. -/
def unitMask (u n : Nat) : BitVec 32 := BitVec.ofNat 32 ((2 ^ n - 1) * 2 ^ u)

/-- R284: does a step of code 5 read a poisoned unit? -/
def Block.readsPoison (b : Block) (q : KStep) : Bool :=
  decide (q.act = 5) && decide (b.poison &&& unitMarks (unitMask (q.aOff % 32) 3) ≠ 0)

/-- R284: does any cell of a unit carry a poison mark? -/
def Block.poisoned (b : Block) (u : Nat) : Bool := (List.range 4).any (fun k => b.poison.getLsbD (4 * u + k))

/-- R273: does a step's tile take in the cell column `c` of the tile's unit `u`? -/
def tileCovers (accf cols u c : Nat) : Bool := (cellColumns accf u (c / 8 * 8)).any (fun e => decide (e.1 < cols))

/-- R273, R284: the marks of the cells in a step's tile. -/
def KStep.marks (q : KStep) : BitVec 128 :=
  BitVec.ofNat 128 ((List.range (4 * unitSpan q.accf q.cols)).foldl (fun a k =>
    if tileCovers q.accf q.cols (k / 4) (8 * (k % 4)) then a + 2 ^ (4 * q.unit + k) else a) 0)

/-! ## The array queue (R281 to R285, R318, R320) -/

/-- The group's work `id` is complete, with what was recorded of it. -/
def State.finishWork (s : State) (j : ArrayJob) (cause : Option (Byte × Word)) : State :=
  s.changeAt ⟨j.blk, j.grp, false⟩ (fun g => { g with
    matrix := g.matrix.map (fun (w : Work) => if w.id = j.id then { w with done := true, cause := cause } else w) })

/-- The head of a core's array queue, taken from it. -/
def State.takeJob (s : State) (core : Nat) : Option (ArrayJob × State) :=
  let c := s.core core
  match c.queue with
  | [] => none
  | j :: rest => some (j, s.putCore { c with queue := rest })

/-- A queued K-step as the array performs it. -/
def kstepOf (w : ArrayWork) : Option KStep :=
  match w with
  | .kstep unit cols accf code clear aOff wOff wScratch ks actScales weightScales =>
    some ⟨unit, cols, accf, code / 3, planesOf (code % 3), clear, aOff, wOff, wScratch, ks, actScales, weightScales⟩
  | _ => none

/-- R318: the accumulator cells of a block after TZERO. -/
def Block.zeroCells (b : Block) (u n : Nat) : Cells 32 := writeRun b.acc (cellKey u 0 0) (3072 * n) (fun _ => 0)

/-- R318: the accumulator cells of a block after TLDA of an image in the scratchpad `src`. -/
def Block.loadCells (b : Block) (src : Cells 8) (u n addr : Nat) : Cells 32 :=
  let lo := cellKey u 0 0
  writeRun b.acc lo (3072 * n) (fun k => BitVec.ofNat 32 (bytesNat (readBytes src (addr + 4 * (k - lo)) 4)))

/-- R318: the scratchpad `dst` after TSTA of a block's units. -/
def Block.storeBytes (b : Block) (dst : Cells 8) (u n addr : Nat) : Cells 8 :=
  writeRun dst addr (12288 * n) (fun a =>
    BitVec.ofNat 8 ((readCell b.acc (cellKey u 0 0 + (a - addr) / 4)).toNat / 256 ^ ((a - addr) % 4)))

/-- R283: do both attempts at a step fail a check? `strikes` of them are struck by an error; a step whose checks have
passed is not struck any more. -/
def State.stepFails (s : State) (b : Block) (j : ArrayJob) (q : KStep) (strikes : Nat) : Bool :=
  !j.passed && decide (2 ≤ strikes) &&
    (List.range 2).all (fun k => !b.stepPasses q (strikeAt s.tick k q.planes 96 q.cols))

/-- R283, R284: the array performs a step: it commits after an attempt that passes every residue check, and poisons its
tile when the rerun fails too. Its weights are read, and a reserved code among them noted, even where its source units are
poisoned. DESIGN CHOICE (assumption 13). -/
def State.performKstep (s : State) (core : Nat) (j : ArrayJob) (q : KStep) (strikes : Nat) : State :=
  match s.block? j.blk with
  | none => s
  | some b =>
    let c := s.core core
    let s1 := if b.reservedCode q then s.putCore { c with rsv := true } else s
    let tile := q.marks
    if b.readsPoison q then
      (s1.putBlock { b with poison := b.poison ||| tile }).finishWork j (some (0xA1, 0))
    else if s.stepFails b j q strikes then
      ((s1.putBlock { b with poison := b.poison ||| tile }).report b.launch core { cause := 0xA1, kind := 3 }).finishWork j none
    else
      let b1 := { b with
        acc := keepCells b.acc (b.stepCells q) j.did
        poison := if q.clear then b.poison &&& ~~~tile else b.poison }
      (s1.putBlock b1).finishWork j none

/-- ARRAY_KSTEP (R281 to R284, R317). -/
def execArrayKstep (core strikes : Nat) (s : State) : Host.Outcome State Fault Refusal :=
  match s.takeJob core with
  | none => .next s
  | some (j, s1) =>
    match kstepOf j.work with
    | some q => .next (s1.performKstep core j q strikes)
    | none => .next s

/-- R311, R318: the scratchpad that holds the image of a TLDA or TSTA: the block's own, or a cluster peer's. -/
def State.imageBytes (s : State) (b : Block) (j : ArrayJob) : Cells 8 :=
  if j.img = b.id then b.scratch
  else match s.block? j.img with
    | some t => t.scratch
    | none => []

/-- TZERO_PERFORM (R318). -/
def execTzeroPerform (core : Nat) (s : State) : Host.Outcome State Fault Refusal :=
  match s.takeJob core with
  | some (j, s1) =>
    match j.work, s1.block? j.blk with
    | .zero u n, some b =>
      .next ((s1.putBlock { b with
        acc := keepCells b.acc (b.zeroCells u n) j.did
        poison := b.poison &&& ~~~unitMarks (unitMask u n) }).finishWork j none)
    | _, _ => .next s
  | none => .next s

/-- TLDA_PERFORM (R318). -/
def execTldaPerform (core : Nat) (s : State) : Host.Outcome State Fault Refusal :=
  match s.takeJob core with
  | some (j, s1) =>
    match j.work, s1.block? j.blk with
    | .load u n at', some b =>
      .next ((s1.putBlock { b with
        acc := keepCells b.acc (b.loadCells (s1.imageBytes b j) u n at') j.did
        poison := b.poison &&& ~~~unitMarks (unitMask u n) }).finishWork j none)
    | _, _ => .next s
  | none => .next s

/-- R318: a TSTA that may write its image does so; a block that has ended fatally is read only (R355). -/
def State.storeImage (s : State) (b : Block) (j : ArrayJob) (u n addr : Nat) : State :=
  match if j.img = b.id then some b else s.block? j.img with
  | some t =>
    if t.id ≠ b.id ∧ t.fatal then s else s.putBlock { t with scratch := keepCells t.scratch (b.storeBytes t.scratch u n addr) j.did }
  | none => s

/-- TSTA_PERFORM (R284, R318): nothing is written when a unit is poisoned, and MWAIT tells it. -/
def execTstaPerform (core : Nat) (s : State) : Host.Outcome State Fault Refusal :=
  match s.takeJob core with
  | some (j, s1) =>
    match j.work, s1.block? j.blk with
    | .store u n at', some b =>
      if b.poison &&& unitMarks (unitMask u n) ≠ 0 then .next (s1.finishWork j (some (0xA1, 0)))
      else .next ((s1.storeImage b j u n at').finishWork j none)
    | _, _ => .next s
  | none => .next s

/-! ## Work that is seen before it is complete (R320) -/

/-- The accumulator cells of a block after a piece of work, whose image lies in the scratchpad `img`. -/
def Block.cellsAfter (b : Block) (img : Cells 8) (w : ArrayWork) : Cells 32 :=
  match w with
  | .zero u n => b.zeroCells u n
  | .load u n addr => b.loadCells img u n addr
  | .store _ _ _ => b.acc
  | .kstep _ _ _ _ _ _ _ _ _ _ _ =>
    match kstepOf w with
    | some q => if b.readsPoison q then b.acc else b.stepCells q
    | none => b.acc

/-- The scratchpad `img` after a piece of work of a block. -/
def Block.bytesAfter (b : Block) (img : Cells 8) (w : ArrayWork) : Cells 8 :=
  match w with
  | .store u n addr => if b.poison &&& unitMarks (unitMask u n) ≠ 0 then img else b.storeBytes img u n addr
  | .zero _ _ | .load _ _ _ | .kstep _ _ _ _ _ _ _ _ _ _ _ => img

/-- R320, R283: some cells or bytes of the oldest work are written ahead of its completion, whichever; those of a K-step
once its checks have passed. -/
def State.arrayPart (s : State) (core : Nat) : State :=
  let c := s.core core
  match c.queue with
  | [] => s
  | j :: rest =>
    match s.block? j.blk with
    | none => s
    | some b =>
      let early := fun (k : Nat) => !j.did.contains k && Config.freeBool s.tick (16 * k + 7)
      let img := s.imageBytes b j
      let cells := (changedKeys b.acc (b.cellsAfter img j.work)).filter early
      let bytes := (changedKeys img (b.bytesAfter img j.work)).filter early
      let s1 := s.putBlock { b with acc := keepCells (b.cellsAfter img j.work) b.acc cells }
      let s2 := match s1.block? j.img with
        | some t =>
          if t.id ≠ b.id ∧ t.fatal then s1
          else s1.putBlock { t with scratch := keepCells (b.bytesAfter img j.work) t.scratch bytes }
        | none => s1
      s2.putCore { c with queue := { j with did := cells ++ bytes ++ j.did, passed := (kstepOf j.work).isSome } :: rest }

/-! ## The instructions -/

/-- Matrix work joins the array queue and the open batch of the executing group, with an image in the scratchpad of the
block `img`: such work is not issued in a compacted region. -/
def State.queueWork (s : State) (b : Block) (g : Group) (w : ArrayWork) (img : Nat) : State :=
  let c := s.core b.core
  let job : ArrayJob := ⟨s.nextId, b.id, s.cur.grp, w, [], img, false⟩
  let s1 := { s.putCore { c with queue := c.queue ++ [job] } with nextId := s.nextId + 1 }
  let piece : Work := ⟨s.nextId, 0, false, none⟩
  let g1 := { g with matrix := g.matrix ++ [piece] }
  s1.done (g1.advance 2)

/-- R193: the accumulator units of a block. -/
def State.accRoom (s : State) (b : Block) : Nat :=
  match s.launch? b.launch with
  | some l => accUnits l.header.part
  | none => 0

/-- R200, R357: the reserved weight range of a block. -/
def State.weightRange (s : State) (b : Block) : Nat :=
  match s.launch? b.launch with
  | some l => l.header.wres
  | none => 0

/-- The fields of TMUL's scalar pair (R315). -/
structure TmulPair where
  top  : Bool
  wsp  : Bool
  ks   : Nat
  sen  : Bool
  vs   : Nat
  n    : Nat
  w    : Nat
  a    : Nat
  high : Nat
  clr  : Bool
  wso  : Nat
deriving DecidableEq, Repr

/-- R315: x and y. DEDUCED (assumption 14). -/
def tmulPair (x y : Word) : TmulPair :=
  let f := fun (v : Word) (lo n : Nat) => v.toNat / 2 ^ lo % 2 ^ n
  { top := x.getLsbD 63, wsp := x.getLsbD 62, ks := f x 58 4, sen := x.getLsbD 57, vs := f x 50 7, n := f x 40 10,
    w := f x 20 20, a := f x 0 20, high := f y 21 43, clr := y.getLsbD 20, wso := f y 0 20 }

/-- R279: the activation scale bytes, by row and block. -/
def Group.actScales (g : Group) (p : TmulPair) (j : Nat) : List Byte :=
  if !p.sen then []
  else (List.range 96).flatMap (fun m => (List.range 4).map (fun b =>
    if hasLane g.present m then BitVec.ofNat 8 ((g.vec (p.vs + b) m).toNat / 256 ^ j) else 0x7F))

/-- R280: the weight scale bytes, by column and block. -/
def Block.weightScales (b : Block) (p : TmulPair) : List Byte :=
  if p.sen then readBytes b.scratch p.wso (4 * p.n) else []

/-- R278: is a scale code one that I32 accumulation admits? -/
def intScale (x : Byte) : Bool := decide (127 ≤ x.toNat ∧ x.toNat ≤ 134)

/-- R315: the first check of TMUL that fails. -/
def State.tmulCause (s : State) (b : Block) (g : Group) (p : TmulPair) (u accf code j : Nat) : Option Byte :=
  let act := code / 3
  let planes := planesOf (code % 3)
  let size := if act < 3 then 1 else 2
  let room := s.scratchRoom b
  let span := unitSpan accf p.n
  if p.top ∨ p.high ≠ 0 ∨ p.n < 16 ∨ 512 < p.n ∨ p.n % 16 ≠ 0 ∨ 7 < p.ks then some 0x0A
  else if (if act = 5 then decide (32 ≤ p.a) else decide (p.a % 64 ≠ 0)) || decide (p.w % 64 ≠ 0) then some 0x0A
  else if p.sen && decide (124 < p.vs) then some 0x0A
  else if p.sen && decide (g.budget ≤ p.vs + 3) then some 0x0C
  else if s.accRoom b < u + span ∨ (act = 5 ∧ s.accRoom b < p.a + 3) then some 0x47
  else if act = 5 ∧ p.a < u + span ∧ u < p.a + 3 then some 0x0A
  else if act ≠ 5 ∧ (room < p.a + 9216 * size ∨ s.boundAsSlots b p.a (9216 * size)) then some 0x47
  else if (if p.wsp then room else s.weightRange b) < p.w + planes * p.n * 192 ∨
      (p.wsp ∧ s.boundAsSlots b p.w (planes * p.n * 192)) then some 0x47
  else if p.sen && (decide (room < p.wso + 4 * p.n) || s.boundAsSlots b p.wso (4 * p.n)) then some 0x47
  else if accf = 0 ∧ ¬((g.actScales p j).all intScale ∧ (b.weightScales p).all intScale) then some 0x0A
  else none

/-- The kind of stop for a cause of an engine instruction (R345): the group causes, else precise. -/
def engineCond (c : Byte) : Cond := { cause := c, kind := if c.toNat < 16 then 1 else 0 }

/-- TMUL (R314, R315). -/
def execTmul (j : BitVec 2) (q : BitVec 6) (f : BitVec 2) (c u : BitVec 5) (s : State) : Host.Outcome State Fault Refusal :=
  match s.current with
  | none => .fault .noGroup
  | some (_, g0) =>
    let p := tmulPair (g0.scalar q.toNat) (g0.scalar (q.toNat + 1))
    let scales := if p.sen ∧ p.vs ≤ 124 then (List.range 4).map (fun k => p.vs + k) else []
    onGroup s { region := some 0x04, reads := scales } (fun b g r =>
      match s.tmulCause b r p u.toNat f.toNat c.toNat j.toNat with
      | some x => s.trap (engineCond x)
      | none =>
        s.queueWork b g (.kstep u.toNat p.n f.toNat c.toNat p.clr p.a p.w p.wsp p.ks (r.actScales p j.toNat)
          (b.weightScales p)) b.id)

/-- R318: the checks of TZERO: its units lie in the block's accumulator memory. -/
def execTzero (c a : BitVec 5) (s : State) : Host.Outcome State Fault Refusal :=
  onGroup s { region := some 0x04 } (fun b g _ =>
    if s.accRoom b < a.toNat + c.toNat + 1 then s.trap (engineCond 0x47)
    else s.queueWork b g (.zero a.toNat (c.toNat + 1)) b.id)

/-- R311, R318, R355: the checks of TSTA and TLDA: the units, then the image's address and bounds, and whether its block
has ended fatally; `work` queues on its block's offset. -/
def runImage (c a : BitVec 5) (sb : BitVec 6) (writes : Bool) (work : Nat → ArrayWork) (s : State) : Host.Outcome State Fault Refusal :=
  onGroup s { region := some 0x04 } (fun b g _ =>
    let at' := (g.scalar sb.toNat).toNat % 2 ^ 32
    if s.accRoom b < a.toNat + c.toNat + 1 then s.trap (engineCond 0x47)
    else if at' % 64 ≠ 0 then s.trap (engineCond 0x0A)
    else match s.inScratch b at' (12288 * (c.toNat + 1)) with
      | none => s.trap (engineCond 0x47)
      | some t =>
        if t.id != b.id && t.fatal && (!b.took85 || writes) then s.trapWord .peerGone
        else s.queueWork b g (work (at' % 2 ^ 28)) t.id)

/-- TSTA (R318). -/
def execTsta (c : BitVec 5) (b : BitVec 6) (a : BitVec 5) (s : State) : Host.Outcome State Fault Refusal :=
  runImage c a b true (fun at' => .store a.toNat (c.toNat + 1) at') s

/-- TLDA (R318). -/
def execTlda (c : BitVec 5) (b : BitVec 6) (a : BitVec 5) (s : State) : Host.Outcome State Fault Refusal :=
  runImage c a b false (fun at' => .load a.toNat (c.toNat + 1) at') s

/-- TRDA (R319). -/
def execTrda (c : BitVec 6) (u : BitVec 5) (t : BitVec 7) (s : State) : Host.Outcome State Fault Refusal :=
  onGroup s { regs := [t.toNat] } (fun b g _ =>
    let col := (g.scalar c.toNat).toNat
    if 32 ≤ col then s.trap (engineCond 0x0A)
    else if s.accRoom b ≤ u.toNat then s.trap (engineCond 0x47)
    else if b.poisoned u.toNat then s.trap (engineCond 0xA1)
    else s.done ((g.setVec t.toNat g.exec (fun m => readCell b.acc (cellKey u.toNat m col))).advance 2))

/-- TWRA (R319). -/
def execTwra (c : BitVec 6) (u : BitVec 5) (t : BitVec 7) (s : State) : Host.Outcome State Fault Refusal :=
  onGroup s { regs := [t.toNat], reads := [t.toNat] } (fun b g r =>
    let col := (g.scalar c.toNat).toNat
    if 32 ≤ col then s.trap (engineCond 0x0A)
    else if s.accRoom b ≤ u.toNat then s.trap (engineCond 0x47)
    else
      let acc := (lanesOf g.workers).foldl (fun (a : Cells 32) m => writeCell a (cellKey u.toNat m col) (r.vec t.toNat m)) b.acc
      (s.putBlock { b with acc := acc }).done (g.advance 2))

/-! ## Matrix batches (R327) -/

/-- R327: the open batch of some work gets a number. -/
def sealWork (ws : List Work) (n : Nat) : List Work :=
  ws.map (fun (w : Work) => if w.batch = 0 then { w with batch := n } else w)

/-- R327: is there unfinished work in a batch numbered `n` or lower? -/
def openWork (ws : List Work) (n : Nat) : Bool :=
  ws.any (fun w => decide (1 ≤ w.batch ∧ w.batch ≤ n) && !w.done)

/-- R327: the recorded cause that a wait up to batch `n` raises: the lowest batch's, the earliest piece's. -/
def firstFailure (ws : List Work) (n : Nat) : Option Work :=
  let bad := ws.filter (fun w => decide (1 ≤ w.batch ∧ w.batch ≤ n) && w.cause.isSome)
  match bad with
  | [] => none
  | w :: rest => some (rest.foldl (fun (best x : Work) =>
      if x.batch < best.batch ∨ (x.batch = best.batch ∧ x.id < best.id) then x else best) w)

/-- R327: the work without what a wait has consumed: complete pieces of sealed batches, but those with other causes.
DEDUCED (assumption 21). -/
def raisedWork (ws : List Work) (w : Work) : List Work :=
  ws.map (fun (x : Work) => if x.id = w.id then { x with cause := none } else x)

/-- MSEAL (R327). -/
def execMseal (a : BitVec 6) (s : State) : Host.Outcome State Fault Refusal :=
  onGroup s { region := some 0x04 } (fun _ g _ =>
    let n := g.matSeal + 1
    s.done ({ g with matrix := sealWork g.matrix n, matSeal := n }.setScalar a.toNat (BitVec.ofNat 64 n) |>.advance 2))

/-- MWAIT (R327, R284, R318). -/
def execMwait (b : BitVec 6) (s : State) : Host.Outcome State Fault Refusal :=
  onGroup s { region := some 0x04 } (fun blk g _ =>
    let n := (g.scalar b.toNat).toNat
    if n = 0 then s.done (g.advance 2)
    else if g.matSeal < n then s.trap { cause := 0x0A }
    else if openWork g.matrix n then s.wait (.matrixBatch n)
    else
      let s1 := s.acquireAt blk.core 2
      match firstFailure g.matrix n with
      | some w =>
        (s1.putGroup { g with matrix := raisedWork g.matrix w }).trap
          { cause := (w.cause.getD (0, 0)).1, kind := 2, va := (w.cause.getD (0, 0)).2 }
      | none => s1.done (g.advance 2))

end Sys2Proof.Machine
end

