-- ==== Sys2Proof/Machine/Operators.lean ====
section
/-! DEFINITION. Resident operators (R248 to R271, R312, R370): installing, loading, passes, completion, forwarding, removal
and parking. The judging and applying of store requests stands in Slots. -/

namespace Sys2Proof.Machine

/-! ## Reading records by an instruction -/

/-- One aligned word of a record where its page is served; what a peer holds of it has been asked for. -/
def Served.recordWord (x : Served) (b : Block) (g : Group) (m : Mem) (e : LaneReq × Place) : Served :=
  match e.2 with
  | .peer dev pa _ =>
    match x.state.peerBytes g dev pa 8 with
    | .ok bs => x.accept e.1.lane (bytesNat (overlayHeld (x.state.heldFor b g) e.1.va.toNat bs))
    | .error c => x.refuse e.1 c
  | .local _ _ _ _ | .host _ | .window _ => x.load b (x.state.heldFor b g) m e.1 e.2

/-- A relaxed load of `n` aligned words of 8 bytes on the generic path by an instruction of the executing group, for a
record (R312, R332): the bytes, or the cause with an empty mask, or none while a peer's reply is awaited. -/
def State.readRecord (s : State) (b : Block) (g : Group) (va : Word) (n : Nat) : Except (Option Cond) (List Byte × State) :=
  let m : Mem := ⟨.load, .generic, 8, .none, 0, 0, 0, false, false, 2, true⟩
  let qs : List LaneReq := (List.range n).map (fun k => ⟨k, va + BitVec.ofNat 64 (8 * k), [], 0, 0⟩)
  match s.checkLanes b g m qs with
  | .error c => .error (some c)
  | .ok (ok, _) =>
    if s.anyHeld ok || s.awaits b g [(va, 8 * n)] then .error none
    else
      let x := ok.foldl (fun (x : Served) (e : LaneReq × Place) => x.recordWord b g m e) ⟨s.retainAll b ok, [], [], [], [], []⟩
      match refusalCond x.refused [] true (0, 0) with
      | some c => .error (some c)
      | none => .ok ((List.range n).flatMap (fun k => natBytes 8 (valueOf x.values k)), x.state)

/-! ## The descriptor (R248 to R251) -/

/-- R248: the fields of a descriptor's 64 bytes. -/
def parseOpDesc (bs : List Byte) : OpDesc :=
  let w := fun (off n : Nat) => wordAt bs off n
  let f := fun (lo n : Nat) => w 0x28 8 / 2 ^ lo % 2 ^ n
  { wimg := BitVec.ofNat 64 (w 0 8), wscl := BitVec.ofNat 64 (w 8 8), inlet := BitVec.ofNat 64 (w 0x10 8),
    outlet := BitVec.ofNat 64 (w 0x18 8), kop := w 0x20 2, nop := w 0x22 2, slots := w 0x24 2, tmo := w 0x26 2,
    wfmt := f 0 4, afmt := f 4 4, accf := f 8 4, ofmt := f 12 4, wpol := f 16 2, fpol := decide (f 18 1 = 1),
    rmode := f 19 3, racc := decide (f 22 1 = 1), key := BitVec.ofNat 16 (w 0x30 2), fstr := w 0x32 2, store := w 0x34 4,
    cnt := w 0x38 4, cnten := decide (w 0x3C 4 % 2 = 1) }

/-- R248: the reserved fields of a descriptor are 0. -/
def opReservedOk (bs : List Byte) : Bool :=
  decide (wordAt bs 0x28 8 / 2 ^ 23 = 0) && decide (wordAt bs 0x3C 4 / 2 = 0)

/-- R249: the ranges, formats and alignments of a descriptor. -/
def OpDesc.ok (d : OpDesc) : Bool :=
  let forward := decide (2 ≤ d.rmode)
  decide (1 ≤ d.kop ∧ d.kop ≤ 768) && decide (1 ≤ d.nop ∧ d.nop ≤ 512) && decide (1 ≤ d.slots ∧ d.slots ≤ 256) &&
  decide (d.wfmt ≤ 2) && decide (d.afmt ≤ 4) && decide (d.accf ≤ 3) && decide (d.ofmt ≤ 5) && decide (d.wpol ≤ 2) &&
  decide (d.rmode ≤ 3) && decide (d.wimg.toNat % 64 = 0) && decide ((d.afmt = 0) ↔ (d.accf = 0)) &&
  decide ((d.ofmt = 0 ∨ d.ofmt = 5) ↔ (d.accf = 0)) &&
  (decide (d.rmode ≠ 3) || decide (d.ofmt = 1) || (decide (d.ofmt = 2 ∨ d.ofmt = 3) && decide (d.nop % 2 = 0))) &&
  decide (d.inlet.toNat % 65536 = 0) &&
  (if forward then decide (d.outlet.toNat % 4 = 0) else decide (d.outlet.toNat % 65536 = 0)) &&
  decide (d.store % 64 = 0)

/-- R249: the slot storage and the counter lie in the installing block's own scratchpad. -/
def State.opStorageOk (s : State) (b : Block) (d : OpDesc) : Bool :=
  let own := fun (a n : Nat) => match s.inScratch b a n with
    | some t => t.id == b.id
    | none => false
  own d.store d.storeSize && (!d.cnten || (decide (d.cnt % 4 = 0) && own d.cnt 4))

/-- R250: every page of a window is an operator window with the permission for `k`. -/
def State.windowPages (s : State) (b : Block) (k : Access) (base : Word) (pages : Nat) : Bool :=
  (List.range pages).all (fun p =>
    match s.translate b.core (s.ctxOf b) (!s.superOf b) k (base + BitVec.ofNat 64 (65536 * p)) with
    | .ok (.window _) => true
    | _ => false)

/-- Do two ranges meet? -/
def rangesMeet (a n b m : Nat) : Bool := decide (a < b + m) && decide (b < a + n) && decide (0 < n) && decide (0 < m)

/-- R418: the pages of a descriptor's remotely accessible windows, by bits [43:16] of their addresses: the first, and how
many. -/
def OpDesc.remotePages (d : OpDesc) : List (Nat × Nat) :=
  if d.racc then d.windows.map (fun w => (w.1 % 2 ^ 44 / 65536, (w.2 + 65535) / 65536)) else []

/-- No window of a list meets one of `others` or another of the list. -/
def apart (mine others : List (Nat × Nat)) : Bool :=
  !(mine.any (fun w => others.any (fun v => rangesMeet w.1 w.2 v.1 v.2))) &&
  (match mine with
   | [w, v] => !rangesMeet w.1 w.2 v.1 v.2
   | _ => true)

/-- R250, R418: the windows of a descriptor are operator windows, and free of each other and of every installed one; so are
the pages through which peers reach them. DEDUCED (assumption 72). -/
def State.windowsOk (s : State) (b : Block) (d : OpDesc) : Bool :=
  let pages := fun (n : Nat) => (n + 65535) / 65536
  s.windowPages b .store d.inlet (pages (d.slots * d.inStride)) &&
  (!d.hasOutlet || s.windowPages b .load d.outlet (pages (d.slots * d.outStride))) &&
  apart d.windows (s.operators.flatMap (fun o => o.desc.windows)) &&
  apart d.remotePages (s.operators.flatMap (fun o => o.desc.remotePages))

/-- R200, R253: the weight-store bytes that a core's operators and its blocks' reserved ranges take. -/
def State.weightTaken (s : State) (core : Nat) : Nat :=
  ((s.core core).ops.filter (fun o => !o.parked)).foldl (fun n o => n + o.desc.weightRoom) 0 +
  (s.blocks.filter (fun b => b.core == core && !b.ended)).foldl (fun n b => n + s.weightRange b) 0

/-- R257: the index of a new operator of a core, for the group field of its tags: the lowest one that no operator there has.
The rules give no order of these indexes. DESIGN CHOICE (assumption 76). -/
def freeIndex (ops : List Operator) : Nat :=
  ((List.range 8).find? (fun k => !ops.any (fun o => o.index == k))).getD 0

/-- Change the 32-bit word of a counter in a block's scratchpad. -/
def State.addCounter (s : State) (blk off v : Nat) : State :=
  s.writeScratch blk off (natBytes 4 ((s.scratchNat blk off 4 + v) % 2 ^ 32))

/-- R369: a torn-down window that the windows of a new operator of its context do not meet: the rest have been unmapped
since. DEDUCED (assumption 64). -/
def outside (d : OpDesc) (ctx : BitVec 32) (w : BitVec 32 × Nat × Nat) : Bool :=
  decide (w.1 ≠ ctx) || d.windows.all (fun x => decide (x.1 + x.2 ≤ w.2.1 ∨ w.2.1 + w.2.2 ≤ x.1))

/-- R253, R254: install an operator: bind its windows, and count it. The handle, or 0 when there is no room. -/
def State.install (s : State) (b : Block) (d : OpDesc) : Nat × State :=
  let c := s.core b.core
  if 8 ≤ c.ops.length ∨ 98304 < s.weightTaken b.core + d.weightRoom then (0, s)
  else
    let h := s.freshName
    let o : Operator :=
      { handle := h, index := freeIndex c.ops, ctx := s.ctxOf b, blk := b.id, desc := d, weights := [], scales := [],
        loaded := false, failed := false, slots := List.replicate d.slots .empty, fired := [], pass := [], results := [],
        poison := false, left := none, awaiting := [], removing := false, parked := false, reinstall := false, counted := false
        sums := [] }
    let s1 := { s.putCore { c with ops := c.ops ++ [o] } with nextId := s.nextId + 1, tornWin := s.tornWin.filter (outside d o.ctx) }
    (h, if d.cnten then s1.addCounter b.id (d.cnt % 2 ^ 28) 1 else s1)

/-- OPINST (R312, R248 to R253). -/
def execOpinst (bf af : BitVec 6) (s : State) : Host.Outcome State Fault Refusal :=
  onGroup s { region := some 0x04 } (fun b g _ =>
    let va := g.scalar bf.toNat
    if va.toNat % 64 ≠ 0 then s.trap { cause := 0x0A }
    else match s.readRecord b g va 8 with
      | .error none => s.askFor b g [(va, 64)]
      | .error (some c) => s.trap c
      | .ok (bs, s1) =>
        let d := parseOpDesc bs
        if !opReservedOk bs || !d.ok || !s1.opStorageOk b d then s.trap { cause := 0x0A }
        else if !s1.windowsOk b d then s.trap { cause := 0x25, kind := 0 }
        else s.once b g (natBytes 8 va.toNat) (fun _ =>
          let r := s1.install b d
          r.2.doneOnce b ((g.setScalar af.toNat (BitVec.ofNat 64 r.1)).advance 2) [] [af.toNat]))

/-! ## Handles (R312) -/

/-- R312, R376: the operator that a handle names for a group of a block, on the leading core in a pair, until it is
removed. -/
def State.myOperator (s : State) (b : Block) (h : Word) : Option Operator :=
  if h = 0 then none
  else (s.core (s.pairCore b)).ops.find? (fun o => o.handle == h.toNat && o.ctx == s.ctxOf b)

/-- R256: an operator goes: its windows are unbound, and its room is free. The install counter of an operator whose
weights are not loaded yet stays as it is. DESIGN CHOICE (assumption 110). -/
def State.removeOperator (s : State) (h : Nat) : State :=
  let drop := fun (xs : List Operator) => xs.filter (fun o => o.handle != h)
  { s with
    cores := s.cores.map (fun c => { c with ops := drop c.ops })
    launches := s.launches.map (fun l => { l with savedOps := drop l.savedOps }) }

/-- OPREM (R256, R312): waits for the pass in progress. -/
def execOprem (bf : BitVec 6) (s : State) : Host.Outcome State Fault Refusal :=
  onGroup s { region := some 0x04 } (fun b g _ =>
    let h := g.scalar bf.toNat
    match s.myOperator b h with
    | none => s.trap { cause := 0x44, kind := 0 }
    | some o =>
      s.once b g (natBytes 8 h.toNat) (fun s =>
        if o.pass.isEmpty then (s.removeOperator o.handle).doneOnce b (g.advance 2) [] []
        else (s.putOperator { o with removing := true }).wait (.removal h)))

/-- OPFIRE (R260, R312). -/
def execOpfire (cf bf : BitVec 6) (s : State) : Host.Outcome State Fault Refusal :=
  onGroup s { region := some 0x04 } (fun b g _ =>
    let h := g.scalar bf.toNat
    let i := (g.scalar cf.toNat).toNat
    match s.myOperator b h with
    | none => s.trap { cause := 0x44, kind := 0 }
    | some o =>
      let x := (o.slot i).state
      if o.desc.slots ≤ i then s.trap { cause := 0x0A }
      else s.once b g (natBytes 8 h.toNat ++ natBytes 8 i) (fun s =>
        if x = .queued ∨ x = .computing ∨ (o.desc.rmode = 1 ∧ x = .ready) then s.trap { cause := 0x42, kind := 0 }
        else
          let s1 := s.putOperator (o.fire (s.slotStore o) i (s.writerTag b.core g.slot 0) s.nextId)
          { s1 with nextId := s1.nextId + 1 }.doneOnce b (g.advance 2) [] []))

/-- OPQRY (R264, R312): an acquire at system scope. -/
def execOpqry (cf bf af : BitVec 6) (s : State) : Host.Outcome State Fault Refusal :=
  onGroup s { region := some 0x04 } (fun b g _ =>
    let h := g.scalar bf.toNat
    let i := (g.scalar cf.toNat).toNat
    match s.myOperator b h with
    | none => s.trap { cause := 0x44, kind := 0 }
    | some o =>
      if o.desc.slots ≤ i then s.trap { cause := 0x0A }
      else
        let perform := fun (s : State) =>
          (s.forBoth b (fun s core => s.acquireAt core 5)).doneOnce b ((g.setScalar af.toNat (o.slot i).trailer).advance 2) [] [af.toNat]
        if b.pair.isSome then s.once b g (natBytes 8 h.toNat ++ natBytes 8 i) perform else perform s)

/-- OPPARK (R370): parks an operator after its pass, or installs a parked one again when the weight store has room. -/
def execOppark (bf : BitVec 6) (s : State) : Host.Outcome State Fault Refusal :=
  onGroup s { priv := true } (fun _ g _ =>
    let h := g.scalar bf.toNat
    match s.operator? h.toNat with
    | none => s.trap { cause := 0x44, kind := 0 }
    | some o =>
      let noSave := match s.anyBlock? o.blk with
        | some ob => match s.launch? ob.launch with
          | some l => decide (l.header.save = 0)
          | none => true
        | none => true
      if h = 0 ∨ o.removing then s.trap { cause := 0x44, kind := 0 }
      else if noSave then s.trap { cause := 0x0A }
      else if o.parked then (s.putOperator { o with reinstall := true }).done (g.advance 2)
      else if o.pass.isEmpty then
        (s.putOperator { o with parked := true, loaded := false, reinstall := false }).done (g.advance 2)
      else s.wait (.parking h))

/-! ## Loading weights (R254, R255) -/

/-- R254: the bytes of the weight image that an operator reads. -/
def OpDesc.imageSize (d : OpDesc) : Nat := d.planes * d.nop * (d.kPad / 4)

/-- R254: the bytes of the scale table that an operator reads. -/
def OpDesc.tableSize (d : OpDesc) : Nat := d.nop * (d.kPad / 24)

/-- R255: the first scale code that an installation refuses. -/
def OpDesc.badScale (d : OpDesc) (table : List Byte) : Option Nat :=
  (table.zipIdx.find? (fun e => decide (e.1 = 0xFF) || (decide (d.accf = 0) && !intScale e.1))).map Prod.snd

/-- R255: what a failed installation leaves: every fired slot completes with error 3. -/
def Operator.failAll (o : Operator) : Operator :=
  { o.fired.foldl (fun (x : Operator) i => x.failSlot i) { o with failed := true } with fired := [] }

/-- R254: the weights and scales of an operator, or why they cannot be had. -/
def State.weightsOf (s : State) (core : Nat) (user : Bool) (o : Operator) : Except (Cond) (List Byte × List Byte) :=
  let d := o.desc
  match s.engineRead core o.ctx user d.wimg d.imageSize with
  | .error f => .error { cause := f.1.cause, sec := f.1.sec, va := f.2 }
  | .ok w =>
    if d.wscl = 0 then .ok (w, [])
    else match s.engineRead core o.ctx user d.wscl d.tableSize with
      | .error f => .error { cause := f.1.cause, sec := f.1.sec, va := f.2 }
      | .ok t =>
        match d.badScale t with
        | some k => .error { cause := 0x0A, va := d.wscl + BitVec.ofNat 64 k }
        | none => .ok (w, t)

/-- A list of bytes as a table from 0. -/
def byteCells (bs : List Byte) : Cells 8 := writeBytes [] 0 bs

/-- The weight code of an operator's plane, column and element (R254). -/
def Operator.code (o : Operator) (p n k : Nat) : Nat :=
  let col := o.desc.kPad / 4
  (readCell o.weights ((p * o.desc.nop + n) * col + k / 4)).toNat / 4 ^ (k % 4) % 4

/-- R254, R282: the checksum columns of an operator's weights, by plane. -/
def Operator.checksums (o : Operator) : List (List Int) :=
  (List.range o.desc.planes).map (fun p =>
    checksumColumn ((List.range o.desc.nop).map (fun n => (List.range o.desc.kPad).map (o.code p n))) o.desc.kPad)

/-- R120: does an operator's weight store hold a reserved code? -/
def Operator.reserved (o : Operator) : Bool :=
  (List.range o.desc.planes).any (fun p => (List.range o.desc.nop).any (fun n => (List.range o.desc.kPad).any (fun k =>
    decide (o.code p n k = 2))))

/-- R120: a core has read the weight codes of an operator. -/
def State.noteCodes (s : State) (core : Nat) (o : Operator) : State :=
  if o.reserved then s.putCore { s.core core with rsv := true } else s

/-- R120, R254, R255: the load of an operator is over: the counter tells it, once, and the weights are resident with their
checksum columns, for which the sequencer has read the codes, or every fire fails. -/
def State.endLoad (s : State) (o : Operator) (b : Block) (core : Nat) (got : Except Cond (List Byte × List Byte)) : State :=
  let s1 := if o.desc.cnten && !o.counted then s.addCounter b.id (o.desc.cnt % 2 ^ 28) (2 ^ 32 - 1) else s
  let o1 := { o with parked := false, reinstall := false, counted := true, failed := false }
  match got with
  | .error c => (s1.putOperator o1.failAll).report b.launch core c
  | .ok (w, t) =>
    let o2 := { o1 with loaded := true, weights := byteCells w, scales := byteCells t }
    (s1.putOperator { o2 with sums := o2.checksums }).noteCodes core o2

/-- OPERATOR_WEIGHT_LOAD (R254, R255, R368, R370): the weights are resident, or the installation has failed; a parked
operator that is to be installed again waits for room, and for its block to be placed. -/
def execOperatorWeightLoad (handle : Nat) (s : State) : Host.Outcome State Fault Refusal :=
  match s.operator? handle with
  | none => .next s
  | some o =>
    let core := s.coreOfOperator handle
    let waits := o.parked && (!o.reinstall || (s.block? o.blk).isNone || decide (98304 < s.weightTaken core + o.desc.weightRoom))
    if o.loaded || (o.failed && !o.parked) || waits then .next s
    else match s.anyBlock? o.blk with
      | none => .next s
      | some b => .next (s.endLoad o b core (s.weightsOf core (!s.superOf b) o))

/-! ## Passes (R261, R262) -/

/-- The weight scale of a column's block (R254). -/
def Operator.scale (o : Operator) (n blk : Nat) : Nat :=
  if o.desc.wscl = 0 then 0x7F else (readCell o.scales (n * (o.desc.kPad / 24) + blk)).toNat

/-- R261: a captured activation; elements from K_op on are zero. -/
def Operator.element (o : Operator) (capture : List Byte) (k : Nat) : Nat :=
  let a := o.desc.actSize
  if k < o.desc.kop then bytesNat ((capture.drop (k * a)).take a) else 0

/-- R261, R281: the accumulator of column n after every K-step. -/
def Operator.column (o : Operator) (rows : List (List Act × Int)) (n : Nat) : Nat :=
  (List.range (o.desc.kPad / 96)).foldl (fun acc ks =>
    kCell o.desc.accf o.desc.planes (fun b => rows.getD (4 * ks + b) ([], 0))
      (fun p b => (List.range 24).map (fun k => o.code p n (96 * ks + 24 * b + k)))
      (fun b => o.scale n (4 * ks + b)) (fun _ => 0x7F) acc) 0

/-- R261: the bits of an output element. -/
def OpDesc.output (d : OpDesc) (acc : Nat) : Nat :=
  if d.ofmt = 0 then acc % 2 ^ 32
  else if d.ofmt = 5 then wrapNat 8 (satI 8 (signedOf 32 acc)).1
  else
    let f := match d.ofmt with
      | 1 => fp32
      | 2 => fp16
      | 3 => bf16
      | _ => e4m3
    (deliver f .rne (decodeF (accFmt d.accf) acc)).1

/-- R261: the result bytes of a slot. -/
def Operator.result (o : Operator) (i : Nat) : List Byte :=
  let cap := (o.slot i).capture
  let rows := (List.range (o.desc.kPad / 24)).map (fun b =>
    alignBlock o.desc.afmt ((List.range 24).map (fun k => o.element cap (24 * b + k))))
  (List.range o.desc.nop).flatMap (fun n => natBytes o.desc.outSize (o.desc.output (o.column rows n)))

/-- Change the state of some slots. -/
def Operator.setStates (o : Operator) (is : List Nat) (x : SlotState) : Operator :=
  is.foldl (fun (o : Operator) i => o.putSlot i { o.slot i with state := x }) o

/-- R282, R283: do both attempts at a K-step of a pass fail a check, when an error strikes each? The checks use the checksum
columns formed when the weights were loaded. -/
def Operator.passFails (o : Operator) (tick : Nat) (rows : List Nat) : Bool :=
  let ks := Config.freeNat tick 100 % max 1 (o.desc.kPad / 96)
  let caps := rows.map (fun i => (o.slot i).capture)
  let row := fun (m b : Nat) =>
    (alignBlock o.desc.afmt ((List.range 24).map (fun k => o.element (caps.getD m []) (96 * ks + 24 * b + k)))).1
  let codes := fun (n p b : Nat) => (List.range 24).map (fun k => o.code p n (96 * ks + 24 * b + k))
  let sums := fun (p b : Nat) => ((o.sums.getD p []).drop (96 * ks + 24 * b)).take 24
  (List.range 2).all (fun k =>
    !stepPasses o.desc.planes rows.length o.desc.nop row codes sums (strikeAt tick k o.desc.planes rows.length o.desc.nop))

/-- R370: does a group wait for an operator to be parked? -/
def State.parking (s : State) (handle : Nat) : Bool :=
  s.blocks.any (fun b => b.allGroups.any (fun g => match g.status with
    | .waiting (.parking h) => decide (h.toNat = handle)
    | _ => false))

/-- R254, R256, R261, R370: is an operator to make another pass, the one in progress aside? -/
def State.passDue (s : State) (o : Operator) : Bool :=
  o.loaded && !o.parked && !o.removing && !o.fired.isEmpty && !s.parking o.handle

/-- R261: may the next pass of an operator start, as far as it goes? -/
def State.passReady (s : State) (o : Operator) : Bool := s.passDue o && o.pass.isEmpty

/-- R261: when the first of an operator's fired slots fired. -/
def Operator.firstFired (o : Operator) : Nat := (o.slot (o.fired.headD 0)).stamp

/-- R261: passes on one core follow the order of their first fired slots. -/
def State.passTurn (s : State) (core : Nat) (o : Operator) : Bool :=
  s.passReady o && (s.core core).ops.all (fun x => !s.passDue x || decide (o.firstFired ≤ x.firstFired))

/-- SEQUENCER_PASS (R261, R262, R282): up to 96 fired slots go into one pass; `strikes` of its attempts are struck by an
error. DESIGN CHOICE (assumption 16). -/
def execSequencerPass (handle strikes : Nat) (s : State) : Host.Outcome State Fault Refusal :=
  match s.operator? handle with
  | none => .next s
  | some o =>
    let core := s.coreOfOperator handle
    if !s.passTurn core o then .next s
    else
      let rows := o.fired.take 96
      let bad := decide (2 ≤ strikes) && o.passFails s.tick rows
      let o1 := { o.setStates rows .computing with
        fired := o.fired.drop 96
        pass := rows
        poison := bad
        results := if bad then [] else rows.map (fun i => (i, o.result i)) }
      let s1 := s.putOperator o1
      let s2 := s1.noteCodes core o
      match s2.anyBlock? o.blk with
      | some b => .next (if bad then s2.report b.launch core { cause := 0xA1, kind := 3 } else s2)
      | none => .next s2

/-! ## Completion (R255, R261 to R263) -/

/-- The head of an operator's pass leaves it. -/
def Operator.popPass (o : Operator) (i : Nat) : Operator :=
  { o with
    pass := o.pass.drop 1
    results := o.results.filter (fun e => decide (e.1 ≠ i))
    left := none
    awaiting := [] }

/-- R263, R264: a slot completes in state `x` with an error. -/
def Operator.complete (o : Operator) (i : Nat) (x : SlotState) (err : BitVec 4) : Operator :=
  let y := o.slot i
  (o.putSlot i { y with
    state := x, gen := nextGen y.gen, err := err, tag := y.firing, mask := 0, claim := none
    poisoned := decide (err = 1) }).popPass i

/-- The result bytes of a slot of the pass. -/
def Operator.resultOf (o : Operator) (i : Nat) : List Byte :=
  match o.results.find? (fun e => e.1 == i) with
  | some e => e.2
  | none => []

/-! ## Forwarding (R267, R268) -/

/-- R267: the bytes of word `k` of a delivery, and their address. -/
def Operator.piece (o : Operator) (i k : Nat) : Word × List Byte :=
  (o.desc.outlet + BitVec.ofNat 64 (i * o.desc.fstr * 64 + 4 * k), ((o.resultOf i).drop (4 * k)).take 4)

/-- How far a delivery has come: the state, the words delivered, a refusal with 0x42, another failure, and the words for
peers. -/
structure Delivery where
  state : State
  gone  : List Nat
  busy  : Bool
  fail  : Option (Byte × Word)
  peers : List (Nat × BitVec 13 × Nat × List Byte)
deriving DecidableEq, Repr

/-- R263, R267: the request of an operator's sequencer to an inlet slot. DEDUCED (assumption 17). -/
def State.sequencerRequest (s : State) (o t : Operator) (slot : Nat) (bytes : List (Nat × Byte)) : Except Byte State :=
  s.storeRequest { handle := t.handle, slot := slot, bytes := bytes,
                   tag := s.writerTag (s.coreOfOperator o.handle) o.index 3, remote := false, key := 0, ctx := o.ctx,
                   isGroup := false }

/-- R267: one word of a delivery where its page is served; on a software-coherent page a store is performed at the home
agent. DESIGN CHOICE (assumption 111). -/
def Delivery.word (x : Delivery) (o : Operator) (core k : Nat) (va : Word) (bs : List Byte) (p : Place) : Delivery :=
  let s := x.state
  let fails := fun (c : Byte) => { x with fail := some (x.fail.getD (c, va)) }
  let add := decide (o.desc.rmode = 3)
  match p with
  | .local pa swc _ _ =>
    if !add then { x with state := (s.placeWrite core o.ctx p bs 0xFFE#12).2, gone := k :: x.gone }
    else if o.desc.ofmt ≠ 1 then fails 0x25
    else if s.spoiled pa 4 then fails 0xA0
    else { x with state := ((s.beforeAtomic core swc pa 4).engineAtomic 2 pa (bytesNat bs) 0).2, gone := k :: x.gone }
  | .host pa =>
    if add && decide (o.desc.ofmt ≠ 1) then fails 0x25
    else { x with state := s.toHost ⟨pa, if add then some 2 else none, bs, []⟩, gone := k :: x.gone }
  | .peer dev pa _ =>
    if add && decide (o.desc.ofmt ≠ 1) then fails 0x25
    else if s.fabric.reaches dev then { x with peers := x.peers ++ [(k, dev, pa, bs)] }
    else fails 0x27
  | .window a =>
    match s.windowAt a (some o.ctx) with
    | .refused c => fails c
    | .outlet _ _ _ => fails (if add then 0x25 else 0x44)
    | .inlet t slot off =>
      let fits := decide (t.desc.afmt = 3 ∨ t.desc.afmt = 4) &&
        (decide (o.desc.ofmt = 1) || decide (t.desc.afmt = if o.desc.ofmt = 3 then 3 else 4))
      if add && !fits then fails 0x25
      else
        let bytes := if add then (s.pairAdd t slot off (bytesNat bs)).2 else bs.zipIdx.map (fun e => (off + e.2, e.1))
        match s.sequencerRequest o t slot bytes with
        | .ok s1 => { x with state := s1, gone := k :: x.gone }
        | .error c => if c = 0x42 then { x with busy := true } else fails c

/-- R410, R411: the requests of a delivery to peers, by device and line, with the words each carries. -/
def State.sendPieces (s : State) (o : Operator) (core : Nat) (ps : List (Nat × BitVec 13 × Nat × List Byte)) :
    List (Nat × List Nat) × State :=
  let keys := (ps.map (fun e => (e.2.1, e.2.2.1 / 64))).eraseDups
  keys.foldl (fun (acc : List (Nat × List Nat) × State) k =>
    let mine := ps.filter (fun e => e.2.1 == k.1 && e.2.2.1 / 64 == k.2)
    let base : Packet := { blankPacket with
      dst := k.1, stream := 0xFFE, pa := BitVec.ofNat 48 (k.2 * 64), size := 2, order := 2, scope := 5
      tag := s.writerTag core o.index 3 }
    let q : Packet :=
      if o.desc.rmode = 3 then
        { base with op := 0x03, aop := 2, entries := mine.map (fun e => (e.1 % 128, e.2.2.1 % 64, BitVec.ofNat 64 (bytesNat e.2.2.2), 0)) }
      else
        { base with
          op := if peerWindow (k.2 * 64) then 0x04 else 0x02
          bytes := mine.flatMap (fun e => e.2.2.2.zipIdx.map (fun d => (e.2.2.1 % 64 + d.2, d.1))) }
    let r := acc.2.request q o.ctx core
    (acc.1 ++ [(r.1, mine.map Prod.fst)], r.2)) ([], s)

/-- The cause that a reply carries, if it refuses (R408). -/
def replyCause (p : Packet) : Option Byte := if p.op = 0x83 then some p.cause else none

/-- The outstanding request of a number. -/
def State.outstanding? (s : State) (id : Nat) : Option Outstanding := s.fabric.requests.find? (fun r => r.id == id)

/-- The reply to a request, once it is there; a request that is gone counts as refused with 0x27. -/
def State.replyTo (s : State) (id : Nat) : Option Packet :=
  match s.outstanding? id with
  | some r => r.reply
  | none => some { blankPacket with op := 0x83, cause := 0x27 }

/-- R268: a failed delivery: the result is dropped, the slot completes with error 2, and the cause goes to the fault
server. -/
def State.failDelivery (s : State) (o : Operator) (i : Nat) (c : Byte × Word) : State :=
  let s1 := s.putOperator (o.complete i .empty 2)
  match s1.anyBlock? o.blk with
  | some b => s1.report b.launch (s1.coreOfOperator o.handle) { cause := c.1, va := c.2, kind := 3 }
  | none => s1

/-- R267, R268: go on with the delivery of slot `i`: replies are awaited, words that a peer has refused with 0x42 are left
for a retry, and the slot completes once every word is delivered. Each 4-byte word for an inlet of this device is a request.
DESIGN CHOICE (assumption 109). -/
def State.deliver (s : State) (o : Operator) (i : Nat) : State :=
  let core := s.coreOfOperator o.handle
  if o.awaiting.any (fun a => (s.replyTo a.1).isNone) then s
  else
    let heard := o.awaiting.map (fun a => (((s.replyTo a.1).bind replyCause), a.2))
    let acked := (heard.filter (fun h => h.1.isNone)).flatMap Prod.snd
    let s0 := s.consume (o.awaiting.map Prod.fst)
    let all := (List.range ((o.desc.nop * o.desc.outSize + 3) / 4))
    let left := (o.left.getD all).filter (fun k => !acked.contains k)
    match heard.findSome? (fun h => match h.1 with
        | some c => if c = 0x42 then none else some c
        | none => none) with
    | some c => s0.failDelivery o i (c, (o.piece i (left.headD 0)).1)
    | none =>
      if heard.any (fun h => h.1.isSome) then s0.putOperator { o with left := some left, awaiting := [] }
      else match s0.anyBlock? o.blk with
      | none => s0
      | some b =>
        let kind : Access := if o.desc.rmode = 3 then .atomic else .store
        let checked := left.map (fun k =>
          let p := o.piece i k
          (k, p.1, p.2, s0.translate core o.ctx (!s0.superOf b) kind p.1))
        match checked.findSome? (fun e => match e.2.2.2 with
            | .error f => some (f.cause, e.2.1)
            | .ok _ => none) with
        | some c => s0.failDelivery o i c
        | none =>
          let x := checked.foldl (fun (x : Delivery) e =>
            match e.2.2.2, x.fail with
            | .ok p, none => x.word o core e.1 e.2.1 e.2.2.1 p
            | _, _ => x) ⟨s0, [], false, none, []⟩
          match x.state.operator? o.handle with
          | none => x.state
          | some o1 =>
            match x.fail with
            | some c => x.state.failDelivery o1 i c
            | none =>
              let (reqs, s2) := x.state.sendPieces o core x.peers
              let rest := left.filter (fun k => !x.gone.contains k)
              if rest.isEmpty then s2.putOperator (o1.complete i .empty 0)
              else s2.putOperator { o1 with left := some rest, awaiting := reqs }

/-- R255, R261, R262: the slot at the head of a pass completes: under KEEP and TAKE its result is written, a poisoned one is
told, and under the FORWARD modes it is delivered. -/
def State.completeSlot (s : State) (o : Operator) (i : Nat) : State :=
  if o.desc.hasOutlet then
    let bs := o.resultOf i
    let s1 := if o.poison then s
      else s.changeSlotStore o (fun c => writeBytes c (o.desc.outByte i 0) bs)
    s1.putOperator (o.complete i .ready (if o.poison then 1 else 0))
  else if o.poison then s.putOperator (o.complete i .empty 1)
  else s.deliver o i

/-- A step of the slot at the head of an operator's pass; no other slot of a pass can complete (R261). -/
def atHead (handle slot : Nat) (p : Operator → Bool) (f : Operator → State) (s : State) :
    Host.Outcome State Fault Refusal :=
  match s.operator? handle with
  | some o => .next (if o.pass.head? = some slot ∧ p o then f o else s)
  | none => .next s

/-- Has a delivery been refused with 0x42, so that words are left and no reply is awaited? -/
def Operator.retrying (o : Operator) : Bool := o.left.isSome && o.awaiting.isEmpty

/-- SLOT_COMPLETION (R261, R263). -/
def execSlotCompletion (handle slot : Nat) (s : State) : Host.Outcome State Fault Refusal :=
  atHead handle slot (fun o => !o.retrying) (fun o => s.completeSlot o slot) s

/-- FORWARD_DELIVERY (R267). -/
def execForwardDelivery (handle slot : Nat) (s : State) : Host.Outcome State Fault Refusal :=
  atHead handle slot (fun o => !o.desc.hasOutlet && !o.poison && !o.retrying) (fun o => s.deliver o slot) s

/-- FORWARD_RETRY (R268). -/
def execForwardRetry (handle slot : Nat) (s : State) : Host.Outcome State Fault Refusal :=
  atHead handle slot Operator.retrying (fun o => s.deliver o slot) s

/-- FORWARD_TIMEOUT (R268): the retries outlast TMO. -/
def execForwardTimeout (handle slot : Nat) (s : State) : Host.Outcome State Fault Refusal :=
  atHead handle slot (fun o => o.retrying && decide (o.desc.tmo ≠ 0))
    (fun o => s.failDelivery o slot (0x42, (o.piece slot ((o.left.getD []).headD 0)).1)) s

/-! ## Requests, waits and removal -/

/-- R257 to R259: a request of the host: its tag has class 2, this device, and the die of the I/O path that receives it,
which the tag given names; its key is 0. -/
def State.hostRequest (s : State) (req : SlotRequest) : SlotRequest :=
  { req with
    tag := BitVec.ofNat 32 (s.fabric.devid.toNat * 2 ^ 19 + req.tag.toNat / 2 ^ 16 % 8 * 2 ^ 16 + 2)
    remote := true, key := 0, isGroup := false }

/-- INLET_STORE_REQUEST (R257 to R260, R263): a request of the host is judged and, if no rule refuses it, applied; those
of groups and packets come with their instructions and packets. -/
def execInletStoreRequest (req : SlotRequest) (s : State) : Host.Outcome State Fault Refusal :=
  match s.storeRequest (s.hostRequest req) with
  | .ok t => .next t
  | .error _ => .next s

/-- Does the sequencer still hold the request of a lane at a window address (R266)? -/
def State.outletHeld (s : State) (va : Word) : Bool :=
  match s.windowAt (va.toNat % 2 ^ 52) with
  | .outlet o i off => o.mustWait i (o.desc.touchesData off)
  | _ => false

/-- TMO of the operator at a window address; 0 when there is none. -/
def State.outletTmo (s : State) (va : Word) : Nat :=
  match s.windowAt (va.toNat % 2 ^ 52) with
  | .outlet o _ _ => o.desc.tmo
  | _ => 0

/-- R266: of the lanes that a sequencer holds, those whose TMO has passed: the ones with the shortest. -/
def State.lateLanes (s : State) (held : List (Nat × Word)) : List (Nat × Word) :=
  let timed := (held.map (fun w => s.outletTmo w.2)).filter (fun n => decide (n ≠ 0))
  held.filter (fun w => timed.contains (s.outletTmo w.2) && timed.all (fun n => decide (s.outletTmo w.2 ≤ n)))

/-- The access that a group waits to complete, as its remaining lanes make it. -/
def Pending.mem (p : Pending) : Mem :=
  let size := match p.dest with
    | .none => 1
    | .lanes _ n _ => n
    | .scalar _ n _ => n
  ⟨.load, .generic, size, p.dest, p.order, p.scope, 0, true, p.take, p.length, p.scalar⟩

/-- R266: a held lane whose TMO has passed: data is refused with 0x43, and a trailer is returned as it stands. -/
def Served.lateLane (x : Served) (b : Block) (hs : List HoldEntry) (m : Mem) (q : LaneReq) : Served :=
  match x.state.windowAt (q.va.toNat % 2 ^ 52) with
  | .outlet o _ off => if o.desc.touchesData off then x.refuse q 0x43 else x.load b hs m q (.window (q.va.toNat % 2 ^ 52))
  | _ => x.load b hs m q (.window (q.va.toNat % 2 ^ 52))

/-- R212, R266: the held lanes of a group's load whose results are there are served, and when `late` says so those whose TMO
has passed; the instruction completes with its last lane. DEDUCED (assumption 96). -/
def State.serveOutlet (s : State) (r : GRef) (late : Bool) : State :=
  match s.groupAt r with
  | none => s
  | some (b, g) =>
    match g.pending with
    | none => s
    | some p =>
      let held := p.waits.filter (fun w => s.outletHeld w.2)
      let dead := if late then s.lateLanes held else []
      let ready := p.waits.filter (fun w => !held.contains w)
      let still := held.filter (fun w => !dead.contains w)
      let lane := fun (w : Nat × Word) => (⟨w.1, w.2, [], 0, 0⟩ : LaneReq)
      let hs := s.heldFor b g
      let x := ready.foldl (fun (x : Served) w => x.load b hs p.mem (lane w) (.window (w.2.toNat % 2 ^ 52))) ⟨s, [], [], [], [], []⟩
      let y := dead.foldl (fun (x : Served) w => x.lateLane b hs p.mem (lane w)) x
      let p1 := { p with
        waits := still, values := p.values ++ y.values, refused := p.refused ++ y.refused, got := p.got ||| maskOfList y.done }
      if still.length = p.waits.length then s
      else if still.isEmpty && p.requests.isEmpty then
        { y.emptied with cur := r }.endAccess b { g with status := .running } p.mem p1.values p1.refused (lanesOf p1.got) (0, 0)
      else
        y.emptied.changeAt r (fun g => { g with
          pending := some p1, status := .waiting (if still.isEmpty then .replies else .outlet) })

/-- OUTLET_WAIT_SERVE (R266): the lanes whose results are present are served, and the others wait on. -/
def execOutletWaitServe (g : GRef) (s : State) : Host.Outcome State Fault Refusal := .next (s.serveOutlet g false)

/-- OUTLET_WAIT_TIMEOUT (R266): TMO has passed for results that the load waits for. -/
def execOutletWaitTimeout (g : GRef) (s : State) : Host.Outcome State Fault Refusal := .next (s.serveOutlet g true)

/-- R369: the windows of an operator whose launch was torn down answer 0x45 from then on. DEDUCED (assumption 64). -/
def State.leaveWindows (s : State) (o : Operator) : State :=
  let torn := match (s.anyBlock? o.blk).bind (fun b => s.launch? b.launch) with
    | some l => l.torn || decide (l.status = some 7 ∨ l.status = some 8)
    | none => false
  if torn then { s with tornWin := o.desc.windows.map (fun w => (o.ctx, w.1, w.2)) ++ s.tornWin } else s

/-- OPERATOR_REMOVAL (R256, R369): an operator that is to be removed goes once its pass is over. -/
def execOperatorRemoval (handle : Nat) (s : State) : Host.Outcome State Fault Refusal :=
  match s.operator? handle with
  | some o => .next (if o.removing ∧ o.pass = [] then (s.leaveWindows o).removeOperator handle else s)
  | none => .next s

end Sys2Proof.Machine
end

