-- ==== Sys2Proof/Machine/Sync.lean ====
section
/-! DEFINITION. Counters (R328), barriers and barrier objects (R329, R330), and the tile walker (R298, R332). -/

namespace Sys2Proof.Machine

/-! ## Counters (R328) -/

/-- R303, R328, R241: a release at cluster scope by the executing group. -/
def State.releaseCluster (s : State) (b : Block) : State := s.releaseAt b.core 2

/-- R328, R330: an instruction on a scratchpad word of `n` bytes that the scalar `sb` names, in the executing group. -/
def onWord (sb : BitVec 6) (n : Nat) (writes : Bool) (s : State) (f : Block → Group → Nat → Nat → State) :
    Host.Outcome State Fault Refusal :=
  onGroup s { region := some 0x04 } (fun b g _ =>
    match s.scratchWord b writes (g.scalar sb.toNat).toNat n with
    | .error x => s.trapWord x
    | .ok (blk, off) => f b g blk off)

/-- CNTINIT (R328). -/
def execCntinit (c b : BitVec 6) (s : State) : Host.Outcome State Fault Refusal :=
  onWord b 4 true s (fun _ g blk off =>
    (s.writeScratch blk off (natBytes 4 (g.scalar c.toNat).toNat)).done (g.advance 2))

/-- CNTADD (R328): a release at cluster scope. -/
def execCntadd (c b : BitVec 6) (s : State) : Host.Outcome State Fault Refusal :=
  onWord b 4 true s (fun blk0 g blk off =>
    ((s.releaseCluster blk0).addCounter blk off (g.scalar c.toNat).toNat).done ((g.sealIf true).advance 2))

/-- R328: is a counter below a limit, both read as I32? -/
def State.counterBelow (s : State) (blk off : Nat) (limit : BitVec 32) : Bool :=
  decide ((BitVec.ofNat 32 (s.scratchNat blk off 4)).toInt < limit.toInt)

/-- CNTWAIT (R328): an acquire at cluster scope. -/
def execCntwait (c b : BitVec 6) (s : State) : Host.Outcome State Fault Refusal :=
  onWord b 4 false s (fun blk0 g blk off =>
    let limit : BitVec 32 := (g.scalar c.toNat).setWidth 32
    if s.counterBelow blk off limit then (s.acquireAt blk0.core 2).done ((g.sealIf true).advance 2)
    else s.wait (.counter (g.scalar b.toNat).toNat limit))

/-! ## Barrier objects (R330) -/

/-- A barrier object (R330). -/
structure Barrier where
  reserved : Nat
  bytes    : Int
  expect   : Nat
  arrive   : Nat
  phase    : Nat
deriving DecidableEq, Repr

/-- R330: the fields of an object's word. -/
def parseBarrier (w : Nat) : Barrier :=
  ⟨w / 2 ^ 51, signedOf 28 (w / 2 ^ 23 % 2 ^ 28), w / 2 ^ 12 % 2 ^ 11, w / 2 % 2 ^ 11, w % 2⟩

/-- R330: the word of an object. -/
def Barrier.word (o : Barrier) : Nat :=
  o.reserved * 2 ^ 51 + wrapNat 28 o.bytes * 2 ^ 23 + o.expect * 2 ^ 12 + o.arrive * 2 + o.phase

/-- R330: an update that leaves ARRIVE and BYTES at 0 flips the phase and reloads ARRIVE. -/
def Barrier.settle (o : Barrier) : Barrier :=
  if o.arrive = 0 ∧ o.bytes = 0 then { o with phase := 1 - o.phase, arrive := o.expect } else o

/-- R330: do pending bytes stay in their range? -/
def bytesFit (v : Int) : Bool := decide (-(2 ^ 27) ≤ v) && decide (v < 2 ^ 27)

/-- The object at a place. -/
def State.barrierAt (s : State) (blk off : Nat) : Barrier := parseBarrier (s.scratchNat blk off 8)

/-- The object at a place replaced. -/
def State.putBarrier (s : State) (blk off : Nat) (o : Barrier) : State := s.writeScratch blk off (natBytes 8 o.word)

/-- The precise cause of a broken object. -/
def brokenObject : Cond := { cause := 0x80, kind := 0 }

/-- MBINIT (R330). -/
def execMbinit (c b : BitVec 6) (s : State) : Host.Outcome State Fault Refusal :=
  onWord b 8 true s (fun _ g blk off =>
    let v := (g.scalar c.toNat).toNat
    if v = 0 ∨ 2047 < v then s.trap { cause := 0x0A }
    else (s.putBarrier blk off ⟨0, 0, v, v, 0⟩).done (g.advance 2))

/-- MBARR (R330): one arrival; a release at cluster scope. -/
def execMbarr (b : BitVec 6) (s : State) : Host.Outcome State Fault Refusal :=
  onWord b 8 true s (fun blk0 g blk off =>
    let o := s.barrierAt blk off
    if o.arrive = 0 ∨ o.expect = 0 ∨ o.reserved ≠ 0 then s.trap brokenObject
    else
      ((s.releaseCluster blk0).putBarrier blk off { o with arrive := o.arrive - 1 }.settle).done
        ((g.sealIf true).advance 2))

/-- MBEXP (R330): the address is checked first, then the count (0x0A), then the object (0x80). DESIGN CHOICE (assumption
37). -/
def execMbexp (c b : BitVec 6) (s : State) : Host.Outcome State Fault Refusal :=
  onWord b 8 true s (fun _ g blk off =>
    let o := s.barrierAt blk off
    let v := (g.scalar c.toNat).toNat
    if 2 ^ 27 - 1 < v then s.trap { cause := 0x0A }
    else if o.reserved ≠ 0 ∨ !bytesFit (o.bytes + v) then s.trap brokenObject
    else (s.putBarrier blk off { o with bytes := o.bytes + v }.settle).done (g.advance 2))

/-- MBWAIT (R330): waits for the phase; then an acquire at cluster scope. -/
def execMbwait (c b : BitVec 6) (s : State) : Host.Outcome State Fault Refusal :=
  onWord b 8 false s (fun blk0 g blk off =>
    let o := s.barrierAt blk off
    if o.expect = 0 ∨ o.reserved ≠ 0 then s.trap brokenObject
    else if o.phase ≠ (g.scalar c.toNat).toNat % 2 then (s.acquireAt blk0.core 2).done ((g.sealIf true).advance 2)
    else s.wait (.phase (g.scalar b.toNat).toNat ((g.scalar c.toNat).getLsbD 0)))

/-- MBTRY (R330). -/
def execMbtry (c b a : BitVec 6) (s : State) : Host.Outcome State Fault Refusal :=
  onWord b 8 false s (fun blk0 g blk off =>
    let o := s.barrierAt blk off
    if o.expect = 0 ∨ o.reserved ≠ 0 then s.trap brokenObject
    else if o.phase ≠ (g.scalar c.toNat).toNat % 2 then
      (s.acquireAt blk0.core 2).done (((g.sealIf true).setScalar a.toNat 1).advance 2)
    else s.done ((g.setScalar a.toNat 0).advance 2))

/-! ## Block and cluster barriers (R329, R241) -/

/-- R103: is a compaction meeting of the block open? -/
def Block.meetingOpen (b : Block) : Bool :=
  b.groups.any (fun g => match g.status with
    | .waiting (.compaction _ _ _ _) => true
    | _ => false)

/-- BAR.BLK (R329): the group arrives, once, and waits. -/
def execBarBlk (s : State) : Host.Outcome State Fault Refusal :=
  onGroup s { region := some 0x04 } (fun b g _ =>
    if b.meetingOpen then s.trap { cause := 0x0B }
    else ((s.releaseAt b.core 1).putGroup { g.sealIf true with arrivedB := true }).wait .barrierBlock)

/-- BAR.CLU (R329, R355): the same over the blocks of the cluster; the arrival is a release at cluster scope. -/
def execBarClu (s : State) : Host.Outcome State Fault Refusal :=
  onGroup s { region := some 0x04 } (fun b g _ =>
    if s.peerFault b then s.trapPeer { cause := 0x85 }
    else ((s.releaseCluster b).putGroup { g.sealIf true with arrivedC := true }).wait .barrierCluster)

/-- R329: has every group of a block arrived, or ended by EXIT? -/
def Block.allArrived (b : Block) (cluster : Bool) : Bool :=
  !b.fatal && b.groups.all (fun g => decide (g.status = .ended) || (if cluster then g.arrivedC else g.arrivedB))

/-- R329: has a group of the block arrived? -/
def Block.someArrived (b : Block) (cluster : Bool) : Bool :=
  b.groups.any (fun g => if cluster then g.arrivedC else g.arrivedB)

/-- R329: a group departs: its barrier has completed. A group that is not waiting, since a halt or a save ended its wait, is
past the barrier too. DEDUCED (assumption 22). -/
def Group.depart (g : Group) (cluster : Bool) : Group :=
  let here := if cluster then g.arrivedC else g.arrivedB
  if !here then g
  else
    let g1 := if cluster then { g with arrivedC := false } else { g with arrivedB := false }
    let w : Wait := if cluster then .barrierCluster else .barrierBlock
    { (g1.advance 2).age [] with status := if g.status = .waiting w then .running else g.status }

/-- R305, R329: the groups of a block depart, and the block has left one more barrier. -/
def Block.depart (b : Block) (cluster : Bool) : Block :=
  { b with
    groups := b.groups.map (fun g => g.depart cluster)
    epoch := if cluster then (b.epoch.1, b.epoch.2 + 1) else (b.epoch.1 + 1, b.epoch.2) }

/-- R241: the departure from a barrier is an acquire of every group of a block. -/
def State.acquireAll (s : State) (b : Block) (scope : Nat) : State :=
  { (List.range b.groups.length).foldl (fun (s : State) k =>
      { s with cur := ⟨b.id, k, false⟩ }.acquireAt b.core scope) s with cur := s.cur }

/-- R371: the blocks that one barrier counts as a block: a block, and in a pair its other half too. -/
def State.halves (s : State) (b : Block) : List Block := b :: (s.otherHalf b).toList

/-- BARRIER_DEPARTURE (R241, R329, R371): every group has arrived, and every one departs; the two blocks of a pair count as
one. -/
def execBarrierDeparture (blk : Nat) (cluster : Bool) (s : State) : Host.Outcome State Fault Refusal :=
  match s.block? blk with
  | none => .next s
  | some b =>
    if cluster then
      let own := s.clusterOf b
      let all := own.flatMap s.halves
      if own.length = s.clusterSize b ∧ all.all (fun x => x.allArrived true) ∧ all.any (fun x => x.someArrived true) then
        let s1 := all.foldl (fun (s : State) (x : Block) => s.putBlock (x.depart true)) s
        .next (all.foldl (fun (s : State) (x : Block) => s.acquireAll x 2) s1)
      else .next s
    else
      let all := s.halves b
      if all.all (fun x => x.allArrived false) ∧ all.any (fun x => x.someArrived false) then
        let s1 := all.foldl (fun (s : State) (x : Block) => s.putBlock (x.depart false)) s
        .next (all.foldl (fun (s : State) (x : Block) => s.acquireAll x 1) s1)
      else .next s

/-! ## The tile walker (R298, R332) -/

/-- R332: the counts of a nest descriptor. -/
def nestCounts (bs : List Byte) : List Nat := [wordAt bs 0 2, wordAt bs 2 2, wordAt bs 4 2, wordAt bs 6 2]

/-- R332: E0 is at least 1, and every count after a 0 is 0. -/
def nestOk (es : List Nat) : Bool :=
  match es with
  | [e0, e1, e2, e3] => decide (e0 ≠ 0) && (decide (e1 ≠ 0) || decide (e2 = 0)) && (decide (e2 ≠ 0) || decide (e3 = 0))
  | _ => false

/-- The number of tiles of a nest. -/
def nestTiles (es : List Nat) : Nat := es.foldl (fun n e => n * max 1 e) 1

/-- R332: the packed coordinates of tile `i` of a nest. -/
def tileWord (es : List Nat) (i : Nat) : Word :=
  let e := fun (k : Nat) => max 1 (es.getD k 0)
  BitVec.ofNat 64 (i % e 0 + 2 ^ 16 * (i / e 0 % e 1) + 2 ^ 32 * (i / (e 0 * e 1) % e 2) +
    2 ^ 48 * (i / (e 0 * e 1 * e 2) % e 3))

/-- R298: the tile that a walk gives as number `k`. DESIGN CHOICE (assumption 100). -/
def Walk.tile (w : Walk) (k : Nat) : Word :=
  let n := nestTiles w.counts
  if h : k < n then tileWord w.counts (Config.walkPerm w.order n ⟨k, h⟩) else BitVec.allOnes 64

/-- WALK (R298, R332, R449): the order is chosen when the walk starts. DEDUCED (assumption 23). -/
def execWalk (b a : BitVec 6) (s : State) : Host.Outcome State Fault Refusal :=
  onGroup s { region := some 0x04 } (fun blk g _ =>
    let va := g.scalar b.toNat
    if va.toNat % 16 ≠ 0 then s.trap { cause := 0x0A }
    else if g.walk.isSome then s.trap brokenObject
    else match s.readRecord blk g va 2 with
      | .error none => s.askFor blk g [(va, 16)]
      | .error (some c) => s.trap c
      | .ok (bs, s1) =>
        let es := nestCounts bs
        if !nestOk es then s.trap { cause := 0x0A }
        else
          let seed := BitVec.ofNat 64 (Config.freeNat s.tick 13)
          let (vs, s2) := s1.enter (s.ctxOf blk) 5 (blk.lin * 32 + g.gid) [seed]
          let w : Walk := ⟨es, (vs.headD 0).toNat, 1⟩
          s2.done (({ g with walk := some w }.setScalar a.toNat (w.tile 0)).advance 2))

/-- WNEXT (R332). -/
def execWnext (a : BitVec 6) (s : State) : Host.Outcome State Fault Refusal :=
  onGroup s { region := some 0x04 } (fun _ g _ =>
    match g.walk with
    | none => s.trap brokenObject
    | some w =>
      let next := if w.given < nestTiles w.counts then w.given + 1 else w.given
      s.done (({ g with walk := some { w with given := next } }.setScalar a.toNat (w.tile w.given)).advance 2))

/-- WEND (R332). -/
def execWend (s : State) : Host.Outcome State Fault Refusal :=
  onGroup s { region := some 0x04 } (fun _ g _ => s.done ({ g with walk := none }.advance 2))

end Sys2Proof.Machine
end

