-- ==== Sys2Proof/Machine/Copies.lean ====
section
/-! DEFINITION. The copy engine (R321 to R327): copy shape records, the checks of TCOPY, a copy's completion, and copy
batches. -/

namespace Sys2Proof.Machine

/-! ## Copy shape records (R322) -/

/-- The fields of a copy shape record. -/
structure Shaped where
  gbase   : Word
  sp      : Nat
  esz     : Nat
  dims    : Nat
  wst     : Bool
  mben    : Bool
  box     : List Nat
  ext     : List Nat
  strides : List Nat
  mbar    : Nat
  clean   : Bool
deriving DecidableEq, Repr

/-- R322: the record of 64 bytes. -/
def parseShaped (bs : List Byte) : Shaped :=
  let w := fun (off n : Nat) => wordAt bs off n
  let c := w 0xC 4
  { gbase := BitVec.ofNat 64 (w 0 8), sp := w 8 4, esz := c % 4, dims := c / 4 % 4, wst := decide (c / 16 % 2 = 1),
    mben := decide (c / 32 % 2 = 1), box := [w 0x10 2, w 0x12 2, w 0x14 2, w 0x16 2],
    ext := [w 0x18 4, w 0x1C 4, w 0x20 4, w 0x24 4], strides := [w 0x28 4, w 0x2C 4, w 0x30 4], mbar := w 0x38 4,
    clean := decide (c / 64 = 0) && decide (w 0x34 4 = 0) && decide (w 0x3C 4 = 0) }

/-- The box size in bytes. -/
def Shaped.size (r : Shaped) : Nat := r.box.foldl (· * ·) 1 * 2 ^ r.esz

/-- R322, R324: the ranges and reserved bits of a record, for a direction. -/
def Shaped.ok (r : Shaped) (store : Bool) : Bool :=
  let e := 2 ^ r.esz
  r.clean && decide (r.gbase.toNat % e = 0) && decide (r.sp % e = 0) && !(r.wst && store) &&
  r.box.zipIdx.all (fun b => decide (1 ≤ b.1 ∧ b.1 ≤ 256) && (decide (b.2 ≤ r.dims) || decide (b.1 = 1))) &&
  r.ext.zipIdx.all (fun x => decide (1 ≤ x.1) && (decide (x.2 ≤ max 1 r.dims) || decide (x.1 = 1))) &&
  r.strides.all (fun x => decide (x % e = 0)) && decide (r.size ≤ 2 ^ 19)

/-- R323: a box element by its number: its offset in the box and its global address when it is in bounds. -/
def Shaped.element (r : Shaped) (origin : List Int) (k : Nat) : Nat × Option Word :=
  let b := fun (d : Nat) => r.box.getD d 1
  let i := [k % b 0, k / b 0 % b 1, k / (b 0 * b 1) % b 2, k / (b 0 * b 1 * b 2)]
  let g := fun (d : Nat) => origin.getD d 0 + (i.getD d 0 : Int)
  let inside := (List.range 4).all (fun d => decide (0 ≤ g d) && decide (g d < (r.ext.getD d 1 : Int)))
  let st := fun (d : Nat) => (r.strides.getD d 0 : Int)
  let off := g 0 * 2 ^ r.esz + g 1 * st 0 + g 2 * st 1 + g 3 * st 2
  (k * 2 ^ r.esz, if inside then some (r.gbase + BitVec.ofInt 64 off) else none)

/-- R323: every element of a lane's box. -/
def Shaped.elements (r : Shaped) (origin : List Int) : List (Nat × Option Word) :=
  (List.range (r.box.foldl (· * ·) 1)).map (r.element origin)

/-! ## Lanes and checks (R321, R323, R324) -/

/-- R59, R310: the lanes that TCOPY elects. -/
def Group.elected (g : Group) (quad : Bool) : List Nat :=
  let ls := lanesOf g.workers
  if quad then (List.range 24).filterMap (fun q => ls.find? (fun l => decide (l / 4 = q))) else ls.take 1

/-- R323: the origin that a lane gives. -/
def Group.origin (g : Group) (v l : Nat) : List Int := (List.range 4).map (fun k => (g.vec (v + k) l).toInt)

/-- R324 steps 6 and 7 for one element: where it is served. -/
def State.copyPlace (s : State) (b : Block) (store : Bool) (va : Word) : Except Fail Place :=
  match s.translate b.core (s.ctxOf b) (!s.superOf b) (if store then .store else .load) va with
  | .error f => .error f
  | .ok (.window a) =>
    if !store then .error ⟨12, 0x25, 0⟩
    else match s.windowAt a (some (s.ctxOf b)) with
      | .refused c => if c = 0x45 then .ok (.window a) else .error (.aperture c)
      | _ => .ok (.window a)
  | .ok p => .ok p

/-- A lane's elements with their places, or the first failing check of the earliest kind with its address. -/
def State.copyPlaces (s : State) (b : Block) (store : Bool) (es : List (Nat × Option Word)) :
    Except (Fail × Word) (List (Nat × Option (Word × Place))) :=
  let checked := es.map (fun e => (e.1, e.2.map (fun va => (va, s.copyPlace b store va))))
  let fails := checked.filterMap (fun e => match e.2 with
    | some (va, .error f) => some (va, f)
    | _ => none)
  match fails with
  | [] => .ok (checked.map (fun e => (e.1, match e.2 with
      | some (va, .ok p) => some (va, p)
      | _ => none)))
  | x :: rest =>
    let best := rest.foldl (fun acc y => if y.2.rank < acc.2.rank then y else acc) x
    .error (best.2, best.1)

/-- R322, R324 step 4: the blocks and the offset that a copy's scratchpad side names; none out of bounds. Under `.mc` a copy
to the weight store goes to the reserved range of every block of the cluster. DESIGN CHOICE (assumption 19). -/
def State.copySide (s : State) (b : Block) (r : Shaped) (mcast : Bool) : Option (List Block × Nat) :=
  if r.wst then
    (if r.sp + r.size ≤ s.weightRange b then some (if mcast then s.clusterOf b else [b], r.sp) else none)
  else
    let off := r.sp % 2 ^ 28
    if mcast then
      let all := s.clusterOf b
      if all.all (fun t => decide (off + r.size ≤ s.scratchRoom t) && !s.boundAsSlots t off r.size) then some (all, off)
      else none
    else match s.inScratch b r.sp r.size with
      | some t => some ([t], off)
      | none => none

/-- R325, R331: the barrier object of a record, as block and offset; an address that names none breaks R330 when it is
credited. -/
def State.creditSide (s : State) (b : Block) (r : Shaped) : Option (Nat × Nat) :=
  if !r.mben then none
  else match s.scratchWord b true r.mbar 8 with
    | .ok w => some w
    | .error _ => some (0, 0)

/-- R326: what an element's source holds when the copy is issued. -/
def State.sourceNow (s : State) (b : Block) (store : Bool) (blk base : Nat) (n : Nat) (e : Nat × Option (Word × Place)) :
    CopyElem :=
  ⟨e.1, e.2, if store then s.readScratch blk (base + e.1) n
    else match e.2 with
      | some (_, p) => s.tileBytes b.core p n
      | none => [], false, false, false⟩

/-- R323: the request that an element of a peer's page needs. DESIGN CHOICE (assumption 19). -/
def State.copyPacket (s : State) (b : Block) (g : Group) (c : Copy) (e : CopyElem) : Option Packet :=
  match e.at_ with
  | some (_, .peer dev pa _) =>
    let n := 2 ^ c.esz
    let bytes := packetBytes (pa % 64) (if c.store then e.was else List.replicate n 0)
    let op : BitVec 8 := if c.store then (if peerWindow pa then 0x04 else 0x02) else (if peerWindow pa then 0x05 else 0x01)
    let q := aimPacket blankPacket op dev g.fstrm pa bytes
    if s.fabric.reaches dev then
      some { q with size := BitVec.ofNat 4 c.esz, opkey := if peerWindow pa then g.opkey else 0,
                    tag := s.writerTag b.core g.slot 1 }
    else none
  | _ => none

/-- The requests of a copy leave. -/
def State.sendCopy (s : State) (b : Block) (g : Group) (c : Copy) : Copy × State :=
  let r := c.elems.zipIdx.foldl (fun (acc : List (Nat × Nat) × State) (e : CopyElem × Nat) =>
    match acc.2.copyPacket b g c e.1 with
    | some q => let t := acc.2.request q (acc.2.ctxOf b) b.core; (acc.1 ++ [(t.1, e.2)], t.2)
    | none => acc) ([], s)
  ({ c with requests := r.1 }, r.2)

/-- Start one copy of a TCOPY. -/
def State.startCopy (s : State) (b : Block) (g : Group) (store mcast : Bool) (r : Shaped) (dst base : Nat)
    (cnt : Option (Nat × Nat)) (es : List (Nat × Option (Word × Place))) : State :=
  let c : Copy :=
    { id := s.nextId, blk := b.id, grp := s.cur.grp, store := store, mcast := mcast, toStore := r.wst, dst := dst,
      base := base, esz := r.esz, elems := es.map (s.sourceNow b store dst base (2 ^ r.esz)), cnt := cnt,
      credit := s.creditSide b r, bytes := r.size, tag := s.writerTag b.core g.slot 1, requests := [] }
  let (c1, s1) := { s with nextId := s.nextId + 1 }.sendCopy b g c
  { s1 with copies := s1.copies ++ [c1] }

/-- R324: the copies are added to the group's open batch, to the counter, and started; a copy that a pair performs once
counts in both of its blocks (R376). -/
def State.startCopies (s : State) (b : Block) (g : Group) (store mcast : Bool) (r : Shaped) (dst base : Nat)
    (cnt : Option (Nat × Nat)) (plans : List (List (Nat × Option (Word × Place)))) : State :=
  let first := s.nextId
  let s1 := plans.foldl (fun (s : State) es =>
    let t := s.startCopy b g store mcast r dst base cnt es
    t) s
  let ids := (s1.copies.filter (fun c => decide (first ≤ c.id))).map Copy.id
  let s2 := match cnt with
    | some (blk, off) =>
      let s3 := s1.addCounter blk off plans.length
      match b.pair with
      | some p => if store then s3.addCounter p.partner off plans.length else s3
      | none => s3
    | none => s1
  let work : List Work := ids.map (fun k => ⟨k, 0, false, none⟩)
  s2.doneOnce b ({ g with copies := g.copies ++ work }.advance 2) [] []

/-- R302: a unit that a tentative block performs only after it is confirmed and its entries are drained. -/
def State.confirmedOnly (s : State) (b : Block) (g : Group) (f : State → State) : State :=
  if b.mode = .tentative then s.wait .confirmation
  else if !s.drainedFor b s.cur g then s.wait .drained
  else f s

/-- R324: a stop at a TCOPY carries the elected lanes whose copy meets the cause. DEDUCED (assumption 66). -/
def copyCond (f : Fail) (va : Word) (ls : List Nat) : Cond :=
  { cause := f.cause, sec := f.sec, kind := 0, va := va, fmask := maskOfList ls }

/-- R324 step 5: the counter of a TCOPY. -/
def State.copyCounter (s : State) (b : Block) (g : Group) (c : Nat) : Except Fail (Option (Nat × Nat)) :=
  if c = 0 then .ok none
  else match s.scratchWord b true (g.scalar c).toNat 4 with
    | .ok w => .ok (some w)
    | .error f => .error f

/-- R324 steps 6 and 7 over the elected lanes: the plans of every copy, or the stop. -/
def State.copyPlans (s : State) (b : Block) (store : Bool) (r : Shaped) (origins : List (Nat × List Int)) :
    Except Cond (List (List (Nat × Option (Word × Place)))) :=
  let tried := origins.map (fun o => (o.1, s.copyPlaces b store (r.elements o.2)))
  let fails := tried.filterMap (fun t => match t.2 with
    | .error f => some (t.1, f.1)
    | .ok _ => none)
  match pickFail fails with
  | some (f, ls) =>
    let va := match tried.findSome? (fun t => if t.1 = ls.headD 0 then (match t.2 with
        | .error x => some x.2
        | .ok _ => none) else none) with
      | some a => a
      | none => 0
    .error (copyCond f va ls)
  | none => .ok (tried.filterMap (fun t => match t.2 with
      | .ok p => some p
      | .error _ => none))

/-- R355: does a copy reach the scratchpad of a block that has ended fatally? A `.mc` copy always writes to one. -/
def State.copyGone (s : State) (b : Block) (store mcast : Bool) (side : List Block) : Bool :=
  if mcast then s.peerEnded b
  else side.any (fun t => t.id != b.id && t.fatal && (!b.took85 || !store))

/-- TCOPY (R321 to R324). -/
def runCopy (store mcast quad : Bool) (v c h : Nat) (s : State) : Host.Outcome State Fault Refusal :=
  let regs := (List.range 4).map (fun k => v + k)
  onGroup s { region := some 0x04, regs := regs, reads := regs } (fun b g r =>
    let lanes := g.elected quad
    let va := g.scalar h
    if lanes.isEmpty then s.done (g.advance 2)
    else if va.toNat % 64 ≠ 0 then s.trap { cause := 0x0A }
    else match s.groupRead b g va 64 with
      | .error none => s.askFor b g [(va, 64)]
      | .error (some f) => s.trap (copyCond f.1 f.2 lanes)
      | .ok bs =>
        let q := parseShaped bs
        if !q.ok store then s.trap { cause := 0x0A }
        else match s.copySide b q mcast with
          | none => s.trap (copyCond .bounds 0 lanes)
          | some (side, base) =>
            if s.copyGone b store mcast side then s.trapPeer { cause := 0x85, fmask := maskOfList lanes }
            else match s.copyCounter b g c with
              | .error f => s.trapWord f
              | .ok cnt =>
                match s.copyPlans b store q (lanes.map (fun l => (l, r.origin v l))) with
                | .error x => s.trap x
                | .ok plans =>
                  let dst := (side.map Block.id).headD b.id
                  let operands := natBytes 8 va.toNat ++
                    lanes.flatMap (fun l => (List.range 4).flatMap (fun k => natBytes 4 (r.vec (v + k) l).toNat))
                  let go := fun (s : State) => s.startCopies b g store mcast q dst base cnt plans
                  if store && b.pair.isSome then s.once b g operands go else s.confirmedOnly b g go)

/-- TCOPY with dir 0 (R321 to R324). -/
def execTcopyLd (m e : BitVec 1) (v : BitVec 7) (c h : BitVec 6) (s : State) : Host.Outcome State Fault Refusal :=
  runCopy false (decide (m = 1#1)) (decide (e = 1#1)) v.toNat c.toNat h.toNat s

/-- TCOPY with dir 1 (R321 to R324). -/
def execTcopySt (e : BitVec 1) (v : BitVec 7) (c h : BitVec 6) (s : State) : Host.Outcome State Fault Refusal :=
  runCopy true false (decide (e = 1#1)) v.toNat c.toNat h.toNat s

/-! ## Completion (R325, R326) -/

/-- How far a completing copy has come: the state, and the failure that left the rest unwritten. -/
structure Copying where
  state : State
  fail  : Option (Byte × Word)
deriving DecidableEq, Repr

/-- R323, R326: the bytes that an element takes from its source, whose bytes now are `now`: those that it has read for
good, or a mixture. -/
def CopyElem.bytesAt (e : CopyElem) (tick key : Nat) (now : List Byte) : List Byte :=
  if e.taken then e.was else mixBytes tick key e.was now

/-- R400: a load of the tile path leaves the word that it reads in its die's L2. -/
def State.readTile (s : State) (core : Nat) (p : Place) : State :=
  match p with
  | .local pa swc _ _ => s.fillL2 (dieOf core) swc (pa / 8 * 8) true (s.l2Word (dieOf core) swc (pa / 8 * 8))
  | _ => s

/-- The blocks whose scratchpad a copy writes. -/
def State.copyBlocks (s : State) (c : Copy) : List Nat :=
  if c.mcast then (match s.block? c.blk with
    | some b => (s.clusterOf b).map Block.id
    | none => [])
  else [c.dst]

/-- R322, R323: bytes of a copy land at an offset of its box. -/
def State.landBytes (s : State) (c : Copy) (off : Nat) (bs : List Byte) : State :=
  (s.copyBlocks c).foldl (fun (s : State) k =>
    if c.toStore then
      match s.block? k with
      | some b => s.putBlock { b with weights := writeBytes b.weights (c.base + off) bs }
      | none => s
    else s.writeScratch k (c.base + off) bs) s

/-- The reply to the request of an element, when it has one. -/
def State.elemReply (s : State) (c : Copy) (k : Nat) : Option Packet :=
  match c.requests.find? (fun r => r.2 == k) with
  | some r => s.replyTo r.1
  | none => none

/-- R325: one in-bounds element of a copy to scratchpad. -/
def Copying.fetch (x : Copying) (core : Nat) (c : Copy) (k : Nat) (e : CopyElem) (va : Word) (p : Place) : Copying :=
  let s := x.state
  let n := 2 ^ c.esz
  match p with
  | .local pa _ _ _ =>
    if s.spoiled pa n then { x with fail := some (0xA0, va) }
    else
      let s1 := s.meetCopies pa n none (some c.id)
      { x with state := (s1.readTile core p).landBytes c e.off (e.bytesAt s1.tick pa (s1.tileBytes core p n)) }
  | .host pa => { x with state := s.landBytes c e.off (bytesOf s.outsideByte pa n) }
  | .peer _ pa _ =>
    match s.elemReply c k with
    | some q =>
      match replyCause q with
      | some cause => { x with fail := some (cause, va) }
      | none => { x with state := s.landBytes c e.off ((List.range n).map (fun j =>
          match q.bytes.find? (fun d => d.1 == pa % 64 + j) with
          | some d => d.2
          | none => 0)) }
    | none => { x with fail := some (0x27, va) }
  | .window _ => { x with fail := some (0x25, va) }

/-- R325, R432: one element of a copy to global memory: performed at device scope, at the home agent. A store to an inlet is
a request of the copy's group (R258). DESIGN CHOICE (assumption 76). -/
def Copying.put (x : Copying) (b : Block) (c : Copy) (k : Nat) (e : CopyElem) (va : Word) (p : Place) :
    Copying :=
  let s := x.state
  let n := 2 ^ c.esz
  let bs := s.storedElem c e va
  match p with
  | .local pa _ _ _ =>
    let s1 := (s.meetCopies pa n (some bs) (some c.id)).putHomeBytes pa bs
    { x with state := s1.sendAway (bs.zipIdx.map (fun e => (pa + e.2, e.1))) }
  | .host pa => { x with state := s.toHost ⟨pa, none, bs, []⟩ }
  | .peer _ _ _ =>
    match s.elemReply c k with
    | some q =>
      match replyCause q with
      | some cause => { x with fail := some (cause, va) }
      | none => x
    | none => { x with fail := some (0x27, va) }
  | .window a =>
    match s.windowAt a (some (s.ctxOf b)) with
    | .refused cause => { x with fail := some (cause, va) }
    | .outlet _ _ _ => { x with fail := some (0x44, va) }
    | .inlet o i off =>
      match s.storeRequest { handle := o.handle, slot := i, bytes := bs.zipIdx.map (fun d => (off + d.2, d.1)), tag := c.tag,
                             remote := false, key := 0, ctx := s.ctxOf b, isGroup := true } with
      | .ok s1 => { x with state := s1 }
      | .error cause => { x with fail := some (cause, va) }

/-- R323, R325: element number `k` of a copy. -/
def Copying.move (x : Copying) (b : Block) (c : Copy) (k : Nat) (e : CopyElem) : Copying :=
  match e.at_ with
  | none => if c.store then x else { x with state := x.state.landBytes c e.off (List.replicate (2 ^ c.esz) 0) }
  | some (va, p) => if c.store then x.put b c k e va p else x.fetch b.core c k e va p

/-- R325: the elements of a copy in order, but those that have landed; after a failure the rest is left. -/
def State.moveElements (s : State) (b : Block) (c : Copy) : Copying :=
  c.elems.zipIdx.foldl (fun (x : Copying) (e : CopyElem × Nat) =>
    if x.fail.isSome || e.1.landed then x else x.move b c e.2 e.1) ⟨s, none⟩

/-- R326: one byte of an element that lies on a LOCAL page, or out of bounds, lands. -/
def State.landByte (s : State) (b : Block) (c : Copy) (e : CopyElem) (j : Nat) : State :=
  match e.at_ with
  | none => if c.store then s else s.landBytes c (e.off + j) [0]
  | some (_, .local pa swc _ _) =>
    if c.store then (s.putHome (pa + j) ((s.readScratch c.dst (c.base + e.off + j) 1).headD 0))
    else s.landBytes c (e.off + j) [if e.taken then e.was.getD j 0 else s.l2Byte (dieOf b.core) swc (pa + j)]
  | some (_, .peer _ _ _) | some (_, .host _) | some (_, .window _) => s

/-- R325, R326: an element lands for good, ahead of its copy's completion, if it can. -/
def State.landElem (s : State) (b : Block) (c : Copy) (k : Nat) (e : CopyElem) : State :=
  let x := Copying.move ⟨s, none⟩ b c k e
  if x.fail.isSome then s else x.state.putElem c.id k { e with landed := true }

/-- R326: before a copy completes, an element lands for good, or some of its bytes do for now, whichever. Its bytes are
old or new for every group. -/
def State.copyPart (s : State) (copy : Nat) : State :=
  match s.copies.find? (fun c => c.id == copy) with
  | none => s
  | some c =>
    let k := Config.freeNat s.tick 67 % max 1 c.elems.length
    match s.block? c.blk, c.elems[k]? with
    | some b, some e =>
      let window := match e.at_ with
        | some (_, .window _) => true
        | _ => false
      if e.landed || window then s
      else if Config.freeBool s.tick 68 then s.landElem b c k e
      else if match e.at_ with
        | some (_, .local pa _ _ _) => s.spoiled pa (2 ^ c.esz) || s.heldByHome pa
        | _ => false then s
      else ((List.range (2 ^ c.esz)).foldl (fun (s' : State) j =>
        if Config.freeBool s.tick (16 * j + 69) then s'.landByte b c e j else s') s).putElem copy k { e with torn := true }
    | _, _ => s

/-- R325 step 2, R331: credit the box bytes at a barrier object; a credit that breaks R330 changes nothing. DEDUCED
(assumption 20). -/
def State.creditAt (s : State) (blk off n : Nat) : Option State :=
  let o := s.barrierAt blk off
  if o.reserved ≠ 0 ∨ !bytesFit (o.bytes - n) then none
  else some (s.putBarrier blk off { o with bytes := o.bytes - n }.settle)

/-- R325 step 2: the credits of a copy, in each block under `.mc`, and whether one broke R330. -/
def State.creditAll (s : State) (c : Copy) : State × Bool :=
  match c.credit with
  | none => (s, false)
  | some (blk, off) =>
    if blk = 0 then (s, true)
    else
      (if c.mcast then s.copyBlocks c else [blk]).foldl (fun (acc : State × Bool) k =>
        match acc.1.creditAt k off c.bytes with
        | some t => (t, acc.2)
        | none => (acc.1, true)) (s, false)

/-- R325 steps 1 to 3 for a copy in one block: the counter, the credit, and the batch; or, when the group has ended, the
record. -/
def State.settleCopy (s : State) (c : Copy) (blk : Nat) (fail : Option (Byte × Word)) : State :=
  let moved := fun (w : Nat × Nat) => if w.1 = c.blk then (blk, w.2) else w
  let c1 := { c with cnt := c.cnt.map moved, credit := c.credit.map moved }
  let s1 := match c1.cnt with
    | some (k, off) => s.addCounter k off (2 ^ 32 - 1)
    | none => s
  let (s2, bad) := s1.creditAll c1
  let cause := match fail with
    | some f => some f
    | none => if bad then some (0x80, 0) else none
  let r : GRef := ⟨blk, c.grp, false⟩
  let s3 := s2.changeAt r (fun g => { g with
    copies := g.copies.map (fun (w : Work) => if w.id = c.id then { w with done := true, cause := cause } else w) })
  match s3.groupAt r, cause with
  | some (b, g), some f => if g.status = .ended then s3.reportCopy b.launch b.core f else s3
  | _, _ => s3

/-- R269: may a copy store now: the earlier copies of its group that store to windows, as its one writer, are complete? -/
def State.copyTurn (s : State) (c : Copy) : Bool :=
  let window := fun (d : Copy) => d.store && d.elems.any (fun (e : CopyElem) => match e.at_ with
    | some (_, .window _) => true
    | _ => false)
  !window c || s.copies.all (fun (d : Copy) => decide (c.id ≤ d.id) || d.tag != c.tag || !window d)

/-- COPY_COMPLETION (R269, R325): a copy whose replies are all there completes; in a redundant pair both groups take its
effects, each in its own block (R376). -/
def execCopyCompletion (copy : Nat) (s : State) : Host.Outcome State Fault Refusal :=
  match s.copies.find? (fun c => c.id == copy) with
  | none => .next s
  | some c =>
    match s.block? c.blk with
    | none => .next s
    | some b =>
      if c.requests.any (fun r => (s.replyTo r.1).isNone) || !s.copyTurn c then .next s
      else
        let x := s.moveElements b c
        let s1 := { x.state with copies := x.state.copies.filter (fun d => d.id != copy) }
        let s2 := (s1.consume (c.requests.map Prod.fst)).settleCopy c c.blk x.fail
        match b.pair with
        | some p => .next (if c.store then s2.settleCopy c p.partner x.fail else s2)
        | none => .next s2

/-! ## Copy batches (R327) -/

/-- CSEAL (R327): in a tentative block it waits for confirmation. -/
def execCseal (a : BitVec 6) (s : State) : Host.Outcome State Fault Refusal :=
  onGroup s { region := some 0x04 } (fun b g _ =>
    s.confirmedOnly b g (fun s =>
      let n := g.copySeal + 1
      let g1 := { g with copies := sealWork g.copies n, copySeal := n }
      s.done ((g1.setScalar a.toNat (BitVec.ofNat 64 n)).advance 2)))

/-- CWAIT (R325, R327): later accesses of the group see what the batches wrote. -/
def execCwait (b : BitVec 6) (s : State) : Host.Outcome State Fault Refusal :=
  onGroup s { region := some 0x04 } (fun blk g _ =>
    let n := (g.scalar b.toNat).toNat
    if n = 0 then s.done (g.advance 2)
    else if g.copySeal < n then s.trap { cause := 0x0A }
    else if openWork g.copies n then s.wait (.copyBatch n)
    else
      let s1 := s.acquireAt blk.core 2
      match firstFailure g.copies n with
      | some w =>
        (s1.putGroup { g with copies := raisedWork g.copies w }).trap
          { cause := (w.cause.getD (0, 0)).1, kind := 2, va := (w.cause.getD (0, 0)).2 }
      | none => s1.done (g.advance 2))

end Sys2Proof.Machine
end

