-- ==== Sys2Proof/Machine/System.lean ====
section
/-! DEFINITION. The system instructions (R90 to R92, R347 to R349, R352, R353, R360, R362, R377, R397): special registers,
sleeping, breakpoints, software traps, the return of a supervisor group, and the invalidation of translations. -/

namespace Sys2Proof.Machine

/-! ## Special registers (R33) -/

/-- R290, R291: the grid word of a launch: the record's, or the image's when the record gives none. -/
def Launch.grid (l : Launch) : Nat := if l.record.grid.toNat % 2 ^ 24 = 0 then l.header.grid.toNat else l.record.grid.toNat

/-- The x, y and z sizes of a launch's grid; under a maquette launch x is the limit LX (R291). -/
def Launch.gridX (l : Launch) : Nat := l.grid % 2 ^ 24
/-- The y size. -/
def Launch.gridY (l : Launch) : Nat := l.grid / 2 ^ 24 % 2 ^ 20
/-- The z size. -/
def Launch.gridZ (l : Launch) : Nat := l.grid / 2 ^ 44 % 2 ^ 20

/-- R33: COREID of a core position; a spare has a physical number of its own (R446). DESIGN CHOICE (assumption 101). -/
def State.coreNumber (s : State) (core : Nat) : Nat := (Config.coreId (core + 4096 * (s.core core).spare)).toNat % 528

/-- R104: NGRP. -/
def Block.groupCount (b : Block) (g : Group) : Nat :=
  if g.compacted then
    match b.region with
    | some (cs, _) => cs.length
    | none => 0
  else b.groups.length

/-- R33: the registers that the launch fixes, and the clocks: read-only numbers of user mode. -/
def readOnly (n : Nat) : Bool := decide (n ≤ 0x011) || decide (n = 0x200) || decide (n = 0x300) || decide (n = 0x301)

/-- R33: is a special-register number assigned? -/
def assigned (n : Nat) : Bool :=
  readOnly n || decide (0x100 ≤ n ∧ n ≤ 0x10B) || decide (0x800 ≤ n ∧ n ≤ 0x804)

/-- R33: the value of a special register that is no clock. -/
def State.special (s : State) (b : Block) (g : Group) (n : Nat) : Nat :=
  let l? := s.launch? b.launch
  let grid := fun (f : Launch → Nat) => match l? with
    | some l => f l
    | none => 0
  let core := s.pairCore b
  match n with
  | 0x000 => g.gid
  | 0x001 => b.groupCount g
  | 0x002 => b.lin % max 1 (grid Launch.gridX)
  | 0x003 => b.lin / max 1 (grid Launch.gridX) % max 1 (grid Launch.gridY)
  | 0x004 => b.lin / max 1 (grid Launch.gridX) / max 1 (grid Launch.gridY)
  | 0x005 => b.lin / s.clusterSize b
  | 0x006 => s.clusterRank b
  | 0x007 => s.clusterSize b
  | 0x008 => grid (fun l => if l.record.maq then l.predict else l.gridX)
  | 0x009 => grid Launch.gridY
  | 0x00A => grid Launch.gridZ
  | 0x00B => s.coreNumber core
  | 0x00C => core % 512 / 16
  | 0x00D => dieOf core % 8
  | 0x00E => s.fabric.devid.toNat
  | 0x00F => g.role
  | 0x010 => g.roleGid
  | 0x011 => b.core % 512
  | 0x100 => g.frm.toNat
  | 0x101 => g.ten.toNat
  | 0x102 => if g.chk then 1 else 0
  | 0x103 => g.invtol.toNat
  | 0x104 => g.invst.toNat
  | 0x105 => g.repidx.toNat
  | 0x106 => if g.idz then 1 else 0
  | 0x107 => g.stoseed.toNat
  | 0x108 => if (s.core b.core).rsv then 1 else 0
  | 0x109 => g.opkey.toNat
  | 0x10A => g.cklive.toNat
  | 0x10B => g.fstrm.toNat
  | 0x200 => grid (fun l => l.header.part.toNat)
  | 0x800 => g.sepc.toNat
  | 0x801 => if s.superOf b then 1 else 0
  | 0x802 => s.redinj.toNat
  | 0x803 => s.mig.desc.toNat
  | 0x804 => s.mig.cause.toNat * 256 + s.mig.state.toNat * 4
  | _ => 0

/-- R34: read a clock; the journal records it (R449). -/
def State.clock (s : State) (b : Block) (g : Group) (n : Nat) : Word × State :=
  let r := if n = 0x301 then s.nsTime else s.readCycle (dieOf (s.pairCore b))
  let e := r.2.enter (s.ctxOf b) 3 (b.lin * 32 + g.gid) [BitVec.ofNat 64 r.1]
  (e.1.headD 0, e.2)

/-- R372: a value that a leading group has read is kept for the trailing one. -/
def State.forwardValue (s : State) (b : Block) (v : Word) : State :=
  match b.pair with
  | some p =>
    if p.leading then
      match s.block? b.id with
      | some b1 => s.putBlock { b1 with pair := b1.pair.map (fun q => { q with forward := q.forward ++ [(b.pairIndex s.cur, v)] }) }
      | none => s
    else s
  | none => s

/-- R372: the next value that the leading group has read for a trailing one; none when it has read none. -/
def State.forwarded (s : State) (b : Block) : Option (Word × State) :=
  match s.leadOf b with
  | none => none
  | some lead =>
    match lead.pair with
    | none => none
    | some p =>
      match p.forward.find? (fun e => e.1 == b.pairIndex s.cur) with
      | none => none
      | some e => some (e.2, s.putBlock { lead with pair := some { p with forward := p.forward.erase e } })

/-- R372: is the block the trailing one of a pair? -/
def Block.trailing (b : Block) : Bool :=
  match b.pair with
  | some p => !p.leading
  | none => false

/-- SRR (R90, R33, R34, R372). -/
def execSrr (n : BitVec 12) (d : BitVec 6) (s : State) : Host.Outcome State Fault Refusal :=
  onGroup s { priv := decide (0x800 ≤ n.toNat) } (fun b g _ =>
    if !assigned n.toNat then s.trap { cause := 0x01 }
    else if g.compacted && decide (d ≠ 0) then s.trap { cause := 0x07 }
    else if n.toNat = 0x300 ∨ n.toNat = 0x301 then
      if b.trailing then
        match s.forwarded b with
        | some (v, s1) => s1.done ((g.setScalar d.toNat v).advance 2)
        | none => s.wait .forwarded
      else
        let r := s.clock b g n.toNat
        (r.2.forwardValue b r.1).done ((g.setScalar d.toNat r.1).advance 2)
    else s.done ((g.setScalar d.toNat (BitVec.ofNat 64 (s.special b g n.toNat))).advance 2))

/-! ## Writing special registers -/

/-- R403: the fields of a migration descriptor's bytes: source frame, source device, destination frame, size; or none when a
check of R403 fails. -/
def State.parseMigration (s : State) (bs : List Byte) : Option (Nat × BitVec 13 × Nat × Nat) :=
  let w := fun (k : Nat) => wordAt bs (8 * k) 8
  let src := w 0 % 2 ^ 48
  let dst := w 1
  let size := 2 ^ (16 + (if w 2 = 0 then 0 else if w 2 = 1 then 5 else 14))
  if w 0 % 2 ^ 16 ≠ 0 ∨ w 0 / 2 ^ 61 ≠ 0 ∨ w 1 % 2 ^ 16 ≠ 0 ∨ w 1 / 2 ^ 48 ≠ 0 ∨ 2 < w 2 ∨ w 3 ≠ 0 then none
  else if src % size ≠ 0 ∨ dst % size ≠ 0 then none
  else if !backed dst || !backed (dst + size - 1) || s.firmware.retired.any (fun f =>
      decide (dst ≤ f * 2 ^ 16) && decide (f * 2 ^ 16 < dst + size)) then none
  else some (src, BitVec.ofNat 13 (w 0 / 2 ^ 48), dst, size)

/-- R403: start a migration; none while the reply of a peer that holds the descriptor is awaited. DEDUCED (assumption 80).
-/
def State.startMigration (s : State) (b : Block) (g : Group) : Except (Option Cond) State :=
  if s.mig.state ≠ 0 then .error (some { cause := 0x0A })
  else match s.groupRead b g s.mig.desc 32 with
    | .error none => .error none
    | .error (some f) => .error (some { cause := f.1.cause, sec := f.1.sec, kind := 0, va := f.2 })
    | .ok bs =>
      match s.parseMigration bs with
      | none => .error (some { cause := 0x0A })
      | some (src, sdev, dst, size) =>
        if sdev.toNat / 512 ≠ s.fabric.devid.toNat / 512 then .error (some { cause := 0x28, kind := 0 })
        else .ok { s with mig := { s.mig with state := 1, cause := 0, src := src, sdev := sdev, dst := dst, size := size } }

/-- R404: release a migration: the frame is ordinary memory again. -/
def State.releaseMigration (s : State) : Except Cond State :=
  if s.mig.state = 2 ∨ s.mig.state = 3 then .ok { s with mig := { s.mig with state := 0 } }
  else .error { cause := 0x0A }

/-- R127: seed the xorshift states of a group. -/
def Group.seed (g : Group) (v : Word) : Group :=
  let seed : BitVec 32 := v.setWidth 32
  { g with stoseed := seed, rng := runCells 0 96 (fun l => seedState seed l) }

/-- R90, R33: write a special register: the state and the group, or a cause, or none while a peer's reply is awaited.
DEDUCED (assumption 42). -/
def State.writeSpecial (s : State) (b : Block) (g : Group) (n : Nat) (v : Word) : Except (Option Cond) (State × Group) :=
  let bad : Except (Option Cond) (State × Group) := .error (some { cause := 0x0A })
  match n with
  | 0x100 => if 4 < v.toNat % 8 then bad else .ok (s, { g with frm := v.setWidth 3 })
  | 0x101 => .ok (s, { g with ten := v.setWidth 7 })
  | 0x102 => .ok (s, { g with chk := v.getLsbD 0 })
  | 0x103 => .ok (s, { g with invtol := v.setWidth 32 })
  | 0x104 => if 33 < v.toNat % 64 then bad else .ok (s, { g with invst := v.setWidth 12 })
  | 0x105 => .ok (s, { g with repidx := v.setWidth 6 })
  | 0x106 => .ok (s, { g with idz := v.getLsbD 0 })
  | 0x107 => .ok (s, g.seed v)
  | 0x108 => .ok (if v.getLsbD 0 then s.putCore { s.core b.core with rsv := false } else s, g)
  | 0x109 => .ok (s, { g with opkey := v.setWidth 16 })
  | 0x10A => .ok (s, { g with cklive := v.setWidth 12 })
  | 0x10B => if 0xFFE ≤ v.toNat % 4096 then bad else .ok (s, { g with fstrm := v.setWidth 12 })
  | 0x800 => .ok (s, { g with sepc := v })
  | 0x801 => .ok (s, g)
  | 0x802 =>
    if v.toNat / 256 % 4 = 3 ∨ (v.toNat / 256 % 4 = 1 ∧ 31 < v.toNat / 1024 % 64) then bad
    else .ok ({ s with redinj := v &&& 0xFFFFFFFF007FFF7F#64 }, g)
  | 0x803 => if v.toNat % 32 ≠ 0 then bad else .ok ({ s with mig := { s.mig with desc := v } }, g)
  | 0x804 =>
    if v.toNat % 4 = 3 then bad
    else if v.toNat % 4 = 1 then
      match s.startMigration b g with
      | .ok s1 => .ok (s1, g)
      | .error c => .error c
    else if v.toNat % 4 = 2 then
      match s.releaseMigration with
      | .ok s1 => .ok (s1, g)
      | .error c => .error (some c)
    else .ok (s, g)
  | _ => if readOnly n then .ok (s, g) else .error (some { cause := 0x01 })

/-- SRW (R90, R33). -/
def execSrw (n : BitVec 12) (a : BitVec 6) (s : State) : Host.Outcome State Fault Refusal :=
  onGroup s { priv := decide (0x800 ≤ n.toNat) } (fun b g _ =>
    match s.writeSpecial b g n.toNat (g.scalar a.toNat) with
    | .error none => s.askFor b g [(s.mig.desc, 32)]
    | .error (some c) => s.trap c
    | .ok (s1, g1) => s1.done (g1.advance 2))

/-- The effect of an SRW on the register alone, as a step of its own of the executing group. DESIGN CHOICE
(assumption 47). -/
def writeStep (n : Nat) (v : Word) (s : State) : Host.Outcome State Fault Refusal :=
  if s.current.isNone then .next s
  else onGroup s { priv := decide (0x800 ≤ n) } (fun b g _ =>
    match s.writeSpecial b g n v with
    | .error none => s.askFor b g [(s.mig.desc, 32)]
    | .error (some c) => s.trap c
    | .ok (s1, g1) => s1.putGroup g1)

/-- STOSEED_WRITE (R127). -/
def execStoseedWrite (v : Word) (s : State) : Host.Outcome State Fault Refusal := writeStep 0x107 v s

/-- WCODEST_CLEAR (R120). -/
def execWcodestClear (v : Word) (s : State) : Host.Outcome State Fault Refusal := writeStep 0x108 v s

/-- REDINJ_ARM (R384). -/
def execRedinjArm (v : Word) (s : State) : Host.Outcome State Fault Refusal := writeStep 0x802 v s

/-- MIGDESC_WRITE (R403). -/
def execMigdescWrite (v : Word) (s : State) : Host.Outcome State Fault Refusal := writeStep 0x803 v s

/-- MIGCMD_START (R403). -/
def execMigcmdStart (s : State) : Host.Outcome State Fault Refusal := writeStep 0x804 1 s

/-- MIGCMD_RELEASE (R403, R404). -/
def execMigcmdRelease (s : State) : Host.Outcome State Fault Refusal := writeStep 0x804 2 s

/-! ## Scheduling hints and breakpoints -/

/-- NOP (R90). -/
def execNop (s : State) : Host.Outcome State Fault Refusal := onGroup s {} (fun _ g _ => s.done (g.advance 2))

/-- YIELD (R90, R296): the group moves to the pending set. -/
def execYield (s : State) : Host.Outcome State Fault Refusal :=
  onGroup s {} (fun _ g _ => s.done { g.advance 2 with active := false })

/-- SLEEP (R91): the group leaves the active set until its cycle comes. -/
def execSleep (a : BitVec 6) (s : State) : Host.Outcome State Fault Refusal :=
  onGroup s {} (fun b g _ =>
    let n := min (g.scalar a.toNat).toNat 0xFFFFFFFF
    if n = 0 then s.done (g.advance 2)
    else
      let r := s.readCycle (dieOf b.core)
      (r.2.changeAt s.cur (fun x => { x with readyAt := r.1 + n })).wait .sleep)

/-- BKPT (R92): halts the group when the image enables debugging, with the PC at the BKPT. -/
def execBkpt (n : BitVec 12) (s : State) : Host.Outcome State Fault Refusal :=
  onGroup s {} (fun b g _ =>
    let debug := match s.launch? b.launch with
      | some l => l.header.debug
      | none => false
    if debug then s.changeAt s.cur (fun x => { x with halt := some ⟨n, true⟩, active := false })
    else s.done (g.advance 2))

/-! ## Traps and supervisor groups -/

/-- TRAPF (R347, R348): raises the lowest enabled flag of any lane, or the scalar flag; it clears nothing. -/
def execTrapf (s : State) : Host.Outcome State Fault Refusal :=
  onGroup s { flags := true } (fun b g r =>
    let raised := fun (l : Nat) => r.laneFlags l &&& g.ten.setWidth 6
    let m := maskOf (fun l => hasLane g.workers l && decide (raised l ≠ 0))
    let all : BitVec 6 := (lanesOf m).foldl (fun acc l => acc ||| raised l) 0
    let low := ((List.range 6).find? (fun k => all.getLsbD k)).getD 0
    if m ≠ 0 then
      let c : Cond := { cause := BitVec.ofNat 8 (0x60 + low), kind := 2, fmask := m, arg0 := all.setWidth 64 }
      if s.superOf b && b.pair.isNone && decide (b.mode ≠ .tentative) then s.done ((g.dropLanes c).advance 2)
      else s.trap c
    else if g.idz && g.ten.getLsbD 6 then s.trap { cause := 0x66, kind := 2, arg0 := 0x40 }
    else s.done (g.advance 2))

/-- TRAP (R349). -/
def execTrap (n : BitVec 12) (s : State) : Host.Outcome State Fault Refusal :=
  onGroup s {} (fun _ _ _ => s.trap { cause := 0x00, code := n })

/-- SUPCALL (R349). -/
def execSupcall (n : BitVec 12) (s : State) : Host.Outcome State Fault Refusal :=
  onGroup s {} (fun _ g _ =>
    s.trap { cause := 0x0D, code := n, arg0 := g.scalar 1, arg1 := g.scalar 2, arg2 := g.scalar 3 })

/-- R353: the answer that lane `l` of a supervisor group gives, if it gives one. -/
def Group.answer (g : Group) (l : Nat) : Option (Word × Byte × Word) :=
  let token := g.pair 0 l
  if token = 0 then none
  else if hasLane g.exec l then some (token, (g.vec 2 l).setWidth 8, g.pair 4 l)
  else if (g.vec 3 l).msb then some (token, 3, 0)
  else none

/-- ERET (R353): sends the answers of the lanes, and resumes at SEPC with every lane. -/
def execEret (s : State) : Host.Outcome State Fault Refusal :=
  onGroup s { priv := true, reads := [0, 1, 2, 3, 4, 5] } (fun _ g r =>
    if g.sepc.getLsbD 0 then s.trap { cause := 0x40, kind := 0 }
    else
      let sent := (lanesOf g.live).filterMap r.answer
      let s1 := { s with answers := s.answers ++ sent }
      let g1 := g.setVec 3 g.present (fun _ => 0)
      s1.done { g1 with exec := g.present, pc := g.sepc })

/-! ## Invalidating translations (R397, R398) -/

/-- R397: is a core within a scope of the issuing core: 0 the core, 1 its die, 2 the device? -/
def inScope (core scope k : Nat) : Bool :=
  if scope = 0 then decide (k = core) else if scope = 1 then decide (dieOf k = dieOf core) else true

/-- R397: does a retained entry overlap `n` pages of 64 KiB from the one numbered `first`, or any when `n` is 0? -/
def Translation.overlaps (t : Translation) (first n : Nat) : Bool :=
  let span := 2 ^ (t.shift - 16)
  decide (n = 0) || (decide (t.place * span < first + n) && decide (first < (t.place + 1) * span))

/-- R398: are there requests of a context, within a scope, that may have used an old translation: accesses of groups that
await replies or a migrating home, copies, and requests of any agent that are on their way? -/
def State.oldRequests (s : State) (core scope : Nat) (ctx : BitVec 32) : Bool :=
  let mine := fun (b : Block) => inScope core scope b.core && decide (s.ctxOf b = ctx)
  s.blocks.any (fun b => mine b && b.allGroups.any (fun g => g.pending.isSome || decide (g.status = .waiting .replies))) ||
  s.copies.any (fun c => match s.block? c.blk with
    | some b => mine b
    | none => false) ||
  s.fabric.requests.any (fun r => decide (r.ctx = ctx) && inScope core scope r.core && r.reply.isNone)

/-- R397: the leaves of a context, retained or in the page table, that map pages of a range, each with its page's first
virtual address and its lowest VA bit. -/
def State.leavesIn (s : State) (core : Nat) (ctx : BitVec 32) (first n : Nat) : List (Word × Nat × Nat) :=
  (s.tlb.filter (fun t => t.ctx == ctx && t.overlaps first n && !t.entry.getLsbD 1)).map
    (fun t => (t.entry, t.place * 2 ^ t.shift, t.shift)) ++
  (List.range n).filterMap (fun k =>
    match s.lookup core ctx (BitVec.ofNat 64 ((first + k) * 65536)) with
    | .leaf e shift => some (e, (first + k) * 65536 / 2 ^ shift * 2 ^ shift, shift)
    | .fail _ => none)

/-- R397, R204: is a replica one of a range of pages? The load that left it had its address there, or a leaf, retained or in
the page table, maps a page of the range to its place. -/
def State.replicaIn (s : State) (core : Nat) (ctx : BitVec 32) (first n : Nat) (r : Replica) : Bool :=
  match s.launch? r.launch with
  | some l => decide (l.ctx = ctx) && (decide (n = 0) ||
      (decide (first ≤ r.va % 2 ^ 52 / 65536) && decide (r.va % 2 ^ 52 / 65536 < first + n)) ||
      (s.leavesIn core ctx first n).any (fun x =>
      let off := r.pa - leafFrame x.1
      decide (leafFrame x.1 ≤ r.pa) && decide (off < 2 ^ x.2.2) &&
        decide (first * 65536 ≤ x.2.1 + off) && decide (x.2.1 + off < (first + n) * 65536)))
  | none => false

/-- R397: the retained entry, taken from the cores of a scope: of one core, of one die, or of the device. -/
def Translation.taken (t : Translation) (core scope : Nat) : Option Translation :=
  if scope = 0 then some { t with lost := core :: t.lost.filter (fun k => decide (k ≠ core)) }
  else if scope = 1 then some { t with gone := dieOf core :: t.gone.filter (fun k => decide (k ≠ dieOf core)) }
  else none

/-- R398: the dirty bytes that old translations left in the caches of a scope go home. -/
def State.flushScope (s : State) (core scope : Nat) : State :=
  let s1 := ((s.cores.map Core.id).filter (inScope core scope)).foldl (fun (s : State) k => s.writeBackAll k) s
  ((s1.dies.map Die.id).filter (fun d => decide (d = dieOf core) || decide (scope = 2))).foldl
    (fun (s : State) d => s.writeBackDieAll d (fun _ => true)) s1

/-- R369, R393: does the page table of a context map an address to operator windows, as memory holds it? -/
def State.windowLeaf (s : State) (va : Nat) (levels : List (Nat × Nat)) (base : Nat) : Bool :=
  match levels with
  | [] => false
  | (shift, entries) :: rest =>
    let e := s.homeWord (base + 8 * (va / 2 ^ shift % entries))
    e.getLsbD 0 && (if e.getLsbD 1 then s.windowLeaf va rest (e.toNat / 256 % 2 ^ 40 * 256) else decide (leafApt e = 3))

/-- R369: a torn window without the pages of a range that the driver has unmapped since. -/
def State.stillTorn (s : State) (ctx : BitVec 32) (first n : Nat) (w : BitVec 32 × Nat × Nat) :
    List (BitVec 32 × Nat × Nat) :=
  let page := w.2.1 / 65536
  let gone := fun (k : Nat) => decide (w.1 = ctx) && (decide (n = 0) || (decide (first ≤ k) && decide (k < first + n))) &&
    !(match s.context? ctx with
      | some c => s.windowLeaf (65536 * k) tableLevels c.root.toNat
      | none => false)
  let pages := (List.range ((w.2.1 + w.2.2 + 65535) / 65536 - page)).map (fun k => page + k)
  if pages.any gone then
    (pages.filter (fun k => !gone k)).map (fun k =>
      let from' := max w.2.1 (65536 * k)
      (w.1, from', min (w.2.1 + w.2.2) (65536 * (k + 1)) - from'))
  else [w]

/-- R397, R398: the drops of a TLBINV: retained entries and replicas; and the write-backs that old translations left. What a
teardown left of windows that are unmapped now goes too (R369). DEDUCED (assumption 64). -/
def State.invalidate (s : State) (core scope : Nat) (ctx : BitVec 32) (first n : Nat) : State :=
  let s0 := { s with
    replicas := s.replicas.filter (fun r => !s.replicaIn core ctx first n r)
    tornWin := s.tornWin.flatMap (s.stillTorn ctx first n) }
  let s1 := s0.flushScope core scope
  { s1 with tlb := s1.tlb.filterMap (fun t => if t.ctx = ctx ∧ t.overlaps first n then t.taken core scope else some t) }

/-- TLBINV (R397, R398). -/
def execTlbinv (c b : BitVec 6) (s : State) : Host.Outcome State Fault Refusal :=
  onGroup s { priv := true } (fun blk g _ =>
    let v := g.scalar b.toNat
    let w := (g.scalar c.toNat).toNat
    let n := w % 2 ^ 24
    let scope := w / 2 ^ 24 % 16
    let ctx := BitVec.ofNat 32 (w / 2 ^ 32)
    let last := v.toNat + n * 65536 - 1
    if v.toNat % 65536 ≠ 0 ∨ w / 2 ^ 28 % 16 ≠ 0 ∨ 2 < scope then s.trap { cause := 0x0A }
    else if decide (n ≠ 0) && (!canonical v || decide (2 ^ 64 ≤ last) || !canonical (BitVec.ofNat 64 last)) then s.trap { cause := 0x0A }
    else
      let s1 := s.invalidate blk.core scope ctx (v.toNat % 2 ^ 52 / 65536) n
      if s1.oldRequests blk.core scope ctx then s1.wait (.invalidation blk.core scope ctx)
      else s1.done (g.advance 2))

/-! ## Pre-emption hints, restart labels and checkpoints -/

/-- R363: is a pre-emption request pending for a launch? -/
def Launch.preempted (l : Launch) : Bool := decide (l.saving = .requested) || decide (l.saving = .forced)

/-- R363: the one record with cause 0x86 of a block that a hard save takes. -/
def State.reportHardSave (s : State) (launch blk : Nat) : State :=
  match s.launch? launch, s.block? blk with
  | some l, some b =>
    if b.hard then s
    else
      let (t, s1) := s.nsTime
      let tr := s1.engineRecord l.ctx b.core { cause := 0x86, kind := 3 } t
      (s1.putBlock { b with hard := true }).send (some l.fsrv) launch { tr with block := b.lin }
  | _, _ => s

/-- PHINT (R360, R363): a group whose record cannot be read is hard-saved. -/
def execPhint (n : BitVec 12) (s : State) : Host.Outcome State Fault Refusal :=
  onGroup s {} (fun b g _ =>
    match s.launch? b.launch with
    | none => s.done (g.advance 2)
    | some l =>
      if l.header.nlive ≤ n.toNat then s.trap { cause := 0x0A }
      else if l.preempted && !g.compacted then
        match s.liveRecord b.core l n.toNat with
        | .ok _ => s.done { g.advance 2 with status := .saved (some n.toNat), active := false }
        | .error f =>
          ((s.report l.id b.core { cause := f.1.cause, sec := f.1.sec, va := f.2 }).reportHardSave l.id b.id).done
            { g.advance 2 with status := .saved none, active := false }
      else s.done (g.advance 2))

/-- RLABEL (R362). -/
def execRlabel (n : BitVec 12) (s : State) : Host.Outcome State Fault Refusal :=
  onGroup s { region := some 0x04 } (fun b g _ =>
    let count := match s.launch? b.launch with
      | some l => l.header.nrest
      | none => 0
    if n = 0xFFF#12 then s.done { g.advance 2 with rlabel := none }
    else if count ≤ n.toNat then s.trap { cause := 0x0A }
    else s.done { g.advance 2 with rlabel := some (n.toNat, g.entries.length) })

/-- CKPT (R377): in a pair the group meets its partner; the meeting takes the checkpoint. DEDUCED (assumption 46). -/
def execCkpt (s : State) : Host.Outcome State Fault Refusal :=
  onGroup s { region := some 0x04 } (fun b g _ =>
    if b.pair.isNone then s.done (g.advance 2)
    else if b.mode = .tentative then s.wait .confirmation
    else s.wait (.partner ⟨meetCkpt, s.meetSignature b g []⟩))

end Sys2Proof.Machine
end

