-- ==== Sys2Proof/Machine/Launching.lean ====
section
/-! DEFINITION. Command queues (R286 to R289), launch records and images (R290, R291, R357), predictions (R300, R301),
the judging of shapes (R306), the block dispatcher (R293, R294), and the completion of launches (R292, R424). -/

namespace Sys2Proof.Machine

/-! ## The front end's accesses -/

/-- The place of the queue cores and the launch engine among those that translate: no core position, so no translation is
retained for it and no L1 stands in front of it. -/
def frontEnd : Nat := 4096

/-- Does a context run in user mode? -/
def State.userCtx (s : State) (ctx : BitVec 32) : Bool :=
  match s.context? ctx with
  | some c => !c.super
  | none => true

/-- The front end reads `n` bytes of a context. -/
def State.frontRead (s : State) (ctx : BitVec 32) (va : Word) (n : Nat) : Except (Fail × Word) (List Byte) :=
  s.engineRead frontEnd ctx (s.userCtx ctx) va n

/-- The front end reads an aligned word of `n` bytes. -/
def State.frontWord (s : State) (ctx : BitVec 32) (va : Word) (n : Nat) : Except Fail Nat :=
  if va.toNat % n ≠ 0 then .error .misaligned
  else match s.frontRead ctx va n with
    | .ok bs => .ok (bytesNat bs)
    | .error f => .error f.1

/-- The front end stores an aligned word of 8 bytes; a number names the request that leaves for a peer. -/
def State.frontStore (s : State) (ctx : BitVec 32) (va : Word) (v : Nat) : Except Fail (Option Nat × State) :=
  if va.toNat % 8 ≠ 0 then .error .misaligned
  else s.engineStore frontEnd ctx (s.userCtx ctx) va (natBytes 8 v)

/-- R289, R292: what the front end does when the reply to a request of its own refuses it. -/
def State.awaitWrite (s : State) (id : Option Nat) (u : EngineUse) : State :=
  match id with
  | some k => { s with writes := (k, u) :: s.writes }
  | none => s

/-! ## Queues (R286 to R289) -/

/-- The queue numbered `k`. -/
def State.queue? (s : State) (k : Nat) : Option Queue := s.queues.find? (fun q => q.id == k)

/-- The queue in place of the one with its number. -/
def State.putQueue (s : State) (q : Queue) : State :=
  { s with queues := s.queues.map (fun x => if x.id = q.id then q else x) }

/-- R288: the length of a record in 64-byte units. -/
def recordLength (h : Nat) : Nat := h / 2 ^ 8 % 2 ^ 13

/-- R288: MAQ of a record. -/
def recordMaq (h : Nat) : Bool := h.testBit 49

/-- R289: the error code of a record's header at the queue's read index, if it has one; the lowest of several. DESIGN CHOICE
(assumption 119). -/
def Queue.recordError (q : Queue) (h : Nat) : Option Nat :=
  let typ := h % 256
  let len := recordLength h
  let most := if typ = 1 then 4096 else if typ = 2 ∧ recordMaq h then 2 else 1
  let fewest := if typ = 2 ∧ recordMaq h then 2 else 1
  if typ = 0 ∨ 5 < typ ∨ h / 2 ^ 21 % 2 ^ 11 ≠ 0 ∨ h / 2 ^ 50 % 2 ^ 14 ≠ 0 ∨ (recordMaq h ∧ typ ≠ 2) then some 1
  else if len < fewest ∨ most < len then some 2
  else if 2 ^ q.lsize < q.ridx % 2 ^ q.lsize + 64 * len then some 3
  else if q.widx < q.ridx + 64 * len then some 6
  else none

/-- What stands at a queue's read index. -/
inductive QueueHead where
  | idle
  | bad (code : Nat)
  | found (header : Nat)
deriving DecidableEq, Repr

/-- R287: the address of the byte at an index of a ring. -/
def Queue.address (q : Queue) (i : Nat) : Word := q.ring + BitVec.ofNat 64 (i % 2 ^ q.lsize)

/-- R287, R289: the record at a queue's read index. -/
def State.queueHead (s : State) (q : Queue) : QueueHead :=
  if q.stopped ∨ q.widx ≤ q.ridx then .idle
  else match s.frontWord q.ctx (q.address q.ridx) 8 with
    | .error _ => .bad 5
    | .ok h => match q.recordError h with
      | some c => .bad c
      | none => .found h

/-- QUEUE_ERROR (R289): the queue stops and stores its error word. -/
def State.stopQueue (s : State) (q : Queue) (code : Nat) : State :=
  let s1 := s.putQueue { q with stopped := true }
  s1.engineWriteOr frontEnd q.ctx q.errVa (natBytes 8 (code + 256 * (q.ridx % 2 ^ 56)))

/-- R287: a record is behind the queue: RIDX moves past it and is stored. -/
def State.passRecord (s : State) (q : Queue) (len : Nat) : State :=
  let q1 := { q with ridx := q.ridx + 64 * len }
  (s.putQueue q1).engineWriteOr frontEnd q.ctx q.ridxVa (natBytes 8 q1.ridx)

/-- PAD_RECORD, QUEUE_ERROR (R288, R289): PAD records are consumed, and a wrong record stops the queue. -/
def State.settleQueue (s : State) (fuel : Nat) (k : Nat) : State :=
  match fuel with
  | 0 => s
  | fuel + 1 =>
    match s.queue? k with
    | none => s
    | some q =>
      match s.queueHead q with
      | .idle => s
      | .bad c => s.stopQueue q c
      | .found h => if h % 256 = 1 then (s.passRecord q (recordLength h)).settleQueue fuel k else s

/-- A record of a queue is behind it, and the records after it are looked at. -/
def State.nextRecord (s : State) (q : Queue) (len : Nat) : State :=
  (s.passRecord q len).settleQueue (2 ^ q.lsize / 64 + 1) q.id

/-- R288: every launch that a queue has handed over has completed. -/
def State.queueIdle (s : State) (k : Nat) : Bool :=
  s.launches.all (fun l => decide (l.queue ≠ some k) || l.complete)

/-- A step on the record of type `typ` at the head of a queue. -/
def onRecord (k typ : Nat) (s : State) (f : Queue → Nat → State) : Host.Outcome State Fault Refusal :=
  match s.queue? k with
  | none => .next s
  | some q =>
    match s.queueHead q with
    | .found h => .next (if h % 256 = typ then f q h else s)
    | _ => .next s

/-- QUEUE_WAKE (R287, R289): reads the write index; one that has not moved is ignored. DESIGN CHOICE (assumption 51). -/
def execQueueWake (queue : Nat) (s : State) : Host.Outcome State Fault Refusal :=
  match s.queue? queue with
  | none => .next s
  | some q =>
    if q.stopped then .next s
    else match s.frontWord q.ctx q.widxVa 8 with
      | .error _ => .next (s.stopQueue q 5)
      | .ok w =>
        if w = q.widx then .next s
        else if 2 ^ q.lsize < (w + 2 ^ 64 - q.ridx % 2 ^ 64) % 2 ^ 64 then .next (s.stopQueue q 4)
        else .next ((s.putQueue { q with widx := w }).settleQueue (2 ^ q.lsize / 64 + 1) queue)

/-- WAITMEM_RECORD (R288, R289). -/
def execWaitmemRecord (queue : Nat) (s : State) : Host.Outcome State Fault Refusal :=
  onRecord queue 3 s (fun q _ =>
    match s.frontRead q.ctx (q.address q.ridx) 24 with
    | .error _ => s.stopQueue q 5
    | .ok bs =>
      match s.frontWord q.ctx (BitVec.ofNat 64 (wordAt bs 8 8)) 8 with
      | .error _ => s.stopQueue q 5
      | .ok v => if wordAt bs 16 8 ≤ v then s.nextRecord q 1 else s)

/-- R287: does the store of a SIGNAL record of a queue await its reply? -/
def State.signalling (s : State) (queue : Nat) : Bool :=
  s.writes.any (fun e => match e.2 with
    | .signal k _ => decide (k = queue)
    | .final _ _ => false)

/-- A reply to a request of the front end's own is consumed. -/
def State.settleWrite (s : State) (id : Nat) : State :=
  { s.consume [id] with writes := s.writes.filter (fun e => decide (e.1 ≠ id)) }

/-- R287, R289: the store of a SIGNAL record has its reply: the record is behind the queue, or the queue stops. -/
def State.endSignal (s : State) (q : Queue) : State :=
  match s.writes.find? (fun e => match e.2 with
    | .signal k _ => decide (k = q.id)
    | .final _ _ => false) with
  | none => s
  | some (id, _) => match s.replyTo id with
    | none => s
    | some p => if (replyCause p).isSome then (s.settleWrite id).stopQueue q 5 else (s.settleWrite id).nextRecord q 1

/-- SIGNAL_RECORD (R287, R288, R289): the record is behind the queue once its store is done. -/
def execSignalRecord (queue : Nat) (s : State) : Host.Outcome State Fault Refusal :=
  onRecord queue 4 s (fun q _ =>
    if s.signalling queue then s.endSignal q
    else if !s.queueIdle queue then s
    else match s.frontRead q.ctx (q.address q.ridx) 24 with
      | .error _ => s.stopQueue q 5
      | .ok bs =>
        let va := BitVec.ofNat 64 (wordAt bs 8 8)
        match s.frontStore q.ctx va (wordAt bs 16 8) with
        | .error _ => s.stopQueue q 5
        | .ok (some id, t) => t.awaitWrite (some id) (.signal queue va)
        | .ok (none, t) => t.nextRecord q 1)

/-- BARRIER_RECORD (R288). -/
def execBarrierRecord (queue : Nat) (s : State) : Host.Outcome State Fault Refusal :=
  onRecord queue 5 s (fun q _ => if s.queueIdle queue then s.nextRecord q 1 else s)

/-! ## Launch records (R290) -/

/-- A launch record of which nothing is known. -/
def blankRecord : LaunchRecord :=
  { tag := 0, ord := false, maq := false, img := 0, grid := 0, done := 0, cntr := 0, shaddr := 0, px := 0, psel := 0,
    fx := 0, lx := 0, arena := 0, quota := 0, badRes := false, hcnt := 0, args := [] }

/-- An image header of which nothing is known. -/
def blankHeader : Header :=
  { bytes := [], saved := false, entry := 0, grid := 0, threads := 0, clsize := 1, debug := false, red := false, part := 0,
    roles := [], budget := 0, wres := 0, deadline := 0, spill := 0, spillN := 0, slack := 0, ckpta := 0, live := 0,
    nlive := 0, nrest := 0, rest := 0, sdecl := 0, save := 0, svals := [] }

/-- A launch that has not started. -/
def newLaunch (id : Nat) (queue : Option Nat) (ctx : BitVec 32) (fsrv : BitVec 13) (sup : Bool) (r : LaunchRecord) : Launch :=
  { id := id, queue := queue, ctx := ctx, fsrv := fsrv, super := sup, record := r, header := blankHeader,
    started := false, predict := 0, shape := none, judged := false, truth := none, applied := false, next := 0,
    limit := 0, redo := [], status := none, torn := false, saving := .no, savedBlk := [], savedOps := [],
    sliceDue := false, replay := false, complete := false, code := [], finals := 0 }

/-- LAUNCH_RECORD (R290): a launch that has not started holds back every record after it. -/
def execLaunchRecord (queue : Nat) (s : State) : Host.Outcome State Fault Refusal :=
  onRecord queue 2 s (fun q h =>
    if s.launches.any (fun l => decide (l.queue = some queue) && !l.started) then s
    else
      let r := { blankRecord with tag := BitVec.ofNat 16 (h / 2 ^ 32), ord := h.testBit 48, maq := recordMaq h }
      { s with
        nextId := s.nextId + 1
        launches := s.launches ++ [newLaunch s.nextId (some queue) q.ctx q.fsrv (!s.userCtx q.ctx) r] })

/-- R290: the fields of a record's bytes beside its header's. -/
def LaunchRecord.fill (r : LaunchRecord) (bs : List Byte) : LaunchRecord :=
  let w := fun (k : Nat) => wordAt bs (8 * k) 8
  let r1 := { r with
    img := BitVec.ofNat 64 (w 1)
    grid := BitVec.ofNat 64 (w 2)
    done := BitVec.ofNat 64 (w 3)
    cntr := BitVec.ofNat 64 (w 4)
    badRes := decide (w 5 ≠ 0 ∨ w 6 ≠ 0 ∨ w 7 ≠ 0) }
  if !r.maq then r1
  else
    { r1 with
      shaddr := BitVec.ofNat 64 (w 8)
      px := w 9 % 2 ^ 24
      psel := w 9 / 2 ^ 24 % 4
      fx := w 10 % 2 ^ 24
      lx := w 10 / 2 ^ 24 % 2 ^ 24
      arena := BitVec.ofNat 64 (w 11)
      quota := w 12 % 2 ^ 32
      badRes := r1.badRes || decide (w 9 / 2 ^ 26 ≠ 0 ∨ w 10 / 2 ^ 48 ≠ 0 ∨ w 12 / 2 ^ 32 ≠ 0 ∨ w 13 ≠ 0 ∨ w 14 ≠ 0 ∨
        w 15 ≠ 0) }

/-! ## Images (R357, R371) -/

/-- R357: the fields of a header's 768 bytes. -/
def parseHeader (bs : List Byte) : Header :=
  let w := fun (off n : Nat) => wordAt bs off n
  let word := fun (off : Nat) => BitVec.ofNat 64 (w off 8)
  { bytes := bs, saved := decide (w 2 1 % 16 = 1), entry := word 8, grid := word 0x10, threads := w 0x18 2 % 2 ^ 11,
    clsize := w 0x1A 1 % 16 + 1, debug := decide (w 0x1A 1 / 16 % 2 = 1), red := decide (w 0x1A 1 / 32 % 2 = 1),
    part := BitVec.ofNat 32 (w 0x1C 4),
    roles := [(w 0x20 1, w 0x21 1), (w 0x22 1, w 0x23 1), (w 0x24 1, w 0x25 1)], budget := w 0x21 1,
    wres := w 0x28 4 % 2 ^ 17, deadline := w 0x2C 4, spill := word 0x30, spillN := w 0x38 2, slack := w 0x3A 2 % 2 ^ 10,
    ckpta := word 0x40, live := word 0x48, nlive := w 0x50 2, nrest := w 0x52 2, rest := word 0x58, sdecl := word 0x60,
    save := word 0x88, svals := (List.range 64).map (fun n => word (0x100 + 8 * n)) }

/-- R357, R371: a header breaks a range, a reserved bit, or a rule of a redundant launch. -/
def headerMalformed (bs : List Byte) : Bool :=
  let w := fun (off n : Nat) => wordAt bs off n
  let h := parseHeader bs
  decide (w 0 2 ≠ 1 ∨ 1 < w 2 1 % 16 ∨ w 0 8 / 2 ^ 20 ≠ 0 ∨ w 8 1 % 2 ≠ 0) ||
  decide (h.threads = 0 ∨ 1536 < h.threads ∨ w 0x18 2 / 2 ^ 11 ≠ 0 ∨ w 0x18 4 / 2 ^ 22 ≠ 0 ∨ w 0x26 2 ≠ 0) ||
  decide (98304 < h.wres ∨ h.wres % 64 ≠ 0 ∨ w 0x28 4 / 2 ^ 17 ≠ 0 ∨ h.spill.toNat % 64 ≠ 0) ||
  decide (512 < h.slack ∨ w 0x38 8 / 2 ^ 26 ≠ 0 ∨ 4095 < h.nlive ∨ 4095 < h.nrest ∨ w 0x54 4 ≠ 0) ||
  decide (h.sdecl &&& 0xE800000000000001#64 ≠ 0 ∨ h.save.toNat % 65536 ≠ 0 ∨ w 0x94 4 ≠ 0) ||
  (List.range 13).any (fun k => decide (w (0x98 + 8 * k) 8 ≠ 0)) ||
  (h.red && decide (h.slack = 0 ∨ h.ckpta = 0 ∨ h.ckpta.toNat % 65536 ≠ 0))

/-- R95: the groups of a block. -/
def Header.groupCount (h : Header) : Nat := (h.threads + 95) / 96

/-- R108: for each group its role, its number in the role, and its budget. DEDUCED (assumption 54). -/
def Header.plan (h : Header) : List (Nat × Nat × Nat) :=
  if h.roles.all (fun r => decide (r.1 = 0)) then (List.range h.groupCount).map (fun k => (0, k, h.budget))
  else h.roles.zipIdx.flatMap (fun r => (List.range r.1.1).map (fun k => (r.2 + 1, k, r.1.2)))

/-- R194: the share of a partition word in KiB. -/
def shareKib (part : BitVec 32) : Nat :=
  part.toNat % 256 * 4 + part.toNat / 256 % 256 * 4 + part.toNat / 65536 % 256 * 12

/-- R194, R291: a partition error. -/
def Header.partitionBad (h : Header) : Bool :=
  let p := h.part.toNat
  decide (p / 2 ^ 24 ≠ 0 ∨ p % 256 = 0 ∨ 128 < p % 256 ∨ 128 < p / 256 % 256 ∨ 32 < p / 65536 % 256 ∨ 512 < shareKib h.part) ||
  decide (p % 256 * 4096 < (h.plan.foldl (fun n r => n + r.2.2) 0) * 384)

/-- R290, R291: the parameter errors that the record alone shows. -/
def LaunchRecord.parameterBad (r : LaunchRecord) : Bool :=
  let x := r.grid.toNat % 2 ^ 24
  r.badRes || decide (r.grid ≠ 0 ∧ (x = 0 ∨ r.grid.toNat / 2 ^ 24 % 2 ^ 20 = 0 ∨ r.grid.toNat / 2 ^ 44 = 0)) ||
  (r.maq && decide (r.psel = 3 ∨ r.lx < r.fx ∨ r.lx = 0 ∨ (r.arena ≠ 0 ∧ r.quota % 64 ≠ 0) ∨ (r.grid ≠ 0 ∧ x ≠ r.lx)))

/-- The number of blocks of a launch's grid. -/
def Launch.blockCount (l : Launch) : Nat := l.gridX * l.gridY * l.gridZ

/-- R291, R371: the parameter errors of a record with its image. -/
def Launch.parameterBad (l : Launch) : Bool :=
  let h := l.header
  l.record.parameterBad || decide (l.blockCount = 0 ∨ h.groupCount = 0 ∨ 16 < h.groupCount) ||
  decide (h.plan.length ≠ h.groupCount) || h.plan.any (fun r => decide (r.2.2 % 8 ≠ 0 ∨ r.2.2 < 8 ∨ 128 < r.2.2)) ||
  decide (l.blockCount % h.clsize ≠ 0) || (h.red && decide (h.clsize ≠ 1)) ||
  decide (16 * (512 / shareKib h.part) < h.clsize) ||
  (l.record.maq && decide (h.clsize ≠ 1 ∨ l.gridX ≠ l.record.lx))

/-! ## Predictions (R300, R301) -/

/-- The predictor's entry of a tag. -/
def Queue.predictorOf (q : Queue) (tag : BitVec 16) : Option Predictor := q.predictor.find? (fun e => e.tag == tag)

/-- An entry has been used: it is the most recent one. -/
def Queue.touch (q : Queue) (tag : BitVec 16) : Queue :=
  { q with predictor := q.predictor.filter (fun e => e.tag != tag) ++ q.predictor.filter (fun e => e.tag == tag) }

/-- R300: the value v of an entry for PSEL; EXPLICIT is judged as MAX4 (R301). -/
def Predictor.value (e : Predictor) (psel : Nat) : Nat :=
  if psel = 0 then e.hist.getLastD 0 else e.hist.foldl max 0

/-- R300: the prediction P. -/
def LaunchRecord.predict (r : LaunchRecord) (e : Option Predictor) : Nat :=
  if r.psel = 2 then min (max r.px r.fx) r.lx
  else match e with
    | some e => if e.conf = 0 then r.fx else min (max (e.value r.psel) r.fx) r.lx
    | none => r.fx

/-- R301: an entry after a true x. -/
def Predictor.learn (e : Predictor) (psel x : Nat) : Predictor :=
  let v := e.value psel
  let good := decide (x ≤ v) && decide (v - x ≤ max 1 (x / 4))
  let hist := e.hist ++ [x]
  { e with conf := if good then min (e.conf + 1) 3 else e.conf - 1, hist := hist.drop (hist.length - 4) }

/-- PREDICTOR_UPDATE (R301): a queue's predictor after a true x for a tag. -/
def Queue.learn (q : Queue) (tag : BitVec 16) (psel x : Nat) : Queue :=
  match q.predictorOf tag with
  | some e =>
    { q with predictor := q.predictor.filter (fun y => y.tag != tag) ++ [e.learn psel x] }
  | none =>
    let kept := if 64 ≤ q.predictor.length then q.predictor.drop 1 else q.predictor
    { q with predictor := kept ++ [⟨tag, [x], 1⟩] }

/-! ## Shapes (R306) -/

/-- The x of a shape record. -/
def Shape.x (h : Shape) : Nat := h.low.toNat % 2 ^ 24
/-- The y of a shape record. -/
def Shape.y (h : Shape) : Nat := h.low.toNat / 2 ^ 24 % 2 ^ 20
/-- The z of a shape record. -/
def Shape.z (h : Shape) : Nat := h.low.toNat / 2 ^ 44 % 2 ^ 20

/-- SHAPE_JUDGE (R306, R449): a launch takes its published shape: malformed, beyond the limit, or accepted, which enters the
context. -/
def State.judgeShape (s : State) (l : Launch) (h : Shape) : State :=
  let l1 := { l with shape := some h, judged := true, applied := false }
  if h.y = 0 ∨ h.y ≠ l.gridY ∨ h.z ≠ l.gridZ then
    (s.putLaunch { l1 with status := some (l.status.getD 5) }).report l.id 0
      { cause := 0x87, kind := 3, arg0 := h.low, arg1 := h.high }
  else if l.record.lx < h.x then
    (s.putLaunch { l1 with truth := some h.x, status := some (l.status.getD 4) }).report l.id 0
      { cause := 0x81, kind := 3, arg0 := h.low, arg1 := h.high }
  else
    let (ws, s0) := s.enter l.ctx 4 0 [h.low, h.high]
    let shape : Shape := ⟨ws.getD 0 h.low, ws.getD 1 h.high⟩
    let s1 := s0.putLaunch { l1 with shape := some shape, truth := some shape.x }
    match l.queue.bind s1.queue? with
    | some q => s1.putQueue (q.learn l.record.tag l.record.psel shape.x)
    | none => s1

/-! ## Starting (R290, R291, R366) -/

/-- The blocks that a started launch places before its true shape is known (R302). -/
def Launch.firstLimit (l : Launch) : Nat :=
  if l.record.maq then l.predict * l.gridY * l.gridZ else l.blockCount

/-- R291: a launch that starts no block. -/
def State.failLaunch (s : State) (l : Launch) (st : Nat) : State :=
  s.putLaunch { l with started := true, status := some st, limit := 0 }

/-- R366: the launch that a saved image of this device continues. DESIGN CHOICE (assumption 55). -/
def State.savedLaunch (s : State) (l : Launch) : Option Launch :=
  s.launches.find? (fun x => x.saving == .saved && x.header.save == l.record.img && x.ctx == l.ctx && !x.complete)

/-- R366, R204: a saved launch goes on: its saved blocks wait to be placed, and no replica of it is left. -/
def State.resumeLaunch (s : State) (l : Launch) : State :=
  (s.putLaunch { l with saving := .no, sliceDue := false }).dropReplicas l.id

/-- R306: a maquette launch starts as `l1` says, and reads its shape record. -/
def State.startShaped (s : State) (l l1 : Launch) : State :=
  match s.frontRead l.ctx l.record.shaddr 16 with
  | .error _ => s.failLaunch l 3
  | .ok bs =>
    if l.record.shaddr.toNat % 16 ≠ 0 then s.failLaunch l 3
    else
      let s1 := s.putLaunch l1
      let shape : Shape := ⟨BitVec.ofNat 64 (wordAt bs 0 8), BitVec.ofNat 64 (wordAt bs 8 8)⟩
      if shape.y = 0 then s1 else s1.judgeShape l1 shape

/-- R300, R306: a launch with a good image starts. -/
def State.startGood (s : State) (l : Launch) : State :=
  if !l.record.maq then s.putLaunch { l with started := true, limit := l.blockCount }
  else
    let e := (l.queue.bind s.queue?).bind (fun q => q.predictorOf l.record.tag)
    let l1 := { l with started := true, predict := l.record.predict e }
    let s1 := match l.queue.bind s.queue? with
      | some q => if l.record.psel = 2 then s else s.putQueue (q.touch l.record.tag)
      | none => s
    s1.startShaped l { l1 with limit := l1.firstLimit }

/-! ## The dispatcher (R293, R294, R371) -/

/-- R293, R302: the linear index of the block that is placed as number `k`: normal blocks ascending, then tentative blocks
by x, then tail blocks ascending. DEDUCED (assumption 43). -/
def Launch.nth (l : Launch) (k : Nat) : Nat :=
  if !l.record.maq then k
  else
    let rows := l.gridY * l.gridZ
    let fx := l.record.fx
    let p := l.predict
    if k < fx * rows then k / fx * l.gridX + k % fx
    else if k < p * rows then
      let j := k - fx * rows
      j % rows * l.gridX + (fx + j / rows)
    else
      let j := k - p * rows
      let n := l.truth.getD p - p
      j / n * l.gridX + (p + j % n)

/-- The blocks of a launch that are still to be placed: saved ones, those to be placed again, and those never placed; none
between the judgement of a shape and its application, which the front end makes one step (R305). -/
def Launch.hasNext (l : Launch) : Bool :=
  l.started && !l.complete && !l.torn && decide (l.saving = .no) && (!l.record.maq || !l.judged || l.applied) &&
  (!l.savedBlk.isEmpty || !l.redo.isEmpty || decide (l.next < l.limit))

/-- R293: a queue's key for the dispatcher, its priority and its quantum; a spawn window counts as a queue (R423). -/
def State.queueKey (s : State) (l : Launch) : Nat × Nat × Nat :=
  match l.queue.bind s.queue? with
  | some q => (2 * q.id, q.prio, q.quant)
  | none => (2 * l.ctx.toNat + 1, 0, 64)

/-- The launches that have blocks to place. -/
def State.waiters (s : State) : List Launch := s.launches.filter Launch.hasNext

/-- R293: no queue of a higher priority has blocks to place, and the launch is the oldest of its queue that has. -/
def State.mayPlace (s : State) (l : Launch) : Bool :=
  let k := s.queueKey l
  s.waiters.all (fun x =>
    let j := s.queueKey x
    decide (k.2.1 ≤ j.2.1) && (decide (j.1 ≠ k.1) || decide (l.id ≤ x.id)))

/-- R293: the blocks already placed on this visit to the launch's queue, when the visit may go on or begin now; `full`
says of a launch and a number of blocks placed that the visit is over. -/
def State.visitOf (s : State) (full : Launch → Nat → Bool) (l : Launch) : Option Nat :=
  let k := s.queueKey l
  let peers := s.waiters.filter (fun x => (s.queueKey x).2.1 == k.2.1)
  let keys := peers.map (fun x => (s.queueKey x).1)
  match s.visits.find? (fun v => v.1 == k.2.1) with
  | none => some 0
  | some v =>
    let over' := match peers.find? (fun x => (s.queueKey x).1 == v.2.1) with
      | some x => full x v.2.2
      | none => true
    if v.2.1 = k.1 then
      if !over' then some v.2.2
      else if keys.all (fun j => decide (j = k.1)) then some 0 else none
    else
      let later := keys.filter (fun j => decide (v.2.1 < j))
      let next := if later.isEmpty then least 0 keys else least 0 later
      if !over' then none
      else if next = k.1 then some 0 else none

/-- R293: the visit after `n` more blocks. -/
def State.countVisit (s : State) (l : Launch) (n : Nat) : State :=
  let k := s.queueKey l
  { s with visits := (k.2.1, k.1, n) :: s.visits.filter (fun v => v.1 != k.2.1) }

/-- The blocks that hold a share of a core's pool; one that has ended fatally holds none, though its scratchpad stays
readable (R355). DESIGN CHOICE (assumption 119). -/
def State.residents (s : State) (core : Nat) : List Block := s.blocks.filter (fun b => b.core == core && !b.ended)

/-- R294: the KiB of a core's pool that are taken. -/
def State.poolTaken (s : State) (core : Nat) : Nat :=
  (s.residents core).foldl (fun n b => n + (match s.launch? b.launch with
    | some l => shareKib l.header.part
    | none => 0)) 0

/-- R105: the compacted groups of a block that hold slots. -/
def Block.packed (b : Block) : List Group :=
  match b.region with
  | some (cs, _) => cs.filter (fun c => c.started && decide (c.status ≠ .ended ∧ c.status ≠ .waiting .regionEnd))
  | none => []

/-- R105: the groups of a block that hold slots: the compacted ones of an open region, else all of its groups, which keep
their slots until the block ends. DESIGN CHOICE (assumption 117). -/
def Block.holders (b : Block) : List Group := if b.region.isSome then b.packed else b.groups

/-- The groups that hold slots of a core (R294, R105). -/
def State.groupsOn (s : State) (core : Nat) : List Group := (s.residents core).flatMap Block.holders

/-- R105: the slots that a block needs: one for each of its groups, or more where an open region has taken more. -/
def Block.slotCount (b : Block) : Nat := max b.groups.length b.packed.length

/-- R105, R294: the resident groups of a core. -/
def State.residentCount (s : State) (core : Nat) : Nat := (s.residents core).foldl (fun n b => n + b.slotCount) 0

/-- R294, R200, R446: does a core have room for one more block of an image? -/
def State.coreHasRoom (s : State) (h : Header) (core : Nat) : Bool :=
  decide (core < 4096) && !(s.core core).fenced && decide (s.poolTaken core + shareKib h.part ≤ 512) &&
  decide (s.residentCount core + h.groupCount ≤ 32) && decide (s.weightTaken core + h.wres ≤ 98304)

/-- R33: the hearth of a core position, over the whole device. -/
def hearthOf (core : Nat) : Nat := core / 16

/-- The lowest scheduler slot of a core that is free. -/
def freeSlot (used : List Nat) : Nat := ((List.range 32).find? (fun k => !used.contains k)).getD 0

/-- R16, R33, R95, R99, R108, R195: group `gid` of a fresh image. DESIGN CHOICE (assumption 4). -/
def freshGroup (l : Launch) (gid : Nat) (role : Nat × Nat × Nat) (slot : Nat) (active : Bool) : Group :=
  let h := l.header
  let n := min 96 (h.threads - 96 * gid)
  let all := min 96 ((n + 3) / 4 * 4)
  let present := maskOf (fun x => decide (x < all))
  let declared := runCells 0 64 (fun k => if h.sdecl.getLsbD k then h.svals.getD k 0 else 0)
  let scalars := l.record.args.zipIdx.foldl (fun c e => writeCell c (e.2 + 1) e.1) declared
  let g : Group :=
    { pc := h.entry, scalars := scalars, exec := present, present := present,
      helper := maskOf (fun x => decide (n ≤ x ∧ x < all)), vectors := [], preds := [], flags := [], brackets := [],
      rng := [], frm := 0, ten := 0, chk := false, invtol := 0, invst := 0, repidx := 0, idz := false, stoseed := 0,
      opkey := 0, cklive := 0xFFF, fstrm := 1, sepc := 0, gid := gid, role := role.1, roleGid := role.2.1,
      budget := role.2.2, slot := slot, entries := [], hazards := [], copies := [], copySeal := 0, matrix := [],
      matSeal := 0, walk := none, rlabel := none, redo := 0, arrivedB := false, arrivedC := false,
      status := .running, halt := none, stop := none, active := active, readyAt := 0, pending := none, holds := [],
      sigs := [], met := none, carrier := [], started := true, pace := 0, aim := none, remote := [] }
  g.seed 0

/-- The groups of a fresh block, in free slots of its core. -/
def State.freshGroups (s : State) (l : Launch) (core : Nat) : List Group :=
  let there := s.groupsOn core
  let n := (there.filter Group.active).length
  (l.header.plan.zipIdx.foldl (fun (acc : List Group × List Nat) (r : (Nat × Nat × Nat) × Nat) =>
    let slot := freeSlot acc.2
    (acc.1 ++ [freshGroup l r.2 r.1 slot (decide (n + acc.1.length < 8))], slot :: acc.2))
    ([], there.map Group.slot)).1

/-- R302: the mode in which a block of a launch starts, from its x. -/
def Launch.modeOf (l : Launch) (lin : Nat) : Mode :=
  let x := lin % max 1 l.gridX
  if l.record.maq && decide (l.record.fx ≤ x) && !l.judged then .tentative else .normal

/-- A fresh block of a launch, numbered `id`. -/
def State.freshBlock (s : State) (l : Launch) (id lin core : Nat) (pair : Option Pair) : Block :=
  { id := id, launch := l.id, lin := lin, core := core, groups := s.freshGroups l core, region := none, seq := 0,
    spillCap := l.header.spillN, scratch := [], acc := [], poison := 0, weights := [], arena := 0, allocs := [],
    mode := l.modeOf lin, pair := pair, fatal := false, took85 := false, ended := false, epoch := (0, 0), hard := false }

/-- R431: the accesses of a launch follow the acquires that it was started after. -/
def State.addBlock (s : State) (b : Block) : State :=
  ({ s with blocks := s.blocks ++ [b] }).dropClean b.core

/-- Place a fresh block, if its core has room. -/
def State.placeFresh (s : State) (l : Launch) (lin core : Nat) : Option State :=
  if s.coreHasRoom l.header core then
    let s1 := { s with nextId := s.nextId + 1 }
    some (s1.addBlock (s.freshBlock l s.nextId lin core none))
  else none

/-- R371, R379: place a fresh pair on cores of different hearths, with a checkpoint of every group. -/
def State.placePair (s : State) (l : Launch) (lin core core' : Nat) : Option State :=
  if hearthOf core = hearthOf core' ∨ !s.coreHasRoom l.header core ∨ !s.coreHasRoom l.header core' then none
  else
    let half := fun (partner : Nat) (leading : Bool) =>
      (⟨partner, leading, List.replicate l.header.groupCount 0, [], []⟩ : Pair)
    let s0 := { s with nextId := s.nextId + 2 }
    let s1 := s0.addBlock (s.freshBlock l s.nextId lin core (some (half (s.nextId + 1) true)))
    let s2 := s1.addBlock (s1.freshBlock l (s.nextId + 1) lin core' (some (half s.nextId false)))
    some ((List.range l.header.groupCount).foldl (fun (x : State) k =>
      match x.block? s.nextId with
      | some lead => x.checkpoint lead k true
      | none => x) s2)

/-- R366, R106: groups of a saved block go on, and those that `holds` names take free slots; of them, those that run join an
active set of `n` groups while it has room. -/
def wakeGroups (holds : Group → Bool) (n : Nat) (used : List Nat) (gs : List Group) : List Group :=
  match gs with
  | [] => []
  | g :: rest =>
    let awake := match g.status with
      | .saved _ => { g with status := .running }
      | _ => g
    if holds g then
      let slot := freeSlot used
      let active := decide (n < 8) && decide (awake.status = .running)
      { awake with slot := slot, active := active } :: wakeGroups holds (if active then n + 1 else n) (slot :: used) rest
    else awake :: wakeGroups holds n used rest

/-- R366, R106: the groups of a saved block as they go on: an open region stays packed, and its compacted groups hold the
slots. -/
def Block.awake (b : Block) (there : List Group) : Block :=
  let n := (there.filter Group.active).length
  let used := there.map Group.slot
  match b.region with
  | none => { b with groups := wakeGroups (fun _ => true) n used b.groups, hard := false }
  | some (cs, pc) =>
    { b with
      groups := wakeGroups (fun _ => false) n used b.groups
      region := some (wakeGroups (fun c => c.started && decide (c.status ≠ .ended ∧ c.status ≠ .waiting .regionEnd)) n used cs, pc)
      hard := false }

/-- R200, R366, R368: a saved block is resident again on a core: its groups take slots and go on, its operators, of which a
core holds eight at most, are to be installed there, and, since its groups may have read newer values elsewhere, the core's
path caches hold nothing old (R236). -/
def State.placeSaved (s : State) (l : Launch) (b : Block) (core : Nat) : Option State :=
  let mine := l.savedOps.filter (fun o => o.blk == b.id)
  if !s.coreHasRoom l.header core || decide (32 < s.residentCount core + b.slotCount) ||
      decide (8 < (s.core core).ops.length + mine.length) then none
  else
    let ops := mine.foldl (fun (acc : List Operator) (o : Operator) =>
      acc ++ [{ o with parked := true, reinstall := true, index := freeIndex ((s.core core).ops ++ acc) }]) []
    let s0 := { s with
      aheads := s.aheads.filter (fun e => decide (e.group.blk ≠ b.id))
      earlies := s.earlies.filter (fun e => decide (e.group.blk ≠ b.id)) }
    let s1 := s0.addBlock { b.awake (s.groupsOn core) with core := core }
    let c := s1.core core
    let s2 := s1.putCore { c with ops := c.ops ++ ops, constant := [], sampler := [] }
    match s2.launch? l.id with
    | some x => some (s2.putLaunch { x with
        savedBlk := x.savedBlk.filter (fun y => y.id != b.id)
        savedOps := x.savedOps.filter (fun o => o.blk != b.id) })
    | none => some s2

/-! ## Images that another device saved (R365, R366) -/

/-- R365: group `gid` of a block record whose layout is not architectural: what the save kept holds values that nothing
constrains. DESIGN CHOICE (assumption 55). -/
def foreignGroup (l : Launch) (tick lin : Nat) (r : Nat × Nat × Nat) (gid : Nat) : Group :=
  let key := fun (k : Nat) => 2 ^ 20 * (16 * lin + gid) + 2 ^ 16 + k
  let nat := fun (k : Nat) => Config.freeNat tick (key k)
  let mask := fun (k : Nat) => (BitVec.ofNat 96 (nat k) : Mask)
  let g := freshGroup l gid r 0 false
  { g with
    pc := Config.freeWord tick (key 0) &&& ~~~1#64
    exec := g.exec &&& mask 1
    present := g.present &&& mask 2
    scalars := runCells 0 61 (fun n => if n = 0 then 0 else Config.freeWord tick (key (100 + n)))
    vectors := runCells 0 (96 * g.budget) (fun k => Config.freeLane tick (key (1000 + k)))
    preds := runCells 0 8 (fun p => if p = 0 then 0 else mask (200 + p))
    flags := runCells 0 14 (fun n => if n < 8 then 0 else mask (220 + n))
    brackets := runCells 0 1536 (fun k => Config.freeLane tick (key (20000 + k)))
    rng := runCells 0 96 (fun k => Config.freeLane tick (key (30000 + k)))
    frm := BitVec.ofNat 3 (nat 3 % 5), ten := BitVec.ofNat 7 (nat 4), chk := Config.freeBool tick (key 5)
    invtol := BitVec.ofNat 32 (nat 6), invst := BitVec.ofNat 12 (nat 7 % 34 + 64 * nat 8), repidx := BitVec.ofNat 6 (nat 9)
    idz := Config.freeBool tick (key 10), stoseed := BitVec.ofNat 32 (nat 11), opkey := BitVec.ofNat 16 (nat 12)
    cklive := BitVec.ofNat 12 (nat 13), fstrm := BitVec.ofNat 12 (nat 14), sepc := Config.freeWord tick (key 15)
    copySeal := nat 16, matSeal := nat 17
    entries := (List.range (nat 18)).map (fun k =>
      ⟨[EntryKind.join, .path, .call].getD (nat (40000 + 4 * k) % 3) .join,
       Config.freeWord tick (key (40001 + 4 * k)) &&& ~~~1#64, g.present &&& mask (40002 + 4 * k), k, none⟩)
    walk := if Config.freeBool tick (key 19) then
        some ⟨(List.range (nat 20)).map (fun k => nat (300 + k)), nat 21, nat 22⟩ else none
    rlabel := if Config.freeBool tick (key 23) then some (nat 24, nat 25) else none
    status := if Config.freeBool tick (key 26) then .ended else .saved none }

/-- R365: a block record that another device wrote: its linear index, and state that nothing constrains. -/
def State.foreignBlock (s : State) (l : Launch) (id lin : Nat) (pair : Option Pair) : Block :=
  let key := fun (k : Nat) => 2 ^ 20 * (16 * lin + 15) + 2 ^ 18 + k
  { s.freshBlock l id lin 0 pair with
    groups := l.header.plan.zipIdx.map (fun r => foreignGroup l s.tick lin r.1 r.2)
    scratch := runCells 0 (scratchBytes l.header.part) (fun k => Config.freeByte s.tick (key (4 * k)))
    acc := runCells 0 (3072 * accUnits l.header.part) (fun k => Config.freeLane s.tick (key (4 * k + 1)))
    poison := BitVec.ofNat 128 (Config.freeNat s.tick (key 2))
    weights := runCells 0 l.header.wres (fun k => Config.freeByte s.tick (key (4 * k + 3)))
    arena := 64 * Config.freeNat s.tick (key 6)
    mode := .normal }

/-- R371, R365: the saved block of a linear index, or the pair that stands for it, whose checkpoints hold what was saved. -/
def State.foreignBlocks (s : State) (l : Launch) (id lin : Nat) : List Block :=
  if l.header.red then
    let whole := (s.foreignBlock l id lin none).groups.map (fun (g : Group) => { g with status := .running })
    let b := s.foreignBlock l id lin none
    let checks := whole.map (fun g => checkpointOf b l.header.part g (some g) none)
    let half := fun (partner : Nat) (leading : Bool) =>
      (⟨partner, leading, List.replicate l.header.groupCount 0, [], checks⟩ : Pair)
    [s.foreignBlock l id lin (some (half (id + 1) true)), s.foreignBlock l (id + 1) lin (some (half id false))]
  else [s.foreignBlock l id lin none]

/-- R365: the linear indexes of the block records of an image: the first word of each. DESIGN CHOICE (assumption 55). -/
def State.foreignIndexes (s : State) (l : Launch) (n : Nat) : Except Fail (List Nat) :=
  match n with
  | 0 => .ok []
  | n + 1 =>
    match s.foreignIndexes l n, s.frontWord l.ctx (l.record.img + 0x400 + BitVec.ofNat 64 (n * saveBytes l.header)) 8 with
    | .ok ks, .ok k => .ok (ks ++ [k])
    | .error f, _ => .error f
    | _, .error f => .error f

/-- R365: the launch that LREC and the fields after it describe, with the records of the blocks `ks`. Its blocks from NEXTB
on, and the tentative ones of a shape that was not accepted, are placed as usual (R366). An accepted shape's x is MT; the
last 8 bytes of its record are not in the image. It keeps the context that its header names (R357), when this device has
it. DESIGN CHOICE (assumption 55). -/
def State.foreignLaunch (s : State) (l : Launch) (bs : List Byte) (ks : List Nat) : Launch :=
  let h := wordAt bs 0x300 8
  let r := LaunchRecord.fill { blankRecord with
    tag := BitVec.ofNat 16 (h / 2 ^ 32), ord := h.testBit 48, maq := recordMaq h } ((bs.drop 0x300).take 128)
  let next := wordAt bs 0x380 8
  let mp := wordAt bs 0x390 8 % 2 ^ 24
  let mt := wordAt bs 0x390 8 / 2 ^ 24 % 2 ^ 24
  let macc := (wordAt bs 0x390 8).testBit 48
  let l0 := match s.context? (BitVec.ofNat 32 (wordAt bs 0x090 4)) with
    | some c => { l with record := r, ctx := c.ctx, super := c.super }
    | none => { l with record := r }
  let seen : Shape :=
    ⟨BitVec.ofNat 64 (mt + 2 ^ 24 * l0.gridY + 2 ^ 44 * l0.gridZ), Config.freeWord s.tick (16 * l.id + 11)⟩
  let l1 := { l0 with started := true, predict := mp, judged := macc, applied := macc,
                      truth := if macc then some mt else none, shape := if macc then some seen else none }
  let limit := if r.maq then (if macc then max mp mt else mp) * l1.gridY * l1.gridZ else l1.blockCount
  let again := ((List.range limit).map l1.nth).filter (fun k => !ks.contains k &&
    (decide (next ≤ k) || (r.maq && !macc && decide (r.fx ≤ k % max 1 l1.gridX))))
  { l1 with
    limit := limit, next := if r.maq then limit else min next limit, redo := if r.maq then again else []
    savedBlk := ks.zipIdx.flatMap (fun k => s.foreignBlocks l1 (s.nextId + 2 * k.2) k.1) }

/-- R366: the launch engine starts a saved image that this device does not hold: another KS-FQ940 saved it. -/
def State.startForeign (s : State) (l : Launch) : State :=
  match s.frontRead l.ctx l.record.img 0x400 with
  | .error _ => s.failLaunch l 3
  | .ok bs =>
    match s.foreignIndexes l (wordAt bs 0x388 4) with
    | .error _ => s.failLaunch l 3
    | .ok ks =>
      let x := s.foreignLaunch l bs ks
      let s1 := { s with nextId := s.nextId + 2 * ks.length }
      if x.record.maq && !x.judged then s1.startShaped x x else s1.putLaunch x

/-- R423, R424: a counter that is no aligned word of a HOST page. -/
def State.badCounter (s : State) (l : Launch) : Bool :=
  let va := l.record.hcnt
  if va = 0 then false
  else if va.toNat % 8 ≠ 0 then true
  else match s.translate frontEnd l.ctx (s.userCtx l.ctx) .atomic va with
    | .ok (.host _) => false
    | _ => true

/-- R291, R357, R366: the launch engine judges a launch whose record it has read. -/
def State.startLaunch (s : State) (l : Launch) : State :=
  let early := if l.record.parameterBad then 2 else 3
  if l.record.img.toNat % 64 ≠ 0 ∨ s.badCounter l then s.failLaunch l early
  else match s.frontRead l.ctx l.record.img 768 with
    | .error _ => s.failLaunch l early
    | .ok bs =>
      let l1 := { l with header := parseHeader bs }
      if l1.header.partitionBad then s.failLaunch l1 1
      else if l1.parameterBad then s.failLaunch l1 2
      else if headerMalformed bs then s.failLaunch l1 3
      else if l1.header.saved then
        match s.savedLaunch l1 with
        | some x =>
          let s1 := { s with launches := s.launches.filter (fun y => y.id != l.id) }
          s1.resumeLaunch x
        | none => s.startForeign l1
      else s.startGood l1

/-- R423: may a launch of a spawn window start now? Spawns of one window start in arrival order. -/
def State.spawnTurn (s : State) (l : Launch) : Bool :=
  s.windows.any (fun w => decide (w.queue.head? = some l.id))

/-- LAUNCH_START (R287 to R291): nothing of a stopped queue starts. -/
def execLaunchStart (launch : Nat) (s : State) : Host.Outcome State Fault Refusal :=
  match s.launch? launch with
  | none => .next s
  | some l =>
    if l.started || l.complete then .next s
    else match l.queue with
      | none =>
        if !s.spawnTurn l then .next s
        else
          let s1 := { s with
            windows := s.windows.map (fun (w : SpawnWindow) =>
              { w with queue := w.queue.filter (fun k => decide (k ≠ launch)) }) }
          .next (s1.startLaunch l)
      | some k =>
        match s.queue? k with
        | none => .next s
        | some q =>
          if q.stopped then .next s
          else if l.record.ord && s.launches.any (fun x => decide (x.queue = some k) && decide (x.id < launch) && !x.complete) then
            .next s
          else
            let len := if l.record.maq then 2 else 1
            let s1 := match s.frontRead q.ctx (q.address q.ridx) (64 * len) with
              | .error _ => s.failLaunch l 3
              | .ok bs => s.startLaunch { l with record := l.record.fill bs }
            match s1.queue? k with
            | some q1 => .next (s1.nextRecord q1 len)
            | none => .next s1

/-! ## Placement -/

/-- The blocks that a launch places next: saved ones of one cluster or pair, else one or a cluster by linear index. -/
inductive Placement where
  | saved (bs : List Block)
  | again (lin : Nat)
  | fresh (lins : List Nat)
deriving DecidableEq, Repr

/-- R293, R366: what a launch places next. Blocks that a true shape drops are passed over (R305). -/
def Launch.placement (l : Launch) : Option Placement :=
  if !l.hasNext then none
  else match l.savedBlk with
    | b :: _ => some (.saved (l.savedBlk.filter (fun x => x.lin / l.header.clsize == b.lin / l.header.clsize)))
    | [] =>
      match l.redo with
      | k :: _ => some (.again k)
      | [] => some (.fresh ((List.range l.header.clsize).map (fun k => l.nth (l.next + k))))

/-- R305: is a block that is not started dropped by the accepted shape, or by a malformed one? -/
def Launch.dropped (l : Launch) (lin : Nat) : Bool :=
  let x := lin % max 1 l.gridX
  l.record.maq && l.judged && (match l.truth with
    | some t => decide (t ≤ x)
    | none => decide (l.record.fx ≤ x))

/-- Place blocks one by one on the cores named; none when a core lacks room. -/
def placeAll {α : Type} (f : State → α → Nat → Option State) (s : State) (xs : List α) (cores : List Nat) : Option State :=
  match xs, cores with
  | [], [] => some s
  | x :: xs, c :: cores =>
    match f s x c with
    | some t => placeAll f t xs cores
    | none => none
  | _, _ => none

/-- R294: all cores of a cluster lie in one hearth. -/
def oneHearth (cores : List Nat) : Bool := cores.all (fun c => decide (hearthOf c = hearthOf (cores.headD 0)))

/-- R371: the cores of a pair lie in different hearths. -/
def pairHearths (bs : List Block) (cores : List Nat) : Bool :=
  match bs, cores with
  | [_, _], [c, d] => decide (hearthOf c ≠ hearthOf d)
  | _, _ => true

/-- Place one block of a linear index, or the pair that stands for it. -/
def State.placeOne (s : State) (l : Launch) (lin : Nat) (cores : List Nat) : Option State :=
  match cores with
  | [c] => if l.header.red then none else s.placeFresh l lin c
  | [c, d] => if l.header.red then s.placePair l lin c d else none
  | _ => none

/-- R293: how many blocks what a launch places next adds to the visit. -/
def Launch.placementSize (l : Launch) : Nat :=
  match l.placement with
  | some (.saved bs) => if l.header.red then 1 else bs.length
  | some (.again _) => 1
  | some (.fresh lins) => lins.length
  | none => 0

/-- R293: does what a launch places next fit in what is left of its queue's quantum in a visit that has placed `n` blocks? A
cluster that exceeds the whole quantum is placed at the start of a visit. DESIGN CHOICE (assumption 112). -/
def Launch.fitsVisit (l : Launch) (quant n : Nat) : Bool := decide (n = 0) || decide (n + l.placementSize ≤ quant)

/-- R293: the visit to a launch's queue may go on with what the launch places next. -/
def State.visitLeft (s : State) (l : Launch) (n : Nat) : Bool := l.fitsVisit (s.queueKey l).2.2 n

/-- R294, R366, R371: place what a launch has next on the cores named. -/
def State.placeNext (s : State) (l : Launch) (cores : List Nat) : Option (State × Nat) :=
  match l.placement with
  | none => none
  | some (.saved bs) =>
    if l.header.red then
      (if pairHearths bs cores then (placeAll (fun s b c => s.placeSaved l b c) s bs cores).map (fun t => (t, 1)) else none)
    else if oneHearth cores then (placeAll (fun s b c => s.placeSaved l b c) s bs cores).map (fun t => (t, bs.length)) else none
  | some (.again lin) =>
    let l1 := { l with redo := l.redo.drop 1 }
    if l.dropped lin then some (s.putLaunch l1, 0) else ((s.putLaunch l1).placeOne l lin cores).map (fun t => (t, 1))
  | some (.fresh lins) =>
    let l1 := { l with next := l.next + lins.length }
    match lins with
    | [lin] => if l.dropped lin then some (s.putLaunch l1, 0) else ((s.putLaunch l1).placeOne l lin cores).map (fun t => (t, 1))
    | _ =>
      if oneHearth cores then (placeAll (fun s lin c => s.placeFresh l lin c) (s.putLaunch l1) lins cores).map (fun t => (t, lins.length))
      else none

/-- BLOCK_PLACEMENT (R293, R294, R366, R371, R453): the dispatcher places a launch's next block, pair or cluster on the
cores named, if the order of R293 allows it and they have room; with no core named, it ends its visit to the queue. -/
def execBlockPlacement (launch : Nat) (cores : List Nat) (s : State) : Host.Outcome State Fault Refusal :=
  match s.launch? launch with
  | none => .next s
  | some l =>
    if !l.hasNext || s.power.holding || !s.mayPlace l then .next s
    else match s.visitOf (fun x n => !s.visitLeft x n) l with
      | none => .next s
      | some n =>
        match s.placeNext l cores with
        | some (t, k) => .next (t.countVisit l (n + k))
        | none => if cores.isEmpty then .next (s.countVisit l (s.queueKey l).2.2) else .next s

/-! ## Completion (R292, R424) -/

/-- The blocks of a launch. -/
def State.blocksOf (s : State) (launch : Nat) : List Block := s.blocks.filter (fun b => b.launch == launch)

/-- R292: every block has ended, every held effect is gone, and every engine batch of the launch has completed. -/
def State.launchOver (s : State) (l : Launch) : Bool :=
  let bs := s.blocksOf l.id
  let mine := fun (k : Nat) => bs.any (fun b => b.id == k)
  l.started && !l.complete && decide (l.saving ≠ .saved) && l.savedBlk.isEmpty &&
  (l.torn || (l.redo.isEmpty && decide (l.limit ≤ l.next))) &&
  (!l.record.maq || l.applied || l.torn || decide (l.limit = 0 ∧ l.status.isSome)) &&
  bs.all (fun b => b.ended && b.groups.all (fun g => g.holds.isEmpty || l.torn)) &&
  !s.copies.any (fun c => mine c.blk) && !s.cores.any (fun c => c.queue.any (fun j => mine j.blk))

/-- R292, R306: the true x of a launch: of a malformed shape, the x that was published; a launch that ends before its shape
is judged states none. DEDUCED (assumption 56). -/
def State.trueX (s : State) (l : Launch) : Nat :=
  if l.record.maq then
    l.truth.getD (match l.shape with
      | some h => h.x
      | none => Config.freeNat s.tick 15 % 2 ^ 24)
  else l.gridX

/-- R292: a store of the launch engine, or the record of its fault; a peer may refuse it later. -/
def State.finalStore (s : State) (l : Launch) (va : Word) (v : Nat) : State :=
  match s.frontStore l.ctx va v with
  | .ok (id, t) => t.awaitWrite id (.final l.id va)
  | .error f => s.report l.id 0 { cause := f.cause, sec := f.sec, va := va, kind := 3 }

/-- R292, R424: the atomic increment of a counter, or the record of its fault. -/
def State.finalCount (s : State) (l : Launch) (va : Word) : State :=
  let fails := fun (f : Fail) => s.report l.id 0 { cause := f.cause, sec := f.sec, va := va, kind := 3 }
  if va.toNat % 8 ≠ 0 then fails .misaligned
  else match s.translate frontEnd l.ctx (s.userCtx l.ctx) .atomic va with
    | .error f => fails f
    | .ok (.local pa _ _ _) => if s.spoiled pa 8 then fails ⟨20, 0xA0, 0⟩ else (s.engineAtomic 1 pa 1 0).2
    | .ok (.peer dev pa _) =>
      if !s.fabric.reaches dev then fails (.peer 0x27)
      else
      let r := s.request { aimPacket blankPacket 0x03 dev 0xFFE#12 pa [] with
        aop := 1, size := 3, order := 2, scope := 5, entries := [(0, pa % 64, 1, 0)] } l.ctx frontEnd
      r.2.awaitWrite (some r.1) (.final l.id va)
    | .ok (.host pa) => s.toHost ⟨pa, some 1, natBytes 8 1, []⟩
    | .ok (.window _) => fails (.aperture 0x25)

/-- R242, R431: the stores of a launch's blocks are in place before its status is. -/
def State.flushLaunch (s : State) (l : Launch) : State :=
  ((s.blocksOf l.id).map Block.core).foldl (fun (s : State) k => s.writeBackAll k) s

/-- R292, R424: what the launch engine does as number `k` when a launch completes: the status word, the counter, the shape
record, the host's counter. -/
def State.finalEffect (s : State) (l : Launch) (k : Nat) : State :=
  match k with
  | 0 =>
    if l.record.done = 0 then s
    else s.finalStore l l.record.done (l.status.getD 0 % 256 + 256 * (s.trueX l % 2 ^ 24))
  | 1 => if l.record.cntr = 0 then s else s.finalCount l l.record.cntr
  | 2 => if l.record.maq then s.finalStore l l.record.shaddr 0 else s
  | _ => if l.record.hcnt = 0 then s else s.finalCount l l.record.hcnt

/-- R426: is the reply to an effect of a launch's completion at a peer awaited? -/
def State.awaitsFinal (s : State) (launch : Nat) : Bool :=
  s.writes.any (fun e => match e.2 with
    | .final k _ => k == launch
    | _ => false)

/-- R292, R426: the last `n` effects of a launch's completion in order, each once the one before it is accepted; how many
are left. -/
def State.finalsFrom (s : State) (l : Launch) (n : Nat) : State × Nat :=
  match n with
  | 0 => (s, 0)
  | n + 1 =>
    let t := s.finalEffect l (3 - n)
    if t.awaitsFinal l.id then (t, n) else t.finalsFrom l n

/-- R292: a launch is complete, and its blocks go. -/
def State.endLaunch (s : State) (l : Launch) : State :=
  let s1 := s.putLaunch { l with complete := true, started := true, code := [] }
  let busy := fun (b : Block) => s1.operators.any (fun o => o.blk == b.id)
  { s1 with blocks := s1.blocks.filter (fun b => b.launch != l.id || busy b) }.dropReplicas l.id

/-- R292, R424, R426: the launch completes: its effects in order, and then its blocks go; while a peer owes the reply to
one, the rest waits. -/
def State.completeLaunch (s : State) (l : Launch) : State :=
  let s1 := if l.finals = 0 then s.flushLaunch l else s
  let r := s1.finalsFrom l (4 - l.finals)
  if r.1.awaitsFinal l.id then r.1.putLaunch { l with finals := 4 - r.2 } else r.1.endLaunch l

/-- R292: the replies to the stores of a completing launch at peers: a refusal gives its record. -/
def State.endFinals (s : State) (launch : Nat) : State :=
  s.writes.foldl (fun (s : State) (e : Nat × EngineUse) =>
    match e.2, s.replyTo e.1 with
    | .final k va, some p =>
      if k = launch then
        match replyCause p with
        | some c => (s.settleWrite e.1).report launch 0 { cause := c, va := va, kind := 3 }
        | none => s.settleWrite e.1
      else s
    | _, _ => s) s

/-- LAUNCH_COMPLETION (R292, R424, R426): a launch that is over completes; one that awaits the reply of a peer goes on once
it is heard. -/
def execLaunchCompletion (launch : Nat) (s : State) : Host.Outcome State Fault Refusal :=
  match s.launch? launch with
  | some l =>
    if !s.launchOver l then .next s
    else
      let s1 := s.endFinals launch
      if s1.awaitsFinal launch then .next s1
      else .next (s1.completeLaunch ((s1.launch? launch).getD l))
  | none => .next s

end Sys2Proof.Machine
end

