-- ==== Sys2Proof/Machine/Compaction.lean ====
section
/-! DEFINITION. Compaction (R103 to R107): the meeting that repacks a block's lanes, the start of compacted groups as slots
are free, and the close. -/

namespace Sys2Proof.Machine

/-! ## The meeting (R104) -/

/-- What an arrived group brings to a meeting: its number, its sets T and F, and where the two sides begin. -/
structure Arrival where
  number : Nat
  taken  : Mask
  other  : Mask
  target : Word
  fall   : Word
  join   : Word
deriving DecidableEq, Repr

/-- R103: the arrivals of a block, when each of its groups waits at the meeting or has ended. -/
def Block.arrivals (b : Block) : Option (List Arrival) :=
  let all := b.groups.zipIdx.map (fun e =>
    match e.1.status with
    | .ended => some none
    | .waiting (.compaction target taken other join) => some (some (⟨e.2, taken, other, target, e.1.pc + 4, join⟩ : Arrival))
    | _ => none)
  if all.any Option.isNone then none
  else
    let here := all.filterMap (fun x => x.getD none)
    if here.isEmpty then none else some here

/-- R104: the groups whose quad `q` holds a non-helper lane of a path, in ascending order. -/
def Block.quadGroups (b : Block) (path : List (Nat × Mask)) (q : Nat) : List Nat :=
  path.filterMap (fun e =>
    let helper := match b.groups[e.1]? with
      | some g => g.helper
      | none => 0
    if inQuad (e.2 &&& ~~~helper) (4 * q) then some e.1 else none)

/-- R104: how many compacted groups a path needs. -/
def Block.packCount (b : Block) (path : List (Nat × Mask)) : Nat :=
  ((List.range 24).map (fun q => (b.quadGroups path q).length)).foldl max 0

/-- R104: the carrier of the compacted group that is number `k` of its path. -/
def Block.packCarrier (b : Block) (path : List (Nat × Mask)) (k : Nat) : List (Option Nat) :=
  (List.range 24).map (fun q => (b.quadGroups path q)[k]?)

/-- R104: the lanes of a path that a carrier gathers. -/
def packExec (path : List (Nat × Mask)) (carrier : List (Option Nat)) : Mask :=
  maskOf (fun l => match carrier.getD (l / 4) none with
    | some j => match path.find? (fun e => e.1 == j) with
      | some e => hasLane e.2 l
      | none => false
    | none => false)

/-- R104, R105: a compacted group, from the first group of its block, whose special registers, budget and role it has.
DEDUCED (assumption 24). DESIGN CHOICE (assumption 106). -/
def packGroup (g0 : Group) (gid : Nat) (pc : Word) (exec : Mask) (carrier : List (Option Nat)) (slot : Nat) (starts : Bool) :
    Group :=
  { g0 with
    pc := pc, exec := exec, present := BitVec.allOnes 96, helper := 0, gid := gid, slot := slot, entries := [], hazards := [],
    status := .running, active := starts, started := starts, carrier := carrier, scalars := [], vectors := [], preds := [],
    flags := [], brackets := [], rng := [], rlabel := none, walk := none, copies := [], matrix := [], halt := none,
    stop := none, pending := none, holds := [], sigs := [], met := none, redo := 0, aim := none,
    arrivedB := false, arrivedC := false, remote := [] }

/-- R104: the compacted groups of a meeting: those of the taken side, then those of the other. -/
def Block.pack (b : Block) (as : List Arrival) : List Group :=
  match b.groups, as with
  | g0 :: _, a :: _ =>
    let taken := as.map (fun x => (x.number, x.taken))
    let other := as.map (fun x => (x.number, x.other))
    let slots := b.groups.map Group.slot
    let side := fun (path : List (Nat × Mask)) (first : Nat) (pc : Word) =>
      (List.range (b.packCount path)).map (fun k =>
        let carrier := b.packCarrier path k
        packGroup g0 (first + k) pc (packExec path carrier) carrier (slots.getD (first + k) 0)
          (decide (first + k < b.groups.length)))
    side taken 0 a.target ++ side other (b.packCount taken) a.fall
  | _, _ => []

/-- R104: the lanes of the group numbered `j` that a compacted group of a list carries. -/
def carriedLanes (cs : List Group) (j : Nat) : Mask := cs.foldl (fun m c => m ||| c.carries j) 0

/-- The longest distance that a late result of some groups needs. -/
def longestNeed (gs : List Group) : Nat := (gs.flatMap Group.hazards).foldl (fun m h => max m h.need) 0

/-- R27, R104: what the original groups have of late results goes on in the compacted group that carries lanes of them, and
the distance since the meeting is counted beside it. DESIGN CHOICE (assumption 105). -/
def Block.inherit (b : Block) (c : Group) : Group :=
  let view := b.gather c
  let late := b.groups.zipIdx.flatMap (fun e =>
    if c.carries e.2 = 0 then [] else e.1.hazards.map (fun h => h.carried view (c.carries e.2)))
  if late.isEmpty then { c with hazards := [] } else { c with hazards := ⟨.span, longestNeed b.groups, 0, [], []⟩ :: late }

/-- R241: the meeting of a block's groups, and the close of its region, order memory as BAR.BLK does. -/
def State.meetAll (s : State) (b : Block) : State :=
  let refs := (List.range b.groups.length).map (fun k => (⟨b.id, k, false⟩ : GRef)) ++
    (match b.region with
     | some (cs, _) => (List.range cs.length).map (fun k => ⟨b.id, k, true⟩)
     | none => [])
  let s1 := refs.foldl (fun (s : State) r => { s with cur := r }.releaseAt b.core 1) s
  { refs.foldl (fun (s : State) r => { s with cur := r }.acquireAt b.core 1) s1 with cur := s.cur }

/-- R104: the region of a block that has met: the units of the meeting have executed (R27), the lanes
are packed, and the block has met as at a barrier (R241). -/
def Block.openRegion (b : Block) (as : List Arrival) (join : Word) : Block :=
  let here := as.map Arrival.number
  let b1 := { b with groups := mapGroups 0 (fun j g => if here.contains j then g.age [] else g) b.groups }
  { b1 with region := some ((b1.pack as).map b1.inherit, join), epoch := (b.epoch.1 + 1, b.epoch.2) }

/-- The region of a block that has met is formed. -/
def State.openAt (s : State) (b : Block) (as : List Arrival) (join : Word) : State :=
  let b1 := b.openRegion as join
  (s.putBlock b1).meetAll b1

/-- R371, R376: some groups of a pair take a checkpoint with the whole group state. -/
def State.checkAll (s : State) (blk : Nat) (ks : List Nat) : State :=
  ks.foldl (fun (s : State) k => match s.block? blk with
    | some b => s.checkpoint b k true
    | none => s) s

/-- R371, R376: the two blocks of a pair meet in one step, once the store units before the meeting are matched; each
compacted group begins with a checkpoint. Groups of which only one carries a path, or goes another way, mismatch (R380).
DESIGN CHOICE (assumption 116). -/
def State.meetHalves (s : State) (b t : Block) (as : List Arrival) (join : Word) : State :=
  if t.region.isSome || !(b.groups ++ t.groups).all (fun g => g.sigs.isEmpty) then s
  else match t.arrivals, s.leadOf b with
    | some bs, some lead =>
      if bs = as then
        let s1 := (s.openAt b as join).openAt t as join
        match s1.block? lead.id with
        | some l =>
          let n := l.groups.length
          let count := l.allGroups.length - n
          let s2 := s1.putBlock { l with pair := l.pair.map (fun (p : Pair) => { p with
            mismatch := p.mismatch.take n ++ List.replicate count 0 }) }
          s2.checkAll lead.id ((List.range count).map (fun k => n + k))
        | none => s1
      else
        let of := fun (xs : List Arrival) (k : Nat) => xs.find? (fun x => x.number == k)
        match (List.range b.groups.length).find? (fun k => of as k != of bs k) with
        | some k => s.mismatch lead k
        | none => s
    | _, _ => s

/-- COMPACTION_MEETING (R104, R105, R371): every group has arrived, and the lanes are packed. -/
def execCompactionMeeting (blk : Nat) (s : State) : Host.Outcome State Fault Refusal :=
  match s.block? blk with
  | none => .next s
  | some b =>
    match b.arrivals, b.region with
    | some (a :: as), none => .next (match s.otherHalf b with
        | some t => s.meetHalves b t (a :: as) a.join
        | none => s.openAt b (a :: as) a.join)
    | _, _ => .next s

/-! ## Slots (R105) -/

/-- R105: the lowest compacted group that has not started, when a slot is free for it. -/
def State.nextPacked (s : State) (b : Block) : Option Nat :=
  match b.region with
  | none => none
  | some (cs, _) =>
    let free := decide (b.packed.length < b.groups.length) || decide (s.residentCount b.core < 32)
    if free then (cs.zipIdx.find? (fun c => !c.1.started)).map Prod.snd else none

/-- COMPACTED_GROUP_START (R105). -/
def execCompactedGroupStart (blk : Nat) (s : State) : Host.Outcome State Fault Refusal :=
  match s.block? blk with
  | none => .next s
  | some b =>
    match s.nextPacked b with
    | none => .next s
    | some k =>
      let slot := freeSlot ((s.groupsOn b.core).map Group.slot)
      .next (s.changeAt ⟨blk, k, true⟩ (fun c => { c with started := true, slot := slot, active := false }))

/-! ## The close (R107) -/

/-- R106, R107: has every compacted group of the region reached its end? In a pair their store units are matched first
(assumption 116). -/
def Block.regionOver (b : Block) : Bool :=
  match b.region with
  | some (cs, _) => cs.all (fun c =>
      c.started && decide (c.status = .ended ∨ c.status = .waiting .regionEnd) && c.sigs.isEmpty)
  | none => false

/-- R27: the distance that a compacted group has counted since its meeting, or `most` when it is at least that. -/
def Group.spanned (c : Group) (most : Nat) : Nat :=
  match c.hazards.find? (fun h => decide (h.reg = .span)) with
  | some h => h.gone
  | none => most

/-- R27, R31, R107: the late results of an original group after a region: its own in the lanes that no compacted group
carried, further away by the shortest way through the region that lanes of it took, and those of the compacted groups that
carried lanes of it, in these. Each has executed its JOIN. DESIGN CHOICE (assumption 105). -/
def Group.inheritBack (g : Group) (j : Nat) (cs : List Group) : Group :=
  let through := (cs.filter (fun c => decide (c.carries j ≠ 0) && decide (c.status ≠ .ended))).map (fun c => c.age [])
  let most := longestNeed [g]
  let span := match through.map (fun c => c.spanned most) with
    | [] => 0
    | n :: rest => rest.foldl min n
  { g with
    hazards := ((g.hazards.map (fun (h : Hazard) => { h.carried g (~~~carriedLanes cs j) with gone := h.gone + span })) ++
      through.flatMap (fun (c : Group) => (c.hazards.filter (fun (h : Hazard) => decide (h.reg ≠ HazardReg.span))).map (fun (h : Hazard) =>
        h.carried g (c.carries j)))).filter
        (fun h => decide (h.gone < h.need)) }

/-- R105: groups take slots again: the one each has, or a free one where another group has it now. -/
def takeSlots (used : List Nat) (gs : List Group) : List Group :=
  match gs with
  | [] => []
  | g :: rest =>
    let slot := if used.contains g.slot then freeSlot used else g.slot
    { g with slot := slot } :: takeSlots (slot :: used) rest

/-- R105, R107: a block whose region closes: its groups take slots again, and their late results. What compacted groups
still hold drains after what group 0 holds (R305). DESIGN CHOICE (assumption 116). -/
def State.closeRegion (s : State) (b : Block) : Block :=
  match b.region with
  | none => b
  | some (cs, _) =>
    let others := ((s.residents b.core).filter (fun x => x.id != b.id)).flatMap Block.holders
    let gs := takeSlots (others.map Group.slot) (mapGroups 0 (fun j g => g.inheritBack j cs) b.groups)
    { b with
      region := none
      epoch := (b.epoch.1 + 1, b.epoch.2)
      groups := mapGroups 0 (fun j (g : Group) =>
        if j = 0 then { g with holds := g.holds ++ cs.flatMap Group.holds } else g) gs }

/-- R107: one original group resumes from its join entry, or ends. -/
def State.restoreOriginal (s : State) (blk k : Nat) : State :=
  match s.groupAt ⟨blk, k, false⟩ with
  | none => s
  | some (b, g) =>
    match g.status with
    | .waiting (.compaction _ _ _ _) =>
      match s.resumeFrom b g g.entries with
      | some g1 => s.putAt ⟨blk, k, false⟩ { g1 with status := .running }
      | none => s.endGroup ⟨blk, k, false⟩ { g with status := .running }
    | _ => s

/-- R107: a region closes, and the original groups resume. -/
def State.closeAt (s : State) (blk : Nat) : State :=
  match s.block? blk with
  | some b =>
    let s1 := (s.putBlock (s.closeRegion b)).meetAll b
    (List.range b.groups.length).foldl (fun (s : State) k => s.restoreOriginal blk k) s1
  | none => s

/-- COMPACTION_CLOSE (R107). The two blocks of a pair close in one step, and the original groups take a checkpoint then, so
that nothing a compacted group has met at is performed again (R380). DESIGN CHOICE (assumption 116). -/
def execCompactionClose (blk : Nat) (s : State) : Host.Outcome State Fault Refusal :=
  match s.block? blk with
  | none => .next s
  | some b =>
    if !b.regionOver then .next s
    else match s.otherHalf b with
      | none => .next (s.closeAt blk)
      | some t =>
        if !t.regionOver then .next s
        else
          let s1 := (s.closeAt blk).closeAt t.id
          match s1.leadOf b with
          | some lead => .next (s1.checkAll lead.id ((List.range lead.groups.length).filter (fun k =>
              (lead.groups[k]?).any (fun g => decide (g.status ≠ .ended)))))
          | none => .next s1

end Sys2Proof.Machine
end

