-- ==== Sys2Proof/Machine/Maquette.lean ====
section
/-! DEFINITION. Maquette launches (R302 to R308, R333 to R335): publishing and asking for the true shape, the retractable
arena, applying a shape, and draining held entries, those of redundant pairs among them (R374). -/

namespace Sys2Proof.Machine

/-! ## Publishing a shape (R333, R306) -/

/-- R306: the front end learns of a published record: every started maquette launch that awaits its shape at that address is
judged, whichever context published it. DEDUCED (assumption 52). DEDUCED (assumption 53). -/
def State.publish (s : State) (va : Word) (h : Shape) : State :=
  let hit := s.launches.filter (fun l => l.started && !l.complete && !l.torn && l.record.maq && !l.judged &&
    decide (l.record.shaddr = va) && decide (l.limit ≠ 0 ∨ l.status = none))
  hit.foldl (fun (s : State) (l : Launch) =>
    match s.launch? l.id with
    | some x => s.judgeShape x h
    | none => s) s

/-- R333: the publication on a page of a peer: the first store and, once it is accepted, the second, a release at system
scope; the front end learns of it once both are accepted. -/
def State.publishAtPeer (s : State) (b : Block) (g : Group) (va : Word) (low high : Word) (dev : BitVec 13) (pa : Nat) :
    State :=
  let ask := fun (s : State) (off : Nat) (v : Word) (order : BitVec 2) =>
    let q := aimPacket { blankPacket with
        size := 3, order := order, scope := 5, tag := s.writerTag b.core g.slot 0
        opkey := if peerWindow pa then g.opkey else 0 } (if peerWindow pa then 0x04 else 0x02) dev g.fstrm pa
      (packetBytes (pa % 64 + off) (natBytes 8 v.toNat))
    let r := s.request q (s.ctxOf b) b.core
    let line : RemoteLine := ⟨dev, pa / 64, (List.range 8).map (fun k => pa % 64 + off + k), r.1, none⟩
    (r.2.changeAt r.2.cur (fun x => { x with remote := x.remote ++ [line] })).wait .replies
  let refuse := fun (off : Word) (c : Byte) (args : Word × Word) =>
    s.trap { cause := c, kind := 0, va := va + off, pmask := some 0, arg0 := if c = 0x46 then args.1 else 0
             arg1 := if c = 0x46 then args.2 else 0 }
  match (g.lineFor dev (pa + 8)).map RemoteLine.answer, (g.lineFor dev pa).map RemoteLine.answer with
  | none, _ => if s.fabric.reaches dev then ask s 8 high 0 else refuse 8 0x27 (0, 0)
  | some (some (.refused c x y)), _ => refuse 8 c (x, y)
  | some (some (.bytes _)), none => if s.fabric.reaches dev then ask (s.releaseAt b.core 5) 0 low 2 else refuse 0 0x27 (0, 0)
  | some (some (.bytes _)), some (some (.refused c x y)) => refuse 0 c (x, y)
  | some (some (.bytes _)), some (some (.bytes _)) =>
    (s.publish va ⟨low, high⟩).doneOnce b ((g.sealIf true).advance 2) [] []
  | _, _ => s.wait .replies

/-- SHPUB (R333): two stores of 8 bytes, the second a release at system scope. -/
def execShpub (c b a : BitVec 6) (s : State) : Host.Outcome State Fault Refusal :=
  onGroup s { region := some 0x04 } (fun blk g _ =>
    let va := g.scalar a.toNat
    let low := g.scalar b.toNat
    let high := g.scalar c.toNat
    let m : Mem := ⟨.store, .generic, 8, .none, 2, 5, 0, false, false, 2, true⟩
    let qs : List LaneReq := [⟨0, va + 8, natBytes 8 high.toNat, 0, 0⟩, ⟨1, va, natBytes 8 low.toNat, 0, 0⟩]
    if va.toNat % 16 ≠ 0 then s.trap { cause := 0x0A }
    else match s.checkLanes blk g m qs with
      | .error e => s.trap e
      | .ok (ok, _) =>
        match ok.find? (fun e => match e.2 with
          | .window _ => true
          | _ => false) with
        | some e => s.trap { cause := 0x25, kind := 0, va := e.1.va }
        | none =>
          if s.anyHeld ok then s.wait .replies
          else
            s.once blk g (natBytes 8 va.toNat ++ natBytes 8 low.toNat ++ natBytes 8 high.toNat) (fun s =>
              match ok.findSome? (fun e => match e.2 with
                | .peer dev pa _ => if e.1.lane = 1 then some (dev, pa) else none
                | _ => none) with
              | some (dev, pa) => s.publishAtPeer blk g va low high dev pa
              | none => (s.performAccess blk (g.sealIf true) m ok []).publish va ⟨low, high⟩))

/-! ## Asking for the shape (R334) -/

/-- R334: must SHWAIT or SHQRY of a block wait? -/
def State.shapeOpen (s : State) (b : Block) : Bool :=
  match s.launch? b.launch with
  | some l => l.record.maq && (decide (b.mode = .tentative) || !l.judged)
  | none => false

/-- R334: the record that SHQRY returns: the published one, or the launched grid. -/
def State.shapeSeen (s : State) (b : Block) : Shape :=
  match s.launch? b.launch with
  | some l =>
    if l.record.maq then l.shape.getD ⟨0, 0⟩
    else ⟨BitVec.ofNat 64 (l.gridX + 2 ^ 24 * l.gridY + 2 ^ 44 * l.gridZ), 0⟩
  | none => ⟨0, 0⟩

/-- SHWAIT (R333, R334, R431). -/
def execShwait (s : State) : Host.Outcome State Fault Refusal :=
  onGroup s { region := some 0x04 } (fun b g _ =>
    if s.shapeOpen b then s.wait .shape else (s.acquireAt b.core 5).done (g.advance 2))

/-- SHQRY (R333, R334, R431). -/
def execShqry (a : BitVec 6) (s : State) : Host.Outcome State Fault Refusal :=
  onGroup s { region := some 0x04 } (fun b g _ =>
    if s.shapeOpen b then s.wait .shape
    else
      let h := s.shapeSeen b
      let g1 := (g.setScalar a.toNat h.low).setScalar (a.toNat + 1) h.high
      (s.acquireAt b.core 5).done (g1.advance 2))

/-! ## The arena (R307, R335) -/

/-- R307: where a block's sub-arena starts; none when the launch has no arena. An arena that is not aligned (R290) is used
as it stands. DESIGN CHOICE (assumption 119). -/
def State.arenaBase (s : State) (b : Block) : Option (Word × Nat) :=
  match s.launch? b.launch with
  | some l =>
    if l.record.maq && decide (l.record.arena ≠ 0) then
      some (l.record.arena + BitVec.ofNat 64 (b.lin * l.record.quota), l.record.quota)
    else none
  | none => none

/-- The block of the executing group with `r` more bytes of its sub-arena handed out. -/
def State.takeArena (s : State) (blk at' r : Nat) : State :=
  match s.block? blk with
  | some b => s.putBlock { b with arena := at' + r, allocs := at' :: b.allocs }
  | none => s

/-- R372, R376: does the leading group wait at a stop with its PC here? -/
def State.leadStops (s : State) (b : Block) (g : Group) : Bool :=
  match s.leadOf b with
  | some lead => match lead.rawGroup s.cur with
    | some x => decide (x.pc = g.pc) && (match x.status with
      | .waiting (.partner m) => decide (m.kind = meetStopKind)
      | _ => false)
    | none => false
  | none => false

/-- RALLOC (R335, R307, R372). -/
def execRalloc (b a : BitVec 6) (s : State) : Host.Outcome State Fault Refusal :=
  onGroup s { region := some 0x04 } (fun blk g _ =>
    let r := ((g.scalar b.toNat).toNat + 63) / 64 * 64
    let full : Cond := { cause := 0x82, kind := 0 }
    match s.arenaBase blk with
    | none => s.trap full
    | some (base, quota) =>
      let give := fun (s : State) (at' : Nat) =>
        let v := base + BitVec.ofNat 64 at'
        ((s.takeArena blk.id at' r).forwardValue blk v).done ((g.setScalar a.toNat v).advance 2)
      if blk.trailing then
        match s.forwarded blk with
        | some (v, s1) => give s1 (v - base).toNat
        | none => if s.leadStops blk g then s.trap full else s.wait .forwarded
      else if quota < blk.arena + r then s.trap full
      else give s blk.arena)

/-- RFREE (R335). -/
def execRfree (b : BitVec 6) (s : State) : Host.Outcome State Fault Refusal :=
  onGroup s { region := some 0x04 } (fun blk g _ =>
    let bad : Cond := { cause := 0x0A }
    match s.arenaBase blk, blk.allocs with
    | some (base, _), at' :: rest =>
      if g.scalar b.toNat = base + BitVec.ofNat 64 at' then
        (s.putBlock { blk with arena := at', allocs := rest }).done (g.advance 2)
      else s.trap bad
    | _, _ => s.trap bad)

/-! ## Held stops (R302, R305) -/

/-- The condition that a record tells. -/
def TrapRecord.cond (r : TrapRecord) : Cond :=
  { cause := r.cause, sec := r.sec, kind := r.kind, va := r.va, fmask := r.fmask, pmask := if r.pv then some r.pmask else none,
    code := r.code, arg0 := r.arg0, arg1 := r.arg1, arg2 := r.arg2 }

/-- R305: a group whose drain is done sends its held stop, as a trap at its unit. -/
def State.raiseHeld (s : State) (r : GRef) : State :=
  match s.groupAt r with
  | some (b, g) =>
    match g.status, g.stop with
    | .held, some x =>
      if b.mode = .tentative || !g.holds.isEmpty then s
      else
        let s1 := { s with cur := r }
        (s1.changeAt r (fun y => { y with status := .running, stop := none })).trap x.record.cond
    | _, _ => s
  | none => s

/-- The references of a block's groups, its compacted groups among them. -/
def Block.allRefs (b : Block) : List GRef :=
  (List.range b.groups.length).map (fun j => ⟨b.id, j, false⟩) ++
  (match b.region with
   | some (cs, _) => (List.range cs.length).map (fun j => ⟨b.id, j, true⟩)
   | none => [])

/-- R304, R305: the held stops of a confirmed block whose drains are done leave, and a block that holds nothing more is a
normal one. -/
def State.settleConfirmed (s : State) (k : Nat) : State :=
  match s.block? k with
  | none => s
  | some b =>
    if b.mode ≠ .confirmed then s
    else
      let s1 := b.allRefs.foldl State.raiseHeld s
      match s1.block? k with
      | some b1 =>
        if b1.allGroups.all (fun g => g.holds.isEmpty && decide (g.status ≠ .held)) then s1.putBlock { b1 with mode := .normal }
        else s1
      | none => s1

/-! ## Applying a shape (R305) -/

/-- R305: a block is squashed: nothing of it remains. -/
def State.squash (s : State) (k : Nat) : State :=
  { s with
    blocks := s.blocks.filter (fun b => b.id != k)
    copies := s.copies.filter (fun c => c.blk != k)
    cores := s.cores.map (fun (c : Core) => { c with
      queue := c.queue.filter (fun j => j.blk != k)
      ops := c.ops.filter (fun o => o.blk != k) }) }

/-- R305, R306: from which x on a shape drops blocks: its x, or the floor for a malformed one. -/
def Launch.cutoff (l : Launch) : Nat := l.truth.getD l.record.fx

/-- R305, R306: the order number after the last block that a judged launch places. -/
def Launch.judgedLimit (l : Launch) : Nat :=
  let rows := l.gridY * l.gridZ
  match l.truth with
  | none => min l.predict l.record.fx * rows
  | some t => if l.record.lx < t then l.predict * rows else max t l.predict * rows

/-- The x of a block. -/
def Launch.xOf (l : Launch) (b : Block) : Nat := b.lin % max 1 l.gridX

/-- R305, R431: the verdict on one block; what a confirmed one reads next is not older than the publication. -/
def State.verdict (s : State) (l : Launch) (b : Block) : State :=
  if b.mode ≠ .tentative then s
  else if l.xOf b < l.cutoff then ((s.putBlock { b with mode := .confirmed }).dropClean b.core).settleConfirmed b.id
  else s.squash b.id

/-- R305: has a launch started a normal block at or beyond an x? Blocks that are saved or have ended count. -/
def Launch.startedBeyond (l : Launch) (x : Nat) : Bool :=
  let fx := l.record.fx
  (List.range (min l.next (fx * (l.gridY * l.gridZ)))).any (fun k =>
    decide (x ≤ k % fx) && !l.redo.contains (l.nth k))

/-- R305: a judged shape is applied to its launch. -/
def State.applyShape (s : State) (l : Launch) : State :=
  let overrun := match l.truth with
    | some t => l.startedBeyond t
    | none => false
  let l1 := { l with
    applied := true
    limit := l.judgedLimit
    status := if overrun then some (l.status.getD 6) else l.status }
  (s.blocksOf l.id).foldl (fun (s : State) (b : Block) => s.verdict l1 b) (s.putLaunch l1)

/-- SHAPE_APPLY (R305, R366): a shape that is judged while the launch is saved is applied once it goes on. -/
def execShapeApply (launch : Nat) (s : State) : Host.Outcome State Fault Refusal :=
  match s.launch? launch with
  | some l => .next (if l.judged && !l.applied && !l.complete && !l.torn && decide (l.saving ≠ .saved) then s.applyShape l else s)
  | none => .next s

/-! ## Draining (R305, R308, R374) -/

/-- R305, R374, R383: may the oldest entry of a group be released? Entries that its group has synchronised with drain first
(R239, R241). -/
def State.mayDrain (s : State) (b : Block) (g : Group) (e : HoldEntry) : Bool :=
  decide (b.mode ≠ .tentative) && (match b.pair with
    | some p => p.leading && e.matchedIn g.sigs
    | none => decide (b.mode = .confirmed)) &&
  b.entriesHeld.all (fun f => decide (e.epoch.1 ≤ f.epoch.1 ∧ e.epoch.2 ≤ f.epoch.2)) && !s.olderHeld b.launch e.after

/-- The byte that an entry leaves at an address: its youngest. -/
def HoldEntry.byteAt (e : HoldEntry) (va : Nat) : Option Byte := heldByte [e] va

/-- The bytes of an entry by rising address. -/
def HoldEntry.finalBytes (e : HoldEntry) : List (Nat × Byte) :=
  (List.range 64).filterMap (fun k => (e.byteAt (64 * e.line + k)).map (fun v => (64 * e.line + k, v)))

/-- Bytes by address, joined where the addresses follow one another. -/
def pieces (bs : List (Nat × Byte)) : List (Nat × List Byte) :=
  bs.foldr (fun x acc => match acc with
    | (a, ys) :: rest => if x.1 + 1 = a then (x.1, x.2 :: ys) :: rest else (x.1, [x.2]) :: acc
    | [] => [(x.1, [x.2])]) []

/-- R407: the size that a released entry's packet carries: the largest whose aligned pieces its bytes fill. DESIGN CHOICE
(assumption 48). -/
def HoldEntry.sizeOf (e : HoldEntry) : BitVec 4 :=
  let there := e.finalBytes.map Prod.fst
  let fills := fun (k : Nat) => there.all (fun a => (List.range (2 ^ k)).all (fun j => there.contains (a / 2 ^ k * 2 ^ k + j)))
  if fills 4 then 4 else if fills 3 then 3 else if fills 2 then 2 else if fills 1 then 1 else 0

/-- What became of a released entry: it was accepted, it awaits a peer, or it was refused. -/
inductive Released where
  | accepted (s : State)
  | sent (s : State) (request : Nat)
  | refused (cause sec : Byte)

/-- R252, R305: a released entry that lies in an operator window, slot by slot. -/
def State.releaseWindow (s : State) (b : Block) (g : Group) (bs : List (Nat × Byte)) : Except Byte State :=
  match bs with
  | [] => .ok s
  | (va, _) :: _ =>
    match s.windowAt va (some (s.ctxOf b)) with
    | .inlet o i off =>
      let bytes := bs.map (fun x => (off + (x.1 - va), x.2))
      s.storeRequest { handle := o.handle, slot := i, bytes := bytes, tag := s.writerTag b.core g.slot 0, remote := false,
                       key := 0, ctx := s.ctxOf b, isGroup := true }
    | .outlet _ _ _ => .error 0x44
    | .refused c => .error c

/-- R305, R373, R374, R434: an entry drains to memory, in its group's order for every agent: its line leaves the core's L1.
In a pair the trailing core keeps no old copy of it, so that the trailing group goes on seeing its unit's bytes. DEDUCED
(assumption 71). What the group itself read ahead of the line is used up (R233). -/
def State.settleEntry (s : State) (r : GRef) (b : Block) (swc uncached : Bool) (pa : Nat) : State :=
  let s1 := s.usedBy r pa 64
  match b.pair.bind (fun p => s.block? p.partner) with
  | some t => ((s1.usedBy { r with blk := t.id } pa 64).beforeAtomic b.core swc pa 64).beforeAtomic t.core swc pa 64
  | none => if uncached then s1 else s1.beforeAtomic b.core swc pa 64

/-- R305, R399: an entry is performed as a store of its group, with its own ordering, under the checks of R392. -/
def State.release (s : State) (r : GRef) (b : Block) (g : Group) (e : HoldEntry) : Released :=
  let bs := e.finalBytes
  let va : Word := BitVec.ofInt 64 (signedOf 52 (64 * e.line))
  let rel := decide (e.ordering.order = 2#2 ∨ e.ordering.order = 3#2)
  match s.translate b.core (s.ctxOf b) (!s.superOf b) .store va with
  | .error f => .refused f.cause f.sec
  | .ok p =>
    let s0 := if rel then s.releaseAt b.core e.ordering.scope.toNat else s
    match p with
    | .local pa swc uncached _ =>
      let s1 := bs.foldl (fun (s : State) (x : Nat × Byte) =>
        s.storeBytes b.core swc uncached (rel && decide (2 ≤ e.ordering.scope.toNat)) 0 (pa + x.1 % 64) [x.2]) s0
      .accepted ((s0.noted s1 (dieOf b.core) swc (bs.map (fun x => pa + x.1 % 64))).settleEntry r b swc uncached pa)
    | .host pa =>
      .accepted ((pieces (bs.map (fun x => (pa + x.1 % 64, x.2)))).foldl (fun (s : State) x => s.toHost ⟨x.1, none, x.2, []⟩) s0)
    | .peer dev pa _ =>
      if !s.fabric.reaches dev then .refused 0x27 0
      else
        let q := aimPacket blankPacket (if peerWindow pa then 0x04 else 0x02) dev e.stream pa (bs.map (fun x => (x.1 % 64, x.2)))
        let sent := s0.request { q with
          order := e.ordering.order, scope := e.ordering.scope, opkey := if peerWindow pa then g.opkey else 0
          size := e.sizeOf, tag := s.writerTag b.core g.slot 0 } (s.ctxOf b) b.core
        .sent sent.2 sent.1
    | .window _ =>
      match s0.releaseWindow b g bs with
      | .ok t => .accepted t
      | .error c => .refused c 0

/-- The oldest entry of a group is gone. -/
def State.popHeld (s : State) (r : GRef) : State := s.changeAt r (fun g => { g with holds := g.holds.drop 1 })

/-- R417: the stream and the number of a request on its way. -/
def State.requestArgs (s : State) (id : Nat) : Word × Word :=
  match s.outstanding? id with
  | some o => (o.packet.stream.setWidth 64, o.packet.seq.setWidth 64)
  | none => (0, 0)

/-- DRAIN_REFUSAL (R308): the drain stops at a refused entry: the group, one that a save has stopped too, stops before the
next unit it would issue, or, when it has ended, its entries go and the launch ends. DEDUCED (assumption 63). -/
def State.refuseDrain (s : State) (r : GRef) (b : Block) (g : Group) (e : HoldEntry) (cause sec : Byte)
    (args : Word × Word := (0, 0)) : State :=
  let s0 := s.changeAt r (fun x => { x with holds := x.holds.map (fun (y : HoldEntry) => { y with sent := none }) })
  let c : Cond := { cause := cause, sec := sec, kind := 0, va := BitVec.ofInt 64 (signedOf 52 (64 * e.line))
                    arg0 := if cause = 0x46 then args.1 else 0, arg1 := if cause = 0x46 then args.2 else 0 }
  match g.status with
  | .ended => (s0.changeAt r (fun x => { x with holds := [] })).tearLaunch b.launch 7
  | .stopped => s0
  | _ =>
    if s.superOf b then s0.endSupervisor b g c
    else
      let s1 := s0.changeAt r (fun x => { x with status := .running, active := false })
      s1.stopPair r b g c true

/-- A released entry of a group has been accepted. -/
def State.acceptDrain (s : State) (r : GRef) : State := (s.popHeld r).settleConfirmed r.blk

/-- R404: does the home of an entry's line hold requests? -/
def State.entryHeld (s : State) (b : Block) (e : HoldEntry) : Bool :=
  match s.translate b.core (s.ctxOf b) (!s.superOf b) .store (BitVec.ofInt 64 (signedOf 52 (64 * e.line))) with
  | .ok (.local pa _ _ _) => s.heldByHome pa
  | _ => false

/-- HOLD_ENTRY_DRAIN (R305, R308, R374): a group's oldest entry is released, once the one before it was accepted. A group
that takes a new fault stops at once, and its drain goes on with the answer. DESIGN CHOICE (assumption 113). -/
def execHoldEntryDrain (g : GRef) (s : State) : Host.Outcome State Fault Refusal :=
  match s.block? g.blk with
  | none => .next s
  | some b =>
    match b.rawGroup g with
    | none => .next s
    | some x =>
      match x.holds with
      | [] => .next (s.settleConfirmed g.blk)
      | e :: _ =>
        if !s.mayDrain b x e || decide (x.status = .stopped) || s.entryHeld b e then .next s
        else match e.sent with
          | some id =>
            match s.replyTo id with
            | none => .next s
            | some p =>
              match replyCause p with
              | some c => .next (if x.pending.isSome then s else (s.consume [id]).refuseDrain g b x e c 0 (s.requestArgs id))
              | none => .next ((s.consume [id]).acceptDrain g)
          | none =>
            match s.release g b x e with
            | .accepted t => .next (t.acceptDrain g)
            | .refused c sec => .next (if x.pending.isSome then s else s.refuseDrain g b x e c sec)
            | .sent t id => .next (t.changeAt g (fun y => { y with
                holds := match y.holds with
                  | f :: rest => { f with sent := some id } :: rest
                  | [] => [] }))

end Sys2Proof.Machine
end

