-- ==== Sys2Proof/Machine/Faults.lean ====
section
/-! DEFINITION. The fault server's side (R350, R351, R353, R437): delivering trap records, applying answers, and the
debugger (R92, R354). -/

namespace Sys2Proof.Machine

/-! ## The bytes of a record (R350) -/

/-- R350: the 128 bytes of a record. -/
def TrapRecord.bytes (r : TrapRecord) : List Byte :=
  let w := fun (v : Word) => natBytes 8 v.toNat
  let head := r.cause.toNat + 2 ^ 8 * r.sec.toNat + 2 ^ 16 * (r.kind % 16) + (if r.pv then 2 ^ 20 else 0) +
    (if r.sup then 2 ^ 21 else 0) + 2 ^ 32 * r.code.toNat
  natBytes 8 head ++ w r.pc ++ w r.va ++ w r.token ++ natBytes 12 r.fmask.toNat ++ natBytes 12 r.pmask.toNat ++
  natBytes 8 (r.repidx.toNat + 2 ^ 32 * r.invst.toNat) ++ w r.origin ++ natBytes 8 (r.ctx.toNat + 2 ^ 32 * (r.gid % 32)) ++
  natBytes 8 r.block ++ w r.time ++ w r.unit ++ w r.arg0 ++ w r.arg1 ++ w r.arg2

/-- R350: the fields of 128 bytes. -/
def parseRecord (bs : List Byte) : TrapRecord :=
  let w := fun (off n : Nat) => wordAt bs off n
  let word := fun (off : Nat) => BitVec.ofNat 64 (w off 8)
  { cause := BitVec.ofNat 8 (w 0 1), sec := BitVec.ofNat 8 (w 1 1), kind := w 2 1 % 16, pv := decide (w 2 1 / 16 % 2 = 1),
    sup := decide (w 2 1 / 32 % 2 = 1), code := BitVec.ofNat 12 (w 4 2), pc := word 8, va := word 0x10, token := word 0x18,
    fmask := BitVec.ofNat 96 (w 0x20 12), pmask := BitVec.ofNat 96 (w 0x2C 12), repidx := BitVec.ofNat 6 (w 0x38 1),
    invst := BitVec.ofNat 12 (w 0x3C 2), origin := word 0x40, ctx := BitVec.ofNat 32 (w 0x48 4), gid := w 0x4C 1 % 32,
    block := w 0x50 8, time := word 0x58, unit := word 0x60, arg0 := word 0x68, arg1 := word 0x70, arg2 := word 0x78 }

/-! ## Delivery (R351, R437) -/

/-- R437: the context that holds this device's trap queue. DEDUCED (assumption 67). -/
def State.trapQueue (s : State) : Option ContextInfo := s.contexts.find? (fun c => c.super && decide (c.tqb ≠ 0))

/-- R437: the device writes a record into its own trap queue; none while the ring is full or cannot be written. -/
def State.queueRecord (s : State) (r : TrapRecord) : Option State :=
  match s.trapQueue with
  | none => none
  | some c =>
    match s.frontWord c.ctx c.tqw 8, s.frontWord c.ctx c.tqr 8 with
    | .ok w, .ok rd =>
      if 2 ^ c.tqLog ≤ w - rd then none
      else
        let va := c.tqb + BitVec.ofNat 64 (128 * (w % 2 ^ c.tqLog))
        match s.engineWrite frontEnd c.ctx false va r.bytes with
        | .error _ => none
        | .ok s1 => match s1.frontStore c.ctx c.tqw (w + 1) with
          | .error _ => none
          | .ok r => some r.2
    | _, _ => none

/-- R351, R408, R412: a record leaves for a peer on the stream of management packets: a request that the peer acknowledges
once its ring has taken the record. DESIGN CHOICE (assumption 118). -/
def State.sendRecord (s : State) (dev : BitVec 13) (r : TrapRecord) : Nat × State :=
  s.request (aimPacket blankPacket (if r.cause = 0xA2 then 0xC4 else 0xC3) dev 0xFFF#12 0 (packetBytes 0 r.bytes))

/-- R351: a record goes on towards its server, if it can now: the state, and the record while it is still on its way. A
peer whose ring is full leaves it at the sender, which sends it again. -/
def State.deliverRecord (s : State) (r : FlyingRecord) : Option (State × Option FlyingRecord) :=
  match r.server, r.sent with
  | none, _ => some ({ s with firmware := { s.firmware with records := s.firmware.records ++ [r.record] } }, none)
  | some dev, none =>
    if dev = s.fabric.devid then (s.queueRecord r.record).map (fun t => (t, none))
    else if s.fabric.reaches dev then
      let x := s.sendRecord dev r.record
      some (x.2, some { r with sent := some x.1 })
    else none
  | some _, some id =>
    match s.replyTo id with
    | none => none
    | some p => some (s.consume [id], if (replyCause p).isSome then some { r with sent := none } else none)

/-- Every group that is resident, with its reference. -/
def State.everyGroup (s : State) : List (GRef × Group) :=
  s.blocks.flatMap (fun b =>
    b.groups.zipIdx.map (fun g => (⟨b.id, g.2, false⟩, g.1)) ++
    (match b.region with
     | some (cs, _) => cs.zipIdx.map (fun c => (⟨b.id, c.2, true⟩, c.1))
     | none => []))

/-- The group that a token stops. -/
def State.stoppedBy (s : State) (token : Word) : Option (GRef × Group) :=
  if token = 0 then none
  else s.everyGroup.find? (fun e => match e.2.stop with
    | some x => decide (x.record.token = token ∧ e.2.status = .stopped)
    | none => false)

/-- R354: the record of a halted group, not yet sent, is pending. -/
def State.recordPending (s : State) (r : FlyingRecord) : Bool :=
  match s.stoppedBy r.record.token with
  | some (_, g) => g.halt.isSome && r.sent.isNone
  | none => false

/-- The first of the records that can go on. -/
def State.deliverFirst (s : State) (before after : List FlyingRecord) : Option State :=
  match after with
  | [] => none
  | r :: rest =>
    if s.recordPending r then s.deliverFirst (before ++ [r]) rest
    else match s.deliverRecord r with
      | some (t, kept) => some { t with records := before ++ kept.toList ++ rest }
      | none => s.deliverFirst (before ++ [r]) rest

/-- TRAP_RECORD_DELIVERY (R351, R354, R437): the oldest record that can go on does: into a ring, on its way to a peer, or,
accepted there, off the sender. A full ring holds a record at the sender. -/
def execTrapRecordDelivery (s : State) : Host.Outcome State Fault Refusal :=
  match s.deliverFirst [] s.records with
  | some t => .next t
  | none => .next s

/-- TRAP_RECORD_TIMEOUT (R351): records of a launch that reach no server. -/
def execTrapRecordTimeout (launch : Nat) (s : State) : Host.Outcome State Fault Refusal :=
  let late := s.records.filter (fun r => decide (r.launch = launch) && r.server.isSome && !s.recordPending r)
  if late.isEmpty then .next s
  else
    let s0 := s.consume (late.filterMap FlyingRecord.sent)
    let s1 := { s0 with
      records := s.records.filter (fun r => !(decide (r.launch = launch) && r.server.isSome && !s.recordPending r))
      firmware := { s.firmware with records := s.firmware.records ++ late.map FlyingRecord.record } }
    .next (s1.tearLaunch launch 7)

/-! ## Answers (R353) -/

/-- R353: after a SUPCALL, s1 of the caller takes the result; a compacted group reads its scalars from group 0 (R67).
DEDUCED (assumption 62). -/
def State.giveResult (s : State) (r : GRef) (x : Stop) (result : Word) : State :=
  if x.record.cause = 0x0D then
    s.changeAt ⟨r.blk, if r.cmp then 0 else r.grp, false⟩ (fun g => g.setScalar 1 result)
  else s

/-- R353: change the group that a reference names. -/
def State.changeView (s : State) (r : GRef) (f : Group → Group) : State :=
  match s.groupAt r with
  | some (_, g) => s.putAt r (f g)
  | none => s

/-- R353, R382: an answer acts on a stopped group. -/
def State.answerOne (s : State) (r : GRef) (x : Stop) (disp : Byte) (result : Word) : State :=
  if disp = 0 then s.changeView r (fun g => g.retry x)
  else (s.changeView r (fun g => g.skip x (decide (disp = 2)))).giveResult r x result

/-- R353, R376: the answer is applied to the group that the token names; in a pair to its partner too. DEDUCED
(assumption 41). -/
def State.applyAnswer (s : State) (r : GRef) (x : Stop) (disp : Byte) (result : Word) : State :=
  match s.block? r.blk with
  | none => s
  | some b =>
    if disp.toNat < 3 then
      let s1 := s.answerOne r x disp result
      match b.pair with
      | some p =>
        let y := { x with drain := false, length := if x.drain then 0 else x.length }
        s1.answerOne { r with blk := p.partner } y disp result
      | none => s1
    else if disp = 4 then s.tearLaunch b.launch 7
    else
      let s1 := s.endFatal r.blk
      if disp = 3 then s1 else s1.reportFirmware b.launch b.core (s.superOf b) { cause := 0xA4, kind := 3 }

/-- R353: does a token name a group that is saved while stopped? -/
def State.tokenSaved (s : State) (token : Word) : Bool :=
  s.launches.any (fun l => l.savedBlk.any (fun b => (b.groups ++ (match b.region with
    | some (cs, _) => cs
    | none => [])).any (fun g => match g.stop with
      | some x => decide (x.record.token = token)
      | none => false)))

/-- ANSWER_APPLY (R353): an answer to a used token, or to a group that is gone, is ignored; one to a group that is saved
waits until it resumes. -/
def execAnswerApply (token : Word) (disp : Byte) (result : Word) (s : State) : Host.Outcome State Fault Refusal :=
  let a := (token, disp, result)
  if token ≠ 0 ∧ s.tokenSaved token then .next { s with answers := a :: s.answers.filter (fun x => decide (x.1 ≠ token)) }
  else
    let s1 := { s with answers := s.answers.erase a }
    match s1.stoppedBy token with
    | some (r, g) => match g.stop with
      | some x => .next (s1.applyAnswer r x disp result)
      | none => .next s1
    | none => .next s1

/-! ## The debugger (R92, R311, R354) -/

/-- R311, R312: does another group wait for the removal of an operator? -/
def State.othersRemove (s : State) (r : GRef) (h : Word) : Bool :=
  s.everyGroup.any (fun e => decide (e.1 ≠ r) && decide (e.2.status = .waiting (.removal h)))

/-- R91, R311: a wait that a halt or a save reaches ends with no effect, its PC at the wait; a sleep ends past it. The
replies of an access (R212) and a result that a sequencer owes it (R266) are no such waits. -/
def State.endWait (s : State) (r : GRef) : State :=
  match s.block? r.blk with
  | none => s
  | some b =>
    match b.rawGroup r with
    | none => s
    | some g =>
      let again := s.changeAt r (fun x => { x with status := .running })
      match g.status with
      | .waiting .sleep => s.changeAt r (fun x => { (x.advance 2).age [] with status := .running })
      | .waiting (.compaction _ _ _ _) => if b.region.isSome then s else again
      | .waiting (.removal h) =>
        match again.operator? h.toNat with
        | some o => again.putOperator { o with removing := s.othersRemove r h }
        | none => again
      | .waiting .regionEnd => s
      | .waiting .replies => s
      | .waiting .outlet => s
      | .waiting _ => again
      | _ => s

/-- DEBUGGER_HALT (R311, R354): the group halts between units; a wait ends. -/
def execDebuggerHalt (g : GRef) (s : State) : Host.Outcome State Fault Refusal :=
  match s.block? g.blk with
  | none => .next s
  | some b =>
    match b.rawGroup g with
    | none => .next s
    | some x =>
      if decide (x.status = .ended) || x.halt.isSome then .next s
      else .next ((s.endWait g).changeAt g (fun y => { y with halt := some ⟨0, false⟩, active := false }))

/-- R354, R212, R376: the pending record of a halted group is discarded, and the group resumes at its unit, whose lanes
that are performed are not performed again; in a pair its partner resumes with it. -/
def State.discardRecord (s : State) (r : GRef) (g : Group) : State :=
  match g.stop with
  | none => s
  | some x =>
    let mine := fun (y : FlyingRecord) => decide (y.record.token = x.record.token) && y.sent.isNone
    if s.records.any mine then
      let s1 := { s with records := s.records.filter (fun y => !mine y) }
      let s2 := s1.changeAt r (fun y => y.retry x)
      match (s1.block? r.blk).bind Block.pair with
      | some p => s2.changeAt { r with blk := p.partner } (fun y => y.retry { x with drain := false })
      | none => s2
    else s

/-- Is a group of a context halted? -/
def State.anyHalted (s : State) (ctx : BitVec 32) : Bool :=
  s.blocks.any (fun b => decide (s.ctxOf b = ctx) && b.allGroups.any (fun g => g.halt.isSome))

end Sys2Proof.Machine
end

