-- ==== Sys2Proof/Machine/Preempt.lean ====
section
/-! DEFINITION. Pre-emption (R295, R311, R359 to R368, R382): requests, forced saves, saving a block, the saved image, and
resuming; and the debugger's resume, which a deferred time slice follows (R354). -/

namespace Sys2Proof.Machine

/-! ## Requests (R363) -/

/-- R308, R363: the still-tentative blocks of a launch are squashed and return to not started. -/
def State.unstart (s : State) (launch : Nat) : State :=
  let mine := (s.blocksOf launch).filter (fun b => decide (b.mode = .tentative) && (match b.pair with
    | some p => p.leading
    | none => true))
  mine.foldl (fun (s : State) (b : Block) =>
    let s1 := s.squash b.id
    let s2 := match b.pair with
      | some p => s1.squash p.partner
      | none => s1
    match s2.launch? launch with
    | some l => s2.putLaunch { l with redo := l.redo ++ [b.lin] }
    | none => s2) s

/-- R363: may a group stop now: between units, or between the lanes of a load that only a sequencer still owes (R266),
with no reply outstanding? -/
def Group.stoppable (g : Group) : Bool :=
  decide (g.status ≠ .held) && (match g.pending with
    | none => true
    | some p => decide (g.status = .waiting .outlet) && p.requests.isEmpty)

/-- R212, R266: a load that a save cuts: the lanes that have their values keep them, and do not load again. -/
def Group.cutLoad (g : Group) : Group :=
  match g.pending with
  | none => g
  | some p => { g.receive p.dest p.values with pending := none, redo := if p.scalar then 0 else g.redo ||| p.got }

/-- R363 step 2: a waiting group of a block that is to be saved, a compacted one too, ends its wait and stops whole; so does
a halted one whose load only a sequencer still owes. -/
def State.saveWaiting (s : State) (r : GRef) : State :=
  match s.block? r.blk with
  | none => s
  | some b =>
    match b.rawGroup r with
    | none => s
    | some g =>
      match g.status with
      | .waiting _ =>
        let cut := g.halt.isSome && decide (g.status = .waiting .outlet) && g.stoppable
        let s1 := if cut then s.changeView r Group.cutLoad else s.endWait r
        s1.changeAt r (fun x => if x.status = .running ∨ cut then { x with status := .saved none, active := false } else x)
      | _ => s

/-- The groups of a launch's blocks, its compacted groups among them. -/
def State.groupsOfLaunch (s : State) (launch : Nat) : List GRef :=
  (s.everyGroup.filter (fun e => match s.block? e.1.blk with
    | some b => b.launch == launch
    | none => false)).map Prod.fst

/-- R363 to R365, R204: a pre-emption request reaches a launch; one whose image has no save area ignores it. -/
def State.requestSave (s : State) (launch : Nat) : State :=
  match s.launch? launch with
  | none => s
  | some l =>
    if !l.started || l.complete || l.torn || decide (l.saving ≠ .no) then s
    else if l.header.save = 0 then
      { s with firmware := { s.firmware with notices := s.firmware.notices ++ [(l.ctx, 365)] } }
    else
      let s1 := ((s.putLaunch { l with saving := .requested, sliceDue := false }).unstart launch).dropReplicas launch
      (s1.groupsOfLaunch launch).foldl State.saveWaiting s1

/-- R295, R363: a pre-emption request reaches every launch of a context. DESIGN CHOICE (assumption 60). -/
def State.requestContext (s : State) (ctx : BitVec 32) : State :=
  ((s.launches.filter (fun l => l.ctx == ctx)).map Launch.id).foldl State.requestSave s

/-- PREEMPTION_REQUEST (R363). -/
def execPreemptionRequest (launch : Nat) (s : State) : Host.Outcome State Fault Refusal :=
  match s.launch? launch with
  | some l => .next (s.requestContext l.ctx)
  | none => .next s

/-! ## Time slices (R295, R354) -/

/-- R294: does some hearth have room for what a launch places next? -/
def State.placeable (s : State) (l : Launch) : Bool :=
  let room := fun (h : Nat) => ((List.range 16).map (fun k => 16 * h + k)).filter (s.coreHasRoom l.header)
  let fits := fun (h : Nat) => !(room h).isEmpty
  let hearths := (List.range 256).filter fits
  if l.header.red then decide (2 ≤ hearths.length)
  else hearths.any (fun h =>
    let share := shareKib l.header.part
    let n := (room h).foldl (fun n c => n + min ((512 - s.poolTaken c) / max 1 share)
      (min ((32 - s.residentCount c) / max 1 l.header.groupCount)
        (if l.header.wres = 0 then 16 else (98304 - s.weightTaken c) / l.header.wres))) 0
    decide (l.header.clsize ≤ n))

/-- R295: may a launch's context be pre-empted for another queue, of its own context too: a block of an equal priority
waits and the slice counts, or one of a higher priority waits? -/
def State.sliceCounts (s : State) (l : Launch) : Bool :=
  let prio := (s.queueKey l).2.1
  let slice := match l.queue.bind s.queue? with
    | some q => q.slice
    | none => 0
  s.waiters.any (fun x =>
    let p := (s.queueKey x).2.1
    decide ((s.queueKey x).1 ≠ (s.queueKey l).1) && (decide (p < prio) || (decide (p = prio) && decide (slice ≠ 0))) && !s.placeable x)

/-- R295: does a queue of a higher priority have a block that cannot be placed? -/
def State.outranked (s : State) (l : Launch) : Bool :=
  s.waiters.any (fun x => decide ((s.queueKey x).2.1 < (s.queueKey l).2.1) && !s.placeable x)

/-- TIME_SLICE_EXPIRY (R295, R354): the request, at once for a queue of a higher priority; a slice that expires in the cycle
of a halt waits for the debugger, and whether it does while a group is halted is left open. DESIGN CHOICE (assumption 60).
-/
def execTimeSliceExpiry (launch : Nat) (s : State) : Host.Outcome State Fault Refusal :=
  match s.launch? launch with
  | none => .next s
  | some l =>
    if !l.started || l.complete || !s.sliceCounts l then .next s
    else if s.anyHalted l.ctx && !s.outranked l && Config.freeBool s.tick 72 then .next (s.putLaunch { l with sliceDue := true })
    else .next (s.requestContext l.ctx)

/-- R354: a deferred time slice of a context requests pre-emption once no group of the context is halted. -/
def State.takeSlice (s : State) (ctx : BitVec 32) : State :=
  let due := s.launches.any (fun l => l.ctx == ctx && l.sliceDue)
  if due && !s.anyHalted ctx then
    { s with launches := s.launches.map (fun (l : Launch) => if l.ctx = ctx then { l with sliceDue := false } else l) }.requestContext ctx
  else s

/-- DEBUGGER_RESUME (R92, R354): the group goes on, past a BKPT; its pending record is sent or discarded; a deferred time
slice requests pre-emption once no group of the context is halted. -/
def execDebuggerResume (g : GRef) (send : Bool) (s : State) : Host.Outcome State Fault Refusal :=
  match s.block? g.blk with
  | none => .next s
  | some b =>
    match b.rawGroup g with
    | none => .next s
    | some x =>
      match x.halt with
      | none => .next s
      | some h =>
        let s1 := if send then s else s.discardRecord g x
        let s2 := s1.changeAt g (fun y =>
          let z := if h.atBkpt then (y.advance 2).age [] else y
          { z with halt := none, active := false })
        .next (s2.takeSlice (s2.ctxOf b))

/-! ## Stopping for a save (R363) -/

/-- R363: has a group stopped for a save, or ended? -/
def Group.atRest (g : Group) (region : Bool) : Bool :=
  g.halt.isSome || (match g.status with
    | .ended => true
    | .stopped => true
    | .saved _ => true
    | .waiting (.compaction _ _ _ _) => region
    | .waiting .regionEnd => true
    | _ => !g.started)

/-- R363: has every group of a block stopped or ended? -/
def Block.atRest (b : Block) : Bool := b.allGroups.all (fun g => g.atRest b.region.isSome)

/-- R363 step 3: a group that has not stopped is saved whole. DEDUCED (assumption 61). -/
def State.hardSave (s : State) (r : GRef) : State :=
  match s.block? r.blk with
  | none => s
  | some b =>
    match b.rawGroup r with
    | none => s
    | some g =>
      if g.atRest b.region.isSome || !g.stoppable then s
      else
        let s1 := (s.endWait r).changeView r Group.cutLoad
        s1.changeAt r (fun x => { x with status := .saved none, active := false })

/-- FORCED_HARD_SAVE (R363, R111, R190, R106): DEADLINE has passed. -/
def execForcedHardSave (launch : Nat) (s : State) : Host.Outcome State Fault Refusal :=
  match s.launch? launch with
  | none => .next s
  | some l =>
    if l.saving ≠ .requested ∧ l.saving ≠ .forced then .next s
    else
      let late := (s.blocksOf launch).filter (fun b => !b.ended && !b.atRest)
      let s1 := if l.saving = .requested then
          late.foldl (fun (s : State) (b : Block) => s.reportHardSave launch b.id) s
        else s
      let s2 := match s1.launch? launch with
        | some x => s1.putLaunch { x with saving := .forced }
        | none => s1
      .next ((s2.groupsOfLaunch launch).foldl State.hardSave s2)

/-! ## What a save keeps (R359, R362, R363) -/

/-- R361: a restart record: the label, the recomputable units, and the liveness record at the label. -/
structure Restart where
  label : Word
  units : BitVec 32
  live  : Nat
deriving DecidableEq, Repr

/-- R361: a launch's restart record `n`. -/
def State.restartRecord (s : State) (core : Nat) (l : Launch) (n : Nat) : Option Restart :=
  match s.engineRead core l.ctx (!l.super) (l.header.rest + BitVec.ofNat 64 (32 * n)) 32 with
  | .ok bs => some ⟨BitVec.ofNat 64 (wordAt bs 0 8), BitVec.ofNat 32 (wordAt bs 8 4), wordAt bs 0x10 2 % 2 ^ 12⟩
  | .error _ => none

/-- What a group's stop names: everything, or the union of its records. -/
def State.keeps (s : State) (core : Nat) (l : Launch) (g : Group) : Option (List LiveRecord) :=
  match g.status with
  | .saved (some n) =>
    match s.liveRecord core l n with
    | .error _ => none
    | .ok r =>
      match g.rlabel with
      | none => some [r]
      | some (k, _) =>
        match s.restartRecord core l k with
        | none => some [r]
        | some x => match s.liveRecord core l x.live with
          | .ok r2 => some [r, r2]
          | .error _ => none
  | _ => none

/-- R195, R366: a group without the registers that no record names. -/
def Group.forget (g : Group) (tick : Nat) (rs : List LiveRecord) : Group :=
  let key := fun (k : Nat) => 64 * k + g.gid
  { g with
    vectors := runCells 0 12288 (fun k =>
      if rs.any (fun r => r.vectors.getLsbD (k / 96)) then readCell g.vectors k else Config.freeLane tick (key k))
    scalars := runCells 0 61 (fun n =>
      if n = 0 then 0 else if rs.any (fun r => r.scalars.getLsbD n) then readCell g.scalars n else Config.freeWord tick (key n))
    preds := runCells 0 8 (fun p =>
      if p = 0 then 0 else if rs.any (fun r => r.preds.getLsbD p) then readCell g.preds p
      else BitVec.ofNat 96 (Config.freeNat tick (16 * key p + 16)))
    brackets := runCells 0 1536 (fun k =>
      if rs.any (fun r => r.brackets.getLsbD (k / 384)) then readCell g.brackets k
      else Config.freeLane tick (key (k + 12288))) }

/-- R362, R17, R187: where a registered group resumes: at its label, with the entries below the registered depth, and with
no unit, repeat, INV round, barrier or BKPT begun there; what an answer skips of a stop is behind it then, and no lane has
performed the unit at the label. DEDUCED (assumption 114). -/
def Group.restart (g : Group) (x : Option Restart) : Group :=
  match g.rlabel, x with
  | some (_, depth), some r =>
    { g with
      pc := r.label &&& ~~~1#64
      entries := g.entries.drop (g.entries.length - depth)
      aim := none, redo := 0, repidx := 0, invst := g.invst &&& ~~~0x40#12, arrivedB := false, arrivedC := false
      halt := g.halt.map (fun (h : Halt) => { h with atBkpt := false })
      stop := g.stop.map (fun (y : Stop) => { y with
        length := 0, isRep := false, record := { y.record with pv := false, pmask := 0 } }) }
  | _, _ => g

/-- R359, R362, R29: a group as its save keeps it, with its late results; while a region is open the original groups wait
for its close and do not restart (R106). DEDUCED (assumption 61). -/
def State.keptGroup (s : State) (core : Nat) (l : Launch) (g : Group) : Group :=
  let x := g.rlabel.bind (fun k => s.restartRecord core l k.1)
  let g1 := match s.keeps core l g with
    | some rs => g.forget s.tick rs
    | none => g
  let g2 := match g.status with
    | .waiting (.compaction _ _ _ _) => g1
    | _ => g1.restart x
  if g.status = .ended then g else { g2 with active := false, remote := [] }

/-- R362: the recomputable units of a block; of one that stays packed, none (R106). -/
def State.recomputable (s : State) (l : Launch) (b : Block) : BitVec 32 :=
  if b.region.isSome then 0 else b.groups.foldl (fun m g => match g.rlabel.bind (fun k => s.restartRecord b.core l k.1) with
    | some r => m ||| r.units
    | none => m) 0

/-- R363, R368: a block as its save keeps it, with the slot storage of its operators. -/
def State.keptBlock (s : State) (l : Launch) (b : Block) : Block :=
  let named := (b.groups.filter (fun g => decide (g.status ≠ .ended))).map (s.keeps b.core l)
  let whole := b.region.isSome || named.any Option.isNone
  let rs := named.flatMap (fun x => x.getD [])
  let ra := s.recomputable l b
  let units := if whole then BitVec.allOnes 32 else rs.foldl (fun m r => m ||| r.units) 0
  let inRange := fun (a : Nat) => whole || s.boundAsSlots b a 1 ||
    rs.any (fun r => r.ranges.any (fun x => decide (x.1 ≤ a) && decide (a < x.1 + x.2)))
  let free := BitVec.ofNat 128 (Config.freeNat s.tick 17)
  let marks := unitMarks units
  { b with
    groups := b.groups.map (s.keptGroup b.core l)
    scratch := if whole then b.scratch else runCells 0 (s.scratchRoom b) (fun a =>
      if inRange a then readCell b.scratch a else Config.freeByte s.tick (4 * a))
    acc := runCells 0 (3072 * accUnits l.header.part) (fun k =>
      if ra.getLsbD (k / 3072) then 0 else if units.getLsbD (k / 3072) then readCell b.acc k
      else Config.freeLane s.tick (64 * (k + 16384)))
    poison := ((b.poison &&& marks) ||| (free &&& ~~~marks)) &&& ~~~unitMarks ra }

/-- R368, R382: a block of a pair as a save keeps it: as its groups' checkpoints hold it, those of the compacted groups
while a region is open, but for the slot storage of its operators, which stays as it is. -/
def State.rewindBlock (s : State) (lead b : Block) : Block :=
  match lead.pair with
  | none => b
  | some p =>
    let n := b.groups.length
    let ks := if b.region.isSome then (List.range (b.allGroups.length - n)).map (fun k => n + k) else List.range n
    let b1 := ks.foldl (fun (x : Block) k =>
      match x.view (x.pairRef k) with
      | some g =>
        if g.status = .ended then x
        else match p.checks.find? (fun c => decide (c.gid = checkName (x.pairRef k) g)) with
          | some c => restoreBlock x k c (decide (b.id ≠ lead.id))
          | none => x
      | none => x) b
    { b1 with
      pair := b1.pair.map (fun (q : Pair) => { q with forward := [] })
      scratch := (b.scratch.filter (fun e => s.boundAsSlots b e.1 1)).foldl (fun m e => writeCell m e.1 e.2)
        (b1.scratch.filter (fun e => !s.boundAsSlots b e.1 1)) }

/-! ## The save area (R365) -/

/-- R290: the 128 bytes of a launch record. -/
def LaunchRecord.bytes (r : LaunchRecord) : List Byte :=
  let head := 2 + 2 ^ 8 * (if r.maq then 2 else 1) + 2 ^ 32 * r.tag.toNat + (if r.ord then 2 ^ 48 else 0) +
    (if r.maq then 2 ^ 49 else 0)
  let w := fun (v : Nat) => natBytes 8 v
  w head ++ w r.img.toNat ++ w r.grid.toNat ++ w r.done.toNat ++ w r.cntr.toNat ++ natBytes 24 0 ++ w r.shaddr.toNat ++
  w (r.px + 2 ^ 24 * r.psel) ++ w (r.fx + 2 ^ 24 * r.lx) ++ w r.arena.toNat ++ w r.quota ++ natBytes 24 0

/-- R293, R302: the order number of a block of a maquette launch, whatever its true shape turns out to be; none for a tail
block of which none is known. -/
def Launch.orderOf (l : Launch) (lin : Nat) : Option Nat :=
  let rows := l.gridY * l.gridZ
  let fx := l.record.fx
  let x := lin % max 1 l.gridX
  let row := lin / max 1 l.gridX
  if x < fx then some (row * fx + x)
  else if x < l.predict then some (fx * rows + (x - fx) * rows + row)
  else match l.truth with
    | some t => if x < t then some (l.predict * rows + row * (t - l.predict) + (x - l.predict)) else none
    | none => none

/-- R365: has a launch placed a block, and not squashed it since? -/
def Launch.placed (l : Launch) (lin : Nat) : Bool :=
  !l.redo.contains lin && (if l.record.maq then (match l.orderOf lin with
    | some k => decide (k < l.next)
    | none => false) else decide (lin < l.next))

/-- The first of `n` numbers from `k` that `f` does not hold of, or the number after them. -/
def firstWithout (f : Nat → Bool) (n k : Nat) : Nat :=
  match n with
  | 0 => k
  | n + 1 => if f k then firstWithout f n (k + 1) else k

/-- R365: NEXTB, the lowest linear index never placed; a squashed block has returned to not started (R308). -/
def Launch.nextB (l : Launch) : Nat := firstWithout l.placed l.blockCount 0

/-- R365: the linear indexes of the block records of a launch, rising; a redundant pair has one (R382). -/
def Launch.savedIndexes (l : Launch) : List Nat := (l.savedBlk.map Block.lin).eraseDups

/-- R305, R306: the true x of a shape that was accepted. -/
def Launch.acceptedX (l : Launch) : Option Nat :=
  if l.judged then l.truth.filter (fun t => decide (t ≤ l.record.lx)) else none

/-- R365: the 1,024 bytes of a saved header. DESIGN CHOICE (assumption 58). -/
def Launch.savedHeader (l : Launch) (savst : Nat) : List Byte :=
  let w := fun (v : Nat) => natBytes 8 v
  let old := l.header.bytes
  let kind := natBytes 8 (wordAt old 0 8 / 2 ^ 20 * 2 ^ 20 + 2 ^ 16 + wordAt old 0 2)
  let head := kind ++ (old.drop 8).take 0x88 ++ w l.ctx.toNat ++ (old.drop 0x98).take (0x300 - 0x98)
  head ++ l.record.bytes ++ w l.nextB ++ w (l.savedIndexes.length + 2 ^ 32 * savst) ++
  w (l.predict + (match l.acceptedX with
    | some t => 2 ^ 24 * (t % 2 ^ 24) + 2 ^ 48
    | none => 0)) ++ natBytes 104 0

/-- Write bytes by lines of 64 from an aligned address. -/
def State.writeLines (s : State) (core : Nat) (ctx : BitVec 32) (fuel : Nat) (va : Word) (bs : List Byte) :
    Except (Fail × Word) State :=
  match fuel with
  | 0 => .ok s
  | fuel + 1 =>
    if bs.isEmpty then .ok s
    else match s.engineWrite core ctx false va (bs.take 64) with
      | .error f => .error (f, va)
      | .ok t => t.writeLines core ctx fuel (va + 64) (bs.drop 64)

/-- R365: the first bytes of each block record: its linear index, and its CLRANK, in 8 bytes each. DESIGN CHOICE
(assumption 58). -/
def State.writeIndexes (s : State) (l : Launch) (k : Nat) (lins : List Nat) : Except (Fail × Word) State :=
  match lins with
  | [] => .ok s
  | lin :: rest =>
    let va := l.header.save + 0x400 + BitVec.ofNat 64 (k * saveBytes l.header)
    match s.engineWrite frontEnd l.ctx false va (natBytes 8 lin ++ natBytes 8 (lin % l.header.clsize) ++ natBytes 48 0) with
    | .error f => .error (f, va)
    | .ok t => t.writeIndexes l (k + 1) rest

/-- R365: the saved header is written, when it can be. -/
def State.writeHeader (s : State) (l : Launch) (savst : Nat) : Except (Fail × Word) State :=
  s.writeLines frontEnd l.ctx 16 l.header.save (l.savedHeader savst)

/-- R365: a save whose write faults ends the launch with status 7. -/
def State.failSave (s : State) (l : Launch) (f : Fail × Word) : State :=
  let s1 := match s.writeHeader l 2 with
    | .ok t => t
    | .error _ => s
  (s1.report l.id 0 { cause := f.1.cause, sec := f.1.sec, va := f.2, kind := 3 }).tearLaunch l.id 7

/-! ## Saving a block (R363, R364, R368) -/

/-- R323: does a block belong to the cluster of the block numbered `k`? -/
def State.sameCluster (s : State) (k : Nat) (b : Block) : Bool :=
  match s.block? k, s.launch? b.launch with
  | some x, some l => x.launch == b.launch && decide (x.lin / l.header.clsize = b.lin / l.header.clsize)
  | _, _ => false

/-- R363, R368, R382: may a block be saved now: its groups rest, and its drains, matrix work, copies and passes are over? -/
def State.restful (s : State) (b : Block) : Bool :=
  !b.ended && b.atRest && decide (b.mode = .normal) && b.allGroups.all (fun g => g.pending.isNone) &&
  (match b.pair with
   | some p => b.groups.all (fun g => g.holds.all (fun e => !p.leading || !e.matchedIn g.sigs))
   | none => true) &&
  !s.copies.any (fun c => c.blk == b.id || c.dst == b.id || (c.mcast && s.sameCluster c.blk b)) &&
  !s.cores.any (fun c => c.queue.any (fun j => j.blk == b.id || j.img == b.id)) &&
  s.operators.all (fun o => o.blk != b.id || o.pass.isEmpty)

/-- R368: the operators of a block are parked, and stay with it. -/
def State.parkAll (s : State) (l : Launch) (b : Block) : State :=
  let c := s.core b.core
  let mine := c.ops.filter (fun o => o.blk == b.id)
  let s1 := if mine.isEmpty then s else s.putCore { c with ops := c.ops.filter (fun o => o.blk != b.id) }
  match s1.launch? l.id with
  | some x => s1.putLaunch { x with
      savedOps := x.savedOps ++ mine.map (fun (o : Operator) => { o with parked := true, loaded := false, reinstall := false }) }
  | none => s1

/-- R365: a block's record joins those of its launch, in ascending linear index. -/
def insertBlock (bs : List Block) (b : Block) : List Block :=
  match bs with
  | [] => [b]
  | c :: rest => if c.lin ≤ b.lin then c :: insertBlock rest b else b :: c :: rest

/-- R363, R364: one resting block is saved and leaves its core. -/
def State.saveBlock (s : State) (l : Launch) (lead b : Block) : State :=
  let s2 := (s.releaseAt b.core 5).dropReplicas l.id
  let kept := if b.pair.isSome then s.rewindBlock lead b else s2.keptBlock l b
  let s3 := s2.parkAll l b
  match s3.launch? l.id with
  | none => s3
  | some x =>
    let va := l.header.save + 0x400 + BitVec.ofNat 64 (x.savedIndexes.length * saveBytes l.header)
    match s3.scribble b.core l.ctx 40 va (saveBytes l.header) with
    | .error f => s3.failSave x f
    | .ok s4 =>
      let s5 := match s4.launch? l.id with
        | some y => s4.putLaunch { y with savedBlk := insertBlock y.savedBlk kept }
        | none => s4
      { s5 with blocks := s5.blocks.filter (fun y => y.id != b.id) }

/-- R112, R197, R363: the blocks that are saved with a block: those of its cluster that have not ended, since each may still
reach the scratchpads of the others until it rests. DEDUCED (assumption 61). -/
def State.savedWith (s : State) (b : Block) : List Block := (s.clusterOf b).filter (fun x => !x.ended)

/-- R363 step 2: the groups of a block, of the others of its cluster, and of its partner, that wait by now end their waits
too. -/
def State.stopWaiting (s : State) (blk : Nat) : State :=
  match s.block? blk with
  | some b => match s.launch? b.launch with
    | some l =>
      let refs := (s.savedWith b ++ (s.otherHalf b).toList).flatMap Block.allRefs
      if l.preempted then refs.foldl State.saveWaiting s else s
    | none => s
  | none => s

/-- R363: some resting blocks are saved one after another, unless a save has ended the launch. -/
def State.saveBlocks (s : State) (l : Launch) (bs : List Block) : State :=
  bs.foldl (fun (s : State) (b : Block) => match s.launch? l.id with
    | some y => if y.torn then s else s.saveBlock l b b
    | none => s) s

/-- BLOCK_SAVE (R363, R364, R368, R382): the waiting groups of a block that is to be saved stop, and once the block rests
it is saved, with its cluster; a pair is saved as one. -/
def execBlockSave (blk : Nat) (s0 : State) : Host.Outcome State Fault Refusal :=
  let s := s0.stopWaiting blk
  match s.block? blk with
  | none => .next s
  | some b =>
    match s.launch? b.launch with
    | none => .next s
    | some l =>
      if !l.preempted || !s.restful b then .next s
      else match b.pair with
        | none => .next (if (s.savedWith b).all s.restful then s.saveBlocks l (s.savedWith b) else s)
        | some p =>
          match s.block? p.partner with
          | none => .next s
          | some t =>
            if !s.restful t && !t.ended then .next s
            else
              let lead := if p.leading then b else t
              .next ((s.saveBlock l lead b).saveBlock l lead t)

/-! ## The saved image and resuming (R365 to R367) -/

/-- R308: has a block that ended entries that still drain? -/
def Block.undrained (b : Block) : Bool :=
  !b.fatal && (match b.pair with
    | some p => p.leading
    | none => true) && !b.entriesHeld.isEmpty

/-- SAVE_COMPLETE (R363 step 5, R365, R367): every block is saved or has ended, and drained: the header is written and the
policy firmware gets its notice; a launch that has nothing left completes instead. -/
def execSaveComplete (launch : Nat) (s : State) : Host.Outcome State Fault Refusal :=
  match s.launch? launch with
  | none => .next s
  | some l =>
    if !l.preempted || l.torn || (s.blocksOf launch).any (fun b => !b.ended || b.undrained) then .next s
    else
      let finished := l.savedBlk.isEmpty && l.redo.isEmpty && decide (l.limit ≤ l.next) && (!l.record.maq || l.applied)
      let written := match s.writeIndexes l 0 l.savedIndexes with
        | .ok t => t.writeHeader l (if finished then 1 else 0)
        | .error f => .error f
      match written with
      | .error f => .next (s.failSave l f)
      | .ok s1 =>
        let s2 := match s1.launch? launch with
          | some x => (s1.putLaunch { x with saving := if finished then .no else .saved }).dropReplicas launch
          | none => s1
        .next { s2 with firmware := { s2.firmware with notices := s2.firmware.notices ++ [(l.ctx, 363)] } }

/-- CONTEXT_RESUME (R366): the policy firmware starts a saved launch again; its saved blocks are placed (R294), and the
blocks that were never placed after them. -/
def execContextResume (launch : Nat) (s : State) : Host.Outcome State Fault Refusal :=
  match s.launch? launch with
  | some l => .next (if l.saving = .saved ∧ !l.torn then s.resumeLaunch l else s)
  | none => .next s

end Sys2Proof.Machine
end

