-- ==== Sys2Proof/Machine/Waits.lean ====
section
/-! DEFINITION. How waiting groups go on (R91, R212, R296, R297, R311): the conditions of the waits, the replies of an
access, and the scheduler's own steps; the write-backs that caches make on their own (R202, R400); and the redundant pairs'
comparator (R374 to R381). -/

namespace Sys2Proof.Machine

/-! ## Waits (R311) -/

/-- R212: has every line that the unit at a group's PC has asked peers for its reply? -/
def State.allAnswered (s : State) (g : Group) : Bool := g.remote.all (fun x => x.answer.isSome || (s.replyTo x.id).isSome)

/-- R375: may a group of a pair run on, its unmatched store units being fewer than SLACK? -/
def State.slackLeft (s : State) (b : Block) (g : Group) : Bool :=
  match s.launch? b.launch with
  | some l => decide (g.sigs.length < l.header.slack)
  | none => true

/-- Does the condition of the wait of the group named hold? Barriers, meetings, sleeps, the replies of an access and
outlet loads have steps of their own. -/
def State.waitOver (s : State) (r : GRef) (b : Block) (g : Group) (w : Wait) : Bool :=
  match w with
  | .copyBatch n => !openWork g.copies n
  | .matrixBatch n => !openWork g.matrix n
  | .counter addr limit =>
    match s.scratchWord b false addr 4 with
    | .ok (blk, off) => s.counterBelow blk off limit
    | .error _ => true
  | .phase addr old =>
    match s.scratchWord b false addr 8 with
    | .ok (blk, off) =>
      let o := s.barrierAt blk off
      decide (o.expect = 0 ∨ o.reserved ≠ 0 ∨ o.phase ≠ if old then 1 else 0)
    | .error _ => true
  | .barrierCluster => s.peerFault b
  | .shape => !s.shapeOpen b
  | .removal h => (s.operator? h.toNat).isNone
  | .parking h => match s.operator? h.toNat with
    | some o => o.pass.isEmpty
    | none => true
  | .invalidation core scope ctx => !s.oldRequests core scope ctx
  | .replies => g.pending.isNone && s.allAnswered g
  | .confirmation => decide (b.mode ≠ .tentative)
  | .holdRoom => decide (b.mode ≠ .tentative)
  | .slack => s.slackLeft b g
  | .drained => s.drainedFor b r g
  | .forwarded => true
  | _ => false

/-- R212: a line of a peer with the reply to its request. -/
def State.answered (s : State) (x : RemoteLine) : RemoteLine :=
  match x.answer, s.replyTo x.id with
  | none, some p => { x with answer := some (match replyCause p with
      | some c => .refused c (s.requestArgs x.id).1 (s.requestArgs x.id).2
      | none => .bytes p.bytes) }
  | _, _ => x

/-- R212: a group's unit has its replies, and is issued again. -/
def State.absorb (s : State) (r : GRef) (g : Group) : State :=
  let open' := (g.remote.filter (fun x => x.answer.isNone)).map RemoteLine.id
  (s.changeAt r (fun x => { x with remote := x.remote.map s.answered })).consume open'

/-- R296: a group whose condition holds is in the pending set again; its unit is issued once more. -/
def State.wake (s : State) (r : GRef) : State :=
  s.changeAt r (fun g => { g with status := .running, active := false })

/-- A wait whose unit completes with its condition, as a step of the group `r`. -/
def State.finishWait (s : State) (r : GRef) (b : Block) (g : Group) (w : Wait) : State :=
  let s1 := { s with cur := r }
  let g1 := { g with status := .running, active := false }
  match w with
  | .counter addr limit =>
    match s.scratchWord b false addr 4 with
    | .ok (blk, off) =>
      if s.counterBelow blk off limit then (s1.acquireAt b.core 2).done ((g1.sealIf true).advance 2) else s.wake r
    | .error _ => s.wake r
  | .phase addr old =>
    match s.scratchWord b false addr 8 with
    | .ok (blk, off) =>
      let o := s.barrierAt blk off
      if o.expect = 0 ∨ o.reserved ≠ 0 then s.wake r
      else if o.phase ≠ (if old then 1 else 0) then (s1.acquireAt b.core 2).done ((g1.sealIf true).advance 2)
      else s.wake r
    | .error _ => s.wake r
  | .removal _ => s1.doneOnce b (g1.advance 2) [] []
  | .parking h =>
    let s2 := match s1.operator? h.toNat with
      | some o => s1.putOperator { o with parked := true, loaded := false, reinstall := false }
      | none => s1
    s2.done (g1.advance 2)
  | .invalidation _ _ _ => s1.done (g1.advance 2)
  | .replies => (s.absorb r g).wake r
  | _ => s.wake r

/-- WAIT_CONDITION_MET (R311, R312, R328, R330, R334, R370, R398): the wait completes, or its unit is issued again. -/
def execWaitConditionMet (g : GRef) (s : State) : Host.Outcome State Fault Refusal :=
  match s.groupAt g with
  | none => .next s
  | some (b, x) =>
    match x.status with
    | .waiting w => .next (if s.waitOver g b x w && x.halt.isNone then s.finishWait g b x w else s)
    | _ => .next s

/-- SLEEP_END (R91): the cycles have passed. -/
def execSleepEnd (g : GRef) (s : State) : Host.Outcome State Fault Refusal :=
  match s.groupAt g with
  | none => .next s
  | some (b, x) =>
    if x.status = .waiting .sleep then
      let d := s.die (dieOf b.core)
      let now := max d.cycle x.readyAt
      let s1 := { s.putDie { d with cycle := now } with cycle := max s.cycle now, cur := g }
      .next (s1.done { x.advance 2 with status := .running, active := false })
    else .next s

/-! ## Replies (R212, R408) -/

/-- R408, R409: the value that a lane's bytes in a reply hold. -/
def replyValue (p : Packet) (off n : Nat) : Nat :=
  bytesNat ((List.range n).map (fun k => match p.bytes.find? (fun e => e.1 == off + k) with
    | some e => e.2
    | none => 0))

/-- The size of what a destination takes. -/
def Dest.size (d : Dest) : Nat :=
  match d with
  | .none => 0
  | .lanes _ n _ => n
  | .scalar _ n _ => n

/-- R212, R302, R373: what the replies of an access bring: values, a load's with the bytes that its group holds over them,
and lanes refused with cause and address. -/
def State.heard (s : State) (p : Pending) : List (Nat × Nat) × List (Nat × Byte × Word) :=
  let vaOf := fun (l : Nat) => match p.vas.find? (fun e => e.1 == l) with
    | some e => e.2
    | none => 0
  p.requests.foldl (fun (acc : List (Nat × Nat) × List (Nat × Byte × Word)) (q : Nat × List (Nat × Nat)) =>
    match s.replyTo q.1 with
    | none => acc
    | some a =>
      match replyCause a with
      | some c => (acc.1, acc.2 ++ q.2.map (fun l => (l.1, c, vaOf l.1)))
      | none => (acc.1 ++ q.2.map (fun l =>
          let v := replyValue a l.2 p.dest.size
          (l.1, if p.atomic then v
            else bytesNat (overlayHeld p.held (vaOf l.1).toNat (natBytes p.dest.size v)))), acc.2)) ([], [])

/-- R417: ARG0 and ARG1 of cause 0x46: the stream and the number of a request with that outcome. -/
def State.lostRequest (s : State) (p : Pending) : Word × Word :=
  match p.requests.find? (fun q => (s.replyTo q.1).bind replyCause == some 0x46) with
  | some q => s.requestArgs q.1
  | none => (0, 0)

/-- R449: the old values of a peer's atomics enter the context. -/
def State.enterAll (s : State) (b : Block) (g : Group) (vs : List (Nat × Nat)) : List (Nat × Nat) × State :=
  vs.foldl (fun (acc : List (Nat × Nat) × State) (v : Nat × Nat) =>
    let e := acc.2.enter (acc.2.ctxOf b) 2 (b.lin * 32 + g.gid) [BitVec.ofNat 64 v.2]
    (acc.1 ++ [(v.1, (e.1.headD 0).toNat)], e.2)) ([], s)

/-- ACCESS_REPLIES_COMPLETE (R212): every request of the access has its reply; lanes that a sequencer of this device still
holds (R266) are waited for. -/
def execAccessRepliesComplete (g : GRef) (s : State) : Host.Outcome State Fault Refusal :=
  match s.groupAt g with
  | none => .next s
  | some (b, x) =>
    match x.pending with
    | none => .next s
    | some p =>
      if p.requests.isEmpty || p.requests.any (fun q => (s.replyTo q.1).isNone) then .next s
      else
        let (vs, refused) := s.heard p
        let s1 := { s.consume (p.requests.map Prod.fst) with cur := g }
        let (vals, s2) := if p.atomic then s1.enterAll b x vs else (vs, s1)
        let p1 := { p with
          requests := [], values := p.values ++ vals, refused := p.refused ++ refused,
          got := p.got ||| maskOfList (vs.map Prod.fst) }
        if p.waits.isEmpty then
          let m : Mem := ⟨.load, .generic, 1, p.dest, p.order, p.scope, 0, false, false, p.length, p.scalar⟩
          .next (s2.endAccess b { x with status := .running } m p1.values p1.refused (lanesOf p1.got) (s.lostRequest p))
        else .next (s2.changeAt g (fun y => { y with pending := some p1, status := .waiting .outlet }))

/-! ## The scheduler (R296, R297) -/

/-- R296: the groups of a core that could go into its active set. -/
def State.pendingSet (s : State) (core : Nat) : List GRef :=
  (s.everyGroup.filter (fun e => match s.block? e.1.blk with
    | some b => b.core == core && !b.ended && !e.2.active && e.2.started && e.2.halt.isNone && decide (e.2.status = .running)
    | none => false)).map Prod.fst

/-- R296: the groups in a core's active set. -/
def State.activeSet (s : State) (core : Nat) : List GRef :=
  (s.everyGroup.filter (fun e => match s.block? e.1.blk with
    | some b => b.core == core && !b.ended && e.2.active
    | none => false)).map Prod.fst

/-- GROUP_PROMOTION (R112, R296): a group that is ready goes into the active set, and where that is full, one of it goes
back to the pending set, since every ready group is to enter it in the end. Which groups these are affects timing alone, and
is left open. DESIGN CHOICE (assumption 50). -/
def execGroupPromotion (core : Nat) (s : State) : Host.Outcome State Fault Refusal :=
  match s.pendingSet core with
  | [] => .next s
  | r :: rest =>
    let into := s.changeAt (choose s.tick 18 r rest) (fun g => { g with active := true })
    match s.activeSet core with
    | [] => .next into
    | a :: others =>
      if others.length < 7 then .next into
      else .next (into.changeAt (choose s.tick 20 a others) (fun g => { g with active := false }))

/-- R297: how many of the oldest groups of a core may issue generic-path loads. -/
def Core.mayIssue (c : Core) : Nat := if c.throttle = 0 then 8 else c.throttle

/-- LOCALITY_WINDOW_END (R297): N moves by the loads and the victim hits of the window. When 4,096 cycles have passed is
left open. DESIGN CHOICE (assumption 49). -/
def execLocalityWindowEnd (core : Nat) (s : State) : Host.Outcome State Fault Refusal :=
  let c := s.core core
  let n := c.mayIssue
  let m := if c.loads < 8 * c.hits then max (n - 1) 2 else if 32 * c.hits < c.loads then min (n + 1) 8 else n
  .next (s.putCore { c with throttle := m, loads := 0, hits := 0 })

/-- R297: the resident groups of a core before one, in dispatch order. -/
def State.olderThan (s : State) (core : Nat) (r : GRef) : List (GRef × Group) :=
  (s.everyGroup.takeWhile (fun e => decide (e.1 ≠ r))).filter (fun e => match s.block? e.1.blk with
    | some b => b.core == core && !b.ended && e.2.started && decide (e.2.status ≠ .ended)
    | none => false)

/-- R297, R112: may a group issue a generic-path load: is it one of the N oldest resident groups, or can none of these
issue? DESIGN CHOICE (assumption 49). -/
def State.mayLoad (s : State) (core : Nat) (r : GRef) : Bool :=
  let older := s.olderThan core r
  let n := (s.core core).mayIssue
  decide (older.length < n) || (older.take n).all (fun e => e.2.halt.isSome || decide (e.2.status ≠ .running))

/-- R202, R297: a line leaves an L1: its dirty bytes are written back, and its tag joins the last 256 victims. -/
def State.evict (s : State) (core line : Nat) : State :=
  let mine := fun (k : Nat) => decide (keyPa k / 64 = line)
  let s1 := s.writeBack core mine
  let c := s1.core core
  if c.l1Clean.any (fun e => mine e.1) then
    s1.putCore { c with
      l1Clean := c.l1Clean.filter (fun e => !mine e.1)
      victims := (line :: c.victims.filter (fun k => decide (k ≠ line))).take 256 }
  else s1

/-! ## Write-backs (R202, R400) -/

/-- L1_WRITEBACK (R202): the dirty bytes of one block of one to eight aligned words; `base` is the L1 key of its first
byte. -/
def execL1Writeback (core base words : Nat) (s : State) : Host.Outcome State Fault Refusal :=
  if keyPa base % 8 = 0 ∧ 1 ≤ words ∧ words ≤ 8 then
    .next (s.writeBack core (fun k => keySwc k == keySwc base && decide (keyPa base ≤ keyPa k) &&
      decide (keyPa k < keyPa base + 8 * words)))
  else .next s

/-- L2_SWC_WRITEBACK (R400): the dirty bytes of one line. -/
def execL2SwcWriteback (die line : Nat) (s : State) : Host.Outcome State Fault Refusal :=
  .next (s.writeBackDieAll die (fun a => decide (a / 64 = line)))

/-! ## Redundant pairs (R374 to R381) -/

/-- The two groups of a pair that have a number (the compacted groups of its blocks count after the original ones), the
leading block first. -/
def State.pairAt (s : State) (blk k : Nat) : Option (Block × Group × Block × Group) :=
  match (s.block? blk).bind s.leadOf with
  | none => none
  | some lead =>
    match lead.pair with
    | none => none
    | some p =>
      match s.block? p.partner with
      | none => none
      | some trail =>
        match lead.rawGroup (lead.pairRef k), trail.rawGroup (trail.pairRef k) with
        | some g, some t => some (lead, g, trail, t)
        | _, _ => none

/-- What a group waits to meet. -/
def Group.meeting (g : Group) : Option Meeting :=
  match g.status with
  | .waiting (.partner m) => some m
  | _ => none

/-- R374: the private copy of a matched unit goes. -/
def Group.dropUnit (g : Group) (unit : Nat) : Group :=
  { g with
    sigs := g.sigs.drop 1
    holds := g.holds.filterMap (fun (e : HoldEntry) =>
      let kept := e.bytes.filter (fun x => decide (x.2.2 ≠ unit))
      if kept.isEmpty then none else some { e with bytes := kept }) }

/-- Does a group wait where it goes on only with its partner: at a barrier or a compaction meeting, which both halves of a
pair pass in one step (R371), or at the end of a region? -/
def Group.atPairWait (g : Group) : Bool :=
  match g.status with
  | .waiting .barrierBlock | .waiting .barrierCluster | .waiting (.compaction _ _ _ _) | .waiting .regionEnd => true
  | _ => false

/-- Has a group come to a point where it produces no signature before its partner meets it? -/
def Group.atMeeting (g : Group) : Bool := g.meeting.isSome || g.atPairWait || decide (g.status = .ended)

/-- R380: does a group never come to the meeting point at which its partner waits: does it wait at another point that both
pass together, or for a value (R372) that its partner has not read? -/
def Group.elsewhere (g : Group) (forwarded : Bool) : Bool :=
  g.atPairWait || (!forwarded && decide (g.status = .waiting .forwarded))

/-- SIGNATURE_COMPARE (R374, R380, R381): the oldest unmatched signatures of a pair of groups; a unit against a meeting
point or an end is a mismatch. -/
def execSignatureCompare (blk grp : Nat) (s : State) : Host.Outcome State Fault Refusal :=
  match s.pairAt blk grp with
  | none => .next s
  | some (lead, g, trail, t) =>
    match g.sigs, t.sigs with
    | a :: rest, b :: _ =>
      if a.crc = b.crc then
        let s1 := s.changeAt (lead.pairRef grp) (fun x => { x with sigs := rest })
        .next (s1.changeAt (trail.pairRef grp) (fun x => x.dropUnit b.unit))
      else .next (s.mismatch lead grp)
    | [], _ :: _ => .next (if g.atMeeting then s.mismatch lead grp else s)
    | _ :: _, [] => .next (if t.atMeeting then s.mismatch lead grp else s)
    | [], [] => .next s

/-- R376: the checkpoint that a meeting point takes. -/
def State.checkpointAt (s : State) (lead : Block) (k : Nat) : State :=
  match s.block? lead.id with
  | some b => s.checkpoint b k false
  | none => s

/-- R376: a stop at which a pair has met: one record, for the leading group, and a checkpoint at once; a supervisor pair
loses the lanes of the fault (R352). DEDUCED (assumption 69). -/
def State.meetAtStop (s : State) (lead : Block) (trail : Block) (k : Nat) (c : Cond) : State :=
  let r := lead.pairRef k
  let q := trail.pairRef k
  let clear := fun (x : Group) => { x with status := .running, stop := none, active := false }
  let s1 := (s.changeAt r clear).changeAt q clear
  let save := fun (s : State) => s.checkpointAt lead k
  match s1.groupAt r with
  | none => s1
  | some (b, g) =>
    if s1.superOf b then
      if c.kind ≠ 1 ∧ c.fmask ≠ 0 then
        let after := fun (x : Group) => if trapfCause c.cause then ((x.dropLanes c).advance 2).age [] else x.dropLanes c
        save ((s1.changeAt r after).changeAt q after)
      else s1.endSupervisor b g c
    else save (s1.stopPair r b g c false)

/-- R376, R377: a pair of groups has met: the unit is performed once by the leading group, which issues it again; a CKPT is
performed here; both groups end at an EXIT; a stop sends its record. -/
def State.meet (s : State) (lead : Block) (g : Group) (trail : Block) (k : Nat) (m : Meeting) : State :=
  let r := lead.pairRef k
  let q := trail.pairRef k
  let go := fun (x : Group) => { x with status := .running, met := some m, active := false }
  if m.kind = meetOnce then s.changeAt r go
  else if m.kind = meetExit then ((s.changeAt r go).changeAt q go).checkpointAt lead k
  else if m.kind = meetStopKind then
    match g.stop with
    | some x => s.meetAtStop lead trail k x.record.cond
    | none => s
  else
    let n := g.cklive.toNat
    let nlive := match s.launch? lead.launch with
      | some l => l.header.nlive
      | none => 0
    if n ≠ 0xFFF ∧ nlive ≤ n then s.meetAtStop lead trail k { cause := 0x0A }
    else
      let past := fun (x : Group) => { (x.advance 2).age [] with status := .running, active := false }
      ((s.changeAt r past).changeAt q past).checkpointAt lead k

/-- MEETING_POINT (R376, R377, R380): both partners wait at a unit, with every earlier store unit matched, and, but for a
stop or an end, drained; a tentative pair meets once it is confirmed (R383). Where only one of them can come to the meeting,
that is a mismatch. -/
def execMeetingPoint (blk grp : Nat) (s : State) : Host.Outcome State Fault Refusal :=
  match s.pairAt blk grp with
  | none => .next s
  | some (lead, g, trail, t) =>
    let forwarded := match lead.pair with
      | some p => p.forward.any (fun e => e.1 == grp)
      | none => false
    if !g.sigs.isEmpty || !t.sigs.isEmpty || decide (lead.mode = .tentative) then .next s
    else match g.meeting, t.meeting with
    | some m, some n =>
      let drains := decide (m.kind = meetOnce ∨ m.kind = meetCkpt)
      if m ≠ n then .next (s.mismatch lead grp)
      else if drains && !g.holds.isEmpty then .next s
      else .next (s.meet lead g trail grp m)
    | some _, none => .next (if t.elsewhere forwarded then s.mismatch lead grp else s)
    | none, some _ => .next (if g.elsewhere true then s.mismatch lead grp else s)
    | none, none => .next s

end Sys2Proof.Machine
end

