-- ==== Sys2Proof/Machine/Fabric.lean ====
section
/-! DEFINITION. Packets that arrive (R407 to R419): requests in stream order, the reply cache, migrating frames (R404),
operator windows, atomic parts, replies and their timeouts, invalidations and management packets; links and bank swaps
(R415, R419 to R421). -/

namespace Sys2Proof.Machine

/-- R443: the dies and HBM accept work: the package has power, and the boot has come to its end. DEDUCED (assumption 94). -/
def State.serving (s : State) : Bool := s.power.on && decide (s.firmware.stage = 4)

/-- R405: do two device identifiers lie in one domain? -/
def sameDomain (a b : BitVec 13) : Bool := decide (a.toNat / 512 = b.toNat / 512)

/-! ## Keys, replies and the reply cache -/

/-- R408: the codes that are assigned. -/
def assignedOp (op : BitVec 8) : Bool :=
  [0x01, 0x02, 0x03, 0x04, 0x05, 0x81, 0x82, 0x83, 0x84, 0xC1, 0xC2, 0xC3, 0xC4].contains op

/-- R407: a packet that a receiver does not drop. -/
def wellSent (p : Packet) : Bool := p.reservedOk && assignedOp p.op

/-- R419: does a bank's entry for a device carry a key? -/
def Bank.admits (b : Bank) (src : BitVec 13) (key : BitVec 16) : Bool :=
  (b.entry src).getLsbD 32 && decide (BitVec.ofNat 16 ((b.entry src).toNat / 65536) = key)

/-- R419: is a packet's key accepted? After a swap the old bank's key is too, for a while. -/
def Fabric.admits (f : Fabric) (p : Packet) : Bool :=
  (f.bank f.active).admits p.src p.pkey || (f.grace && (f.bank !f.active).admits p.src p.pkey)

/-- R407: a packet dropped for its reserved bits or its code is counted. -/
def State.dropPacket (s : State) : State :=
  let f := s.fabric
  { s with fabric := { f with fberr := if f.fberr = 0xFFFFFFFF#32 then f.fberr else f.fberr + 1 } }

/-- Two packets of one stream. -/
def sameStream (p q : Packet) : Bool := p.src == q.src && p.dst == q.dst && p.stream == q.stream && p.fwd == q.fwd

/-- R417: all but the `n` newest replies of a stream are dropped. -/
def trimReplies (n : Nat) (p : Packet) (rs : List Packet) : List Packet :=
  match rs with
  | [] => []
  | r :: rest =>
    if sameStream p r then
      match n with
      | 0 => trimReplies 0 p rest
      | n + 1 => r :: trimReplies n p rest
    else r :: trimReplies n p rest

/-- R404, R408: the device that a request was sent to, whose identifier the reply to it carries: this one, or the home that
has forwarded it here. DESIGN CHOICE (assumption 115). -/
def State.homeOf (s : State) (p : Packet) : BitVec 13 := p.fwd.getD s.fabric.devid

/-- R408, R417: the reply to a packet is formed, kept in the cache, and sent when a plane leads to the requester. -/
def State.reply (s : State) (p : Packet) (op : BitVec 8) (cause : Byte) (bytes : List (Nat × Byte)) : State :=
  let f := s.fabric
  let r : Packet := { blankPacket with
    op := op, src := s.homeOf p, dst := p.src, stream := p.stream, seq := p.seq, pkey := f.keyFor p.src, cause := cause
    bytes := bytes }
  let old := f.replies.filter (fun q => !(sameStream r q && q.seq == r.seq))
  let s1 := { s with fabric := { f with replies := trimReplies 256 r (r :: old) } }
  if f.reaches p.src then s1.post r else s1

/-- R408: a refusal. -/
def State.nack (s : State) (p : Packet) (cause : Byte) : State := s.reply p 0x83 cause []

/-- R417: the cached reply to a request. -/
def State.cached (s : State) (p : Packet) : Option Packet :=
  s.fabric.replies.find? (fun r => r.src == s.homeOf p && r.dst == p.src && r.stream == p.stream && r.seq == p.seq)

/-! ## Performing requests at the home agent -/

/-- The bytes of a store, as a journal holds them (R449): the address, then the offset and the datum of each byte. -/
def journalStore (va : Nat) (bytes : List (Nat × Byte)) : List Word :=
  BitVec.ofNat 64 va :: bytes.map (fun e => BitVec.ofNat 64 (e.1 * 256 + e.2.toNat))

/-- R449: a store from outside enters the contexts whose page tables map its frame. DESIGN CHOICE (assumption 82). -/
def State.noteStore (s : State) (pa : Nat) (bytes : List (Nat × Byte)) : State :=
  { s with journals := s.journals.map (fun (j : Journal) =>
      if j.replay.isNone && (s.contexts.any (fun (c : ContextInfo) => c.ctx == j.ctx && s.owns c pa)) then
        j.append 1 0 (journalStore pa bytes)
      else j) }

/-- R449: an operator store from outside enters the operator's context. -/
def State.noteSlotStore (s : State) (ctx : BitVec 32) (va : Nat) (bytes : List (Nat × Byte)) : State :=
  { s with journals := s.journals.map (fun (j : Journal) =>
      if j.ctx = ctx && j.replay.isNone then j.append 1 0 (journalStore (2 ^ 63 + va) bytes) else j) }

/-- Why the home agent refuses the bytes that a packet marks: no HBM behind them (R388, R447), or an error that it cannot
correct (R206). DEDUCED (assumption 77). -/
def State.homeCause (s : State) (pa : Nat) (offs : List Nat) (reads : Bool) : Option Byte :=
  match offs.findSome? (fun k => s.frameFail (s.route (pa + k))) with
  | some f => some f.cause
  | none => if reads && offs.any (fun k => s.spoiled (pa + k) 1) then some 0xA0 else none

/-- R410: the bytes of the lines that a packet's marked bytes lie in. -/
def spanOf (p : Packet) : Nat := 64 * flitsOf { p with op := 0x02 }

/-- R217, R430: a LOAD at the home agent. -/
def State.serveLoad (s : State) (p : Packet) : State :=
  let offs := p.bytes.map Prod.fst
  match s.homeCause p.pa.toNat offs true with
  | some c => s.nack p c
  | none =>
    let s1 := s.meetCopies p.pa.toNat (spanOf p) none
    s1.reply p 0x81 0 (offs.map (fun k => (k, s1.home (p.pa.toNat + k))))

/-- R218: a STORE at the home agent. -/
def State.serveStore (s : State) (p : Packet) : State :=
  match s.homeCause p.pa.toNat (p.bytes.map Prod.fst) false with
  | some c => s.nack p c
  | none =>
    let s0 := s.meetCopies p.pa.toNat (spanOf p) (some (s.rangeAfter p.pa.toNat (spanOf p) p.bytes))
    ((s0.putHomeCells p.pa.toNat p.bytes).noteStore p.pa.toNat p.bytes).reply p 0x82 0 []

/-- R418: the operator window at a peer's address: the slot with the offset in it, and its address here. -/
def State.remoteWindow (s : State) (pa : Nat) : Option (Bool × Operator × Nat × Nat) :=
  let low := fun (w : Word) => w.toNat % 2 ^ 44
  let a := pa % 2 ^ 44
  let inOf := fun (o : Operator) =>
    o.desc.racc && decide (low o.desc.inlet ≤ a) && decide (a < low o.desc.inlet + o.desc.slots * o.desc.inStride)
  let outOf := fun (o : Operator) =>
    o.desc.racc && o.desc.hasOutlet && decide (low o.desc.outlet ≤ a) &&
      decide (a < low o.desc.outlet + o.desc.slots * o.desc.outStride)
  if !peerWindow pa then none
  else match s.operators.find? inOf with
  | some o =>
    let d := a - low o.desc.inlet
    some (true, o, d / o.desc.inStride, d % o.desc.inStride)
  | none => match s.operators.find? outOf with
    | some o =>
      let d := a - low o.desc.outlet
      some (false, o, d / o.desc.outStride, d % o.desc.outStride)
    | none => none

/-- R258, R418: a remote request to a slot: judged with the packet's tag and key; the tag of a group, or of the copy engine
that works for one, names a group of another context. DESIGN CHOICE (assumption 76). -/
def slotRequest (p : Packet) (o : Operator) (slot : Nat) (bytes : List (Nat × Byte)) : SlotRequest :=
  { handle := o.handle, slot := slot, bytes := bytes, tag := p.tag, remote := true, key := p.opkey, ctx := o.ctx + 1,
    isGroup := decide (p.tag.toNat % 4 < 2) }

/-- R418, R252: an OPSTORE: one request for each inlet slot that its bytes name, and one reply. -/
def State.serveOpstore (s : State) (p : Packet) : State :=
  let at_ := p.bytes.map (fun e => (s.remoteWindow (p.pa.toNat + e.1), e.2))
  if at_.any (fun e => e.1.isNone) then s.nack p 0x25
  else
    let ins := at_.filterMap (fun e => match e.1 with
      | some (true, o, i, off) => some (o, i, off, e.2)
      | _ => none)
    let slots := (ins.map (fun e => (e.1.handle, e.2.1))).eraseDups
    let start : State × Option Byte := (s, if ins.length < at_.length then some 0x44 else none)
    let worse := fun (c : Byte) (x : Option Byte) => match x with
      | some d => some (if c.toNat < d.toNat then c else d)
      | none => some c
    let (s1, refused) := slots.foldl (fun (acc : State × Option Byte) (k : Nat × Nat) =>
      let mine := ins.filter (fun e => e.1.handle == k.1 && e.2.1 == k.2)
      match mine with
      | [] => acc
      | e :: _ =>
        let bytes := mine.map (fun x => x.2.2)
        match acc.1.storeRequest (slotRequest p e.1 k.2 bytes) with
        | .ok t => (t.noteSlotStore e.1.ctx (e.1.desc.inlet.toNat % 2 ^ 52 + k.2 * e.1.desc.inStride) bytes, acc.2)
        | .error c => (acc.1, worse c acc.2)) start
    match refused with
    | some c => s1.nack p c
    | none => s1.reply p 0x82 0 []

/-- R266: the outlet slot of a byte that an OPLOAD waits for: its operator, and whether the byte is data. -/
def State.opHeld (s : State) (p : Packet) (k : Nat) : Option (Operator × Bool) :=
  match s.remoteWindow (p.pa.toNat + k) with
  | some (false, o, i, off) =>
    let data := o.desc.touchesData off
    if o.mustWait i data then some (o, data) else none
  | _ => none

/-- R418, R266: an OPLOAD must wait for a result. DEDUCED (assumption 79). -/
def State.opWaits (s : State) (p : Packet) : Bool := p.wt && p.bytes.any (fun e => (s.opHeld p e.1).isSome)

/-- R258 rule 1, R252: why an OPLOAD is refused at one byte, whatever its slot holds. -/
def State.opRefused (s : State) (p : Packet) (k : Nat) : Option Byte :=
  match s.remoteWindow (p.pa.toNat + k) with
  | none => some 0x25
  | some (_, o, _, _) => if o.desc.key ≠ 0 ∧ o.desc.key ≠ p.opkey then some 0x44 else none

/-- R258 rule 1, R252, R265: why an OPLOAD is refused at one byte. -/
def State.opCause (s : State) (p : Packet) (k : Nat) : Option Byte :=
  match s.opRefused p k, s.remoteWindow (p.pa.toNat + k) with
  | some c, _ => some c
  | none, some (false, o, i, off) => o.outletCause i off 1
  | none, _ => none

/-- R252, R265: the byte that an OPLOAD returns. -/
def State.opByte (s : State) (p : Packet) (k : Nat) : Byte :=
  match s.remoteWindow (p.pa.toNat + k) with
  | some (true, o, i, off) => s.inletByte o i off
  | some (false, o, i, off) => s.outletByte o i off
  | none => 0

/-- R263, R266: the outlet slots that a `.take` OPLOAD empties. -/
def State.opTaken (s : State) (p : Packet) : List (Nat × Nat) :=
  if !p.take then []
  else (p.bytes.filterMap (fun e => match s.remoteWindow (p.pa.toNat + e.1) with
    | some (false, o, i, off) => if o.desc.rmode = 1 ∧ o.desc.touchesData off then some (o.handle, i) else none
    | _ => none)).eraseDups

/-- R258, R265, R418: an OPLOAD is served, or refused with the lowest cause. -/
def State.finishOpload (s : State) (p : Packet) : State :=
  match (p.bytes.filterMap (fun e => s.opCause p e.1)).mergeSort (fun a b => decide (a.toNat ≤ b.toNat)) with
  | c :: _ => s.nack p c
  | [] =>
    let data := p.bytes.map (fun e => (e.1, s.opByte p e.1))
    ((s.opTaken p).foldl (fun (s : State) (k : Nat × Nat) => s.takeResult k.1 k.2) s).reply p 0x81 0 data

/-- R258, R266, R418: an OPLOAD; one that no rule refuses and that must wait is held. -/
def State.serveOpload (s : State) (p : Packet) : State :=
  if p.bytes.all (fun e => (s.opRefused p e.1).isNone) && s.opWaits p then
    { s with fabric := { s.fabric with waiting := s.fabric.waiting ++ [p] } }
  else s.finishOpload p

/-- R266: a held OPLOAD is served once the result is there, or ends when TMO has passed, which a free choice says: data is
refused, and a trailer is returned as it stands. -/
def State.resumeOpload (s : State) (p : Packet) : State :=
  let s1 := { s with fabric := { s.fabric with waiting := s.fabric.waiting.erase p } }
  let held := p.bytes.filterMap (fun e => s.opHeld p e.1)
  let timed := held.filter (fun e => decide (e.1.desc.tmo ≠ 0))
  if !s.opWaits p then s1.finishOpload p
  else if !timed.isEmpty && Config.freeBool s.tick 13 then
    if timed.any (fun e => e.2) then s1.nack p 0x43
    else if timed.length = held.length then s1.finishOpload p
    else s
  else s

/-! ## Atomics (R409, R411) -/

/-- R412, R413: how far a number lies ahead of another, in the numbering 1 to 0xFF_FFFF. -/
def ahead (want seq : BitVec 24) : Nat := (seq.toNat + 0xFFFFFF - want.toNat) % 0xFFFFFF

/-- R411, R412: parts of one atomic unit; the numbers of a unit's parts follow one another in its stream. DEDUCED
(assumption 74). -/
def sameUnit (p q : Packet) : Bool :=
  sameStream p q && p.pa == q.pa && p.npart == q.npart && p.aop == q.aop && p.tag == q.tag && decide (p.part ≠ q.part) &&
  decide (ahead p.seq q.seq = (q.part.toNat + 0xFFFFFF - p.part.toNat) % 0xFFFFFF)

/-- R409: the operands of an entry as R223 gives them. -/
def entryValues (aop : Nat) (opnd new : Word) : Nat × Nat :=
  if aop = 14 then (opnd.toNat % 2 ^ 32, opnd.toNat / 2 ^ 32) else (opnd.toNat, new.toNat)

/-- An entry of a part: its part, its place there, its lane, its offset and its operands. -/
structure PartEntry where
  part : Nat
  nth  : Nat
  lane : Nat
  off  : Nat
  opnd : Word
  new  : Word
deriving DecidableEq, Repr

/-- R411: the entries of all parts in ascending lane order. -/
def unitEntries (ps : List Packet) : List PartEntry :=
  (ps.flatMap (fun p => p.entries.zipIdx.map (fun e =>
    (⟨p.part.toNat, e.2, e.1.1, e.1.2.1, e.1.2.2.1, e.1.2.2.2⟩ : PartEntry)))).mergeSort
    (fun a b => decide (a.lane ≤ b.lane))

/-- R409: the reply to one part: an 8-byte old value for each entry, in entry order. -/
def State.answerPart (s : State) (p : Packet) (olds : List (PartEntry × Nat)) : State :=
  let mine := olds.filter (fun e => decide (e.1.part = p.part.toNat))
  s.reply p 0x81 0 (mine.flatMap (fun e => (natBytes 8 e.2).zipIdx.map (fun b => (8 * e.1.nth + b.2, b.1))))

/-- R225, R411: the entries of an atomic unit at the home agent, one after another. -/
def State.unitAtHome (s : State) (ps : List Packet) (p : Packet) : State :=
  let es := unitEntries ps
  let k := atomicSize p.aop.toNat
  match s.homeCause p.pa.toNat (es.flatMap (fun e => (List.range k).map (fun j => e.off + j))) true with
  | some c => ps.foldl (fun (s : State) (q : Packet) => s.nack q c) s
  | none =>
    let s0 := s.meetCopies p.pa.toNat 64 none
    let (s1, olds) := es.foldl (fun (acc : State × List (PartEntry × Nat)) (e : PartEntry) =>
      let v := entryValues p.aop.toNat e.opnd e.new
      let (old, t) := acc.1.atomicHome p.aop.toNat (p.pa.toNat + e.off) v.1 v.2
      (t, acc.2 ++ [(e, old)])) (s0, [])
    let s2 := { s1 with copies := (s0.meetCopies p.pa.toNat 64 (some (bytesOf s1.home p.pa.toNat 64))).copies }
    ps.foldl (fun (s : State) (q : Packet) => s.answerPart q olds) s2

/-- The inlet slot of an entry of FADD.F32, with the entry's offset there. -/
def State.addSlot (s : State) (p : Packet) (e : PartEntry) : Option (Operator × Nat × Nat) :=
  match s.remoteWindow (p.pa.toNat + e.off) with
  | some (true, o, i, off) =>
    if p.aop.toNat = 2 ∧ (o.desc.afmt = 3 ∨ o.desc.afmt = 4) then some (o, i, off) else none
  | _ => none

/-- How far the entries of FADD.F32 have come: the state, the old values, and the refused parts with their causes. -/
structure Adding where
  state : State
  olds  : List (PartEntry × Nat)
  bad   : List (Nat × Byte)
deriving DecidableEq, Repr

/-- R257, R263, R418: the entries of a unit that name one inlet slot are one request. -/
def Adding.slot (x : Adding) (p : Packet) (o : Operator) (i : Nat) (mine : List (PartEntry × Nat)) : Adding :=
  let s := x.state
  match s.addRequest (slotRequest p o i []) (mine.zipIdx.map (fun e => (e.2, e.1.2, e.1.1.opnd.toNat % 2 ^ 32))) with
  | .error c => { x with bad := x.bad ++ mine.map (fun e => (e.1.part, c)) }
  | .ok (olds, t) =>
    let bytes := mine.flatMap (fun e => (s.pairAdd o i e.2 (e.1.opnd.toNat % 2 ^ 32)).2)
    { x with
      state := t.noteSlotStore o.ctx (o.desc.inlet.toNat % 2 ^ 52 + i * o.desc.inStride) bytes
      olds := x.olds ++ olds.filterMap (fun v => (mine[v.1]?).map (fun e => (e.1, v.2))) }

/-- R257, R263, R418: the entries of FADD.F32 at inlet slots: one request for each slot; a refusal refuses the parts that
it is in. -/
def State.unitAtWindow (s : State) (ps : List Packet) (p : Packet) : State :=
  let es := unitEntries ps
  let ins := es.filterMap (fun e => (s.addSlot p e).map (fun x => (e, x)))
  let out := es.filter (fun e => (s.addSlot p e).isNone)
  let slots := (ins.map (fun e => (e.2.1.handle, e.2.2.1))).eraseDups
  let x := slots.foldl (fun (x : Adding) (k : Nat × Nat) =>
    let mine := ins.filter (fun e => e.2.1.handle == k.1 && e.2.2.1 == k.2)
    match mine with
    | [] => x
    | e :: _ => x.slot p e.2.1 k.2 (mine.map (fun y => (y.1, y.2.2.2)))) ⟨s, [], out.map (fun e => (e.part, 0x25))⟩
  ps.foldl (fun (s : State) (q : Packet) =>
    match (x.bad.filter (fun e => decide (e.1 = q.part.toNat))).mergeSort (fun a b => decide (a.2.toNat ≤ b.2.toNat)) with
    | e :: _ => s.nack q e.2
    | [] => s.answerPart q x.olds) x.state

/-- R411: a part of an atomic unit; the last one to arrive has the whole unit performed. -/
def State.serveAtomic (s : State) (p : Packet) : State :=
  let ps := s.fabric.parts.filter (sameUnit p) ++ [p]
  if (List.range (p.npart.toNat + 1)).all (fun k => ps.any (fun q => q.part.toNat == k)) then
    let s1 := { s with fabric := { s.fabric with parts := s.fabric.parts.filter (fun q => !sameUnit p q) } }
    if peerWindow p.pa.toNat then s1.unitAtWindow ps p else s1.unitAtHome ps p
  else { s with fabric := { s.fabric with parts := s.fabric.parts ++ [p] } }

/-- R408: a request is performed where its address lies. -/
def State.serveAt (s : State) (p : Packet) : State :=
  if p.op = 0x01 then s.serveLoad p
  else if p.op = 0x02 then s.serveStore p
  else if p.op = 0x03 then s.serveAtomic p
  else if p.op = 0x04 then s.serveOpstore p
  else s.serveOpload p

/-! ## Accepting requests (R404, R413, R417) -/

/-- R404: does a packet name bytes of HBM? -/
def namesFrame (p : Packet) : Bool := decide (p.op = 0x01 ∨ p.op = 0x02 ∨ p.op = 0x03) && !peerWindow p.pa.toNat

/-- R411: has the home another part of the unit that a packet belongs to? -/
def State.joins (s : State) (p : Packet) : Bool := decide (p.op = 0x03) && s.fabric.parts.any (sameUnit p)

/-- R404, R411: does a packet name a frame, or a line, whose requests the home agent holds? A line takes the parts of the
unit that holds it. -/
def State.packetHeld (s : State) (p : Packet) : Bool :=
  namesFrame p && (s.copying p.pa.toNat || (s.lineHeld p.pa.toNat && !s.joins p))

/-- R413, R427: does an earlier request of a packet's stream stand among those held? -/
def behindHeld (held : List Packet) (p : Packet) : Bool := decide (p.stream ≠ 0) && held.any (sameStream p)

/-- R404: a request is performed here, or is forwarded where another device has moved its frame to: the reply goes from
there directly to the requester. -/
def State.serveOrForward (s : State) (p : Packet) : State :=
  match s.away with
  | some a =>
    if namesFrame p && a.forward && a.covers p.pa.toNat then
      s.post { p with dst := a.dev, pa := BitVec.ofNat 48 (a.dst + (p.pa.toNat - a.src)), fwd := some (s.homeOf p) }
    else s.serveAt p
  | none => s.serveAt p

/-- R404, R411: the first held request that nothing holds any more. -/
def State.firstDue (s : State) : Option Packet :=
  (s.mig.queue.zipIdx.find? (fun e => !s.packetHeld e.1 && !behindHeld (s.mig.queue.take e.2) e.1)).map Prod.fst

/-- R404, R411: held requests that nothing holds any more are performed, or forwarded, in arrival order; `fuel` bounds how
many. -/
def State.serveQueue (s : State) (fuel : Nat) : State :=
  match fuel with
  | 0 => s
  | fuel + 1 =>
    match s.firstDue with
    | none => s
    | some p => ({ s with mig := { s.mig with queue := s.mig.queue.erase p } }.serveOrForward p).serveQueue fuel

/-- R404, R411: the held requests that nothing holds any more are served. -/
def State.serveHeld (s : State) : State := s.serveQueue s.mig.queue.length

/-- R404: a request for a migrating frame is held, and with a full queue told to come again: then it is not accepted. One
for a line that an atomic unit holds (R411) is held, and so is every later one of its stream (R427). -/
def State.holdOrServe (s : State) (p : Packet) : Bool × State :=
  if s.packetHeld p || behindHeld s.mig.queue p then
    if s.copying p.pa.toNat && namesFrame p && decide (1024 ≤ s.mig.queue.length) then (false, s.reply p 0x84 0 [])
    else (true, { s with mig := { s.mig with queue := s.mig.queue ++ [p] } })
  else if p.op = 0x03 then (true, (s.serveOrForward p).serveHeld)
  else (true, s.serveOrForward p)

/-- R417, R428: a retransmitted request that is no load and whose reply is not kept: it is refused, and so are the parts of
its atomic unit that have come; none is performed. -/
def State.refuseLost (s : State) (p : Packet) : State :=
  let mine := fun (q : Packet) => decide (p.op = 0x03) && (sameUnit p q || (sameStream p q && p.seq == q.seq))
  let lost := s.fabric.parts.filter mine
  let s1 := { s with fabric := { s.fabric with parts := s.fabric.parts.filter (fun q => !mine q) } }
  let s2 := ((lost.filter (fun q => q.seq != p.seq)).foldl (fun (s : State) (q : Packet) => s.nack q 0x46) s1).nack p 0x46
  if lost.isEmpty then s2 else s2.serveHeld

/-- R417, R419: a request whose turn it is: its key, the reply cache for a retransmission, then its effect. The answer says
whether it is behind its stream: one that is told to come again (R404) is not. DEDUCED (assumption 74). DEDUCED
(assumption 75). -/
def State.accept (s : State) (p : Packet) : Bool × State :=
  if !s.fabric.admits p then (true, s.nack p 0x26)
  else if p.retx then
    match s.cached p with
    | some r => (decide (r.op ≠ 0x84), if s.fabric.reaches p.src then s.post r else s)
    | none => if p.op = 0x01 ∨ p.op = 0x05 then s.holdOrServe p else (true, s.refuseLost p)
  else s.holdOrServe p

/-- R413: the number that an incoming stream is to accept next. -/
def Fabric.expects (f : Fabric) (p : Packet) : BitVec 24 :=
  match f.expected.find? (fun e => e.1 == p.src && e.2.1 == p.stream) with
  | some e => e.2.2
  | none => 1

/-- R413: the stream of a packet is past it. -/
def Fabric.pass (f : Fabric) (p : Packet) : Fabric :=
  let others := f.expected.filter (fun e => !(e.1 == p.src && e.2.1 == p.stream))
  { f with expected := (p.src, p.stream, nextSeq p.seq) :: others }

/-- R413: requests that arrived early are accepted in turn. -/
def State.acceptEarly (s : State) (fuel : Nat) (p : Packet) : State :=
  match fuel with
  | 0 => s
  | fuel + 1 =>
    match s.fabric.early.find? (fun q => sameStream p q && q.seq == s.fabric.expects p) with
    | none => s
    | some q =>
      let s1 := { s with fabric := { s.fabric with early := s.fabric.early.erase q } }
      match s1.accept q with
      | (true, t) => { t with fabric := t.fabric.pass q }.acceptEarly fuel p
      | (false, t) => t

/-- R413, R407: a request arrives: it is dropped, held for its predecessors, or accepted with those it lets through. One
that its home has accepted and forwarded (R404) is performed as it comes. -/
def State.arrive (s : State) (p : Packet) : State :=
  if p.dst ≠ s.fabric.devid then s
  else if !wellSent p then s.dropPacket
  else if p.fwd.isSome then (s.holdOrServe p).2
  else if p.stream = 0 then (s.accept p).2
  else
    let d := ahead (s.fabric.expects p) p.seq
    if d = 0 then
      match s.accept p with
      | (true, t) => { t with fabric := t.fabric.pass p }.acceptEarly (t.fabric.early.length + 1) p
      | (false, t) => t
    else if d < 2 ^ 23 then
      if s.fabric.early.any (fun q => sameStream p q && q.seq == p.seq) then s
      else { s with fabric := { s.fabric with early := s.fabric.early ++ [p] } }
    else (s.accept p).2

/-- FABRIC_REQUEST_RECEIVE (R407, R413, R417 to R419): a LOAD, STORE or OPLOAD; a packet with an unassigned code is dropped
here; an OPLOAD that is held is looked at again. -/
def execFabricRequestReceive (p : Packet) (s : State) : Host.Outcome State Fault Refusal :=
  if !s.serving then .next s
  else if s.fabric.waiting.contains p then .next (s.resumeOpload p)
  else if decide (p.op = 0x01 ∨ p.op = 0x02 ∨ p.op = 0x05) || !assignedOp p.op then .next (s.arrive p)
  else .next s

/-- ATOMIC_PACKET_RECEIVE (R411, R413). -/
def execAtomicPacketReceive (p : Packet) (s : State) : Host.Outcome State Fault Refusal :=
  if s.serving && decide (p.op = 0x03) then .next (s.arrive p) else .next s

/-- OPSTORE_RECEIVE (R413, R418). -/
def execOpstoreReceive (p : Packet) (s : State) : Host.Outcome State Fault Refusal :=
  if s.serving && decide (p.op = 0x04) then .next (s.arrive p) else .next s

/-! ## Replies (R408, R412, R416, R419) -/

/-- R412, R415: requests that waited at the sender leave, in their order; one for which no plane is left ends with 0x27. -/
def sendWaiting (f : Fabric) (before after : List Outstanding) : Fabric :=
  match after with
  | [] => { f with requests := before }
  | r :: rest =>
    if r.sent || r.reply.isSome || !mayGo before r.packet || f.stops r.packet then sendWaiting f (before ++ [r]) rest
    else if f.reaches r.packet.dst then
      let q := { r.packet with pkey := f.keyFor r.packet.dst }
      sendWaiting { f with outbox := f.outbox ++ [q] } (before ++ [{ r with packet := q, sent := true }]) rest
    else
      let lost : Packet := { blankPacket with
        op := 0x83, src := r.packet.dst, dst := f.devid, stream := r.packet.stream, seq := r.packet.seq, cause := 0x27 }
      sendWaiting f (before ++ [{ r with sent := true, reply := some lost }]) rest

/-- The request that a reply answers. -/
def Fabric.asked (f : Fabric) (p : Packet) : Option Outstanding :=
  f.requests.find? (fun r => r.packet.dst == p.src && r.packet.stream == p.stream && r.packet.seq == p.seq && r.sent && r.reply.isNone)

/-- The outstanding request in place of the one with its number. -/
def Fabric.putRequest (f : Fabric) (r : Outstanding) : Fabric :=
  { f with requests := f.requests.map (fun x => if x.id = r.id then r else x) }

/-- A reply ends a request, and lets those behind it go. -/
def Fabric.answer (f : Fabric) (r : Outstanding) (p : Packet) : Fabric :=
  let f1 := f.putRequest { r with reply := some p, retrying := false }
  sendWaiting f1 [] f1.requests

/-- R408, R419: a reply with a code arrives; with a wrong key it is dropped, and one that nobody awaits is too. -/
def onReply (p : Packet) (op : BitVec 8) (s : State) (f : Outstanding → Fabric) : Host.Outcome State Fault Refusal :=
  if !s.serving || decide (p.dst ≠ s.fabric.devid) || decide (p.op ≠ op) then .next s
  else if !wellSent p then .next s.dropPacket
  else if !s.fabric.admits p then .next s
  else match s.fabric.asked p with
    | none => .next s
    | some r => .next { s with fabric := f r }

/-- DATA_REPLY (R408). -/
def execDataReply (p : Packet) (s : State) : Host.Outcome State Fault Refusal :=
  onReply p 0x81 s (fun r => s.fabric.answer r p)

/-- ACK_REPLY (R408). -/
def execAckReply (p : Packet) (s : State) : Host.Outcome State Fault Refusal :=
  onReply p 0x82 s (fun r => s.fabric.answer r p)

/-- NACK_REPLY (R408). -/
def execNackReply (p : Packet) (s : State) : Host.Outcome State Fault Refusal :=
  onReply p 0x83 s (fun r => s.fabric.answer r p)

/-- RETRY_REPLY (R404, R416): the request is to be sent again. -/
def execRetryReply (p : Packet) (s : State) : Host.Outcome State Fault Refusal :=
  onReply p 0x84 s (fun r => s.fabric.putRequest { r with retrying := true })

/-- R414, R416, R419: a request is sent again under the bank in service, when a plane leads there. -/
def Fabric.resend (f : Fabric) (r : Outstanding) (retx : Bool) : Fabric :=
  let q := { r.packet with pkey := f.keyFor r.packet.dst, retx := retx }
  let f1 := f.putRequest r
  if f.reaches r.packet.dst then f1.emit q else f1

/-- RETRANSMIT_TIMEOUT (R416): a retransmission, or after the seventh the end of the request. -/
def execRetransmitTimeout (req : Nat) (s : State) : Host.Outcome State Fault Refusal :=
  match s.outstanding? req with
  | none => .next s
  | some r =>
    if !r.sent || r.reply.isSome || r.retrying then .next s
    else if r.attempts < 7 then
      .next { s with fabric := s.fabric.resend { r with attempts := r.attempts + 1 } true }
    else
      let cause : Byte := if r.packet.op = 0x01 ∨ r.packet.op = 0x05 then 0x27 else 0x46
      let p : Packet := { blankPacket with
        op := 0x83, src := r.packet.dst, dst := r.packet.src, stream := r.packet.stream, seq := r.packet.seq
        cause := cause }
      .next { s with fabric := s.fabric.answer r p }

/-- RETRY_DELAY_EXPIRY (R404, R416): the request is sent again; this transmission is no attempt. -/
def execRetryDelayExpiry (req : Nat) (s : State) : Host.Outcome State Fault Refusal :=
  match s.outstanding? req with
  | none => .next s
  | some r =>
    if r.retrying && r.reply.isNone then .next { s with fabric := s.fabric.resend { r with retrying := false } false }
    else .next s

/-- REPLY_CACHE_EXPIRY (R417). -/
def execReplyCacheExpiry (src stream seq : Nat) (s : State) : Host.Outcome State Fault Refusal :=
  .next { s with fabric := { s.fabric with
    replies := s.fabric.replies.filter (fun r => !(r.dst.toNat == src && r.stream.toNat == stream && r.seq.toNat == seq)) } }

/-! ## Management packets (R398, R408, R351, R421) -/

/-- A management packet with a code arrives: R407, R417 and R419 apply to it. DESIGN CHOICE (assumption 76). -/
def onManagement (p : Packet) (op : BitVec 8) (s : State) (f : State) : Host.Outcome State Fault Refusal :=
  if !s.serving || decide (p.dst ≠ s.fabric.devid) || decide (p.op ≠ op) then .next s
  else if !wellSent p then .next s.dropPacket
  else if !s.fabric.admits p then .next (s.nack p 0x26)
  else if p.retx then
    .next (match s.cached p with
      | some r => if s.fabric.reaches p.src then s.post r else s
      | none => s.nack p 0x46)
  else .next f

/-- The data bytes of a management packet. -/
def packetData (p : Packet) (n : Nat) : List Byte :=
  (List.range n).map (fun k => match p.bytes.find? (fun e => e.1 == k) with
    | some e => e.2
    | none => 0)

/-- R398, R417: an acknowledgement of an invalidation, kept as other replies are. -/
def State.acknowledge (s : State) (p : Packet) : State :=
  { s with fabric := { s.fabric with invals := s.fabric.invals.erase p } }.reply p 0xC2 0 []

/-- R397, R398: the drops of an invalidation that came over the fabric, and its acknowledgement once every old request has
reached its point of completion. -/
def State.invalidateFor (s : State) (p : Packet) : State :=
  let bs := packetData p 16
  let c := wordAt bs 8 8
  let ctx := BitVec.ofNat 32 (c / 2 ^ 32)
  let s1 := if s.fabric.invals.contains p then s else s.invalidate 0 2 ctx (wordAt bs 0 8 % 2 ^ 52 / 65536) (c % 2 ^ 24)
  if s1.oldRequests 0 2 ctx then
    { s1 with fabric := { s1.fabric with invals := if s1.fabric.invals.contains p then s1.fabric.invals else s1.fabric.invals ++ [p] } }
  else s1.acknowledge p

/-- INVAL (R398): an invalidation that is held is looked at again. -/
def execInval (p : Packet) (s : State) : Host.Outcome State Fault Refusal := onManagement p 0xC1 s (s.invalidateFor p)

/-- INVACK (R408): the acknowledgement reaches the policy firmware, whose packet it answers. -/
def execInvack (p : Packet) (s : State) : Host.Outcome State Fault Refusal :=
  onReply p 0xC2 s (fun r => s.fabric.answer r p)

/-- R351: a record from a peer goes into this device's trap queue, which acknowledges it; a full ring leaves it at the
sender, with no reply. DESIGN CHOICE (assumption 118). -/
def State.takeRecord (s : State) (p : Packet) : State :=
  match s.queueRecord (parseRecord (packetData p 128)) with
  | some t => t.reply p 0x82 0 []
  | none => s

/-- RECORD_PACKET (R351): the record is to go into this device's trap queue. -/
def execRecordPacket (p : Packet) (s : State) : Host.Outcome State Fault Refusal := onManagement p 0xC3 s (s.takeRecord p)

/-- NOTICE_PACKET (R421): a notice is a record with cause 0xA2. -/
def execNoticePacket (p : Packet) (s : State) : Host.Outcome State Fault Refusal := onManagement p 0xC4 s (s.takeRecord p)

/-! ## Flow control, links and banks (R415, R419 to R421) -/

/-- FLOW_OFF (R415). -/
def execFlowOff (port cls : Nat) (s : State) : Host.Outcome State Fault Refusal :=
  if 16 ≤ port ∨ 4 ≤ cls ∨ s.fabric.off.contains (port, cls) then .next s
  else .next { s with fabric := { s.fabric with off := (port, cls) :: s.fabric.off } }

/-- R415, R419: what no stopped class keeps at the sender leaves: the packets that wait there, then the requests. -/
def Fabric.flush (f : Fabric) : Fabric :=
  let goes := f.blocked.filter (fun p => !f.stops p)
  let f1 := { f with
    blocked := f.blocked.filter f.stops
    outbox := f.outbox ++ (goes.filter (fun p => f.reaches p.dst)).map (fun p => { p with pkey := f.keyFor p.dst }) }
  sendWaiting f1 [] f1.requests

/-- FLOW_ON (R415). -/
def execFlowOn (port cls : Nat) (s : State) : Host.Outcome State Fault Refusal :=
  .next { s with fabric := ({ s.fabric with off := s.fabric.off.filter (fun e => decide (e ≠ (port, cls))) } : Fabric).flush }

/-- R415: a receiver of this device signals OFF for a class, or ON again. How full its buffers are follows from the rates of
the ports, so which one does, and when, is free. DESIGN CHOICE (assumption 48). -/
def State.signalMove (s : State) : State :=
  let e : Nat × Nat := (Config.freeNat s.tick 76 % 16, Config.freeNat s.tick 77 % 4)
  let f := s.fabric
  { s with fabric := { f with told := if f.told.contains e then f.told.filter (fun x => decide (x ≠ e)) else e :: f.told } }

/-- R415, R420: what waits at the sender leaves once another plane takes it. -/
def State.flushMove (s : State) : State := { s with fabric := s.fabric.flush }

/-- A bit mask without bit `k`. -/
def clearBit (m : BitVec 16) (k : Nat) : BitVec 16 := m &&& ~~~(BitVec.ofNat 16 (2 ^ k))

/-- LINK_LOSS (R421): the port's plane leaves the live set, and a notice is due. -/
def execLinkLoss (port : Nat) (s : State) : Host.Outcome State Fault Refusal :=
  let f := s.fabric
  if f.up.getLsbD port then
    .next { s with fabric := { f with up := clearBit f.up port, live := clearBit f.live port, due := f.due ++ [port] } }
  else .next s

/-- R421: a notice: the port, whether it was retrained, its plane. DEDUCED (assumption 93). -/
def State.notice (s : State) (port : Nat) (back : Bool) : State :=
  let (t, s1) := s.nsTime
  let plane := (readCell (s.fabric.bank s.fabric.active).ports port).toNat % 16
  let c : Cond := { cause := 0xA2, kind := 3, arg0 := BitVec.ofNat 64 port, arg1 := if back then 1 else 0, arg2 := BitVec.ofNat 64 plane }
  s1.send (some s.fabric.fmdev) 0 (s1.engineRecord 0 0 c t)

/-- LINK_LOSS_NOTICE (R421): the notice leaves for the trap queue of FMDEV. -/
def execLinkLossNotice (port : Nat) (s : State) : Host.Outcome State Fault Refusal :=
  if s.fabric.due.contains port then
    .next ({ s with fabric := { s.fabric with due := s.fabric.due.erase port } }.notice port false)
  else .next s

/-- R421, R447: a link works again and reports its notice; it is not in the live set until a swap enables it. -/
def State.linkBack (s : State) (port : Nat) : State :=
  { s with fabric := { s.fabric with up := s.fabric.up ||| BitVec.ofNat 16 (2 ^ port) } }.notice port true

/-- LINK_RETRAINED (R421). -/
def execLinkRetrained (port : Nat) (s : State) : Host.Outcome State Fault Refusal :=
  if port < 16 ∧ s.fabric.up.getLsbD port = false then .next (s.linkBack port) else .next s

/-- R420: the enabled ports of a bank with their planes. -/
def Bank.enabled (b : Bank) : List (Nat × Nat) :=
  (List.range 16).filterMap (fun p =>
    let e := readCell b.ports p
    if e.getLsbD 4 then some (p, e.toNat % 16) else none)

/-- R420: do two enabled ports of a bank name the same plane? -/
def Bank.clashes (b : Bank) : Bool :=
  let ps := b.enabled.map Prod.snd
  decide (ps.eraseDups.length < ps.length)

/-- SWAP (R419 to R421): the other bank comes into service, and its enabled links that work form the live set; a bank in
which two enabled ports name one plane makes it fail. -/
def State.swapBanks (s : State) : State :=
  let f := s.fabric
  let b := f.bank !f.active
  if b.clashes then { s with fabric := { f with swfail := true } }
  else
    let en := BitVec.ofNat 16 ((b.enabled.map (fun e => 2 ^ e.1)).sum)
    { s with fabric := { f with active := !f.active, grace := true, live := en &&& f.up } }

/-- SWAP (R420). -/
def execSwap (s : State) : Host.Outcome State Fault Refusal := .next s.swapBanks

/-- SWAP_GRACE_EXPIRY (R419). -/
def execSwapGraceExpiry (s : State) : Host.Outcome State Fault Refusal :=
  .next { s with fabric := { s.fabric with grace := false } }

/-- FBERR_CLR (R420). -/
def execFberrClr (s : State) : Host.Outcome State Fault Refusal := .next { s with fabric := { s.fabric with fberr := 0 } }

/-- SWFAIL_CLEAR (R420). -/
def execSwfailClear (s : State) : Host.Outcome State Fault Refusal :=
  .next { s with fabric := { s.fabric with swfail := false } }

/-! ## Migration (R403, R404) -/

/-- The cells of a run of bytes that starts at a key. -/
def cellsOf (a : Nat) (bs : List Byte) : Cells 8 :=
  (bs.zipIdx.filter (fun e => decide (e.1 ≠ 0))).map (fun e => (a + e.2, e.1))

/-- The cells with those of a range replaced. -/
def replaceRange (c : Cells 8) (a n : Nat) (new : Cells 8) : Cells 8 :=
  c.filter (fun e => decide (e.1 < a)) ++ (new ++ c.filter (fun e => decide (a + n ≤ e.1)))

/-- R404: the bytes that the copy brings: those of this device's own source frame, or those that came from the peer. -/
def State.migrated (s : State) (data : List Byte) : Cells 8 :=
  let m := s.mig
  if m.sdev = s.fabric.devid then
    (s.mem.filter (fun e => decide (m.src ≤ e.1) && decide (e.1 < m.src + m.size))).map (fun e => (e.1 - m.src + m.dst, e.2))
  else cellsOf m.dst (data.take m.size)

/-- R22, R404: the destination frame takes the copy. -/
def State.landFrame (s : State) (new : Cells 8) : State :=
  let m := s.mig
  let here := fun (a : Nat) => decide (m.dst ≤ a) && decide (a < m.dst + m.size)
  let mem := replaceRange s.mem m.dst m.size new
  let keys := (s.mem.map Prod.fst).filter here ++ new.map Prod.fst
  { s.noted { s with mem := mem, bad := s.bad.filter (fun a => !here a) } 0 false keys with released := s.tick }

/-- R404: what another device does with a frame of this one: it begins to move it, its copy is complete or has failed, or
it is released. Which frame, and when, is free. DESIGN CHOICE (assumption 115). -/
def State.awayMove (s : State) : State :=
  let free := fun (k : Nat) => Config.freeNat s.tick (k + 80)
  match s.away with
  | none =>
    let size := [65536, 2097152, 1073741824].getD (free 0 % 3) 65536
    let src := free 1 * size
    let dev := BitVec.ofNat 13 (free 2)
    if dev = s.fabric.devid ∨ !sameDomain dev s.fabric.devid ∨ (s.frameFail src).isSome then s
    else { s with away := some ⟨src, size, dev, free 3 % 2 ^ 28 * size % 2 ^ 48, false⟩ }
  | some a =>
    if a.forward then { s with away := none }
    else if Config.freeBool s.tick 84 then
      let mine := fun (p : Packet) => namesFrame p && a.covers p.pa.toNat
      { s with
        away := some { a with forward := true }
        mig := { s.mig with queue := s.fabric.parts.filter mine ++ s.mig.queue }
        fabric := { s.fabric with parts := s.fabric.parts.filter (fun p => !mine p) } }.serveHeld
    else { s with away := none }.serveHeld

/-- R404: the copy fails: the held requests are served at the source. -/
def State.failMigration (s : State) (cause : Byte) : State :=
  { s with mig := { s.mig with state := 3, cause := cause } }.serveHeld

/-- R206, R404: is the source frame on this device, with an error in it? -/
def State.sourceSpoiled (s : State) : Bool :=
  decide (s.mig.sdev = s.fabric.devid) &&
  s.bad.any (fun a => decide (s.mig.src ≤ a) && decide (a < s.mig.src + s.mig.size))

/-- MIGRATION_COPY_COMPLETE (R404): a copy that has met an uncorrectable error fails instead. -/
def execMigrationCopyComplete (data : List Byte) (s : State) : Host.Outcome State Fault Refusal :=
  if s.mig.state ≠ 1 then .next s
  else if s.sourceSpoiled then .next (s.failMigration 0xA0)
  else
    let s1 := s.landFrame (s.migrated data)
    .next ({ s1 with mig := { s1.mig with state := 2 } }.serveHeld)

/-- MIGRATION_COPY_FAIL (R404). -/
def execMigrationCopyFail (cause : Byte) (s : State) : Host.Outcome State Fault Refusal :=
  if s.mig.state = 1 then .next (s.failMigration cause) else .next s

end Sys2Proof.Machine
end

