-- ==== Sys2Proof/Machine/HostSide.lean ====
section
/-! DEFINITION. The host's side: spawns (R423), accesses to HBM (R429), the link (R422), RDMA from other domains (R406),
and the capture journal (R449). -/

namespace Sys2Proof.Machine

/-! ## Spawns (R423) -/

/-- R423: the spawn window of a context. DEDUCED (assumption 33). -/
def State.window? (s : State) (ctx : BitVec 32) : Option SpawnWindow := s.windows.find? (fun w => w.ctx == ctx)

/-- The spawn window in place of the one of its context. -/
def State.putWindow (s : State) (w : SpawnWindow) : State :=
  { s with windows := s.windows.map (fun x => if x.ctx = w.ctx then w else x) }

/-- R423: a launch without a queue joins the spawn queue of its context. -/
def State.enqueue (s : State) (w : SpawnWindow) (l : Launch) : State :=
  { s with nextId := s.nextId + 1, launches := s.launches ++ [l] }.putWindow { w with queue := w.queue ++ [l.id] }

/-- R423: the record of a spawn, from the words of its line. -/
def spawnRecord (line : List Word) : LaunchRecord :=
  let w := fun (k : Nat) => line.getD k 0
  let args := (List.range 8).map (fun k => BitVec.ofNat 64 ((w (1 + k / 2)).toNat / 2 ^ (32 * (k % 2)) % 2 ^ 32))
  { blankRecord with img := w 0, grid := w 6, hcnt := w 5, args := args, badRes := decide (w 7 ≠ 0) }

/-- SPAWN (R423): a whole line joins the queue of the window's context; another store, or one that finds the queue full, is
dropped and counted. -/
def execSpawn (window : Nat) (whole : Bool) (line : List Word) (s : State) : Host.Outcome State Fault Refusal :=
  if !s.serving then .next s
  else
    let ctx := BitVec.ofNat 32 window
    match s.window? ctx, s.context? ctx with
    | some w, some c =>
      if !whole || decide (line.length ≠ 8) || decide (256 ≤ w.queue.length) then
        .next (s.putWindow { w with drops := w.drops + 1 })
      else .next (s.enqueue w (newLaunch s.nextId none ctx c.fsrv c.super (spawnRecord line)))
    | _, _ => .next s

/-! ## The host's accesses (R429) and its link (R422) -/

/-- R429: may the host access these bytes of HBM now? A migrating frame holds its requests (R404). -/
def State.hostMay (s : State) (pa size : Nat) : Bool :=
  s.serving && decide (size = 1 ∨ size = 2 ∨ size = 4 ∨ size = 8) && decide (pa % size = 0) &&
  (s.frameFail (s.route pa)).isNone && !s.heldByHome pa

/-- HOST_MEM_ACCESS (R422, R429): performed at the home agent of the frame; a load of bytes that HBM cannot correct
returns a value that nothing constrains. -/
def execHostMemAccess (write : Bool) (pa size : Nat) (data : Word) (s : State) : Host.Outcome State Fault Refusal :=
  if !s.hostMay pa size then .next s
  else if write then
    let bs := natBytes size data.toNat
    .next (((s.meetCopies pa size (some bs)).putHomeBytes pa bs).noteStore pa (packetBytes 0 bs))
  else
    let s1 := s.meetCopies pa size none
    let v := if s.spoiled pa size then Config.freeWord s.tick 3 else BitVec.ofNat 64 (bytesNat (bytesOf s1.home pa size))
    .next { s1 with host := { s.host with value := v } }

/-- HOST_LINK_TRAINING (R422): x16, or x8 or x4 when lanes fail. -/
def execHostLinkTraining (lanes : Nat) (s : State) : Host.Outcome State Fault Refusal :=
  if lanes = 16 ∨ lanes = 8 ∨ lanes = 4 then .next { s with host := { s.host with lanes := lanes } } else .next s

/-! ## Bytes of LOCAL pages for copies between domains (R406, R448) -/

/-- R448: the local address behind a virtual address, or the cause that refuses it. -/
def State.localPlace (s : State) (ctx : BitVec 32) (k : Access) (va : Word) : Except Byte Nat :=
  match s.translate frontEnd ctx (s.userCtx ctx) k va with
  | .error f => .error f.cause
  | .ok (.local pa _ _ _) => .ok pa
  | .ok _ => .error 0x25

/-- R448: bytes are written to LOCAL pages, from the first on; those before a refused one stay. -/
def State.landAt (s : State) (ctx : BitVec 32) (va : Word) (bs : List Byte) : State × Option Byte :=
  match bs with
  | [] => (s, none)
  | b :: rest =>
    match s.localPlace ctx .store va with
    | .error c => (s, some c)
    | .ok pa => ((s.meetCopies pa 1 (some [b])).putHome pa b).landAt ctx (va + 1) rest

/-- The bytes of a run, cut where its addresses cross a line. -/
def cutLines (fuel : Nat) (va : Word) (bs : List Byte) : List (Word × List Byte) :=
  match fuel with
  | 0 => []
  | fuel + 1 =>
    if bs.isEmpty then []
    else
      let n := 64 - va.toNat % 64
      (va, bs.take n) :: cutLines fuel (va + BitVec.ofNat 64 n) (bs.drop n)

/-- R449: the bytes that have landed on LOCAL pages enter the contexts that hold their frames, line by line up to the first
one that is refused. -/
def State.noteLanded (s : State) (ctx : BitVec 32) (lines : List (Word × List Byte)) : State :=
  match lines with
  | [] => s
  | (va, bs) :: rest =>
    match s.localPlace ctx .store va with
    | .error _ => s
    | .ok pa => (s.noteStore pa (packetBytes 0 bs)).noteLanded ctx rest

/-- R406, R448, R449: bytes come from another domain: they land, and enter the journals. -/
def State.landFrom (s : State) (ctx : BitVec 32) (va : Word) (bs : List Byte) : State × Option Byte :=
  let r := s.landAt ctx va bs
  if s.journals.isEmpty then r else (r.1.noteLanded ctx (cutLines bs.length va bs), r.2)

/-- R448: bytes of LOCAL pages, or the cause that refuses one of them. -/
def State.takeAt (s : State) (ctx : BitVec 32) (va : Word) (n : Nat) : Except Byte (List Byte) :=
  match n with
  | 0 => .ok []
  | n + 1 =>
    match s.localPlace ctx .load va with
    | .error c => .error c
    | .ok pa =>
      if s.spoiled pa 1 then .error 0xA0
      else match s.takeAt ctx (va + 1) n with
        | .error c => .error c
        | .ok rest => .ok (s.home pa :: rest)

/-- RDMA_REQUEST_RECEIVE (R406, R448): an RDMA WRITE lands its bytes; an RDMA READ of as many bytes returns them. -/
def execRdmaRequestReceive (write : Bool) (src : BitVec 13) (ctx : BitVec 32) (va : Word) (data : List Byte) (s : State) :
    Host.Outcome State Fault Refusal :=
  if !s.serving || sameDomain src s.fabric.devid then .next s
  else if write then .next (s.landFrom ctx va data).1
  else match s.takeAt ctx va data.length with
    | .error _ => .next s
    | .ok bs => .next { s with fabric := { s.fabric with rdma := bs } }

/-! ## The capture journal (R449) -/

/-- The journal of a context. -/
def State.journal? (s : State) (ctx : BitVec 32) : Option Journal := s.journals.find? (fun j => j.ctx == ctx)

/-- The journal in place of the one of its context. -/
def State.putJournal (s : State) (j : Journal) : State :=
  { s with journals := s.journals.map (fun x => if x.ctx = j.ctx then j else x) }

/-- JOURNAL_DRAIN (R449): entries leave the ring, oldest first, which makes room again. -/
def execJournalDrain (ctx : BitVec 32) (entries : Nat) (s : State) : Host.Outcome State Fault Refusal :=
  match s.journal? ctx with
  | some j => .next (s.putJournal { j with entries := j.entries.drop entries, stored := j.stored - entries })
  | none => .next s

/-- R449: the device writes the next entry of a journal into its ring. The spec gives an entry's fields and its 32 bytes,
but no places for the fields: the bytes are free. DESIGN CHOICE (assumption 82). -/
def State.writeEntry (s : State) (j : Journal) : State :=
  match j.entries.drop j.stored with
  | [] => s
  | e :: _ =>
    (s.putHomeBytes (j.ring.toNat + 32 * ((e.seq - 1) % j.room))
      ((List.range 32).map (fun k => Config.freeByte s.tick (k + 200)))).putJournal { j with stored := j.stored + 1 }

/-- R449: the journal that a free choice names has its next entry written. -/
def State.journalMove (s : State) : State :=
  match s.journals[Config.freeNat s.tick 93 % (s.journals.length + 1)]? with
  | some j => s.writeEntry j
  | none => s

/-- R449: the bytes of a journalled store: each word holds an offset and a datum. -/
def journalBytes (ws : List Word) : List (Nat × Byte) := ws.map (fun w => (w.toNat / 256, w.setWidth 8))

/-- R449: a journalled store is delivered: to a slot of an inlet window, or to HBM. -/
def State.deliverStore (s : State) (ctx : BitVec 32) (ws : List Word) : State :=
  let va := (ws.headD 0).toNat
  let bytes := journalBytes (ws.drop 1)
  if 2 ^ 63 ≤ va then
    match s.windowAt (va % 2 ^ 52) with
    | .inlet o i _ =>
      let tag := BitVec.ofNat 32 (s.fabric.devid.toNat * 2 ^ 19 + 2)
      match s.storeRequest { handle := o.handle, slot := i, bytes := bytes, tag := tag, remote := false, key := 0, ctx := ctx,
                             isGroup := false } with
      | .ok t => t
      | .error _ => s
    | _ => s
  else s.putHomeCells va bytes

/-- R449: the completed launches of a context are launched again. DESIGN CHOICE (assumption 82). -/
def State.relaunch (s : State) (ctx : BitVec 32) : State :=
  (s.launches.filter (fun l => l.ctx == ctx && l.complete && !l.replay)).foldl (fun (s : State) (l : Launch) =>
    match s.window? ctx with
    | some w => s.enqueue w { newLaunch s.nextId none ctx l.fsrv l.super l.record with replay := true }
    | none => s) s

/-- R449: the replay of a journal ends, the context runs on live, and the firmware has a notice. -/
def State.endReplay (s : State) (j : Journal) : State :=
  let s1 := s.putJournal { j with replay := none }
  { s1 with firmware := { s1.firmware with notices := s1.firmware.notices ++ [(j.ctx, 449)] } }

/-- REPLAY (R449): the first one of a context starts its replay and launches it again; after that, one delivers the
journal's next entry when that is a store. A journal that has lost entries ends it. -/
def execReplay (ctx : BitVec 32) (s : State) : Host.Outcome State Fault Refusal :=
  match s.journal? ctx with
  | none => .next s
  | some j =>
    match j.replay with
    | none => .next (if s.serving then (s.putJournal { j with replay := some j.entries }).relaunch ctx else s)
    | some (e :: rest) =>
      if j.lost then .next (s.endReplay j)
      else if e.kind = 1 then .next ((s.putJournal { j with replay := some rest }).deliverStore ctx e.value)
      else .next s
    | some [] => .next s

end Sys2Proof.Machine
end

