-- ==== Sys2Proof/Machine/Sha.lean ====
section
/-! DEFINITION. SHA-256, with which measurement registers are extended (R444). The manual names the function and no more;
what is below is the standard's (PRESUMED, assumption 83). No constant is written out: each is computed, as the standard
says, from the root of a prime. The working words are held as two short histories, newest word first, because each of the
eight words is an earlier value of one of two sequences. -/

namespace Sys2Proof.Machine

/-- The largest number below `acc + 2 ^ bits` whose `n`-th power is at most `x`, if `acc` is such a number. -/
def rootFrom (n x : Nat) : Nat → Nat → Nat
  | 0, acc => acc
  | bits + 1, acc => rootFrom n x bits (if (acc + 2 ^ bits) ^ n ≤ x then acc + 2 ^ bits else acc)

/-- The first 32 bits of the fraction of the `n`-th root of `p`, for `p` below `2 ^ (4 * n)`. -/
def rootFraction (n p : Nat) : BitVec 32 := BitVec.ofNat 32 (rootFrom n (p * 2 ^ (32 * n)) 36 0)

/-- The first 64 primes, rising: the primes up to 311. -/
def shaPrimes : List Nat :=
  (List.range 312).filter (fun p => decide (2 ≤ p) && (List.range 18).all (fun d => decide (d < 2 ∨ p ≤ d ∨ p % d ≠ 0)))

/-- The constants of the 64 rounds. PRESUMED (assumption 83). -/
def shaConstants : List (BitVec 32) := shaPrimes.map (rootFraction 3)

/-- The chained value before the first block, as eight words. PRESUMED (assumption 83). -/
def shaStart : List (BitVec 32) := (shaPrimes.take 8).map (rootFraction 2)

/-- The word `k` of a list. -/
def shaAt (ws : List (BitVec 32)) (k : Nat) : BitVec 32 := ws.getD k 0

/-- The exclusive or of a word rotated right by each of the amounts, onto `z`. -/
def spin (z x : BitVec 32) (amounts : List Nat) : BitVec 32 := amounts.foldl (fun acc k => acc ^^^ x.rotateRight k) z

/-- The message schedule goes on by one word: `ws` holds the last 16, oldest first. -/
def scheduled (ws : List (BitVec 32)) : List (BitVec 32) :=
  let early := shaAt ws 1
  let late := shaAt ws 14
  ws.tail ++ [shaAt ws 0 + shaAt ws 9 + spin (early >>> 3) early [7, 18] + spin (late >>> 10) late [17, 19]]

/-- One round: the two histories (four words each, newest first) get one new word each. -/
def shaStep (k w : BitVec 32) (as es : List (BitVec 32)) : List (BitVec 32) × List (BitVec 32) :=
  let a := shaAt as 0
  let e := shaAt es 0
  let chosen := shaAt es 2 ^^^ (e &&& (shaAt es 1 ^^^ shaAt es 2))
  let most := (a &&& (shaAt as 1 ||| shaAt as 2)) ||| (shaAt as 1 &&& shaAt as 2)
  let fresh := k + w + shaAt es 3 + chosen + spin 0 e [6, 11, 25]
  ((fresh + most + spin 0 a [2, 13, 22]) :: as.take 3, (fresh + shaAt as 3) :: es.take 3)

/-- The rounds of the constants left, on the schedule from here on. -/
def shaSteps : List (BitVec 32) → List (BitVec 32) → List (BitVec 32) → List (BitVec 32) → List (BitVec 32)
  | [], _, as, es => as ++ es
  | k :: ks, ws, as, es => let r := shaStep k (shaAt ws 0) as es; shaSteps ks (scheduled ws) r.1 r.2

/-- One block of 16 words, chained onto `h`. -/
def shaBlock (h ws : List (BitVec 32)) : List (BitVec 32) :=
  List.zipWith (fun x y => x + y) h (shaSteps shaConstants ws (h.take 4) (h.drop 4))

/-- A 256-bit number as eight words, the most significant first. -/
def shaWords (v : BitVec 256) : List (BitVec 32) := (List.range 8).map (fun k => v.extractLsb' (32 * (7 - k)) 32)

/-- SHA-256 of two 256-bit digests in a row, whose bytes are those of the numbers, the most significant first: one block of
message, and one of padding with the length 512. -/
def shaPair (a b : BitVec 256) : BitVec 256 :=
  let first := shaBlock shaStart (shaWords a ++ shaWords b)
  let last := shaBlock first ((BitVec.twoPow 32 31 :: List.replicate 14 0) ++ [BitVec.ofNat 32 512])
  last.foldl (fun acc w => (acc <<< 32) ||| w.zeroExtend 256) 0

end Sys2Proof.Machine
end

