-- ==== Sys2Proof/Machine/Services.lean ====
section
/-! DEFINITION. The firmware complex: the services of the policy firmware (R286, R441, R446 to R448), measurements and
attestation (R442, R444), boot (R443), and the live hand-over (R445). -/

namespace Sys2Proof.Machine

/-! ## Serving the mailbox (R441) -/

/-- R441, R445: the policy firmware can take the next request: one is posted, none is in progress, and no hand-over is. -/
def State.mayServe (s : State) : Bool :=
  s.serving && !s.firmware.handover && s.firmware.fencing.isNone && s.firmware.retiring.isNone &&
  s.firmware.copies.isEmpty && decide (s.power.mridx ≠ s.power.mwidx)

/-- R455: the address of the mailbox request numbered `i`. -/
def Power.requestAt (p : Power) (i : BitVec 16) : Word := p.mbase + BitVec.ofNat 64 (64 * (i.toNat % 64))

/-- R441, R455: the request that the read index names completes: its status is given and the index moves past it. DESIGN
CHOICE (assumption 87). -/
def State.finishRequest (s : State) (who : BitVec 32) (status : Nat) : State :=
  { s with
    power := { s.power with mridx := s.power.mridx + 1 }
    firmware := { s.firmware with
      results := s.firmware.results ++ [(who, status)], lastAt := s.power.requestAt s.power.mridx } }

/-- A service for a context: one that is not registered gives status 2 and changes nothing. -/
def onService (ctx : BitVec 32) (s : State) (f : ContextInfo → State) : Host.Outcome State Fault Refusal :=
  if !s.mayServe then .next s
  else match s.context? ctx with
    | none => .next (s.finishRequest ctx 2)
    | some c => .next (f c)

/-! ## Registration (R286, R441) -/

/-- R286: the fields of a queue descriptor's bytes. -/
def parseQueue (id : Nat) (ctx : BitVec 32) (bs : List Byte) : Queue :=
  let w := fun (k : Nat) => wordAt bs (8 * k) 8
  { id := id, ctx := ctx, ring := BitVec.ofNat 64 (w 0), lsize := w 1 % 32, prio := w 1 / 2 ^ 8 % 4,
    quant := w 1 / 2 ^ 16 % 2 ^ 16, slice := w 1 / 2 ^ 32, widxVa := BitVec.ofNat 64 (w 2), ridxVa := BitVec.ofNat 64 (w 3),
    wakeVa := BitVec.ofNat 64 (w 4), errVa := BitVec.ofNat 64 (w 5), fsrv := BitVec.ofNat 13 (w 6), ridx := 0, widx := 0,
    stopped := false, predictor := [] }

/-- R286: a descriptor that the policy firmware refuses. -/
def queueRefused (bs : List Byte) : Bool :=
  let w := fun (k : Nat) => wordAt bs (8 * k) 8
  let lsize := w 1 % 32
  decide (lsize < 12 ∨ 24 < lsize ∨ w 0 % 2 ^ lsize ≠ 0 ∨ w 1 / 2 ^ 5 % 8 ≠ 0 ∨ w 1 / 2 ^ 10 % 64 ≠ 0 ∨
    w 1 / 2 ^ 16 % 2 ^ 16 = 0 ∨ w 2 % 8 ≠ 0 ∨ w 3 % 8 ≠ 0 ∨ w 4 % 8 ≠ 0 ∨ w 5 % 8 ≠ 0 ∨ w 6 / 2 ^ 13 ≠ 0 ∨ w 7 ≠ 0)

/-- REGISTER_QUEUE (R286, R301, R441): a refused registration gives status 1. A descriptor that is registered again gives a
second queue beside the first. DESIGN CHOICE (assumption 119). -/
def execRegisterQueue (ctx : BitVec 32) (desc : Word) (s : State) : Host.Outcome State Fault Refusal :=
  onService ctx s (fun _ =>
    match s.frontRead ctx desc 64 with
    | .error _ => s.finishRequest ctx 1
    | .ok bs =>
      if queueRefused bs || decide (desc.toNat % 8 ≠ 0) then s.finishRequest ctx 1
      else
        let s1 := { s with nextId := s.nextId + 1, queues := s.queues ++ [parseQueue s.nextId ctx bs] }
        s1.finishRequest ctx 0)

/-- REGISTER_CONTEXT (R423, R437, R441, R449): the CTX that the firmware assigns names no other context. -/
def execRegisterContext (info : ContextInfo) (s : State) : Host.Outcome State Fault Refusal :=
  if !s.mayServe || (s.context? info.ctx).isSome then .next s
  else
    let js : List Journal := if info.journal = 0 then [] else [⟨info.ctx, info.journal, [], 0, false, none, info.ring, 0⟩]
    let s1 := { s with
      contexts := s.contexts ++ [info]
      windows := s.windows ++ [(⟨info.ctx, [], 0⟩ : SpawnWindow)]
      journals := s.journals ++ js }
    .next (s1.finishRequest info.ctx 0)

/-! ## Pre-empting, resuming, discarding (R363, R366, R369) -/

/-- The saved launches of a context. -/
def State.savedOf (s : State) (ctx : BitVec 32) : List Launch :=
  s.launches.filter (fun l => l.ctx == ctx && decide (l.saving = .saved) && !l.torn && !l.complete)

/-- R366: the saved launches of a context go on. -/
def State.resumeAll (s : State) (ctx : BitVec 32) : State :=
  (s.savedOf ctx).foldl (fun (s : State) (l : Launch) => match s.launch? l.id with
    | some x => s.resumeLaunch x
    | none => s) s

/-- PREEMPT_SERVICE (R363, R441). -/
def execPreemptService (ctx : BitVec 32) (s : State) : Host.Outcome State Fault Refusal :=
  onService ctx s (fun _ => (s.requestContext ctx).finishRequest ctx 0)

/-- RESUME_SERVICE (R366, R441). -/
def execResumeService (ctx : BitVec 32) (s : State) : Host.Outcome State Fault Refusal :=
  onService ctx s (fun _ => (s.resumeAll ctx).finishRequest ctx 0)

/-- DISCARD_SERVICE (R292, R369, R441): the saved launches are torn down, with the status of one that the driver aborts. -/
def execDiscardService (ctx : BitVec 32) (s : State) : Host.Outcome State Fault Refusal :=
  onService ctx s (fun _ =>
    ((s.savedOf ctx).foldl (fun (s : State) (l : Launch) => s.tearLaunch l.id 8) s).finishRequest ctx 0)

/-! ## Measurements (R444) -/

/-- R444: a measurement register is extended with a digest. -/
def Firmware.extend (f : Firmware) (k : Nat) (d : BitVec 256) : Firmware :=
  { f with mrs := setNth f.mrs k (shaPair (f.mrs.getD k 0) d) }

/-- R444, R446, R447: MR4 is extended with the changed configuration. -/
def State.measureConfig (s : State) : State :=
  { s with firmware := s.firmware.extend 4 (Config.configDigest s.tick) }

/-- R442 to R444: what the monitor does of its own accord: it advances the minimum security version in the fuses, revokes a
key slot, or extends MR5, MR6 or MR7 with a digest that the policy firmware submits. Which, and when, is free. DESIGN CHOICE
(assumption 84). -/
def State.monitorMove (s : State) : State :=
  let f := s.firmware
  let n := Config.freeNat s.tick 90
  if !s.serving then s
  else match Config.freeNat s.tick 91 % 3 with
  | 0 => { s with firmware := { f with minVer := f.minVer + n } }
  | 1 => { s with firmware := { f with revoked := f.revoked ||| BitVec.ofNat 4 (2 ^ (n % 4)) } }
  | _ => { s with firmware := f.extend (5 + n % 3) (Config.submitted s.tick) }

/-! ## Fencing a core (R446) -/

/-- R446: the spare cores of a die that are in use. -/
def Firmware.sparesUsed (f : Firmware) (die : Nat) : Nat :=
  match f.spares.find? (fun e => e.1 == die) with
  | some e => e.2
  | none => 0

/-- R446: another spare core of a die is in use. -/
def Firmware.useSpare (f : Firmware) (die : Nat) : Firmware :=
  { f with spares := (die, f.sparesUsed die + 1) :: f.spares.filter (fun e => decide (e.1 ≠ die)) }

/-- R446: the contexts with a block on a core. -/
def State.contextsOn (s : State) (core : Nat) : List (BitVec 32) :=
  ((s.blocks.filter (fun b => b.core == core && !b.ended)).map s.ctxOf).eraseDups

/-- R446 steps 1 and 2: the core takes no more blocks, and the contexts on it are pre-empted. -/
def State.startFence (s : State) (core : Nat) : State :=
  let ctxs := s.contextsOn core
  let s1 := s.putCore { s.core core with fenced := true }
  let s2 := { s1 with firmware := { s1.firmware with fencing := some (core, ctxs) } }
  ctxs.foldl (fun (s : State) c => s.requestContext c) s2

/-- R446 step 3: every block left on the core has ended, and the pre-empted contexts are saved. -/
def State.fenceOver (s : State) (core : Nat) (ctxs : List (BitVec 32)) : Bool :=
  !s.blocks.any (fun b => b.core == core && !b.ended) && (s.core core).ops.isEmpty && (s.core core).queue.isEmpty &&
  s.launches.all (fun l => !ctxs.contains l.ctx || l.complete || !l.preempted)

/-- R446 step 4: a spare core of the die takes the place, if there is one, and the contexts go on. DEDUCED
(assumption 88). -/
def State.finishFence (s : State) (core : Nat) (ctxs : List (BitVec 32)) : State :=
  let die := dieOf core
  let s0 := s.writeBackAll core
  let s1 := { s0 with firmware := { s0.firmware with fencing := none } }
  let s2 :=
    if s1.firmware.sparesUsed die < 16 then
      let s' := s1.putCore { Core.fresh core with spare := (s1.core core).spare + 1 }
      { s' with firmware := s'.firmware.useSpare die }.measureConfig
    else s1
  (ctxs.foldl (fun (s : State) c => s.resumeAll c) s2).finishRequest 0 0

/-- FENCE_CORE (R446): the request starts; it is looked at again until its core is empty. -/
def execFenceCore (core : Nat) (s : State) : Host.Outcome State Fault Refusal :=
  match s.firmware.fencing with
  | some (k, ctxs) =>
    if k = core ∧ s.serving ∧ s.fenceOver core ctxs then .next (s.finishFence core ctxs) else .next s
  | none =>
    if !s.mayServe || decide (4096 ≤ core) then .next s
    else if (s.core core).fenced then .next (s.finishRequest 0 0)
    else .next (s.startFence core)

/-! ## Retiring a pseudo-channel, retraining a link (R447) -/

/-- R447 step 2: the contexts that use a frame of 64 KiB, each with its fault server, which is asked to migrate it. -/
def State.asksFor (s : State) (frame : Nat) : List (BitVec 13 × BitVec 32 × Nat) :=
  (s.contexts.filter (fun c => s.owns c (65536 * frame))).map (fun c => (c.fsrv, c.ctx, frame))

/-- RETIRE_PSEUDO_CHANNEL (R447): the firmware asks the fault server of each context that uses one of the frames to migrate
it; then, at a later step of the same request, it marks the channel retired. DEDUCED (assumption 88). -/
def execRetirePseudoChannel (frames : List Nat) (s : State) : Host.Outcome State Fault Refusal :=
  let f := s.firmware
  match f.retiring with
  | some fs =>
    if fs = frames ∧ s.serving then
      let s1 := { s with firmware := { f with retiring := none, retired := f.retired ++ frames.filter (fun k => !f.retired.contains k) } }
      .next (s1.measureConfig.finishRequest 0 0)
    else .next s
  | none =>
    if s.mayServe then
      .next { s with firmware := { f with retiring := some frames, asks := f.asks ++ frames.flatMap s.asksFor } }
    else .next s

/-- RETRAIN_LINK (R421, R447). -/
def execRetrainLink (port : Nat) (s : State) : Host.Outcome State Fault Refusal :=
  if !s.mayServe || decide (16 ≤ port) then .next s else .next ((s.linkBack port).finishRequest 0 0)

/-! ## Domain copies (R448) -/

/-- R448: the copy's result is stored to DONE with release at system scope. -/
def State.storeDone (s : State) (req : CopyRequest) (cause : Nat) : State :=
  match s.frontStore req.ctx req.done cause with
  | .ok t => t.2
  | .error _ => s

/-- R406, R419: does the entry for a device of another domain select an 800GbE port? -/
def Fabric.selects (f : Fabric) (dev : BitVec 13) : Bool :=
  let e := (f.bank f.active).entry dev
  e.getLsbD 32 && decide (e.toNat % 16 ≠ 0)

/-- DOMAIN_COPY (R448): a remote device of the same domain gives cause 0x28; a length outside its range gives status 1. -/
def execDomainCopy (req : CopyRequest) (s : State) : Host.Outcome State Fault Refusal :=
  onService req.ctx s (fun _ =>
    if req.len = 0 ∨ 2 ^ 32 < req.len then s.finishRequest req.ctx 1
    else if sameDomain req.rdev s.fabric.devid then (s.storeDone req 0x28).finishRequest req.ctx 0
    else { s with
      nextId := s.nextId + 1
      firmware := { s.firmware with copies := s.firmware.copies ++ [⟨s.nextId, req⟩] } })

/-- R448: the effect of a finished transfer, and the cause it ends with: a read lands the bytes that came, a write takes its
bytes from here to the remote device. DEDUCED (assumption 92). -/
def State.transfer (s : State) (req : CopyRequest) (cause : Byte) (data : List Byte) : State × Byte :=
  if !s.fabric.selects req.rdev then (s, 0x27)
  else if req.dir then
    match s.landFrom req.ctx req.lva (data.take req.len) with
    | (t, some c) => (t, c)
    | (t, none) => (t, if cause = 0 ∧ data.length < req.len then 0x27 else cause)
  else if cause ≠ 0 then (s, cause)
  else match s.takeAt req.ctx req.lva req.len with
    | .ok bs => ({ s with fabric := { s.fabric with written := s.fabric.written ++ [(req.rdev, req.rva, bs)] } }, 0)
    | .error c => (s, c)

/-- DOMAIN_COPY_COMPLETION (R448): with `cause` 0 the transport has brought the whole copy. -/
def execDomainCopyCompletion (id : Nat) (cause : Byte) (data : List Byte) (s : State) : Host.Outcome State Fault Refusal :=
  match s.firmware.copies.find? (fun c => c.id == id) with
  | none => .next s
  | some c =>
    let (s1, k) := s.transfer c.req cause data
    let s2 := { s1 with firmware := { s1.firmware with copies := s1.firmware.copies.filter (fun x => x.id != id) } }
    .next ((s2.storeDone c.req k.toNat).finishRequest c.req.ctx 0)

/-! ## Attestation (R444) -/

/-- The responder answers. -/
def onSpdm (s : State) (r : SpdmReply) : Host.Outcome State Fault Refusal :=
  if s.serving then .next { s with firmware := { s.firmware with spdm := some r } } else .next s

/-- R444: a signed answer advances the leaf index first; at 2^20 it is the error Unspecified. -/
def onSigned (s : State) (f : Nat → Word → SpdmReply) : Host.Outcome State Fault Refusal :=
  if !s.serving then .next s
  else
    let k := s.firmware.leaf
    if 2 ^ 20 ≤ k then .next { s with firmware := { s.firmware with spdm := some .error } }
    else .next { s with firmware := { s.firmware with leaf := k + 1, spdm := some (f k (Config.signature s.tick)) } }

/-- GET_VERSION (R444): SPDM 1.3. -/
def execGetVersion (s : State) : Host.Outcome State Fault Refusal := onSpdm s (.version 0x13)

/-- GET_CAPABILITIES (R444). -/
def execGetCapabilities (s : State) : Host.Outcome State Fault Refusal := onSpdm s .capabilities

/-- NEGOTIATE_ALGORITHMS (R444): SHA-256 is the hash; without it there is none in common. -/
def execNegotiateAlgorithms (sha256 : Bool) (s : State) : Host.Outcome State Fault Refusal :=
  onSpdm s (if sha256 then .algorithms else .error)

/-- GET_DIGESTS (R444). -/
def execGetDigests (s : State) : Host.Outcome State Fault Refusal := onSpdm s (.digests (Config.spdmWord 0))

/-- GET_CERTIFICATE (R444). -/
def execGetCertificate (s : State) : Host.Outcome State Fault Refusal := onSpdm s (.certificate (Config.spdmWord 1))

/-- CHALLENGE (R444). -/
def execChallenge (nonce : List Byte) (s : State) : Host.Outcome State Fault Refusal :=
  onSigned s (fun k v => .challenged nonce k v)

/-- GET_MEASUREMENTS (R444): blocks 1 to 8 carry MR0 to MR7. -/
def execGetMeasurements (nonce : List Byte) (s : State) : Host.Outcome State Fault Refusal :=
  onSigned s (fun k v => .measured s.firmware.mrs nonce k v)

/-! ## Boot (R443) -/

/-- R443 step 3: a key slot that is not revoked holds the digest of an image's key. -/
def Firmware.trusts (f : Firmware) (key : BitVec 256) : Bool :=
  (List.range 4).any (fun k => !f.revoked.getLsbD k && f.keys.getD k 0 == key)

/-- R443 steps 2 to 4: why an image fails, as the code of REASON (R455). -/
def imageReason (f : Firmware) (i : BootImage) : Option (BitVec 8) :=
  if !i.found then some 1
  else if !f.trusts i.keyDig then some 2
  else if !i.sigOk then some 3
  else if i.secVer < f.minVer then some 4
  else none

/-- R443 steps 1 and 2: what the sources hold, in the order in which the strap has the ROM try them: bank A and bank B of
the flash, then the management port; or the management port first. DEDUCED (assumption 85). -/
def bootOrder (strap : Bool) (images : List BootImage) : List BootImage :=
  if strap then images.drop 2 ++ images.take 2 else images

/-- R443: the first image that passes, or the reason of the last one that failed. DEDUCED (assumption 85). -/
def bootImage (f : Firmware) (last : BitVec 8) (images : List BootImage) : Except (BitVec 8) BootImage :=
  match images with
  | [] => .error last
  | i :: rest => match imageReason f i with
    | none => .ok i
    | some r => bootImage f r rest

/-- R451: may the device run at an input voltage, in mV? -/
def railHolds (millivolts : Nat) : Bool := decide (44000 ≤ millivolts) && decide (millivolts ≤ 57000)

/-- R443 to R455: the device right after a reset: what fuses and non-volatile storage hold, the device's identity, the trip
latch, what the sensors read and the link's width stay; the rail is judged anew (R451). DEDUCED (assumption 86). -/
def State.afterReset (s : State) : State :=
  let r := State.reset
  { r with
    tick := s.tick, nextId := s.nextId, agenda := s.agenda, host := { r.host with lanes := s.host.lanes }
    fabric := { r.fabric with devid := s.fabric.devid, up := s.fabric.up }
    firmware := { r.firmware with
      minVer := s.firmware.minVer, leaf := s.firmware.leaf, keys := s.firmware.keys, revoked := s.firmware.revoked
      strap := s.firmware.strap }
    power := { r.power with
      on := railHolds s.power.input, vinlo := decide (s.power.input < 48000), vinhi := decide (54000 < s.power.input)
      diet := s.power.diet, inlet := s.power.inlet, trip := s.power.trip, input := s.power.input } }

/-- R443 step 5, R444: the monitor and the policy firmware start, each measured. DESIGN CHOICE (assumption 84). -/
def Firmware.started (f : Firmware) (i : BootImage) : Firmware :=
  { ((((f.extend 0 (Config.romFuseDigest f.keys f.revoked f.minVer)).extend 1 i.monDig).extend 3 i.qcDig).extend 2 i.fwDig) with
    stage := 4, reason := 0, image := i.fwDig, version := i.version }

/-- RESET (R443, R444, R451): the boot ROM tries the sources in turn, and halts when none gives an image that passes; with
the rail out of its range the device stays off. -/
def execReset (images : List BootImage) (s : State) : Host.Outcome State Fault Refusal :=
  let s1 := s.afterReset
  if !s1.power.on then .next s1
  else match bootImage s1.firmware 1 (bootOrder s1.firmware.strap images) with
  | .ok i => .next { s1 with firmware := s1.firmware.started i }
  | .error r => .next { s1 with firmware := { s1.firmware with stage := 15, reason := r } }

/-! ## Live hand-over (R445) -/

/-- R445 steps 3 and 5: the old bank is restarted on the same block, and measured again. -/
def Firmware.restartOld (f : Firmware) : Firmware := { (f.extend 2 f.image) with handover := false }

/-- FIRMWARE_HANDOVER (R445): an image that fails its verification changes nothing; the running firmware hands over between
service requests; `accepts` says whether the new one accepts the block in time. DESIGN CHOICE (assumption 90). -/
def execFirmwareHandover (image : BootImage) (accepts : Bool) (s : State) : Host.Outcome State Fault Refusal :=
  let f := s.firmware
  let quiet := f.fencing.isNone && f.retiring.isNone && f.copies.isEmpty
  if !s.serving || f.handover || !quiet || (imageReason f image).isSome then .next s
  else
    let g := f.extend 2 image.fwDig
    if image.version < f.version then .next { s with firmware := g.restartOld }
    else if accepts then
      .next { s with firmware := { g with oldImage := f.image, image := image.fwDig, version := image.version, bank := !f.bank } }
    else .next { s with firmware := { g with handover := true } }

/-- HANDOVER_TIMEOUT (R445). -/
def execHandoverTimeout (s : State) : Host.Outcome State Fault Refusal :=
  if s.firmware.handover then .next { s with firmware := s.firmware.restartOld } else .next s

end Sys2Proof.Machine
end

