-- ==== Sys2Proof/Machine/Management.lean ====
section
/-! DEFINITION. Power, clocks and cooling (R451 to R454), the management block (R455), the fabric configuration block (R420,
R456), and writes to registers (R4, R5). -/

namespace Sys2Proof.Machine

/-! ## Power and the clock (R451 to R454) -/

/-- R453: the cap in force, in W. -/
def Power.limit (p : Power) : Nat := if p.cap = 0 then 2400 else min 2400 p.cap.toNat

/-- R451, R455: the clock in MHz: the minimum while the input is or was out of range. DESIGN CHOICE (assumption 91). -/
def Power.clock (p : Power) : Nat := if p.vinlo || p.vinhi then 1200 else p.freq.toNat

/-- R452: one step down, to no less than 1.2 GHz. -/
def Power.slower (p : Power) : Power := { p with freq := BitVec.ofNat 12 (max 1200 (p.freq.toNat - 75)) }

/-- R452: one step up, to no more than 2.25 GHz. -/
def Power.faster (p : Power) : Power := { p with freq := BitVec.ofNat 12 (min 2250 (p.freq.toNat + 75)) }

/-- R454: how the other tick of this millisecond has stepped the clock: 1 down, 2 up, 0 not. -/
def Power.other (p : Power) (thermal : Bool) : Nat :=
  match p.half with
  | some (k, n) => if k = thermal then 0 else n
  | none => 0

/-- R454: what the millisecond has seen after a tick of one kind. -/
def Power.tick (p : Power) (thermal : Bool) (n : Nat) : Power :=
  { p with half := match p.half with
      | some (k, _) => if k = thermal then some (thermal, n) else none
      | none => some (thermal, n) }

/-- R453: the clock against the cap, at a 1 ms average of `watts`. -/
def Power.capTick (p : Power) (watts : Nat) : Power :=
  let q := { p with power := BitVec.ofNat 12 (min watts 4095) }
  if p.limit < watts then
    let held := decide (p.clock ≤ 1200)
    let done := !held && decide (p.other false ≠ 1)
    let q1 := if done then q.slower else q
    { (q1.tick false (if done then 1 else 0)) with capped := true, holding := p.holding || held }
  else
    let q0 := { q with holding := p.holding && decide (watts = p.limit) }
    let q1 := if 100 * watts ≤ 95 * p.limit ∧ p.throt = false then q0.faster else q0
    { (q1.tick false (if q1.freq = p.freq then 0 else 2)) with
      capped := p.capped && (q1.holding || decide (q1.freq.toNat < 2250)) }

/-- POWER_CAP_TICK (R452, R453). -/
def execPowerCapTick (watts : Nat) (s : State) : Host.Outcome State Fault Refusal :=
  if s.power.on then .next { s with power := s.power.capTick watts } else .next s

/-- R451, R454: the device powers off without saving; the next power-on is a reset. -/
def State.powerOff (s : State) (trip : Bool) : State :=
  let r := s.afterReset
  { r with power := { r.power with on := false, trip := r.power.trip || trip } }

/-- R454: the hottest die's temperature, as DIET holds it. -/
def tempByte (degrees : Nat) : BitVec 8 := BitVec.ofNat 8 (min degrees 255)

/-- R455: the coolant's temperature at the inlet, which no event carries: free. DESIGN CHOICE (assumption 91). -/
def State.sensed (s : State) (degrees : Nat) : Power :=
  { s.power with diet := tempByte degrees, inlet := BitVec.ofNat 8 (Config.freeNat s.tick 92) }

/-- THERMAL_TICK (R452, R454): a trip at 110 °C; a step down that the cap's tick of this millisecond has turned up is one
step down. -/
def execThermalTick (degrees : Nat) (s : State) : Host.Outcome State Fault Refusal :=
  let p := s.sensed degrees
  if !s.power.on then .next s
  else if 110 ≤ degrees then .next ({ s with power := p }.powerOff true)
  else if 100 ≤ degrees ∨ (p.throt ∧ 97 ≤ degrees) then
    let p0 := if p.other true = 2 then p.slower else p
    let done := decide (1200 < p0.freq.toNat) && decide (p.other true ≠ 1)
    let q := if done then p0.slower else p0
    .next { s with power := { (q.tick true (if done then 1 else 0)) with throt := true } }
  else .next { s with power := { (p.tick true 0) with throt := false } }

/-- THERMAL_TRIP (R454). -/
def execThermalTrip (degrees : Nat) (s : State) : Host.Outcome State Fault Refusal :=
  if s.power.on && decide (110 ≤ degrees) then
    .next ({ s with power := { s.power with diet := tempByte degrees } }.powerOff true)
  else .next s

/-- INPUT_VOLTAGE_CHANGE (R451). -/
def execInputVoltageChange (millivolts : Nat) (s : State) : Host.Outcome State Fault Refusal :=
  let p := { s.power with input := millivolts }
  if !s.power.on then .next { s with power := p }
  else if millivolts < 44000 ∨ 57000 < millivolts then .next ({ s with power := p }.powerOff false)
  else .next { s with power := { p with
    vinlo := p.vinlo || decide (millivolts < 48000), vinhi := p.vinhi || decide (54000 < millivolts) } }

/-- INPUT_RECOVERY_TIMEOUT (R451): the input has been back for 10 ms. -/
def execInputRecoveryTimeout (s : State) : Host.Outcome State Fault Refusal :=
  let p := s.power
  .next { s with power := { p with
    vinlo := p.vinlo && decide (p.input < 48000), vinhi := p.vinhi && decide (54000 < p.input) } }

/-! ## The management block (R455) -/

/-- R455: CAP takes 0 and 600 to 2,400; another value is ignored and noted. -/
def Power.writeCap (p : Power) (v : Word) : Power :=
  let c : BitVec 12 := v.setWidth 12
  if c = 0 ∨ (600 ≤ c.toNat ∧ c.toNat ≤ 2400) then { p with cap := c } else { p with caperr := true }

/-- R455: MWIDX: a write that would post more than 64 requests is ignored. -/
def Power.writeIndex (p : Power) (v : BitVec 16) : Power :=
  if (v - p.mridx).toNat ≤ 64 then { p with mwidx := v } else p

/-- R455: MBASE, while no request is posted. -/
def Power.writeBase (p : Power) (v : Word) : Power :=
  if p.mwidx = p.mridx then { p with mbase := v &&& 0xFFFFFFFFFFFFF000#64 } else p

/-- R451, R455: a write to a register of the management block takes effect while the package has power. -/
def State.whenOn (s : State) (f : Power → Power) : State := if s.power.on then { s with power := f s.power } else s

/-- CAP (R453, R455). -/
def execCap (value : Word) (s : State) : Host.Outcome State Fault Refusal :=
  .next (s.whenOn (fun p => p.writeCap value))

/-- CAPERR_CLEAR (R455). -/
def execCaperrClear (s : State) : Host.Outcome State Fault Refusal :=
  .next (s.whenOn (fun p => { p with caperr := false }))

/-- TRIP_CLEAR (R455). -/
def execTripClear (s : State) : Host.Outcome State Fault Refusal :=
  .next (s.whenOn (fun p => { p with trip := false }))

/-- MAILBOX_DOORBELL (R441, R455). -/
def execMailboxDoorbell (widx : BitVec 16) (s : State) : Host.Outcome State Fault Refusal :=
  .next (s.whenOn (fun p => p.writeIndex widx))

/-- A flag as bit `k` of a register. -/
def flagBit (b : Bool) (k : Nat) : Nat := if b then 2 ^ k else 0

/-! ## The fabric configuration block (R420) -/

/-- What a register of the fabric configuration block is. -/
inductive FabricReg where
  | control
  | notice
  | errors
  | port (bank : Bool) (p : Nat)
  | entry (bank : Bool) (i : Nat)
  | none
deriving DecidableEq, Repr

/-- R420: the register at an offset. -/
def fabricReg (offset : Nat) : FabricReg :=
  if offset % 8 ≠ 0 then .none
  else if offset = 0 then .control
  else if offset = 8 then .notice
  else if offset = 0x10 then .errors
  else if 0x100 ≤ offset ∧ offset < 0x200 then .port (decide (0x180 ≤ offset)) (offset % 0x80 / 8)
  else if 0x10000 ≤ offset ∧ offset < 0x30000 then .entry (decide (0x20000 ≤ offset)) (offset % 0x10000 / 8)
  else .none

/-- R419, R420: what a register reads. -/
def Fabric.readRegister (f : Fabric) (offset : Nat) : Word :=
  match fabricReg offset with
  | .control => BitVec.ofNat 64 (flagBit f.active 0)
  | .notice => f.fmdev.setWidth 64
  | .errors => BitVec.ofNat 64 (f.fberr.toNat + flagBit f.swfail 32)
  | .port b p => readCell (f.bank b).ports p
  | .entry b i => readCell (f.bank b).table i
  | .none => 0

/-- One bank replaced. -/
def Fabric.putBank (f : Fabric) (b : Bool) (x : Bank) : Fabric := if b then { f with bank1 := x } else { f with bank0 := x }

/-- R419, R420: a write, while the package has power; the bank in service takes none. -/
def State.writeFabric (s : State) (offset : Nat) (v : Word) : State :=
  let f := s.fabric
  if !s.power.on then s
  else match fabricReg offset with
  | .control => if v.getLsbD 1 then s.swapBanks else s
  | .notice => { s with fabric := { f with fmdev := v.setWidth 13 } }
  | .errors => { s with fabric := { f with
      swfail := f.swfail && !v.getLsbD 32, fberr := if v.getLsbD 33 then 0 else f.fberr } }
  | .port b p =>
    if b = f.active then s
    else
      let x := f.bank b
      { s with fabric := f.putBank b { x with ports := writeCell x.ports p (v &&& 0x1F) } }
  | .entry b i =>
    if b = f.active then s
    else
      let x := f.bank b
      { s with fabric := f.putBank b { x with table := writeCell x.table i (v &&& 0x1FFFFFFFF#64) } }
  | .none => s

/-! ## BAR0 (R455, R456) -/

/-- R456: the offset in the fabric configuration block of an offset in BAR0. -/
def fabricOffset (offset : Nat) : Option Nat :=
  if 0x100000 ≤ offset ∧ offset < 0x130000 then some (offset - 0x100000) else none

/-- R455, R456: what a register reads at an offset of BAR0; an offset that no block gives reads 0. -/
def State.readManagement (s : State) (offset : Nat) : Word :=
  let p := s.power
  match fabricOffset offset with
  | some k => s.fabric.readRegister k
  | none =>
  BitVec.ofNat 64 (match offset with
    | 0x0000 => 0x0940 + 2 ^ 16 * Config.stepping.toNat
    | 0x0008 => s.firmware.stage.toNat + 2 ^ 4 * s.firmware.reason.toNat
    | 0x0010 => p.cap.toNat
    | 0x0018 => p.power.toNat + 2 ^ 12 * p.clock + flagBit p.capped 24 + flagBit p.throt 25 + flagBit p.vinlo 26 +
        flagBit p.caperr 27 + flagBit p.vinhi 28
    | 0x0020 => p.diet.toNat + 2 ^ 8 * p.inlet.toNat + flagBit p.trip 16
    | 0x0030 => p.mbase.toNat
    | 0x0038 => p.mwidx.toNat
    | 0x0040 => p.mridx.toNat
    | _ => 0)

/-- R455: a write to the management block. -/
def Power.writeRegister (p : Power) (offset : Nat) (v : Word) : Power :=
  if offset = 0x0010 then p.writeCap v
  else if offset = 0x0018 then { p with caperr := p.caperr && !v.getLsbD 27 }
  else if offset = 0x0020 then { p with trip := p.trip && !v.getLsbD 16 }
  else if offset = 0x0030 then p.writeBase v
  else if offset = 0x0038 then p.writeIndex (v.setWidth 16)
  else p

/-- R455, R456: a write at an offset of BAR0. -/
def State.writeManagement (s : State) (offset : Nat) (v : Word) : State :=
  match fabricOffset offset with
  | some k => s.writeFabric k v
  | none => s.whenOn (fun p => p.writeRegister offset v)

/-- REGISTER_WRITE (R4, R5, R32, R420, R455): an SRW's write of a special register, or a write of a register of the two
blocks in BAR0. -/
def execRegisterWrite (reg : RegName) (value : Word) (s : State) : Host.Outcome State Fault Refusal :=
  match reg with
  | .special n => writeStep n.toNat value s
  | .management offset => .next (s.writeManagement offset value)
  | .fabric offset => .next (s.writeFabric offset value)

end Sys2Proof.Machine
end

