-- ==== Sys2Proof/Machine/Memory.lean ====
section
/-! DEFINITION. The memory instructions (R75 to R77, R209 to R228): loads, stores and atomics of lanes, the scalar
accesses, the sampler, cache maintenance and fences. A MOD prefix in its memory layout runs the same operations with its
own fields (R63). -/

namespace Sys2Proof.Machine

/-! ## The operations -/

/-- What a memory instruction does (R75, R217 to R226). -/
inductive MemOp where
  | load (size : Nat) (signed : Bool)
  | store (size : Nat)
  | constant
  | sample
  | atomic (aop : Nat)
  | scratchLoad (z i : Nat)
  | scratchStore (z i : Nat)
  | scratchAtomic (aop : Nat)
  | scalarLoad (z i : Nat)
  | scalarStore (z i : Nat)
  | scalarConstant (z i : Nat)
deriving DecidableEq, Repr

/-- A memory instruction: its operation, guard, index register, base scalar, and data register or scalar. -/
structure MemForm where
  op    : MemOp
  guard : Nat
  x     : Nat
  b     : Nat
  t     : Nat
deriving DecidableEq, Repr

/-- The fields of a MOD prefix in its memory layout (R63), and the length of the unit in parcels. -/
structure MemMod where
  off    : Word
  order  : Nat
  scope  : Nat
  hint   : Nat
  wt     : Bool
  take   : Bool
  length : Nat
deriving DecidableEq, Repr

/-- No MOD prefix: relaxed, at offset 0. -/
def MemMod.plain : MemMod := ⟨0, 0, 0, 0, false, false, 2⟩

/-- How many registers hold `n` bytes. -/
def regCount (n : Nat) : Nat := (n + 3) / 4

/-- The data registers of an atomic operation (R223). -/
def atomicRegs (aop : Nat) : Nat := if aop = 15 then 4 else if aop = 1 ∨ aop = 11 ∨ aop = 14 then 2 else 1

/-- The registers from `t`. -/
def regRun (t n : Nat) : List Nat := (List.range n).map (fun j => t + j)

/-- The data registers that an operation names from `t`. -/
def MemOp.dataRegs (op : MemOp) (t : Nat) : List Nat :=
  match op with
  | .load n _ => regRun t (regCount n)
  | .store n => regRun t (regCount n)
  | .constant => [t]
  | .sample => [t]
  | .atomic k => regRun t (atomicRegs k)
  | .scratchLoad z _ => regRun t (regCount (2 ^ z))
  | .scratchStore z _ => regRun t (regCount (2 ^ z))
  | .scratchAtomic k => regRun t (atomicRegs k)
  | _ => []

/-- The index registers that an operation names. -/
def MemOp.indexRegs (op : MemOp) (x : Nat) : List Nat :=
  match op with
  | .sample => [x, x + 1]
  | .scalarLoad _ _ => []
  | .scalarStore _ _ => []
  | .scalarConstant _ _ => []
  | _ => [x]

/-- Does an operation read its data registers? -/
def MemOp.readsData (op : MemOp) : Bool :=
  match op with
  | .store _ => true
  | .atomic _ => true
  | .scratchStore _ _ => true
  | .scratchAtomic _ => true
  | _ => false

/-- R64, R67: what is checked of a memory instruction before it has any effect. -/
def MemForm.need (f : MemForm) : Need :=
  let data := f.op.dataRegs f.t
  let index := f.op.indexRegs f.x
  { region := match f.op with
      | .scalarLoad _ _ => if f.t = 0 then none else some 0x07
      | .scalarConstant _ _ => if f.t = 0 then none else some 0x07
      | _ => none
    regs := index ++ data
    reads := index ++ (if f.op.readsData then data else []) }

/-! ## Lanes and their addresses -/

/-- R209: the participating lanes. -/
def Group.taking (g : Group) (guard : Nat) (helpers : Bool) : List Nat :=
  lanesOf (maskOf (fun l => hasLane g.exec l && g.pnum guard l && (helpers || !hasLane g.helper l) && !hasLane g.redo l))

/-- R210: the address of a lane in the generic space. -/
def Group.laneAddress (g : Group) (f : MemForm) (off : Word) (l : Nat) : Word :=
  g.scalar f.b + (g.vec f.x l).setWidth 64 + off

/-- R210: the scratchpad address of a lane. -/
def Group.scratchAddress (g : Group) (f : MemForm) (imm : Nat) (off : Word) (l : Nat) : Word :=
  ((g.vec f.x l + BitVec.ofNat 32 imm + off.setWidth 32).setWidth 64)

/-- The bytes of `n` registers from `t` in lane `l`, the low word first. -/
def Group.laneBytes (g : Group) (t n l : Nat) : List Byte :=
  ((regRun t (regCount n)).flatMap (fun r => natBytes 4 (g.vec r l).toNat)).take n

/-- R223: the operands of an atomic in lane `l`: the operand or comparand, and the new value of a compare-and-swap. -/
def Group.atomicOperands (g : Group) (aop t l : Nat) : Nat × Nat :=
  if aop = 15 then ((g.pair t l).toNat, (g.pair (t + 2) l).toNat)
  else if aop = 14 then ((g.vec t l).toNat, (g.vec (t + 1) l).toNat)
  else if aop = 1 ∨ aop = 11 then ((g.pair t l).toNat, 0)
  else ((g.vec t l).toNat, 0)

/-- The access of an instruction with the fields of its MOD prefix. -/
def MemMod.mem (m : MemMod) (effect : Effect) (path : Path) (size : Nat) (dest : Dest) (scalar : Bool) : Mem :=
  { effect := effect, path := path, size := size, dest := dest, order := m.order, scope := m.scope, hint := m.hint,
    wt := m.wt, take := m.take, length := m.length, scalar := scalar }

/-- R355: an ordered access at cluster scope may meet the end of a peer; otherwise the access is performed. -/
def State.accessOrdered (s : State) (b : Block) (g : Group) (m : Mem) (qs : List LaneReq) : State :=
  if s.orderedFault b g m (qs.map LaneReq.lane) then
    match s.checkLanes b g m qs with
    | .error c => s.trap c
    | .ok _ =>
      s.trapPeer { cause := 0x85, fmask := if m.scalar then 0 else maskOfList (qs.map LaneReq.lane) &&& ~~~g.helper }
  else s.access b g m qs

/-! ## The sampler (R221, R222) -/

/-- A sampler descriptor (R221). -/
structure SampleDesc where
  base   : Word
  width  : Nat
  height : Nat
  pitch  : Nat
deriving DecidableEq, Repr

/-- R221: the fields of a descriptor's bytes. -/
def parseSample (bs : List Byte) : SampleDesc :=
  ⟨BitVec.ofNat 64 (wordAt bs 0 8), wordAt bs 8 2, wordAt bs 10 2, wordAt bs 12 4⟩

/-- R221: values that raise cause 0x0A. -/
def SampleDesc.ok (d : SampleDesc) : Bool :=
  decide (d.width ≠ 0) && decide (d.height ≠ 0) && decide (d.base.toNat % 2 = 0) && decide (d.pitch % 2 = 0)

/-- R222: a coordinate, clamped to the table of `n` elements, in units of 1/256, rounded down. -/
def sampleCoord (v : FVal) (n : Nat) : Nat :=
  let top := (n - 1) * 256
  match v with
  | .nan _ => 0
  | .inf neg => if neg then 0 else top
  | .fin neg m e => if neg then 0 else min (if -8 ≤ e then m * 2 ^ (e + 8).toNat else m / 2 ^ (-8 - e).toNat) top

/-- R222: the four elements of a sample, with their weights in units of 2^-16: column, row, weight. -/
def sampleTaps (x y w h : Nat) : List (Nat × Nat × Nat) :=
  let i0 := x / 256
  let i1 := min (i0 + 1) (w - 1)
  let fx := x % 256
  let j0 := y / 256
  let j1 := min (j0 + 1) (h - 1)
  let fy := y % 256
  [(i0, j0, (256 - fx) * (256 - fy)), (i1, j0, fx * (256 - fy)), (i0, j1, (256 - fx) * fy), (i1, j1, fx * fy)]

/-- R222: the sample of four BF16 elements with their weights. -/
def sampleValue (ts : List (Nat × Nat)) : LaneWord :=
  let terms := (ts.filter (fun t => decide (t.2 ≠ 0))).map (fun t =>
    let v := decodeF bf16 t.1
    if v.isNan then v else (FVal.mul v (.fin false t.2 (-16))).1)
  let sum := match terms with
    | [] => .fin false 0 0
    | t :: rest => rest.foldl (fun acc x =>
        if acc.isNan || x.isNan then .nan false else (FVal.add false acc x).1) t
  BitVec.ofNat 32 (deliver fp32 .rne sum).1

/-- R222: the address of an element. -/
def SampleDesc.element (d : SampleDesc) (i j : Nat) : Word := d.base + BitVec.ofNat 64 (j * d.pitch + 2 * i)

/-- R217, R221, R302: bytes on the sampler path where a page is served, with held ones over them; the host's are not known
here. -/
def State.sampleBytes (s : State) (core : Nat) (g : Group) (held : List HoldEntry) (va : Word) (p : Place)
    (n hint : Nat) : Except Byte (List Byte × State) :=
  let shown := fun (r : List Byte × State) => (overlayHeld held va.toNat r.1, r.2)
  match p with
  | .local pa swc uncached _ =>
    if s.meetsError core false swc pa n then .error 0xA0
    else
      let base := pa / 8 * 8
      if pa + n ≤ base + 8 then .ok (shown (s.readPath core swc uncached pa n hint true))
      else
        let r := s.readPath core swc uncached pa 8 hint true
        let t := r.2.readPath core swc uncached (pa + 8) (n - 8) hint true
        .ok (shown (r.1 ++ t.1, t.2))
  | .peer dev pa _ =>
    match s.peerBytes g dev pa n with
    | .ok bs => .ok (shown (bs, s))
    | .error c => .error c
  | .host pa => .ok (shown (bytesOf s.outsideByte pa n, s))
  | .window _ => .error 0x25

/-- How the lanes of a sample have come along: the state, the values, the lanes done, and those refused. -/
structure Sampled where
  state   : State
  values  : List (Nat × Nat)
  refused : List (Nat × Byte × Word)
deriving DecidableEq, Repr

/-- R222, R212: the four elements of one lane, each with its address, its weight and where it is served; a lane is refused
with the lowest cause of its elements, and a helper's failing element reads as 0. -/
def Sampled.lane (x : Sampled) (core : Nat) (g : Group) (held : List HoldEntry) (l hint : Nat) (helper : Bool)
    (taps : List (Word × Nat × Except Fail Place)) : Sampled :=
  let step := fun (acc : State × List (Nat × Nat) × Option (Byte × Word)) (t : Word × Nat × Except Fail Place) =>
    let s := acc.1
    let bad := fun (c : Byte) =>
      if helper then (s, acc.2.1 ++ [(0, t.2.1)], acc.2.2)
      else (s, acc.2.1, match acc.2.2 with
        | some x => if c.toNat < x.1.toNat then some (c, t.1) else some x
        | none => some (c, t.1))
    match t.2.2 with
    | .error f => bad f.cause
    | .ok p =>
      match s.sampleBytes core g held t.1 p 2 hint with
      | .error c => bad c
      | .ok (bs, s1) => (s1, acc.2.1 ++ [(bytesNat bs, t.2.1)], acc.2.2)
  let r := taps.foldl step (x.state, [], none)
  match r.2.2 with
  | some (c, va) => { x with state := r.1, refused := x.refused ++ [(l, c, va)] }
  | none => { x with state := r.1, values := x.values ++ [(l, (sampleValue r.2.1).toNat)] }

/-- LDSMP (R221, R222). DEDUCED (assumption 95). -/
def State.sample (s : State) (b : Block) (g r : Group) (f : MemForm) (mm : MemMod) : State :=
  let m := mm.mem .load .sampler 2 (.lanes f.t 4 false) false
  let lanes := r.taking f.guard true
  let d0 := r.scalar f.b
  if lanes.isEmpty then s.done (g.advance m.length)
  else if d0.toNat % 16 ≠ 0 then s.trap { cause := 0x0A }
  else
    let dm : Mem := { m with size := 16, scalar := true }
    match s.checkLane b dm ⟨0, d0, [], 0, 0⟩ with
    | .error e => s.trap { cause := e.cause, sec := e.sec, kind := 0, va := d0 }
    | .ok p =>
      let held := s.heldFor b g
      if s.awaits b g [(d0, 16)] then s.askFor b g [(d0, 16)] 4 m.order m.scope
      else match s.sampleBytes b.core g held d0 p 16 m.hint with
      | .error c => s.trap { cause := c, kind := 0, va := d0, pmask := some 0 }
      | .ok (bs, s0) =>
        let d := parseSample bs
        if !d.ok then s.trap { cause := 0x0A }
        else
          let coord := fun (k l : Nat) => decodeF fp32 (r.vec (f.x + k) l).toNat
          let taps := fun (l : Nat) =>
            if (coord 0 l).isNan || (coord 1 l).isNan then []
            else (sampleTaps (sampleCoord (coord 0 l) d.width) (sampleCoord (coord 1 l) d.height) d.width d.height).map
              (fun t => (d.element t.1 t.2.1, t.2.2))
          let qs : List LaneReq := lanes.flatMap (fun l => (taps l).map (fun t => ⟨l, t.1, [], 0, 0⟩))
          match s0.checkLanes b g m qs with
          | .error c => s.trap c
          | .ok (ok, _) =>
            let ranges := ok.map (fun e => (e.1.va, 2))
            if s0.anyHeld ok then s.wait .replies
            else if s.awaits b g ranges then s.askFor b g ranges 1 m.order m.scope
            else
              let x := lanes.foldl (fun (x : Sampled) l =>
                let ts := (taps l).map (fun t => (t.1, t.2, s0.checkLane b m ⟨l, t.1, [], 0, 0⟩))
                if ts.isEmpty then { x with values := x.values ++ [(l, 0x7FC00000)] }
                else x.lane b.core g held l m.hint (hasLane g.helper l) ts) ⟨s0.retainAll b ok, [], []⟩
              x.state.endAccess b (g.sealIf (decide (m.order ≠ 0))) m x.values x.refused (x.values.map (·.1)) (0, 0)

/-! ## Running a memory instruction -/

/-- R210, R211: the requests of a lane instruction on the generic or constant path. -/
def Group.requests (r : Group) (f : MemForm) (off : Word) (lanes : List Nat) (size : Nat) (stores : Bool) (aop : Option Nat) :
    List LaneReq :=
  lanes.map (fun l =>
    let o := match aop with
      | some k => r.atomicOperands k f.t l
      | none => (0, 0)
    ⟨l, r.laneAddress f off l, if stores then r.laneBytes f.t size l else [], o.1, o.2⟩)

/-- The requests of a scratchpad instruction. -/
def Group.scratchRequests (r : Group) (f : MemForm) (imm : Nat) (off : Word) (lanes : List Nat) (size : Nat)
    (stores : Bool) (aop : Option Nat) : List LaneReq :=
  lanes.map (fun l =>
    let o := match aop with
      | some k => r.atomicOperands k f.t l
      | none => (0, 0)
    ⟨l, r.scratchAddress f imm off l, if stores then r.laneBytes f.t size l else [], o.1, o.2⟩)

/-- R75: the size of a scalar access, and whether its value is sign-extended. -/
def scalarAccess (z : Nat) : Nat × Bool := if z = 2 then (8, false) else (4, decide (z = 1))

/-- R75, R76: the request of a scalar access. -/
def Group.scalarRequest (r : Group) (f : MemForm) (i size : Nat) (off : Word) (stores : Bool) : List LaneReq :=
  [⟨0, r.scalar f.b + BitVec.ofNat 64 (4 * i) + off, if stores then natBytes size (r.scalar f.t).toNat else [], 0, 0⟩]

/-- One memory instruction of the executing group. -/
def runMem (f : MemForm) (mm : MemMod) (s : State) : Host.Outcome State Fault Refusal :=
  onGroup s f.need (fun b g r =>
    let loads := r.taking f.guard true
    let others := r.taking f.guard false
    match f.op with
    | .load n sg =>
      s.accessOrdered b g (mm.mem .load .generic n (.lanes f.t n sg) false) (r.requests f mm.off loads n false none)
    | .constant =>
      s.accessOrdered b g (mm.mem .load .constant 4 (.lanes f.t 4 false) false) (r.requests f mm.off loads 4 false none)
    | .store n =>
      s.accessOrdered b g (mm.mem .store .generic n .none false) (r.requests f mm.off others n true none)
    | .atomic k =>
      let n := atomicSize k
      s.accessOrdered b g (mm.mem (.atomic k) .generic n (.lanes f.t n false) false)
        (r.requests f mm.off others n false (some k))
    | .sample =>
      if s.orderedFault b g (mm.mem .load .sampler 2 .none false) loads then
        s.trapPeer { cause := 0x85, fmask := maskOfList loads &&& ~~~g.helper }
      else s.sample b g r f mm
    | .scratchLoad z i =>
      let n := 2 ^ z
      s.scratchAccess b g (mm.mem .load .generic n (.lanes f.t n false) false)
        (r.scratchRequests f (i * n) mm.off loads n false none)
    | .scratchStore z i =>
      let n := 2 ^ z
      s.scratchAccess b g (mm.mem .store .generic n .none false) (r.scratchRequests f (i * n) mm.off others n true none)
    | .scratchAtomic k =>
      let n := atomicSize k
      s.scratchAccess b g (mm.mem (.atomic k) .generic n (.lanes f.t n false) false)
        (r.scratchRequests f 0 mm.off others n false (some k))
    | .scalarLoad z i =>
      let a := scalarAccess z
      s.accessOrdered b g (mm.mem .load .generic a.1 (.scalar f.t a.1 a.2) true) (r.scalarRequest f i a.1 mm.off false)
    | .scalarConstant z i =>
      let a := scalarAccess z
      s.accessOrdered b g (mm.mem .load .constant a.1 (.scalar f.t a.1 a.2) true) (r.scalarRequest f i a.1 mm.off false)
    | .scalarStore z i =>
      let a := scalarAccess z
      s.accessOrdered b g (mm.mem .store .generic a.1 .none true) (r.scalarRequest f i a.1 mm.off true))

/-! ## Cache maintenance (R227) -/

/-- The operations of R227 but PREF. -/
inductive CacheOp where
  | cwb
  | cinv
  | cwbi
deriving DecidableEq, Repr

/-- A page that a cache operation acts on: the physical address of its first byte in the range, how many bytes of the range
it holds, and whether it is software-coherent. -/
structure CachePage where
  pa  : Nat
  n   : Nat
  swc : Bool
deriving DecidableEq, Repr

/-- R227: the translation of one page of the range for a cache operation: a page to act on, one to skip, or a cause. A
page that the operation would skip raises the cause of an earlier check first. DESIGN CHOICE (assumption 108). -/
def State.cachePage (s : State) (b : Block) (op : CacheOp) (va : Word) (n : Nat) : Except Fail (Option CachePage) :=
  let ctx := s.ctxOf b
  let user := !s.superOf b
  match s.lookup b.core ctx va with
  | .fail f => if f = .invalid then .ok none else .error f
  | .leaf e shift =>
    let k : Access := if op = .cinv ∧ e.getLsbD 10 then .store else .probe
    match s.judge user k va e shift with
    | .error f => .error f
    | .ok (.local pa swc uncached _) => .ok (if uncached then none else some ⟨pa, n, swc⟩)
    | .ok _ => .ok none

/-- R227: the pages of a range, or the first failing check with its address. -/
def State.cachePages (s : State) (b : Block) (op : CacheOp) (pages : Nat) (va : Word) (n : Nat) :
    Except (Fail × Word) (List CachePage) :=
  match pages with
  | 0 => .ok []
  | pages + 1 =>
    let k := min n (65536 - va.toNat % 65536)
    if k = 0 then .ok []
    else
      match s.cachePage b op va k with
      | .error f => .error (f, va)
      | .ok p =>
        match s.cachePages b op pages (va + BitVec.ofNat 64 k) (n - k) with
        | .error f => .error f
        | .ok rest => .ok (p.toList ++ rest)

/-- R227: one page of a cache operation. -/
def State.cacheActs (s : State) (core launch : Nat) (op : CacheOp) (p : CachePage) : State :=
  let lo := p.pa / 64 * 64
  let hi := (p.pa + p.n + 63) / 64 * 64
  let inRange := fun (a : Nat) => decide (p.pa ≤ a) && decide (a < p.pa + p.n)
  let inLines := fun (a : Nat) => decide (lo ≤ a) && decide (a < hi)
  let mine := fun (k : Nat) => keySwc k == p.swc
  let back := fun (f : Nat → Bool) =>
    let s1 := s.writeBack core (fun k => mine k && f (keyPa k))
    if p.swc then s1.writeBackDieAll (dieOf core) f else s1
  match op with
  | .cwb => back inRange
  | _ =>
    let s1 := back (fun a => inLines a && !(decide (op = .cinv) && p.swc && inRange a))
    let c := s1.core core
    let keep := fun (e : Nat × Byte) => !(mine e.1 && inLines (keyPa e.1))
    let keepPa := fun (e : Nat × Byte) => !inLines e.1
    let s2 := s1.putCore { c with
      l1Dirty := c.l1Dirty.filter keep
      l1Clean := c.l1Clean.filter keep
      constant := c.constant.filter keepPa
      sampler := c.sampler.filter keepPa }
    let d := s2.die (dieOf core)
    let s3 := if p.swc then
        s2.putDie { d with dirty := d.dirty.filter keepPa, clean := d.clean.filter keepPa } else s2
    { s3 with replicas := s3.replicas.filter (fun (r : Replica) => !(r.launch == launch && inRange r.pa)) }.useEarly lo (hi - lo)

/-- R227: the checks of a cache operation, then its effect, which a tentative block and a pair perform as R302 and R376
say. -/
def runCacheOp (op : CacheOp) (b a : BitVec 6) (s : State) : Host.Outcome State Fault Refusal :=
  onGroup s {} (fun blk g _ =>
    let va := g.scalar a.toNat
    let n := (g.scalar b.toNat).toNat
    let last := va + BitVec.ofNat 64 (n - 1)
    if n = 0 then s.done (g.advance 2)
    else if 2 ^ 30 < n then s.trap { cause := 0x0A }
    else if !canonical va || !canonical last || decide (last.toNat < va.toNat) ||
        decide (last.toNat / 2 ^ 51 ≠ va.toNat / 2 ^ 51) then
      s.trap { cause := 0x20, kind := 0, va := va }
    else match s.cachePages blk op 16386 va n with
      | .error f => s.trap { cause := f.1.cause, sec := f.1.sec, kind := 0, va := f.2 }
      | .ok ps =>
        s.once blk g (natBytes 8 va.toNat ++ natBytes 8 n) (fun s =>
          (s.forBoth blk (fun s core =>
            ps.foldl (fun (s : State) (p : CachePage) => s.cacheActs core blk.launch op p) s)).doneOnce blk
            (g.advance 2) [] []))

/-- PREF (R227): a hint, which this model drops. -/
def execPref (_b _a : BitVec 6) (s : State) : Host.Outcome State Fault Refusal :=
  onGroup s {} (fun _ g _ => s.done (g.advance 2))

/-- CWB (R227). -/
def execCwb (b a : BitVec 6) (s : State) : Host.Outcome State Fault Refusal := runCacheOp .cwb b a s

/-- CINV (R227). -/
def execCinv (b a : BitVec 6) (s : State) : Host.Outcome State Fault Refusal := runCacheOp .cinv b a s

/-- CWBI (R227). -/
def execCwbi (b a : BitVec 6) (s : State) : Host.Outcome State Fault Refusal := runCacheOp .cwbi b a s

/-! ## Fences (R228, R435) -/

/-- R435: what a fence that releases at a scope wider than block has to wait for. -/
def State.fenceWait (s : State) (b : Block) (g : Group) (k c : Nat) : Option Wait :=
  if k = 0 ∨ c < 2 then none
  else if b.mode = .tentative then some .confirmation
  else match b.pair with
    | none => if s.drainedFor b s.cur g then none else some .drained
    | some p =>
      if p.leading then (if g.holds.isEmpty then none else some .drained)
      else if !g.sigs.isEmpty then some .drained
      else match s.block? p.partner with
        | some lead =>
          match lead.rawGroup s.cur with
          | some o => if o.holds.any (fun e => e.matchedIn o.sigs) then some .drained else none
          | none => none
        | none => none

/-- FENCE (R58, R228, R242, R435): a release writes the L1 back and an acquire drops its clean lines, from cluster scope
up. -/
def execFence (k : BitVec 2) (c : BitVec 3) (s : State) : Host.Outcome State Fault Refusal :=
  onGroup s {} (fun b g _ =>
    if decide (c.toNat = 2) && s.peerFault b then s.trapPeer { cause := 0x85 }
    else match s.fenceWait b g k.toNat c.toNat with
      | some w => s.wait w
      | none =>
        let s1 := if k.toNat = 0 then s else s.releaseAt b.core c.toNat
        let s2 := if k.toNat = 1 then s1 else s1.acquireAt b.core c.toNat
        s2.done ((g.sealIf true).advance 2))

/-- PFENCE (R58, R228): write back the from-paths, drop the to-paths, with what the group has read ahead on the generic
path; an empty side orders nothing. -/
def execPfence (t f : BitVec 4) (s : State) : Host.Outcome State Fault Refusal :=
  onGroup s {} (fun b g _ =>
    if t = 0 ∨ f = 0 then s.done (g.advance 2)
    else
      let s1 := if f.getLsbD 0 then s.writeBackAll b.core else s
      let c := s1.core b.core
      let s2 := s1.putCore { c with
        l1Clean := if t.getLsbD 0 then [] else c.l1Clean
        constant := if t.getLsbD 1 then [] else c.constant
        sampler := if t.getLsbD 2 then [] else c.sampler }
      (if t.getLsbD 0 then s2.forgetEarly else s2).done (g.advance 2))

/-! ## The instructions -/

/-- LD.S8 (R217). -/
def execLdS8 (g : BitVec 2) (x : BitVec 7) (b : BitVec 6) (t : BitVec 7) (s : State) : Host.Outcome State Fault Refusal :=
  runMem ⟨.load 1 true, g.toNat, x.toNat, b.toNat, t.toNat⟩ .plain s

/-- LD.Z8 (R217). -/
def execLdZ8 (g : BitVec 2) (x : BitVec 7) (b : BitVec 6) (t : BitVec 7) (s : State) : Host.Outcome State Fault Refusal :=
  runMem ⟨.load 1 false, g.toNat, x.toNat, b.toNat, t.toNat⟩ .plain s

/-- LD.S16 (R217). -/
def execLdS16 (g : BitVec 2) (x : BitVec 7) (b : BitVec 6) (t : BitVec 7) (s : State) : Host.Outcome State Fault Refusal :=
  runMem ⟨.load 2 true, g.toNat, x.toNat, b.toNat, t.toNat⟩ .plain s

/-- LD.Z16 (R217). -/
def execLdZ16 (g : BitVec 2) (x : BitVec 7) (b : BitVec 6) (t : BitVec 7) (s : State) : Host.Outcome State Fault Refusal :=
  runMem ⟨.load 2 false, g.toNat, x.toNat, b.toNat, t.toNat⟩ .plain s

/-- LD.32 (R217). -/
def execLd32 (g : BitVec 2) (x : BitVec 7) (b : BitVec 6) (t : BitVec 7) (s : State) : Host.Outcome State Fault Refusal :=
  runMem ⟨.load 4 false, g.toNat, x.toNat, b.toNat, t.toNat⟩ .plain s

/-- LD.64 (R217). -/
def execLd64 (g : BitVec 2) (x : BitVec 7) (b : BitVec 6) (t : BitVec 7) (s : State) : Host.Outcome State Fault Refusal :=
  runMem ⟨.load 8 false, g.toNat, x.toNat, b.toNat, t.toNat⟩ .plain s

/-- LD.128 (R217). -/
def execLd128 (g : BitVec 2) (x : BitVec 7) (b : BitVec 6) (t : BitVec 7) (s : State) : Host.Outcome State Fault Refusal :=
  runMem ⟨.load 16 false, g.toNat, x.toNat, b.toNat, t.toNat⟩ .plain s

/-- ST.8 (R218). -/
def execSt8 (g : BitVec 2) (x : BitVec 7) (b : BitVec 6) (t : BitVec 7) (s : State) : Host.Outcome State Fault Refusal :=
  runMem ⟨.store 1, g.toNat, x.toNat, b.toNat, t.toNat⟩ .plain s

/-- ST.16 (R218). -/
def execSt16 (g : BitVec 2) (x : BitVec 7) (b : BitVec 6) (t : BitVec 7) (s : State) : Host.Outcome State Fault Refusal :=
  runMem ⟨.store 2, g.toNat, x.toNat, b.toNat, t.toNat⟩ .plain s

/-- ST.32 (R218). -/
def execSt32 (g : BitVec 2) (x : BitVec 7) (b : BitVec 6) (t : BitVec 7) (s : State) : Host.Outcome State Fault Refusal :=
  runMem ⟨.store 4, g.toNat, x.toNat, b.toNat, t.toNat⟩ .plain s

/-- ST.64 (R218). -/
def execSt64 (g : BitVec 2) (x : BitVec 7) (b : BitVec 6) (t : BitVec 7) (s : State) : Host.Outcome State Fault Refusal :=
  runMem ⟨.store 8, g.toNat, x.toNat, b.toNat, t.toNat⟩ .plain s

/-- ST.128 (R218). -/
def execSt128 (g : BitVec 2) (x : BitVec 7) (b : BitVec 6) (t : BitVec 7) (s : State) : Host.Outcome State Fault Refusal :=
  runMem ⟨.store 16, g.toNat, x.toNat, b.toNat, t.toNat⟩ .plain s

/-- LDC (R220). -/
def execLdc (g : BitVec 2) (x : BitVec 7) (b : BitVec 6) (t : BitVec 7) (s : State) : Host.Outcome State Fault Refusal :=
  runMem ⟨.constant, g.toNat, x.toNat, b.toNat, t.toNat⟩ .plain s

/-- LDSMP (R221, R222). -/
def execLdsmp (g : BitVec 2) (x : BitVec 7) (b : BitVec 6) (t : BitVec 7) (s : State) : Host.Outcome State Fault Refusal :=
  runMem ⟨.sample, g.toNat, x.toNat, b.toNat, t.toNat⟩ .plain s

/-- LDS (R219). -/
def execLds (z : BitVec 2) (i : BitVec 6) (x : BitVec 7) (t : BitVec 7) (s : State) : Host.Outcome State Fault Refusal :=
  runMem ⟨.scratchLoad z.toNat i.toNat, 0, x.toNat, 0, t.toNat⟩ .plain s

/-- STS (R219). -/
def execSts (z : BitVec 2) (i : BitVec 6) (x : BitVec 7) (t : BitVec 7) (s : State) : Host.Outcome State Fault Refusal :=
  runMem ⟨.scratchStore z.toNat i.toNat, 0, x.toNat, 0, t.toNat⟩ .plain s

/-- ATOM operation 0 (R57, R223, R224). -/
def execAtomAdd32 (x : BitVec 7) (b : BitVec 6) (t : BitVec 7) (s : State) : Host.Outcome State Fault Refusal :=
  runMem ⟨.atomic 0, 0, x.toNat, b.toNat, t.toNat⟩ .plain s

/-- ATOM operation 1 (R57, R223, R224). -/
def execAtomAdd64 (x : BitVec 7) (b : BitVec 6) (t : BitVec 7) (s : State) : Host.Outcome State Fault Refusal :=
  runMem ⟨.atomic 1, 0, x.toNat, b.toNat, t.toNat⟩ .plain s

/-- ATOM operation 2 (R57, R223, R224). -/
def execAtomFaddF32 (x : BitVec 7) (b : BitVec 6) (t : BitVec 7) (s : State) : Host.Outcome State Fault Refusal :=
  runMem ⟨.atomic 2, 0, x.toNat, b.toNat, t.toNat⟩ .plain s

/-- ATOM operation 3 (R57, R223, R224). -/
def execAtomExch32 (x : BitVec 7) (b : BitVec 6) (t : BitVec 7) (s : State) : Host.Outcome State Fault Refusal :=
  runMem ⟨.atomic 3, 0, x.toNat, b.toNat, t.toNat⟩ .plain s

/-- ATOM operation 4 (R57, R223, R224). -/
def execAtomMinI32 (x : BitVec 7) (b : BitVec 6) (t : BitVec 7) (s : State) : Host.Outcome State Fault Refusal :=
  runMem ⟨.atomic 4, 0, x.toNat, b.toNat, t.toNat⟩ .plain s

/-- ATOM operation 5 (R57, R223, R224). -/
def execAtomMaxI32 (x : BitVec 7) (b : BitVec 6) (t : BitVec 7) (s : State) : Host.Outcome State Fault Refusal :=
  runMem ⟨.atomic 5, 0, x.toNat, b.toNat, t.toNat⟩ .plain s

/-- ATOM operation 6 (R57, R223, R224). -/
def execAtomMinZ32 (x : BitVec 7) (b : BitVec 6) (t : BitVec 7) (s : State) : Host.Outcome State Fault Refusal :=
  runMem ⟨.atomic 6, 0, x.toNat, b.toNat, t.toNat⟩ .plain s

/-- ATOM operation 7 (R57, R223, R224). -/
def execAtomMaxZ32 (x : BitVec 7) (b : BitVec 6) (t : BitVec 7) (s : State) : Host.Outcome State Fault Refusal :=
  runMem ⟨.atomic 7, 0, x.toNat, b.toNat, t.toNat⟩ .plain s

/-- ATOM operation 8 (R57, R223, R224). -/
def execAtomAnd32 (x : BitVec 7) (b : BitVec 6) (t : BitVec 7) (s : State) : Host.Outcome State Fault Refusal :=
  runMem ⟨.atomic 8, 0, x.toNat, b.toNat, t.toNat⟩ .plain s

/-- ATOM operation 9 (R57, R223, R224). -/
def execAtomOr32 (x : BitVec 7) (b : BitVec 6) (t : BitVec 7) (s : State) : Host.Outcome State Fault Refusal :=
  runMem ⟨.atomic 9, 0, x.toNat, b.toNat, t.toNat⟩ .plain s

/-- ATOM operation 10 (R57, R223, R224). -/
def execAtomXor32 (x : BitVec 7) (b : BitVec 6) (t : BitVec 7) (s : State) : Host.Outcome State Fault Refusal :=
  runMem ⟨.atomic 10, 0, x.toNat, b.toNat, t.toNat⟩ .plain s

/-- ATOM operation 11 (R57, R223, R224). -/
def execAtomExch64 (x : BitVec 7) (b : BitVec 6) (t : BitVec 7) (s : State) : Host.Outcome State Fault Refusal :=
  runMem ⟨.atomic 11, 0, x.toNat, b.toNat, t.toNat⟩ .plain s

/-- ATOM operation 12 (R57, R223, R224). -/
def execAtomFminF32 (x : BitVec 7) (b : BitVec 6) (t : BitVec 7) (s : State) : Host.Outcome State Fault Refusal :=
  runMem ⟨.atomic 12, 0, x.toNat, b.toNat, t.toNat⟩ .plain s

/-- ATOM operation 13 (R57, R223, R224). -/
def execAtomFmaxF32 (x : BitVec 7) (b : BitVec 6) (t : BitVec 7) (s : State) : Host.Outcome State Fault Refusal :=
  runMem ⟨.atomic 13, 0, x.toNat, b.toNat, t.toNat⟩ .plain s

/-- ATOM operation 14 (R57, R223, R224). -/
def execAtomCas32 (x : BitVec 7) (b : BitVec 6) (t : BitVec 7) (s : State) : Host.Outcome State Fault Refusal :=
  runMem ⟨.atomic 14, 0, x.toNat, b.toNat, t.toNat⟩ .plain s

/-- ATOM operation 15 (R57, R223, R224). -/
def execAtomCas64 (x : BitVec 7) (b : BitVec 6) (t : BitVec 7) (s : State) : Host.Outcome State Fault Refusal :=
  runMem ⟨.atomic 15, 0, x.toNat, b.toNat, t.toNat⟩ .plain s

/-- ATOMS (R226). -/
def execAtoms (o : BitVec 4) (x : BitVec 7) (t : BitVec 7) (s : State) : Host.Outcome State Fault Refusal :=
  runMem ⟨.scratchAtomic o.toNat, 0, x.toNat, 0, t.toNat⟩ .plain s

/-- SLD (R75, R76). -/
def execSld (i : BitVec 8) (z : BitVec 2) (b : BitVec 6) (d : BitVec 6) (s : State) : Host.Outcome State Fault Refusal :=
  runMem ⟨.scalarLoad z.toNat i.toNat, 0, 0, b.toNat, d.toNat⟩ .plain s

/-- SST (R75, R76). -/
def execSst (i : BitVec 8) (z : BitVec 2) (b : BitVec 6) (d : BitVec 6) (s : State) : Host.Outcome State Fault Refusal :=
  runMem ⟨.scalarStore z.toNat i.toNat, 0, 0, b.toNat, d.toNat⟩ .plain s

/-- SLDC (R75, R76). -/
def execSldc (i : BitVec 8) (z : BitVec 2) (b : BitVec 6) (d : BitVec 6) (s : State) : Host.Outcome State Fault Refusal :=
  runMem ⟨.scalarConstant z.toNat i.toNat, 0, 0, b.toNat, d.toNat⟩ .plain s

end Sys2Proof.Machine
end

