-- ==== Sys2Proof/Machine/Sfu.lean ====
section
/-! DEFINITION. The special functions (R155 to R157): the correctly rounded reciprocal and square roots from exact
integers, and the faithful functions, each enclosed between two numbers of 512 fraction bits; which of the two FP32 values
beside the exact one is returned is `Config.faithfulUp` (R156 leaves it open). -/

namespace Sys2Proof.Machine

/-- The integer square root, one binary digit at a time from digit `n` down. -/
def sqrtDigits (x : Nat) (n r : Nat) : Nat :=
  match n with
  | 0 => r
  | n + 1 =>
    let t := r + 2 ^ n
    sqrtDigits x n (if t * t ≤ x then t else r)

/-- The largest `r` with `r * r ≤ x`. -/
def isqrt (x : Nat) : Nat := sqrtDigits x (bitLen x / 2 + 1) 0

/-- A positive number known by its floor at `2^e` and by whether anything is left below: a sticky bit below the floor
rounds as the exact number does (R125), since the floor has more bits than any format. -/
def sticky (m : Nat) (e : Int) (inexact : Bool) : FVal :=
  .fin false (2 * m + (if inexact then 1 else 0)) (e - 1)

/-- VFRCP (R155): 1 / x. -/
def sfuRcp (mode : RMode) (x : FVal) : Nat × LaneFlags :=
  match x with
  | .nan s => (fp32.canonical, flagsOf s false false false false)
  | .inf neg => (if neg then fp32.signWeight else 0, 0#6)
  | .fin neg m e =>
    if m = 0 then (fp32.infBits neg, flagsOf false true false false false)
    else
      let k := bitLen m + 64
      let v := sticky (2 ^ k / m) (-e - k) (decide (2 ^ k % m ≠ 0))
      deliver fp32 mode (if neg then v.negate else v)

/-- The square root of `m * 2^e`, for `m` not 0, with at least 64 bits. -/
def rootOf (m : Nat) (e : Int) : FVal :=
  let odd := e % 2 = 1
  let m1 := (if odd then 2 * m else m) * 2 ^ 128
  let e1 := (if odd then e - 1 else e) - 128
  let r := isqrt m1
  sticky r (e1 / 2) (decide (r * r ≠ m1))

/-- VFSQRT (R155). -/
def sfuSqrt (mode : RMode) (x : FVal) : Nat × LaneFlags :=
  match x with
  | .nan s => (fp32.canonical, flagsOf s false false false false)
  | .inf neg => if neg then (fp32.canonical, flagsOf true false false false false) else (fp32.infBits false, 0#6)
  | .fin neg m e =>
    if m = 0 then (if neg then fp32.signWeight else 0, 0#6)
    else if neg then (fp32.canonical, flagsOf true false false false false)
    else deliver fp32 mode (rootOf m e)

/-- VFRSQ (R155): 1 / √x. With `y = 2^(2k) / m`, the floor of `√y` is that of the root of the floor of `y`. -/
def sfuRsq (mode : RMode) (x : FVal) : Nat × LaneFlags :=
  match x with
  | .nan s => (fp32.canonical, flagsOf s false false false false)
  | .inf neg => if neg then (fp32.canonical, flagsOf true false false false false) else (0, 0#6)
  | .fin neg m e =>
    if m = 0 then (fp32.infBits neg, flagsOf false true false false false)
    else if neg then (fp32.canonical, flagsOf true false false false false)
    else
      let odd := e % 2 = 1
      let m1 := if odd then 2 * m else m
      let e1 := if odd then e - 1 else e
      let k := bitLen m1 + 64
      let y := 2 ^ (2 * k) / m1
      let r := isqrt y
      deliver fp32 mode (sticky r (-(e1 / 2) - k) (decide (r * r * m1 ≠ 2 ^ (2 * k))))

/-! ## Enclosures with 512 fraction bits

A number is held as an integer in units of 2^-512. Each series is cut where its terms have vanished, and each truncated
operation loses less than a unit; `slack` is far above the sum of all losses of any function here. -/

/-- One in units of 2^-512. -/
def unitOne : Int := 2 ^ 512

/-- A bound on the error of every computed number below, in units of 2^-512. -/
def slack : Int := 2 ^ 64

/-- The product of two numbers. -/
def fxMul (a b : Int) : Int := a * b / unitOne

/-- Σ x^k / k! from the term `t` of index `k` on. -/
def expSeries (x : Int) (n k : Nat) (t : Int) : Int :=
  match n with
  | 0 => 0
  | n + 1 => t + expSeries x n (k + 1) (fxMul t x / ((k : Int) + 1))

/-- e^x for |x| ≤ 1. -/
def fxExp (x : Int) : Int := expSeries x 110 0 unitOne

/-- Σ z^(2k+1) / (2k+1), from the power `p = z^(2k+1)` on. -/
def atanhSeries (zz : Int) (n k : Nat) (p : Int) : Int :=
  match n with
  | 0 => 0
  | n + 1 => p / (2 * (k : Int) + 1) + atanhSeries zz n (k + 1) (fxMul p zz)

/-- The natural logarithm of num / den, for 1 ≤ num / den ≤ 2: 2 artanh ((num − den) / (num + den)). -/
def fxLn (num den : Nat) : Int :=
  let z := ((num : Int) - den) * unitOne / (num + den)
  2 * atanhSeries (fxMul z z) 170 0 z

/-- ln 2. -/
def fxLn2 : Int := fxLn 2 1

/-- Σ (−1)^k z^(2k+1) / (2k+1): the arc tangent of a small number. -/
def atanSeries (zz : Int) (n k : Nat) (p : Int) : Int :=
  match n with
  | 0 => 0
  | n + 1 => p / (2 * (k : Int) + 1) - atanSeries zz n (k + 1) (fxMul p zz)

/-- The arc tangent of 1 / d. -/
def fxAtanInv (d : Nat) : Int :=
  let z := unitOne / d
  atanSeries (fxMul z z) 120 0 z

/-- π by Machin's formula. -/
def fxPi : Int := 4 * (4 * fxAtanInv 5 - fxAtanInv 239)

/-- Σ (−1)^k y^(2k+1) / (2k+1)!, from the term `t` of index `k` on. -/
def sinSeries (yy : Int) (n k : Nat) (t : Int) : Int :=
  match n with
  | 0 => 0
  | n + 1 => t - sinSeries yy n (k + 1) (fxMul t yy / ((2 * (k : Int) + 2) * (2 * k + 3)))

/-- sin y for 0 ≤ y ≤ 2. -/
def fxSin (y : Int) : Int := sinSeries (fxMul y y) 70 0 y

/-- Σ y^(2k+1) / (2k+1)! . -/
def sinhSeries (yy : Int) (n k : Nat) (t : Int) : Int :=
  match n with
  | 0 => 0
  | n + 1 => t + sinhSeries yy n (k + 1) (fxMul t yy / ((2 * (k : Int) + 2) * (2 * k + 3)))

/-- Σ y^(2k) / (2k)! . -/
def coshSeries (yy : Int) (n k : Nat) (t : Int) : Int :=
  match n with
  | 0 => 0
  | n + 1 => t + coshSeries yy n (k + 1) (fxMul t yy / ((2 * (k : Int) + 1) * (2 * k + 2)))

/-! ## The faithful functions (R156) -/

/-- The FP32 pattern next above the magnitude `lo * 2^e`, rounded toward zero. -/
def floorBits (m : Nat) (e : Int) : Nat := (roundFin fp32 .rtz false m e).1

/-- The flags of an inexact delivered result (R156): NX, with OF for an infinity and UF below the smallest normal. -/
def faithfulFlags (bits : Nat) : LaneFlags :=
  flagsOf false false (decide (bits = fp32.infBits false)) (decide (bits < 2 ^ 23)) true

/-- A faithful result whose magnitude lies in `[lo, hi] * 2^e`: one of the two FP32 values beside it. Where the enclosure
holds an FP32 value, that value is beside the exact one on whichever side. DESIGN CHOICE (assumption 31). -/
def faithful (fn : Nat) (x : LaneWord) (neg : Bool) (lo hi : Int) (e : Int) : Nat × LaneFlags :=
  let a := floorBits lo.toNat e
  let b := floorBits hi.toNat e
  let r := if a = b then (if Config.faithfulUp fn x then a + 1 else a) else b
  ((if neg then fp32.signWeight else 0) + r, faithfulFlags r)

/-- An exact finite value of at most 512 fraction bits, in units of 2^-512. -/
def toFx (neg : Bool) (m : Nat) (e : Int) : Int := scaled neg m e (-512)

/-- VFEX2 (R155, R156): 2^x. -/
def sfuEx2 (x : LaneWord) : Nat × LaneFlags :=
  match decodeF fp32 x.toNat with
  | .nan s => (fp32.canonical, flagsOf s false false false false)
  | .inf neg => (if neg then 0 else fp32.infBits false, 0#6)
  | .fin neg m e =>
    let v := toFx neg m e
    let n := v / unitOne
    let f := v % unitOne
    if 128 ≤ n then (fp32.infBits false, flagsOf false false true false true)
    else if n < -200 then faithful 0 x false 0 1 (-300)
    else if f = 0 ∧ -149 ≤ n then deliver fp32 .rne (.fin false 1 n)
    else
      let r := fxExp (fxMul f fxLn2)
      faithful 0 x false (r - slack) (r + slack) (n - 512)

/-- VFLG2 (R155, R156): log2 x. -/
def sfuLg2 (x : LaneWord) : Nat × LaneFlags :=
  match decodeF fp32 x.toNat with
  | .nan s => (fp32.canonical, flagsOf s false false false false)
  | .inf neg => if neg then (fp32.canonical, flagsOf true false false false false) else (fp32.infBits false, 0#6)
  | .fin neg m e =>
    if m = 0 then (fp32.infBits true, flagsOf false true false false false)
    else if neg then (fp32.canonical, flagsOf true false false false false)
    else
      let l := bitLen m - 1
      let k : Int := e + l
      if m = 2 ^ l then deliver fp32 .rne (.ofInt k)
      else
        let r := k * unitOne + fxLn m (2 ^ l) * unitOne / fxLn2
        faithful 1 x (decide (r < 0)) (r.natAbs - slack) (r.natAbs + slack) (-512)

/-- sin(π t / 2^512) for a `t` taken modulo 2: its sign and magnitude, or `none` where it is 0. -/
def sinPi (fn : Nat) (x : LaneWord) (t : Int) : Option (Nat × LaneFlags) :=
  let r := t % (2 * unitOne)
  let neg := decide (unitOne ≤ r)
  let q := r % unitOne
  let h := if unitOne < 2 * q then unitOne - q else q
  if h = 0 then none
  else if 2 * h = unitOne then some (deliver fp32 .rne (.fin neg 1 0))
  else
    let s := fxSin (fxMul h fxPi)
    some (faithful fn x neg (s - slack) (s + slack) (-512))

/-- VFSIN (R155, R156): sin(πx); a zero result takes the sign of x. -/
def sfuSin (x : LaneWord) : Nat × LaneFlags :=
  match decodeF fp32 x.toNat with
  | .nan s => (fp32.canonical, flagsOf s false false false false)
  | .inf _ => (fp32.canonical, flagsOf true false false false false)
  | .fin neg m e =>
    match sinPi 2 x (toFx neg m e) with
    | some r => r
    | none => (if neg then fp32.signWeight else 0, 0#6)

/-- VFCOS (R155, R156): cos(πx) = sin(π(x + 1/2)); zero results are +0. -/
def sfuCos (x : LaneWord) : Nat × LaneFlags :=
  match decodeF fp32 x.toNat with
  | .nan s => (fp32.canonical, flagsOf s false false false false)
  | .inf _ => (fp32.canonical, flagsOf true false false false false)
  | .fin neg m e =>
    match sinPi 3 x (toFx neg m e + unitOne / 2) with
    | some r => r
    | none => (0, 0#6)

/-- e^(2y) for 1 ≤ y ≤ 64, by squaring e^(2y/256) eight times. -/
def fxExpBig (y : Int) : Int :=
  let r := fxExp (2 * y / 256)
  let r2 := fxMul r r
  let r4 := fxMul r2 r2
  let r8 := fxMul r4 r4
  let r16 := fxMul r8 r8
  let r32 := fxMul r16 r16
  let r64 := fxMul r32 r32
  let r128 := fxMul r64 r64
  fxMul r128 r128

/-- VFTANH (R155, R156): tanh x, as sinh / cosh up to 1 and as 1 − 2 / (e^(2x) + 1) above. -/
def sfuTanh (x : LaneWord) : Nat × LaneFlags :=
  match decodeF fp32 x.toNat with
  | .nan s => (fp32.canonical, flagsOf s false false false false)
  | .inf neg => deliver fp32 .rne (.fin neg 1 0)
  | .fin neg m e =>
    if m = 0 then (if neg then fp32.signWeight else 0, 0#6)
    else
      let y := toFx false m e
      if y ≤ unitOne then
        let yy := fxMul y y
        let t := sinhSeries yy 60 0 y * unitOne / coshSeries yy 60 0 unitOne
        faithful 4 x neg (t - slack) (min (t + slack) y) (-512)
      else if y ≤ 32 * unitOne then
        let t := unitOne - 2 * unitOne * unitOne / (fxExpBig y + unitOne)
        faithful 4 x neg (t - slack) (min (t + slack) (unitOne - 1)) (-512)
      else faithful 4 x neg (unitOne - unitOne / 2 ^ 60) (unitOne - 1) (-512)

/-- VFCLS (R157): the one-hot class of an FP32 pattern. -/
def sfuClass (x : LaneWord) : LaneWord :=
  let neg := x.msb
  let e := x.toNat / 2 ^ 23 % 256
  match decodeF fp32 x.toNat with
  | .nan s => if s then 256#32 else 512#32
  | .inf n => if n then 1#32 else 128#32
  | .fin _ m _ =>
    if m = 0 then (if neg then 8#32 else 16#32)
    else if e = 0 then (if neg then 4#32 else 32#32)
    else (if neg then 2#32 else 64#32)

end Sys2Proof.Machine
end

