-- ==== Sys2Proof/Machine/Lane.lean ====
section
/-! DEFINITION. What a lane instruction computes in one lane (R144 to R162), with and without the ALU layout of the MOD
prefix (R170 to R172). The instructions, the MOD, REP and INV prefixes all use these functions. -/

namespace Sys2Proof.Machine

/-- The integer operations of R144, with the compact move. -/
inductive IntOp where
  | add | sub | mul | mulh | mulhz | mad | and | or | xor | shl | shr | sra | minI | maxI | minZ | maxZ | absd | mov | li
deriving DecidableEq, Repr

/-- The floating-point operations of R153. -/
inductive FpOp where
  | add | sub | mul | fma | min | max
deriving DecidableEq, Repr

/-- The fields of a MOD prefix in its ALU layout (R63, R171): `clamp` names the scalar pair. -/
structure ModAlu where
  sat   : Nat
  k     : Int
  negA  : Bool
  negB  : Bool
  absA  : Bool
  absB  : Bool
  clamp : Option Nat
deriving DecidableEq, Repr

/-- No MOD prefix. -/
def ModAlu.plain : ModAlu := ⟨0, 0, false, false, false, false, none⟩

/-- What a lane computes: which operation, with the fields that select it. -/
inductive LaneOp where
  | int (op : IntOp)
  | dot (unsigned : Bool)
  | unary (k : Nat)
  | bfe (unsigned : Bool)
  | bfi
  | select (neg : Bool) (pn : Nat)
  | fp (f : Fmt) (op : FpOp)
  | sfu (k : Nat)
  | cvt (src dst : BitVec 4)
  | pack (kind : Nat)
  | quad (sel : Nat)
  | shuffle (kind : Nat)
  | icmp (cond : Nat)
  | fcmp (cond : Nat)
  | pred (op pa pb : Nat)
  | bracket (k w : Nat)
deriving DecidableEq, Repr

/-- A lane instruction: its operation, whether its destination is a predicate, and its operands. -/
structure LaneForm where
  op     : LaneOp
  toPred : Bool
  d      : Nat
  a      : Option Nat
  b      : Operand
deriving DecidableEq, Repr

/-- What one lane gets: the value, the flags, and how many steps its xorshift state advances (R128). -/
structure LaneOut where
  value : LaneWord
  flags : LaneFlags
  steps : Nat
deriving DecidableEq, Repr

/-- A value without flags. -/
def LaneOut.of (v : LaneWord) : LaneOut := ⟨v, 0, 0⟩

/-! ## Integers -/

/-- Absolute value, then negation (R171). -/
def absNeg (abs neg : Bool) (x : Int) : Int :=
  let y := if abs then (x.natAbs : Int) else x
  if neg then -y else y

/-- R144: the operations whose operands read as Z32 under `.satz`, and whose result type follows the reading. -/
def IntOp.follows (op : IntOp) : Bool :=
  match op with
  | .add | .sub | .mul | .mad | .shl => true
  | _ => false

/-- R144: the operations that read bit patterns or unsigned values. -/
def IntOp.readsZ (op : IntOp) : Bool :=
  match op with
  | .mulhz | .and | .or | .xor | .shr | .minZ | .maxZ => true
  | _ => false

/-- R144: the operations whose result is a Z32 whatever the reading. -/
def IntOp.resultZ (op : IntOp) : Bool :=
  match op with
  | .absd => true
  | op => op.readsZ

/-- R144: the exact result on the readings of a, b and the old d. -/
def IntOp.exact (op : IntOp) (a b d : Int) : Int :=
  match op with
  | .add => a + b
  | .sub => a - b
  | .mul => a * b
  | .mulh => a * b / 2 ^ 32
  | .mulhz => a * b / 2 ^ 32
  | .mad => a * b + d
  | .and => (a.toNat &&& b.toNat : Nat)
  | .or => (a.toNat ||| b.toNat : Nat)
  | .xor => (a.toNat ^^^ b.toNat : Nat)
  | .shl => a * 2 ^ (b % 32).toNat
  | .shr => a / 2 ^ (b % 32).toNat
  | .sra => a / 2 ^ (b % 32).toNat
  | .minI => min a b
  | .maxI => max a b
  | .minZ => min a b
  | .maxZ => max a b
  | .absd => (a - b).natAbs
  | .mov => b
  | .li => b

/-- A 32-bit pattern read as Z32 or I32 (R113). -/
def read32 (unsigned : Bool) (x : LaneWord) : Int := if unsigned then (x.toNat : Int) else x.toInt

/-- R171, R172: scaling, clamping, flooring and saturating an exact integer result. -/
def intFinish (m : ModAlu) (lo hi : Int) (e : Int) : LaneOut :=
  let num := if 0 ≤ m.k then e * 2 ^ m.k.toNat else e
  let den : Int := if 0 ≤ m.k then 1 else 2 ^ (-m.k).toNat
  let num' :=
    match m.clamp with
    | none => num
    | some _ => min (max num (lo * den)) (hi * den)
  let r := num' / den
  if m.sat = 1 then let s := satI 32 r; ⟨BitVec.ofInt 32 s.1, flagsOf false false s.2 false false, 0⟩
  else if m.sat = 2 then let s := satZ 32 r; ⟨BitVec.ofInt 32 s.1, flagsOf false false s.2 false false, 0⟩
  else ⟨BitVec.ofInt 32 r, 0, 0⟩

/-- R170: the operations whose result saturation leaves unchanged. -/
def IntOp.inRange (op : IntOp) : Bool :=
  match op with
  | .and | .or | .xor | .shr | .sra => true
  | _ => false

/-- R144, R148, R170, R171: an integer operation in one lane; `lo` and `hi` are the clamp pair's words. -/
def intLane (op : IntOp) (m : ModAlu) (lo hi a b d : LaneWord) : LaneOut :=
  let z := op.follows && decide (m.sat = 2)
  let rd := read32 (z || op.readsZ)
  let shift := op = .shl ∨ op = .shr ∨ op = .sra
  let bi := if shift then (b.toNat : Int) else rd b
  let e := op.exact (absNeg m.absA m.negA (rd a)) (absNeg m.absB m.negB bi) (rd d)
  let zr := z || op.resultZ
  intFinish { m with sat := if op.inRange then 0 else m.sat } (read32 zr lo) (read32 zr hi) e

/-- R145, R171: the byte dot product; abs and neg act on each element. -/
def dotLane (unsigned : Bool) (m : ModAlu) (lo hi a b d : LaneWord) : LaneOut :=
  let el := fun (x : LaneWord) (j : Nat) =>
    let y := x.toNat / 2 ^ (8 * j) % 256
    if unsigned then (y : Int) else signedOf 8 y
  let term := fun j => absNeg m.absA m.negA (el a j) * absNeg m.absB m.negB (el b j)
  intFinish m (read32 unsigned lo) (read32 unsigned hi) (read32 unsigned d + term 0 + term 1 + term 2 + term 3)

/-- The number of 1 bits below bit `n`. -/
def popCount (n x : Nat) : Nat :=
  match n with
  | 0 => 0
  | n + 1 => x % 2 + popCount n (x / 2)

/-- The low `n` bits of `x` in reverse order, over `acc`. -/
def reverseBits (n x acc : Nat) : Nat :=
  match n with
  | 0 => acc
  | n + 1 => reverseBits n (x / 2) (2 * acc + x % 2)

/-- R146: the unary operations. -/
def unaryLane (k : Nat) (a : LaneWord) : LaneWord :=
  if k = 0 then BitVec.ofNat 32 (popCount 32 a.toNat)
  else if k = 1 then BitVec.ofNat 32 (32 - bitLen a.toNat)
  else if k = 2 then BitVec.ofNat 32 (reverseBits 32 a.toNat 0)
  else ~~~a

/-- R147: the position and the width of the bit field that b names. -/
def fieldOf (b : LaneWord) : Nat × Nat :=
  let pos := b.toNat % 32
  (pos, min (b.toNat / 256 % 64) (32 - pos))

/-- R147: VBFE. -/
def bfeLane (unsigned : Bool) (a b : LaneWord) : LaneWord :=
  let (pos, w) := fieldOf b
  let x := a.toNat / 2 ^ pos % 2 ^ w
  if w = 0 then 0 else if unsigned then BitVec.ofNat 32 x else BitVec.ofInt 32 (signedOf w x)

/-- R147: VBFI. -/
def bfiLane (a b d : LaneWord) : LaneWord :=
  let (pos, w) := fieldOf b
  BitVec.ofNat 32 (d.toNat / 2 ^ (pos + w) * 2 ^ (pos + w) + a.toNat % 2 ^ w * 2 ^ pos + d.toNat % 2 ^ pos)

/-! ## Floating point -/

/-- R123, R124: the rounding mode of a group in lane `l`; conversions alone round stochastically. -/
def Group.mode (g : Group) (conversion : Bool) (l : Nat) : RMode :=
  match g.frm.toNat with
  | 1 => .rtz
  | 2 => .rdn
  | 3 => .rup
  | 4 => if conversion then .sto (readCell g.rng l) else .rne
  | _ => .rne

/-- R171: abs and neg on a floating operand act on the sign alone. -/
def fAbsNeg (abs neg : Bool) (v : FVal) : FVal :=
  let w := if abs then v.abs else v
  if neg then w.negate else w

/-- R131 on exact values. -/
def FVal.minMax (big : Bool) (a b : FVal) : FVal × Bool :=
  let nv := a.isSig || b.isSig
  if a.isNan && b.isNan then (.nan false, nv)
  else if a.isNan then (b, nv)
  else if b.isNan then (a, nv)
  else if big then (if FVal.lt a b then b else a, nv)
  else (if FVal.lt b a then b else a, nv)

/-- R153: the exact result of an operation, and whether NV is set. -/
def FpOp.exact (op : FpOp) (down : Bool) (a b d : FVal) : FVal × Bool :=
  match op with
  | .add => FVal.add down a b
  | .sub => FVal.add down a b.negate
  | .mul => FVal.mul a b
  | .fma => FVal.fma down a b d
  | .min => FVal.minMax false a b
  | .max => FVal.minMax true a b

/-- R171: the FP saturations, on the delivered bits: to [0, 1] or to [−1, 1]; a NaN stays. -/
def satFp (f : Fmt) (sat : Nat) (x : Nat) : Nat :=
  let one := f.bias * 2 ^ f.fbits
  if sat = 0 || (decodeF f x).isNan then x
  else
    let y := (minMaxBits f false x one).1
    (minMaxBits f true y (if sat = 1 then 0 else f.signWeight + one)).1

/-- R153, R171: one element of a floating-point operation: its bits and flags. -/
def fpElem (f : Fmt) (op : FpOp) (m : ModAlu) (mode : RMode) (lo hi a b d : Nat) : Nat × LaneFlags :=
  let (e, nv) := op.exact (decide (mode = .rdn)) (fAbsNeg m.absA m.negA (decodeF f a)) (fAbsNeg m.absB m.negB (decodeF f b))
    (decodeF f d)
  let e' := e.scale m.k
  let e'' := if m.clamp.isSome then e'.clamp (decodeF f lo) (decodeF f hi) else e'
  let (r, fl) := deliver f mode e''
  (satFp f m.sat r, fl ||| flagsOf nv false false false false)

/-- R153, R154: a floating-point operation in one lane: one FP32 element, or two 16-bit elements. -/
def fpLane (f : Fmt) (op : FpOp) (m : ModAlu) (mode : RMode) (lo hi a b d : LaneWord) : LaneOut :=
  if f.fbits = 23 then
    let r := fpElem f op m mode lo.toNat hi.toNat a.toNat b.toNat d.toNat
    ⟨BitVec.ofNat 32 r.1, r.2, 0⟩
  else
    let el := fun (x : LaneWord) (j : Nat) => x.toNat / 2 ^ (16 * j) % 65536
    let r0 := fpElem f op m mode (el lo 0) (el hi 0) (el a 0) (el b 0) (el d 0)
    let r1 := fpElem f op m mode (el lo 0) (el hi 0) (el a 1) (el b 1) (el d 1)
    ⟨BitVec.ofNat 32 (r0.1 + 65536 * r1.1), r0.2 ||| r1.2, 0⟩

/-- The steps the lane's state advances for one converted element (R128). -/
def stoSteps (mode : RMode) : Nat :=
  match mode with
  | .sto _ => 1
  | _ => 0

/-- R171: the source value of VCVT under its modifiers: the negative of an integer 0 is 0, and of a floating 0 is -0. -/
def cvtSource (s : CvtFmt) (m : ModAlu) (a : LaneWord) : FVal :=
  match fAbsNeg m.absA m.negA (cvtRead s a.toNat) with
  | .fin neg 0 e => .fin (neg && !s.isInt) 0 e
  | v => v

/-- R158, R171, R172: VCVT in one lane. -/
def cvtLane (src dst : BitVec 4) (m : ModAlu) (mode : RMode) (lo hi a : LaneWord) : LaneOut :=
  let s := cvtFmt src
  let t := cvtFmt dst
  let e := (cvtSource s m a).scale m.k
  let bound := fun (x : LaneWord) =>
    match s with
    | .int _ => FVal.ofInt x.toInt
    | .nat _ => FVal.ofInt x.toNat
    | _ => decodeF fp32 x.toNat
  let e' := if m.clamp.isSome then e.clamp (bound lo) (bound hi) else e
  let (r, fl) := convert s.isInt t mode e'
  let r' :=
    match t with
    | .float f => satFp f m.sat r
    | .e8m0 => if m.sat ≠ 0 ∧ r ≠ 255 ∧ 127 < r then 127 else r
    | _ => r
  ⟨BitVec.ofNat 32 r', fl, stoSteps mode⟩

/-- R155 to R157: the special functions 0 to 8 on an FP32 value. -/
def sfuLane (k : Nat) (mode : RMode) (a : LaneWord) : LaneOut :=
  let pack := fun (r : Nat × LaneFlags) => (⟨BitVec.ofNat 32 r.1, r.2, 0⟩ : LaneOut)
  match k with
  | 0 => pack (sfuRcp mode (decodeF fp32 a.toNat))
  | 1 => pack (sfuRsq mode (decodeF fp32 a.toNat))
  | 2 => pack (sfuSqrt mode (decodeF fp32 a.toNat))
  | 3 => pack (sfuEx2 a)
  | 4 => pack (sfuLg2 a)
  | 5 => pack (sfuSin a)
  | 6 => pack (sfuCos a)
  | 7 => pack (sfuTanh a)
  | _ => ⟨sfuClass a, 0, 0⟩

/-- R159: VPACK I8X4: four saturated bytes. -/
def packI8 (x0 x1 x2 x3 : LaneWord) : LaneOut :=
  let s := fun (x : LaneWord) => satI 8 x.toInt
  let b := fun (x : LaneWord) => wrapNat 8 (s x).1
  ⟨BitVec.ofNat 32 (b x0 + 256 * b x1 + 65536 * b x2 + 16777216 * b x3),
   flagsOf false false ((s x0).2 || (s x1).2 || (s x2).2 || (s x3).2) false false, 0⟩

/-- R159: the TER code of a value: its sign. -/
def terCode (x : LaneWord) : Nat := if x = 0 then 0 else if x.msb then 3 else 1

/-- R159: VPACK TER16 over the values `f 0` to `f (n - 1)`. -/
def packTer (f : Nat → LaneWord) (n : Nat) : Nat × Bool :=
  match n with
  | 0 => (0, false)
  | n + 1 =>
    let r := packTer f n
    (r.1 + terCode (f n) * 4 ^ n, r.2 || (decide (1 < (f n).toInt) || decide ((f n).toInt < -1)))

/-- R159, R128: VPACK E8M0: each element converts in the mode, and under stochastic rounding advances the state. -/
def packE8 (mode : RMode) (xs : List LaneWord) : Nat × LaneFlags × Nat :=
  match xs with
  | [] => (0, 0, 0)
  | x :: rest =>
    let r := convert false .e8m0 mode (decodeF fp32 x.toNat)
    let next :=
      match mode with
      | .sto st => RMode.sto (xorshift st)
      | m => m
    let t := packE8 next rest
    (r.1 + 256 * t.1, r.2 ||| t.2.1, stoSteps mode + t.2.2)

/-! ## Compares and exchanges -/

/-- R150: an integer compare. -/
def icmpLane (cond : Nat) (a b : LaneWord) : Bool :=
  match cond with
  | 0 => a == b
  | 1 => a != b
  | 2 => decide (a.toInt < b.toInt)
  | 3 => decide (a.toInt ≤ b.toInt)
  | 4 => decide (b.toInt < a.toInt)
  | 5 => decide (b.toInt ≤ a.toInt)
  | 6 => decide (a.toNat < b.toNat)
  | 7 => decide (a.toNat ≤ b.toNat)
  | 8 => decide (b.toNat < a.toNat)
  | _ => decide (b.toNat ≤ a.toNat)

/-- R151: an FP32 compare: its outcome, and whether NV is set. -/
def fcmpLane (cond : Nat) (a b : LaneWord) : Bool × Bool :=
  let x := decodeF fp32 a.toNat
  let y := decodeF fp32 b.toNat
  let un := x.isNan || y.isNan
  let sig := x.isSig || y.isSig
  let eq := FVal.eqv x y
  let less := fun (p q : FVal) => FVal.lt p q && !FVal.eqv p q
  match cond with
  | 0 => (eq, sig)
  | 1 => (!eq, sig)
  | 2 => (less x y, un)
  | 3 => (!un && (less x y || eq), un)
  | 4 => (less y x, un)
  | 5 => (!un && (less y x || eq), un)
  | 6 => (un, sig)
  | _ => (!un, sig)

/-- R152: predicate logic on two predicate values. -/
def predLogic (op : Nat) (a b : Bool) : Bool :=
  match op with
  | 0 => a && b
  | 1 => a || b
  | 2 => a != b
  | 3 => a && !b
  | 4 => a || !b
  | 5 => !a
  | _ => a

/-- R160: lane `s` of a register as an exchange reads it: 0 where the lane is absent. -/
def Group.peek (g : Group) (r s : Nat) : LaneWord := if hasLane g.present s then g.vec r s else 0

/-- R161: the lane a quad exchange reads. -/
def quadSource (sel l : Nat) : Nat :=
  let q := l / 4 * 4
  let i := l % 4
  match sel with
  | 0 => q + (i ^^^ 1)
  | 1 => q + (i ^^^ 2)
  | 2 => q + (i ^^^ 3)
  | k => q + (k - 3)

/-- R162: the lane a shuffle reads. -/
def shuffleSource (kind l c : Nat) : Nat :=
  let s :=
    match kind with
    | 0 => c
    | 1 => if c ≤ l then l - c else l
    | 2 => l + c
    | _ => l ^^^ c
  if 96 ≤ s then l else s

/-- What a lane instruction gives lane `l` of a group (R139): every source is read before any write. -/
def laneEval (g : Group) (f : LaneForm) (m : ModAlu) (l : Nat) : LaneOut :=
  let a := fun k => g.vec (f.a.getD 0 + k) l
  let b := g.operand f.b l
  let d := g.vec f.d l
  let pair := m.clamp.getD 0
  let lo : LaneWord := BitVec.ofNat 32 (g.scalar pair).toNat
  let hi : LaneWord := BitVec.ofNat 32 (g.scalar (pair + 1)).toNat
  let bit := fun (x : Bool) => if x then (1 : LaneWord) else 0
  match f.op with
  | .int op => intLane op m lo hi (a 0) b d
  | .dot z => dotLane z m lo hi (a 0) b d
  | .unary k => .of (unaryLane k (a 0))
  | .bfe z => .of (bfeLane z (a 0) b)
  | .bfi => .of (bfiLane (a 0) b d)
  | .select neg pn => .of (if g.pnum pn l != neg then a 0 else d)
  | .fp t op => fpLane t op m (g.mode false l) lo hi (a 0) b d
  | .sfu k =>
    if k = 9 then .of (BitVec.ofNat 32 l)
    else if k = 10 then
      .of (BitVec.ofNat 32 ((if g.compacted then ((g.carrier.getD (l / 4) none).getD 0) else g.gid) * 96 + l))
    else sfuLane k (g.mode false l) (a 0)
  | .cvt s t => cvtLane s t m (g.mode true l) lo hi (a 0)
  | .pack k =>
    if k = 0 then packI8 (a 0) (a 1) (a 2) (a 3)
    else if k = 1 then
      let r := packTer a 16
      ⟨BitVec.ofNat 32 r.1, flagsOf false false r.2 false false, 0⟩
    else
      let r := packE8 (g.mode true l) [a 0, a 1, a 2, a 3]
      ⟨BitVec.ofNat 32 r.1, r.2.1, r.2.2⟩
  | .quad sel => .of (g.peek (f.a.getD 0) (quadSource sel l))
  | .shuffle k => .of (g.peek (f.a.getD 0) (shuffleSource k l b.toNat))
  | .icmp c => .of (bit (icmpLane c (a 0) b))
  | .fcmp c => let r := fcmpLane c (a 0) b; ⟨bit r.1, flagsOf r.2 false false false false, 0⟩
  | .pred op pa pb => .of (bit (if op = 7 then a 0 != 0 else predLogic op (g.pnum pa l) (g.pnum pb l)))
  | .bracket k w => .of (g.bracket k w l)

end Sys2Proof.Machine
end

