-- ==== Sys2Proof/Machine/Vector.lean ====
section
/-! DEFINITION. The lane instructions (R139 to R172): what a unit does with its lane form, the forms of the layouts, and
reductions, scans, votes, flags and brackets. -/

namespace Sys2Proof.Machine

/-! ## Registers and distances of a lane form -/

/-- R26: the distance that a lane operation's result needs. -/
def LaneOp.distance (op : LaneOp) : Nat :=
  match op with
  | .fp _ _ => 1
  | .cvt _ _ => 2
  | .pack _ => 2
  | _ => 0

/-- Does an operation read the old value of its destination? -/
def LaneOp.readsDest (op : LaneOp) : Bool :=
  match op with
  | .int .mad => true
  | .dot _ => true
  | .bfi => true
  | .select _ _ => true
  | .fp _ .fma => true
  | _ => false

/-- R46: how many source registers an operation reads from `a`. -/
def LaneOp.sources (op : LaneOp) : Nat :=
  match op with
  | .pack k => if k = 1 then 16 else 4
  | _ => 1

/-- R138: is a predicate number one of the lane flags? -/
def flagNumber (n : Nat) : Bool := decide (8 ≤ n ∧ n ≤ 13)

/-- Does an operation read the lane flags? -/
def LaneOp.readsFlags (op : LaneOp) : Bool :=
  match op with
  | .select _ pn => flagNumber pn
  | .pred op pa pb => op != 7 && (flagNumber pa || flagNumber pb)
  | _ => false

/-- The registers that an operand names. -/
def Operand.regs (o : Operand) : List Nat :=
  match o with
  | .reg r => [r]
  | _ => []

/-- The source registers of a lane form. -/
def LaneForm.sources (f : LaneForm) : List Nat :=
  (match f.a with
   | some a => (List.range f.op.sources).map (fun k => a + k)
   | none => []) ++ f.b.regs

/-- What is checked of a lane form before it has any effect. -/
def LaneForm.need (f : LaneForm) : Need :=
  let dest := if f.toPred then [] else [f.d]
  { regs := f.sources ++ dest
    reads := f.sources ++ (if f.op.readsDest then dest else [])
    flags := f.op.readsFlags }

/-- `n` steps of a lane's xorshift state (R127). -/
def stepState (n : Nat) (x : BitVec 32) : BitVec 32 :=
  match n with
  | 0 => x
  | n + 1 => stepState n (xorshift x)

/-- R139: the effect of a lane form in every active lane and helper: the group after it. `r` is the group as the unit reads
it (R30). -/
def Group.applyForm (g r : Group) (f : LaneForm) (m : ModAlu) : Group :=
  let outs := (List.range 96).map (fun l => if hasLane g.exec l then laneEval r f m l else ⟨0, 0, 0⟩)
  let out := fun (l : Nat) => outs.getD l ⟨0, 0, 0⟩
  let late := decide (0 < f.op.distance)
  let g1 :=
    if f.toPred then g.setPred f.d g.exec (fun l => (out l).value.getLsbD 0)
    else g.setVec f.d g.exec (fun l => (out l).value) late
  let g2 := g1.raise g.exec (fun l => (out l).flags) late
  if outs.any (fun o => decide (0 < o.steps)) then
    { g2 with rng := writeRun g2.rng 0 96 (fun l => stepState (out l).steps (readCell g2.rng l)) }
  else g2

/-- R26, R27: the late results of a lane form, with the values before them. -/
def Group.lateResults (g : Group) (f : LaneForm) : List Hazard :=
  let n := f.op.distance
  if n = 0 then [] else [g.lateVector n f.d, g.lateFlags n]

/-- Run a lane form, modified as `m` says, in a unit of `len` parcels. -/
def runLane (f : LaneForm) (m : ModAlu) (len : Nat) (s : State) : Host.Outcome State Fault Refusal :=
  onGroup s f.need (fun _ g r => s.done ((g.applyForm r f m).advance len) (g.lateResults f))

/-! ## The forms of the layouts (R42, R45, R148) -/

/-- The VR layout. -/
def vrForm (op : LaneOp) (x : BitVec 1) (b a d : BitVec 7) : LaneForm :=
  ⟨op, false, d.toNat, some a.toNat, operandB x b⟩

/-- A layout with one source register. -/
def unForm (op : LaneOp) (a d : BitVec 7) : LaneForm := ⟨op, false, d.toNat, some a.toNat, .none⟩

/-- A layout with a destination alone. -/
def idForm (op : LaneOp) (d : BitVec 7) : LaneForm := ⟨op, false, d.toNat, none, .none⟩

/-- The VI layout. -/
def immForm (op : LaneOp) (i : LaneWord) (a d : BitVec 7) : LaneForm := ⟨op, false, d.toNat, some a.toNat, .imm i⟩

/-- The VU layout. -/
def liForm (i : LaneWord) (d : BitVec 7) : LaneForm := ⟨.int .li, false, d.toNat, none, .imm i⟩

/-- The VC layout: the destination is a predicate. -/
def cmpForm (op : LaneOp) (x : BitVec 1) (b a : BitVec 7) (p : BitVec 3) : LaneForm :=
  ⟨op, true, p.toNat, some a.toNat, operandB x b⟩

/-- The VPR layout. -/
def predForm (op pa pb : Nat) (d : BitVec 3) : LaneForm := ⟨.pred op pa pb, true, d.toNat, none, .none⟩

/-- VPRED FROMV. -/
def fromForm (v : BitVec 7) (d : BitVec 3) : LaneForm := ⟨.pred 7 0 0, true, d.toNat, some v.toNat, .none⟩

/-- R42: the compact layout: the destination is the first source. -/
def compactForm (op : LaneOp) (d : BitVec 6) (b : BitVec 5) : LaneForm :=
  ⟨op, false, d.toNat, some d.toNat, .reg b.toNat⟩

/-- The compact move. -/
def compactMove (d : BitVec 6) (b : BitVec 5) : LaneForm := ⟨.int .mov, false, d.toNat, none, .reg b.toNat⟩

/-! ## The lane instructions -/

/-- VADD_I32_COMPACT (R42). -/
def execVaddI32Compact (b : BitVec 5) (d : BitVec 6) (s : State) : Host.Outcome State Fault Refusal :=
  runLane (compactForm (.int .add) d b) .plain 1 s

/-- VSUB_I32_COMPACT (R42). -/
def execVsubI32Compact (b : BitVec 5) (d : BitVec 6) (s : State) : Host.Outcome State Fault Refusal :=
  runLane (compactForm (.int .sub) d b) .plain 1 s

/-- VMUL_I32_COMPACT (R42). -/
def execVmulI32Compact (b : BitVec 5) (d : BitVec 6) (s : State) : Host.Outcome State Fault Refusal :=
  runLane (compactForm (.int .mul) d b) .plain 1 s

/-- VAND_COMPACT (R42). -/
def execVandCompact (b : BitVec 5) (d : BitVec 6) (s : State) : Host.Outcome State Fault Refusal :=
  runLane (compactForm (.int .and) d b) .plain 1 s

/-- VOR_COMPACT (R42). -/
def execVorCompact (b : BitVec 5) (d : BitVec 6) (s : State) : Host.Outcome State Fault Refusal :=
  runLane (compactForm (.int .or) d b) .plain 1 s

/-- VXOR_COMPACT (R42). -/
def execVxorCompact (b : BitVec 5) (d : BitVec 6) (s : State) : Host.Outcome State Fault Refusal :=
  runLane (compactForm (.int .xor) d b) .plain 1 s

/-- VSHL_COMPACT (R42). -/
def execVshlCompact (b : BitVec 5) (d : BitVec 6) (s : State) : Host.Outcome State Fault Refusal :=
  runLane (compactForm (.int .shl) d b) .plain 1 s

/-- VSHR_COMPACT (R42). -/
def execVshrCompact (b : BitVec 5) (d : BitVec 6) (s : State) : Host.Outcome State Fault Refusal :=
  runLane (compactForm (.int .shr) d b) .plain 1 s

/-- VSRA_COMPACT (R42). -/
def execVsraCompact (b : BitVec 5) (d : BitVec 6) (s : State) : Host.Outcome State Fault Refusal :=
  runLane (compactForm (.int .sra) d b) .plain 1 s

/-- VMOV_COMPACT (R42). -/
def execVmovCompact (b : BitVec 5) (d : BitVec 6) (s : State) : Host.Outcome State Fault Refusal :=
  runLane (compactMove d b) .plain 1 s

/-- VMIN_I32_COMPACT (R42). -/
def execVminI32Compact (b : BitVec 5) (d : BitVec 6) (s : State) : Host.Outcome State Fault Refusal :=
  runLane (compactForm (.int .minI) d b) .plain 1 s

/-- VMAX_I32_COMPACT (R42). -/
def execVmaxI32Compact (b : BitVec 5) (d : BitVec 6) (s : State) : Host.Outcome State Fault Refusal :=
  runLane (compactForm (.int .maxI) d b) .plain 1 s

/-- VFADD_F32_COMPACT (R42). -/
def execVfaddF32Compact (b : BitVec 5) (d : BitVec 6) (s : State) : Host.Outcome State Fault Refusal :=
  runLane (compactForm (.fp fp32 .add) d b) .plain 1 s

/-- VFSUB_F32_COMPACT (R42). -/
def execVfsubF32Compact (b : BitVec 5) (d : BitVec 6) (s : State) : Host.Outcome State Fault Refusal :=
  runLane (compactForm (.fp fp32 .sub) d b) .plain 1 s

/-- VFMUL_F32_COMPACT (R42). -/
def execVfmulF32Compact (b : BitVec 5) (d : BitVec 6) (s : State) : Host.Outcome State Fault Refusal :=
  runLane (compactForm (.fp fp32 .mul) d b) .plain 1 s

/-- VFMAX_F32_COMPACT (R42). -/
def execVfmaxF32Compact (b : BitVec 5) (d : BitVec 6) (s : State) : Host.Outcome State Fault Refusal :=
  runLane (compactForm (.fp fp32 .max) d b) .plain 1 s

/-- VADD_I32 (R144). -/
def execVaddI32 (x : BitVec 1) (b : BitVec 7) (a : BitVec 7) (d : BitVec 7) (s : State) : Host.Outcome State Fault Refusal :=
  runLane (vrForm (.int .add) x b a d) .plain 2 s

/-- VSUB_I32 (R144). -/
def execVsubI32 (x : BitVec 1) (b : BitVec 7) (a : BitVec 7) (d : BitVec 7) (s : State) : Host.Outcome State Fault Refusal :=
  runLane (vrForm (.int .sub) x b a d) .plain 2 s

/-- VMUL_I32 (R144). -/
def execVmulI32 (x : BitVec 1) (b : BitVec 7) (a : BitVec 7) (d : BitVec 7) (s : State) : Host.Outcome State Fault Refusal :=
  runLane (vrForm (.int .mul) x b a d) .plain 2 s

/-- VMULH (R144). -/
def execVmulh (x : BitVec 1) (b : BitVec 7) (a : BitVec 7) (d : BitVec 7) (s : State) : Host.Outcome State Fault Refusal :=
  runLane (vrForm (.int .mulh) x b a d) .plain 2 s

/-- VMULHZ (R144). -/
def execVmulhz (x : BitVec 1) (b : BitVec 7) (a : BitVec 7) (d : BitVec 7) (s : State) : Host.Outcome State Fault Refusal :=
  runLane (vrForm (.int .mulhz) x b a d) .plain 2 s

/-- VMAD_I32 (R144). -/
def execVmadI32 (x : BitVec 1) (b : BitVec 7) (a : BitVec 7) (d : BitVec 7) (s : State) : Host.Outcome State Fault Refusal :=
  runLane (vrForm (.int .mad) x b a d) .plain 2 s

/-- VAND (R144). -/
def execVand (x : BitVec 1) (b : BitVec 7) (a : BitVec 7) (d : BitVec 7) (s : State) : Host.Outcome State Fault Refusal :=
  runLane (vrForm (.int .and) x b a d) .plain 2 s

/-- VOR (R144). -/
def execVor (x : BitVec 1) (b : BitVec 7) (a : BitVec 7) (d : BitVec 7) (s : State) : Host.Outcome State Fault Refusal :=
  runLane (vrForm (.int .or) x b a d) .plain 2 s

/-- VXOR (R144). -/
def execVxor (x : BitVec 1) (b : BitVec 7) (a : BitVec 7) (d : BitVec 7) (s : State) : Host.Outcome State Fault Refusal :=
  runLane (vrForm (.int .xor) x b a d) .plain 2 s

/-- VSHL (R144). -/
def execVshl (x : BitVec 1) (b : BitVec 7) (a : BitVec 7) (d : BitVec 7) (s : State) : Host.Outcome State Fault Refusal :=
  runLane (vrForm (.int .shl) x b a d) .plain 2 s

/-- VSHR (R144). -/
def execVshr (x : BitVec 1) (b : BitVec 7) (a : BitVec 7) (d : BitVec 7) (s : State) : Host.Outcome State Fault Refusal :=
  runLane (vrForm (.int .shr) x b a d) .plain 2 s

/-- VSRA (R144). -/
def execVsra (x : BitVec 1) (b : BitVec 7) (a : BitVec 7) (d : BitVec 7) (s : State) : Host.Outcome State Fault Refusal :=
  runLane (vrForm (.int .sra) x b a d) .plain 2 s

/-- VMIN_I32 (R144). -/
def execVminI32 (x : BitVec 1) (b : BitVec 7) (a : BitVec 7) (d : BitVec 7) (s : State) : Host.Outcome State Fault Refusal :=
  runLane (vrForm (.int .minI) x b a d) .plain 2 s

/-- VMAX_I32 (R144). -/
def execVmaxI32 (x : BitVec 1) (b : BitVec 7) (a : BitVec 7) (d : BitVec 7) (s : State) : Host.Outcome State Fault Refusal :=
  runLane (vrForm (.int .maxI) x b a d) .plain 2 s

/-- VMIN_Z32 (R144). -/
def execVminZ32 (x : BitVec 1) (b : BitVec 7) (a : BitVec 7) (d : BitVec 7) (s : State) : Host.Outcome State Fault Refusal :=
  runLane (vrForm (.int .minZ) x b a d) .plain 2 s

/-- VMAX_Z32 (R144). -/
def execVmaxZ32 (x : BitVec 1) (b : BitVec 7) (a : BitVec 7) (d : BitVec 7) (s : State) : Host.Outcome State Fault Refusal :=
  runLane (vrForm (.int .maxZ) x b a d) .plain 2 s

/-- VABSD (R144). -/
def execVabsd (x : BitVec 1) (b : BitVec 7) (a : BitVec 7) (d : BitVec 7) (s : State) : Host.Outcome State Fault Refusal :=
  runLane (vrForm (.int .absd) x b a d) .plain 2 s

/-- VBFE_I32 (R147). -/
def execVbfeI32 (x : BitVec 1) (b : BitVec 7) (a : BitVec 7) (d : BitVec 7) (s : State) : Host.Outcome State Fault Refusal :=
  runLane (vrForm (.bfe false) x b a d) .plain 2 s

/-- VBFE_Z32 (R147). -/
def execVbfeZ32 (x : BitVec 1) (b : BitVec 7) (a : BitVec 7) (d : BitVec 7) (s : State) : Host.Outcome State Fault Refusal :=
  runLane (vrForm (.bfe true) x b a d) .plain 2 s

/-- VBFI (R147). -/
def execVbfi (x : BitVec 1) (b : BitVec 7) (a : BitVec 7) (d : BitVec 7) (s : State) : Host.Outcome State Fault Refusal :=
  runLane (vrForm (.bfi) x b a d) .plain 2 s

/-- VDOT4_I8 (R145). -/
def execVdot4I8 (x : BitVec 1) (b : BitVec 7) (a : BitVec 7) (d : BitVec 7) (s : State) : Host.Outcome State Fault Refusal :=
  runLane (vrForm (.dot false) x b a d) .plain 2 s

/-- VDOT4_Z8 (R145). -/
def execVdot4Z8 (x : BitVec 1) (b : BitVec 7) (a : BitVec 7) (d : BitVec 7) (s : State) : Host.Outcome State Fault Refusal :=
  runLane (vrForm (.dot true) x b a d) .plain 2 s

/-- VFADD_F32 (R153). -/
def execVfaddF32 (x : BitVec 1) (b : BitVec 7) (a : BitVec 7) (d : BitVec 7) (s : State) : Host.Outcome State Fault Refusal :=
  runLane (vrForm (.fp fp32 .add) x b a d) .plain 2 s

/-- VFSUB_F32 (R153). -/
def execVfsubF32 (x : BitVec 1) (b : BitVec 7) (a : BitVec 7) (d : BitVec 7) (s : State) : Host.Outcome State Fault Refusal :=
  runLane (vrForm (.fp fp32 .sub) x b a d) .plain 2 s

/-- VFMUL_F32 (R153). -/
def execVfmulF32 (x : BitVec 1) (b : BitVec 7) (a : BitVec 7) (d : BitVec 7) (s : State) : Host.Outcome State Fault Refusal :=
  runLane (vrForm (.fp fp32 .mul) x b a d) .plain 2 s

/-- VFMA_F32 (R153). -/
def execVfmaF32 (x : BitVec 1) (b : BitVec 7) (a : BitVec 7) (d : BitVec 7) (s : State) : Host.Outcome State Fault Refusal :=
  runLane (vrForm (.fp fp32 .fma) x b a d) .plain 2 s

/-- VFMIN_F32 (R153). -/
def execVfminF32 (x : BitVec 1) (b : BitVec 7) (a : BitVec 7) (d : BitVec 7) (s : State) : Host.Outcome State Fault Refusal :=
  runLane (vrForm (.fp fp32 .min) x b a d) .plain 2 s

/-- VFMAX_F32 (R153). -/
def execVfmaxF32 (x : BitVec 1) (b : BitVec 7) (a : BitVec 7) (d : BitVec 7) (s : State) : Host.Outcome State Fault Refusal :=
  runLane (vrForm (.fp fp32 .max) x b a d) .plain 2 s

/-- VFADD_H2 (R154). -/
def execVfaddH2 (x : BitVec 1) (b : BitVec 7) (a : BitVec 7) (d : BitVec 7) (s : State) : Host.Outcome State Fault Refusal :=
  runLane (vrForm (.fp fp16 .add) x b a d) .plain 2 s

/-- VFSUB_H2 (R154). -/
def execVfsubH2 (x : BitVec 1) (b : BitVec 7) (a : BitVec 7) (d : BitVec 7) (s : State) : Host.Outcome State Fault Refusal :=
  runLane (vrForm (.fp fp16 .sub) x b a d) .plain 2 s

/-- VFMUL_H2 (R154). -/
def execVfmulH2 (x : BitVec 1) (b : BitVec 7) (a : BitVec 7) (d : BitVec 7) (s : State) : Host.Outcome State Fault Refusal :=
  runLane (vrForm (.fp fp16 .mul) x b a d) .plain 2 s

/-- VFMA_H2 (R154). -/
def execVfmaH2 (x : BitVec 1) (b : BitVec 7) (a : BitVec 7) (d : BitVec 7) (s : State) : Host.Outcome State Fault Refusal :=
  runLane (vrForm (.fp fp16 .fma) x b a d) .plain 2 s

/-- VFMIN_H2 (R154). -/
def execVfminH2 (x : BitVec 1) (b : BitVec 7) (a : BitVec 7) (d : BitVec 7) (s : State) : Host.Outcome State Fault Refusal :=
  runLane (vrForm (.fp fp16 .min) x b a d) .plain 2 s

/-- VFMAX_H2 (R154). -/
def execVfmaxH2 (x : BitVec 1) (b : BitVec 7) (a : BitVec 7) (d : BitVec 7) (s : State) : Host.Outcome State Fault Refusal :=
  runLane (vrForm (.fp fp16 .max) x b a d) .plain 2 s

/-- VFADD_B2 (R154). -/
def execVfaddB2 (x : BitVec 1) (b : BitVec 7) (a : BitVec 7) (d : BitVec 7) (s : State) : Host.Outcome State Fault Refusal :=
  runLane (vrForm (.fp bf16 .add) x b a d) .plain 2 s

/-- VFSUB_B2 (R154). -/
def execVfsubB2 (x : BitVec 1) (b : BitVec 7) (a : BitVec 7) (d : BitVec 7) (s : State) : Host.Outcome State Fault Refusal :=
  runLane (vrForm (.fp bf16 .sub) x b a d) .plain 2 s

/-- VFMUL_B2 (R154). -/
def execVfmulB2 (x : BitVec 1) (b : BitVec 7) (a : BitVec 7) (d : BitVec 7) (s : State) : Host.Outcome State Fault Refusal :=
  runLane (vrForm (.fp bf16 .mul) x b a d) .plain 2 s

/-- VFMA_B2 (R154). -/
def execVfmaB2 (x : BitVec 1) (b : BitVec 7) (a : BitVec 7) (d : BitVec 7) (s : State) : Host.Outcome State Fault Refusal :=
  runLane (vrForm (.fp bf16 .fma) x b a d) .plain 2 s

/-- VFMIN_B2 (R154). -/
def execVfminB2 (x : BitVec 1) (b : BitVec 7) (a : BitVec 7) (d : BitVec 7) (s : State) : Host.Outcome State Fault Refusal :=
  runLane (vrForm (.fp bf16 .min) x b a d) .plain 2 s

/-- VFMAX_B2 (R154). -/
def execVfmaxB2 (x : BitVec 1) (b : BitVec 7) (a : BitVec 7) (d : BitVec 7) (s : State) : Host.Outcome State Fault Refusal :=
  runLane (vrForm (.fp bf16 .max) x b a d) .plain 2 s

/-- VPOPC (R146). -/
def execVpopc (a : BitVec 7) (d : BitVec 7) (s : State) : Host.Outcome State Fault Refusal :=
  runLane (unForm (.unary 0) a d) .plain 2 s

/-- VCLZ (R146). -/
def execVclz (a : BitVec 7) (d : BitVec 7) (s : State) : Host.Outcome State Fault Refusal :=
  runLane (unForm (.unary 1) a d) .plain 2 s

/-- VBREV (R146). -/
def execVbrev (a : BitVec 7) (d : BitVec 7) (s : State) : Host.Outcome State Fault Refusal :=
  runLane (unForm (.unary 2) a d) .plain 2 s

/-- VNOT (R146). -/
def execVnot (a : BitVec 7) (d : BitVec 7) (s : State) : Host.Outcome State Fault Refusal :=
  runLane (unForm (.unary 3) a d) .plain 2 s

/-- VFRCP (R155 to R157). -/
def execVfrcp (a : BitVec 7) (d : BitVec 7) (s : State) : Host.Outcome State Fault Refusal :=
  runLane (unForm (.sfu 0) a d) .plain 2 s

/-- VFRSQ (R155 to R157). -/
def execVfrsq (a : BitVec 7) (d : BitVec 7) (s : State) : Host.Outcome State Fault Refusal :=
  runLane (unForm (.sfu 1) a d) .plain 2 s

/-- VFSQRT (R155 to R157). -/
def execVfsqrt (a : BitVec 7) (d : BitVec 7) (s : State) : Host.Outcome State Fault Refusal :=
  runLane (unForm (.sfu 2) a d) .plain 2 s

/-- VFEX2 (R155 to R157). -/
def execVfex2 (a : BitVec 7) (d : BitVec 7) (s : State) : Host.Outcome State Fault Refusal :=
  runLane (unForm (.sfu 3) a d) .plain 2 s

/-- VFLG2 (R155 to R157). -/
def execVflg2 (a : BitVec 7) (d : BitVec 7) (s : State) : Host.Outcome State Fault Refusal :=
  runLane (unForm (.sfu 4) a d) .plain 2 s

/-- VFSIN (R155 to R157). -/
def execVfsin (a : BitVec 7) (d : BitVec 7) (s : State) : Host.Outcome State Fault Refusal :=
  runLane (unForm (.sfu 5) a d) .plain 2 s

/-- VFCOS (R155 to R157). -/
def execVfcos (a : BitVec 7) (d : BitVec 7) (s : State) : Host.Outcome State Fault Refusal :=
  runLane (unForm (.sfu 6) a d) .plain 2 s

/-- VFTANH (R155 to R157). -/
def execVftanh (a : BitVec 7) (d : BitVec 7) (s : State) : Host.Outcome State Fault Refusal :=
  runLane (unForm (.sfu 7) a d) .plain 2 s

/-- VFCLS (R155 to R157). -/
def execVfcls (a : BitVec 7) (d : BitVec 7) (s : State) : Host.Outcome State Fault Refusal :=
  runLane (unForm (.sfu 8) a d) .plain 2 s

/-- VLANEID (R157). -/
def execVlaneid (d : BitVec 7) (s : State) : Host.Outcome State Fault Refusal :=
  runLane (idForm (.sfu 9) d) .plain 2 s

/-- VTID (R157). -/
def execVtid (d : BitVec 7) (s : State) : Host.Outcome State Fault Refusal :=
  runLane (idForm (.sfu 10) d) .plain 2 s

/-- VSEL (R149). -/
def execVsel (n : BitVec 1) (p : BitVec 4) (a : BitVec 7) (d : BitVec 7) (s : State) : Host.Outcome State Fault Refusal :=
  runLane (unForm (.select (decide (n = 1#1)) p.toNat) a d) .plain 2 s

/-- VADDI (R148). -/
def execVaddi (i : BitVec 8) (a : BitVec 7) (d : BitVec 7) (s : State) : Host.Outcome State Fault Refusal :=
  runLane (immForm (.int .add) (i.signExtend 32) a d) .plain 2 s

/-- VSHLI (R148). -/
def execVshli (i : BitVec 5) (a : BitVec 7) (d : BitVec 7) (s : State) : Host.Outcome State Fault Refusal :=
  runLane (immForm (.int .shl) (i.setWidth 32) a d) .plain 2 s

/-- VSHRI (R148). -/
def execVshri (i : BitVec 5) (a : BitVec 7) (d : BitVec 7) (s : State) : Host.Outcome State Fault Refusal :=
  runLane (immForm (.int .shr) (i.setWidth 32) a d) .plain 2 s

/-- VSRAI (R148). -/
def execVsrai (i : BitVec 5) (a : BitVec 7) (d : BitVec 7) (s : State) : Host.Outcome State Fault Refusal :=
  runLane (immForm (.int .sra) (i.setWidth 32) a d) .plain 2 s

/-- VANDI (R148). -/
def execVandi (i : BitVec 8) (a : BitVec 7) (d : BitVec 7) (s : State) : Host.Outcome State Fault Refusal :=
  runLane (immForm (.int .and) (i.signExtend 32) a d) .plain 2 s

/-- VLI (R148). -/
def execVli (i : BitVec 15) (d : BitVec 7) (s : State) : Host.Outcome State Fault Refusal :=
  runLane (liForm (i.signExtend 32) d) .plain 2 s

/-- VICMP (R150). -/
def execVicmp (x : BitVec 1) (b : BitVec 7) (a : BitVec 7) (c : BitVec 4) (p : BitVec 3) (s : State) : Host.Outcome State Fault Refusal :=
  runLane (cmpForm (.icmp c.toNat) x b a p) .plain 2 s

/-- VFCMP (R151). -/
def execVfcmp (x : BitVec 1) (b : BitVec 7) (a : BitVec 7) (c : BitVec 4) (p : BitVec 3) (s : State) : Host.Outcome State Fault Refusal :=
  runLane (cmpForm (.fcmp c.toNat) x b a p) .plain 2 s

/-- VCVT (R158). -/
def execVcvt (f : BitVec 4) (g : BitVec 4) (a : BitVec 7) (d : BitVec 7) (s : State) : Host.Outcome State Fault Refusal :=
  runLane (unForm (.cvt f g) a d) .plain 2 s

/-- VPACK_I8X4 (R159). -/
def execVpackI8x4 (a : BitVec 7) (d : BitVec 7) (s : State) : Host.Outcome State Fault Refusal :=
  runLane (unForm (.pack 0) a d) .plain 2 s

/-- VPACK_TER16 (R159). -/
def execVpackTer16 (a : BitVec 7) (d : BitVec 7) (s : State) : Host.Outcome State Fault Refusal :=
  runLane (unForm (.pack 1) a d) .plain 2 s

/-- VPACK_E8M0 (R159). -/
def execVpackE8m0 (a : BitVec 7) (d : BitVec 7) (s : State) : Host.Outcome State Fault Refusal :=
  runLane (unForm (.pack 2) a d) .plain 2 s

/-- VQX (R161). -/
def execVqx (q : BitVec 4) (a : BitVec 7) (d : BitVec 7) (s : State) : Host.Outcome State Fault Refusal :=
  runLane (unForm (.quad q.toNat) a d) .plain 2 s

/-- VSHFL_IDX (R162). -/
def execVshflIdx (x : BitVec 1) (b : BitVec 7) (a : BitVec 7) (d : BitVec 7) (s : State) : Host.Outcome State Fault Refusal :=
  runLane (vrForm (.shuffle 0) x b a d) .plain 2 s

/-- VSHFL_UP (R162). -/
def execVshflUp (x : BitVec 1) (b : BitVec 7) (a : BitVec 7) (d : BitVec 7) (s : State) : Host.Outcome State Fault Refusal :=
  runLane (vrForm (.shuffle 1) x b a d) .plain 2 s

/-- VSHFL_DN (R162). -/
def execVshflDn (x : BitVec 1) (b : BitVec 7) (a : BitVec 7) (d : BitVec 7) (s : State) : Host.Outcome State Fault Refusal :=
  runLane (vrForm (.shuffle 2) x b a d) .plain 2 s

/-- VSHFL_XOR (R162). -/
def execVshflXor (x : BitVec 1) (b : BitVec 7) (a : BitVec 7) (d : BitVec 7) (s : State) : Host.Outcome State Fault Refusal :=
  runLane (vrForm (.shuffle 3) x b a d) .plain 2 s

/-- VPRED_AND (R152). -/
def execVpredAnd (b : BitVec 4) (a : BitVec 4) (d : BitVec 3) (s : State) : Host.Outcome State Fault Refusal :=
  runLane (predForm 0 a.toNat b.toNat d) .plain 2 s

/-- VPRED_OR (R152). -/
def execVpredOr (b : BitVec 4) (a : BitVec 4) (d : BitVec 3) (s : State) : Host.Outcome State Fault Refusal :=
  runLane (predForm 1 a.toNat b.toNat d) .plain 2 s

/-- VPRED_XOR (R152). -/
def execVpredXor (b : BitVec 4) (a : BitVec 4) (d : BitVec 3) (s : State) : Host.Outcome State Fault Refusal :=
  runLane (predForm 2 a.toNat b.toNat d) .plain 2 s

/-- VPRED_ANDN (R152). -/
def execVpredAndn (b : BitVec 4) (a : BitVec 4) (d : BitVec 3) (s : State) : Host.Outcome State Fault Refusal :=
  runLane (predForm 3 a.toNat b.toNat d) .plain 2 s

/-- VPRED_ORN (R152). -/
def execVpredOrn (b : BitVec 4) (a : BitVec 4) (d : BitVec 3) (s : State) : Host.Outcome State Fault Refusal :=
  runLane (predForm 4 a.toNat b.toNat d) .plain 2 s

/-- VPRED_NOT (R152). -/
def execVpredNot (a : BitVec 4) (d : BitVec 3) (s : State) : Host.Outcome State Fault Refusal :=
  runLane (predForm 5 a.toNat 0 d) .plain 2 s

/-- VPRED_MOV (R152). -/
def execVpredMov (a : BitVec 4) (d : BitVec 3) (s : State) : Host.Outcome State Fault Refusal :=
  runLane (predForm 6 a.toNat 0 d) .plain 2 s

/-- VPRED_FROMV (R152). -/
def execVpredFromv (v : BitVec 7) (d : BitVec 3) (s : State) : Host.Outcome State Fault Refusal :=
  runLane (fromForm v d) .plain 2 s

/-- VBK_GET (R169). -/
def execVbkGet (w : BitVec 2) (k : BitVec 2) (v : BitVec 7) (s : State) : Host.Outcome State Fault Refusal :=
  runLane (idForm (.bracket k.toNat w.toNat) v) .plain 2 s

/-! ## Reductions and scans (R163 to R166) -/

/-- R163: the identity of a reduction. -/
def reduceIdentity (rop : Nat) : LaneWord :=
  match rop with
  | 1 => 0x7FFFFFFF
  | 2 => 0x80000000
  | 3 => 0xFFFFFFFF
  | 5 => 0xFFFFFFFF
  | 8 => 0x80000000
  | 9 => 0x7FC00000
  | 10 => 0x7FC00000
  | _ => 0

/-- R163: one combining step: its value and flags. -/
def reduceStep (rop : Nat) (mode : RMode) (a b : LaneWord) : LaneWord × LaneFlags :=
  match rop with
  | 0 => (a + b, 0)
  | 1 => (if a.toInt ≤ b.toInt then a else b, 0)
  | 2 => (if a.toInt ≤ b.toInt then b else a, 0)
  | 3 => (if a.toNat ≤ b.toNat then a else b, 0)
  | 4 => (if a.toNat ≤ b.toNat then b else a, 0)
  | 5 => (a &&& b, 0)
  | 6 => (a ||| b, 0)
  | 7 => (a ^^^ b, 0)
  | _ =>
    let op : FpOp := if rop = 8 then .add else if rop = 9 then .min else .max
    let r := fpElem fp32 op .plain mode 0 0 a.toNat b.toNat 0
    (BitVec.ofNat 32 r.1, r.2)

/-- R164: the fixed tree over `2 ^ k` positions from `lo`. -/
def reduceTree (rop : Nat) (mode : RMode) (x : Nat → LaneWord) (k lo : Nat) : LaneWord × LaneFlags :=
  match k with
  | 0 => (x lo, 0)
  | k + 1 =>
    let p := reduceTree rop mode x k lo
    let q := reduceTree rop mode x k (lo + 2 ^ k)
    let r := reduceStep rop mode p.1 q.1
    (r.1, p.2 ||| q.2 ||| r.2)

/-- R164: the result of a whole group. -/
def reduceGroup (rop : Nat) (mode : RMode) (x : Nat → LaneWord) : LaneWord × LaneFlags :=
  let a := reduceTree rop mode x 5 0
  let b := reduceTree rop mode x 5 32
  let c := reduceTree rop mode x 5 64
  let ab := reduceStep rop mode a.1 b.1
  let r := reduceStep rop mode ab.1 c.1
  (r.1, a.2 ||| b.2 ||| c.2 ||| ab.2 ||| r.2)

/-- R165: the outputs of a scan over `n` positions from `lo`, each with the flags of the steps that produced it. -/
def scanOutputs (rop : Nat) (mode : RMode) (x : Nat → LaneWord) (exclusive : Bool) (n lo : Nat) (acc : LaneWord)
    (fl : LaneFlags) : List (LaneWord × LaneFlags) :=
  match n with
  | 0 => []
  | n + 1 =>
    let r := reduceStep rop mode acc (x lo)
    let now := fl ||| r.2
    (if exclusive then (acc, fl) else (r.1, now)) :: scanOutputs rop mode x exclusive n (lo + 1) r.1 now

/-- R163: the value that a position contributes. -/
def Group.contribution (g r : Group) (rop a l : Nat) : LaneWord :=
  if hasLane g.workers l then r.vec a l else reduceIdentity rop

/-- The results of VRED or VSCAN by lane, with their flags, written to `d`. -/
def Group.writeResults (g : Group) (d : Nat) (outs : List (LaneWord × LaneFlags)) : Group :=
  let out := fun (l : Nat) => outs.getD l (0, 0)
  (g.setVec d g.exec (fun l => (out l).1)).raise g.exec (fun l => (out l).2)

/-- VRED (R163, R164, R166). -/
def execVred (p : BitVec 2) (r : BitVec 4) (a d : BitVec 7) (s : State) : Host.Outcome State Fault Refusal :=
  onGroup s { regs := [a.toNat, d.toNat], reads := [a.toNat] } (fun _ g v =>
    let rop := r.toNat
    let mode := g.mode false 0
    let x := g.contribution v rop a.toNat
    let outs :=
      if p.toNat = 1 then ((List.range 24).map (fun q => reduceTree rop mode x 2 (4 * q))).flatMap (List.replicate 4)
      else if p.toNat = 2 then ((List.range 3).map (fun b => reduceTree rop mode x 5 (32 * b))).flatMap (List.replicate 32)
      else List.replicate 96 (reduceGroup rop mode x)
    s.done ((g.writeResults d.toNat outs).advance 2))

/-- VSCAN (R163, R165, R166). -/
def execVscan (p : BitVec 2) (r : BitVec 4) (a d : BitVec 7) (s : State) : Host.Outcome State Fault Refusal :=
  onGroup s { regs := [a.toNat, d.toNat], reads := [a.toNat] } (fun _ g v =>
    let rop := r.toNat
    let mode := g.mode false 0
    let x := g.contribution v rop a.toNat
    let exclusive := p.getLsbD 0
    let outs :=
      if p.getLsbD 1 then (List.range 24).flatMap (fun q => scanOutputs rop mode x exclusive 4 (4 * q) (reduceIdentity rop) 0)
      else scanOutputs rop mode x exclusive 96 0 (reduceIdentity rop) 0
    s.done ((g.writeResults d.toNat outs).advance 2))

/-! ## Votes (R167) -/

/-- R167: the lanes of S in which a predicate number, xor neg, holds. -/
def Group.votes (g r : Group) (n : BitVec 1) (p : BitVec 4) : Mask :=
  maskOf (fun l => hasLane g.workers l && (r.pnum p.toNat l != decide (n = 1#1)))

/-- R167: a vote that writes one scalar. -/
def runVote (n : BitVec 1) (p : BitVec 4) (d : BitVec 6) (f : Group → Mask → Word) (s : State) :
    Host.Outcome State Fault Refusal :=
  onGroup s { region := if d = 0#6 then none else some 0x07, flags := flagNumber p.toNat } (fun _ g r =>
    s.done ((g.setScalar d.toNat (f g (g.votes r n p))).advance 2))

/-- VVOTE ANY (R167). -/
def execVvoteAny (n : BitVec 1) (p : BitVec 4) (d : BitVec 6) (s : State) : Host.Outcome State Fault Refusal :=
  runVote n p d (fun _ m => if m = 0 then 0 else 1) s

/-- VVOTE ALL (R167). -/
def execVvoteAll (n : BitVec 1) (p : BitVec 4) (d : BitVec 6) (s : State) : Host.Outcome State Fault Refusal :=
  runVote n p d (fun g m => if m = g.workers then 1 else 0) s

/-- VVOTE POPC (R167). -/
def execVvotePopc (n : BitVec 1) (p : BitVec 4) (d : BitVec 6) (s : State) : Host.Outcome State Fault Refusal :=
  runVote n p d (fun _ m => BitVec.ofNat 64 (countLanes m)) s

/-- VVOTE BALLOT (R167): three scalars, one beat each; it always names a register other than s0. -/
def execVvoteBallot (n : BitVec 1) (p : BitVec 4) (d : BitVec 6) (s : State) : Host.Outcome State Fault Refusal :=
  onGroup s { region := some 0x07, flags := flagNumber p.toNat } (fun _ g r =>
    let m := g.votes r n p
    let g1 := (List.range 3).foldl (fun (x : Group) j => x.setScalar (d.toNat + j) (beatOf m j)) g
    s.done (g1.advance 2))

/-! ## Flags and brackets (R168, R169) -/

/-- VFLG RD (R168). -/
def execVflgRd (m : BitVec 6) (d : BitVec 7) (s : State) : Host.Outcome State Fault Refusal :=
  onGroup s { regs := [d.toNat], flags := true } (fun _ g r =>
    s.done ((g.setVec d.toNat g.exec (fun l => (r.laneFlags l &&& m).setWidth 32)).advance 2))

/-- VFLG CLR (R168). -/
def execVflgClr (m : BitVec 6) (s : State) : Host.Outcome State Fault Refusal :=
  onGroup s {} (fun _ g _ => s.done ((g.clearFlags g.exec (fun _ => m)).advance 2))

/-- VFLG RDCLR (R168): the read comes before the clear. -/
def execVflgRdclr (m : BitVec 6) (d : BitVec 7) (s : State) : Host.Outcome State Fault Refusal :=
  onGroup s { regs := [d.toNat], flags := true } (fun _ g r =>
    let g1 := g.setVec d.toNat g.exec (fun l => (r.laneFlags l &&& m).setWidth 32)
    s.done ((g1.clearFlags g.exec (fun _ => m)).advance 2))

/-- VBK SET (R169). -/
def execVbkSet (w k : BitVec 2) (v : BitVec 7) (s : State) : Host.Outcome State Fault Refusal :=
  onGroup s { regs := [v.toNat], reads := [v.toNat] } (fun _ g r =>
    s.done ((g.setBracket k.toNat w.toNat g.exec (r.vec v.toNat)).advance 2))

/-! ## What prefixes may change (R170) -/

/-- R170: which fields of a MOD prefix a target accepts. -/
inductive Accepts where
  | none
  | arith
  | bits
  | move
  | cvt
deriving DecidableEq, Repr

/-- A lane instruction as a target of prefixes: its form, the MOD fields it accepts, whether REP may repeat it, which of vd,
va and vb can be stepped (R61), and its length in parcels. -/
structure Target where
  form    : LaneForm
  accepts : Accepts
  rep     : Bool
  stepD   : Bool
  stepA   : Bool
  stepB   : Bool
  length  : Nat
deriving DecidableEq, Repr

/-! ## Targets of prefixes (R60, R61, R170) -/

/-- The lane instructions as the REP, MOD and INV prefixes take them; none for every other instruction. -/
def laneTarget (i : Instr) : Option Target :=
  match i with
  | .vaddI32Compact b d => some ⟨compactForm (.int .add) d b, .arith, true, true, false, true, 1⟩
  | .vsubI32Compact b d => some ⟨compactForm (.int .sub) d b, .arith, true, true, false, true, 1⟩
  | .vmulI32Compact b d => some ⟨compactForm (.int .mul) d b, .arith, true, true, false, true, 1⟩
  | .vandCompact b d => some ⟨compactForm (.int .and) d b, .bits, true, true, false, true, 1⟩
  | .vorCompact b d => some ⟨compactForm (.int .or) d b, .bits, true, true, false, true, 1⟩
  | .vxorCompact b d => some ⟨compactForm (.int .xor) d b, .bits, true, true, false, true, 1⟩
  | .vshlCompact b d => some ⟨compactForm (.int .shl) d b, .bits, true, true, false, true, 1⟩
  | .vshrCompact b d => some ⟨compactForm (.int .shr) d b, .bits, true, true, false, true, 1⟩
  | .vsraCompact b d => some ⟨compactForm (.int .sra) d b, .bits, true, true, false, true, 1⟩
  | .vmovCompact b d => some ⟨compactMove d b, .move, true, true, false, true, 1⟩
  | .vminI32Compact b d => some ⟨compactForm (.int .minI) d b, .arith, true, true, false, true, 1⟩
  | .vmaxI32Compact b d => some ⟨compactForm (.int .maxI) d b, .arith, true, true, false, true, 1⟩
  | .vfaddF32Compact b d => some ⟨compactForm (.fp fp32 .add) d b, .arith, true, true, false, true, 1⟩
  | .vfsubF32Compact b d => some ⟨compactForm (.fp fp32 .sub) d b, .arith, true, true, false, true, 1⟩
  | .vfmulF32Compact b d => some ⟨compactForm (.fp fp32 .mul) d b, .arith, true, true, false, true, 1⟩
  | .vfmaxF32Compact b d => some ⟨compactForm (.fp fp32 .max) d b, .arith, true, true, false, true, 1⟩
  | .vaddI32 x b a d => some ⟨vrForm (.int .add) x b a d, .arith, true, true, true, decide (x = 0#1), 2⟩
  | .vsubI32 x b a d => some ⟨vrForm (.int .sub) x b a d, .arith, true, true, true, decide (x = 0#1), 2⟩
  | .vmulI32 x b a d => some ⟨vrForm (.int .mul) x b a d, .arith, true, true, true, decide (x = 0#1), 2⟩
  | .vmulh x b a d => some ⟨vrForm (.int .mulh) x b a d, .arith, true, true, true, decide (x = 0#1), 2⟩
  | .vmulhz x b a d => some ⟨vrForm (.int .mulhz) x b a d, .arith, true, true, true, decide (x = 0#1), 2⟩
  | .vmadI32 x b a d => some ⟨vrForm (.int .mad) x b a d, .arith, true, true, true, decide (x = 0#1), 2⟩
  | .vand x b a d => some ⟨vrForm (.int .and) x b a d, .bits, true, true, true, decide (x = 0#1), 2⟩
  | .vor x b a d => some ⟨vrForm (.int .or) x b a d, .bits, true, true, true, decide (x = 0#1), 2⟩
  | .vxor x b a d => some ⟨vrForm (.int .xor) x b a d, .bits, true, true, true, decide (x = 0#1), 2⟩
  | .vshl x b a d => some ⟨vrForm (.int .shl) x b a d, .bits, true, true, true, decide (x = 0#1), 2⟩
  | .vshr x b a d => some ⟨vrForm (.int .shr) x b a d, .bits, true, true, true, decide (x = 0#1), 2⟩
  | .vsra x b a d => some ⟨vrForm (.int .sra) x b a d, .bits, true, true, true, decide (x = 0#1), 2⟩
  | .vminI32 x b a d => some ⟨vrForm (.int .minI) x b a d, .arith, true, true, true, decide (x = 0#1), 2⟩
  | .vmaxI32 x b a d => some ⟨vrForm (.int .maxI) x b a d, .arith, true, true, true, decide (x = 0#1), 2⟩
  | .vminZ32 x b a d => some ⟨vrForm (.int .minZ) x b a d, .arith, true, true, true, decide (x = 0#1), 2⟩
  | .vmaxZ32 x b a d => some ⟨vrForm (.int .maxZ) x b a d, .arith, true, true, true, decide (x = 0#1), 2⟩
  | .vabsd x b a d => some ⟨vrForm (.int .absd) x b a d, .arith, true, true, true, decide (x = 0#1), 2⟩
  | .vbfeI32 x b a d => some ⟨vrForm (.bfe false) x b a d, .none, true, true, true, decide (x = 0#1), 2⟩
  | .vbfeZ32 x b a d => some ⟨vrForm (.bfe true) x b a d, .none, true, true, true, decide (x = 0#1), 2⟩
  | .vbfi x b a d => some ⟨vrForm (.bfi) x b a d, .none, true, true, true, decide (x = 0#1), 2⟩
  | .vdot4I8 x b a d => some ⟨vrForm (.dot false) x b a d, .arith, true, true, true, decide (x = 0#1), 2⟩
  | .vdot4Z8 x b a d => some ⟨vrForm (.dot true) x b a d, .arith, true, true, true, decide (x = 0#1), 2⟩
  | .vfaddF32 x b a d => some ⟨vrForm (.fp fp32 .add) x b a d, .arith, true, true, true, decide (x = 0#1), 2⟩
  | .vfsubF32 x b a d => some ⟨vrForm (.fp fp32 .sub) x b a d, .arith, true, true, true, decide (x = 0#1), 2⟩
  | .vfmulF32 x b a d => some ⟨vrForm (.fp fp32 .mul) x b a d, .arith, true, true, true, decide (x = 0#1), 2⟩
  | .vfmaF32 x b a d => some ⟨vrForm (.fp fp32 .fma) x b a d, .arith, true, true, true, decide (x = 0#1), 2⟩
  | .vfminF32 x b a d => some ⟨vrForm (.fp fp32 .min) x b a d, .arith, true, true, true, decide (x = 0#1), 2⟩
  | .vfmaxF32 x b a d => some ⟨vrForm (.fp fp32 .max) x b a d, .arith, true, true, true, decide (x = 0#1), 2⟩
  | .vfaddH2 x b a d => some ⟨vrForm (.fp fp16 .add) x b a d, .arith, true, true, true, decide (x = 0#1), 2⟩
  | .vfsubH2 x b a d => some ⟨vrForm (.fp fp16 .sub) x b a d, .arith, true, true, true, decide (x = 0#1), 2⟩
  | .vfmulH2 x b a d => some ⟨vrForm (.fp fp16 .mul) x b a d, .arith, true, true, true, decide (x = 0#1), 2⟩
  | .vfmaH2 x b a d => some ⟨vrForm (.fp fp16 .fma) x b a d, .arith, true, true, true, decide (x = 0#1), 2⟩
  | .vfminH2 x b a d => some ⟨vrForm (.fp fp16 .min) x b a d, .arith, true, true, true, decide (x = 0#1), 2⟩
  | .vfmaxH2 x b a d => some ⟨vrForm (.fp fp16 .max) x b a d, .arith, true, true, true, decide (x = 0#1), 2⟩
  | .vfaddB2 x b a d => some ⟨vrForm (.fp bf16 .add) x b a d, .arith, true, true, true, decide (x = 0#1), 2⟩
  | .vfsubB2 x b a d => some ⟨vrForm (.fp bf16 .sub) x b a d, .arith, true, true, true, decide (x = 0#1), 2⟩
  | .vfmulB2 x b a d => some ⟨vrForm (.fp bf16 .mul) x b a d, .arith, true, true, true, decide (x = 0#1), 2⟩
  | .vfmaB2 x b a d => some ⟨vrForm (.fp bf16 .fma) x b a d, .arith, true, true, true, decide (x = 0#1), 2⟩
  | .vfminB2 x b a d => some ⟨vrForm (.fp bf16 .min) x b a d, .arith, true, true, true, decide (x = 0#1), 2⟩
  | .vfmaxB2 x b a d => some ⟨vrForm (.fp bf16 .max) x b a d, .arith, true, true, true, decide (x = 0#1), 2⟩
  | .vpopc a d => some ⟨unForm (.unary 0) a d, .none, true, true, true, false, 2⟩
  | .vclz a d => some ⟨unForm (.unary 1) a d, .none, true, true, true, false, 2⟩
  | .vbrev a d => some ⟨unForm (.unary 2) a d, .none, true, true, true, false, 2⟩
  | .vnot a d => some ⟨unForm (.unary 3) a d, .none, true, true, true, false, 2⟩
  | .vfrcp a d => some ⟨unForm (.sfu 0) a d, .none, true, true, true, false, 2⟩
  | .vfrsq a d => some ⟨unForm (.sfu 1) a d, .none, true, true, true, false, 2⟩
  | .vfsqrt a d => some ⟨unForm (.sfu 2) a d, .none, true, true, true, false, 2⟩
  | .vfex2 a d => some ⟨unForm (.sfu 3) a d, .none, true, true, true, false, 2⟩
  | .vflg2 a d => some ⟨unForm (.sfu 4) a d, .none, true, true, true, false, 2⟩
  | .vfsin a d => some ⟨unForm (.sfu 5) a d, .none, true, true, true, false, 2⟩
  | .vfcos a d => some ⟨unForm (.sfu 6) a d, .none, true, true, true, false, 2⟩
  | .vftanh a d => some ⟨unForm (.sfu 7) a d, .none, true, true, true, false, 2⟩
  | .vfcls a d => some ⟨unForm (.sfu 8) a d, .none, true, true, true, false, 2⟩
  | .vlaneid d => some ⟨idForm (.sfu 9) d, .none, true, true, false, false, 2⟩
  | .vtid d => some ⟨idForm (.sfu 10) d, .none, true, true, false, false, 2⟩
  | .vsel n p a d => some ⟨unForm (.select (decide (n = 1#1)) p.toNat) a d, .none, false, false, false, false, 2⟩
  | .vaddi i a d => some ⟨immForm (.int .add) (i.signExtend 32) a d, .arith, true, true, true, false, 2⟩
  | .vshli i a d => some ⟨immForm (.int .shl) (i.setWidth 32) a d, .bits, true, true, true, false, 2⟩
  | .vshri i a d => some ⟨immForm (.int .shr) (i.setWidth 32) a d, .bits, true, true, true, false, 2⟩
  | .vsrai i a d => some ⟨immForm (.int .sra) (i.setWidth 32) a d, .bits, true, true, true, false, 2⟩
  | .vandi i a d => some ⟨immForm (.int .and) (i.signExtend 32) a d, .bits, true, true, true, false, 2⟩
  | .vli i d => some ⟨liForm (i.signExtend 32) d, .none, true, true, false, false, 2⟩
  | .vicmp x b a c p => some ⟨cmpForm (.icmp c.toNat) x b a p, .none, false, false, false, false, 2⟩
  | .vfcmp x b a c p => some ⟨cmpForm (.fcmp c.toNat) x b a p, .none, true, false, true, decide (x = 0#1), 2⟩
  | .vcvt f g a d => some ⟨unForm (.cvt f g) a d, .cvt, true, true, true, false, 2⟩
  | .vpackI8x4 a d => some ⟨unForm (.pack 0) a d, .none, false, false, false, false, 2⟩
  | .vpackTer16 a d => some ⟨unForm (.pack 1) a d, .none, false, false, false, false, 2⟩
  | .vpackE8m0 a d => some ⟨unForm (.pack 2) a d, .none, false, false, false, false, 2⟩
  | .vqx q a d => some ⟨unForm (.quad q.toNat) a d, .none, true, true, true, false, 2⟩
  | .vshflIdx x b a d => some ⟨vrForm (.shuffle 0) x b a d, .none, true, true, true, decide (x = 0#1), 2⟩
  | .vshflUp x b a d => some ⟨vrForm (.shuffle 1) x b a d, .none, true, true, true, decide (x = 0#1), 2⟩
  | .vshflDn x b a d => some ⟨vrForm (.shuffle 2) x b a d, .none, true, true, true, decide (x = 0#1), 2⟩
  | .vshflXor x b a d => some ⟨vrForm (.shuffle 3) x b a d, .none, true, true, true, decide (x = 0#1), 2⟩
  | .vpredAnd b a d => some ⟨predForm 0 a.toNat b.toNat d, .none, false, false, false, false, 2⟩
  | .vpredOr b a d => some ⟨predForm 1 a.toNat b.toNat d, .none, false, false, false, false, 2⟩
  | .vpredXor b a d => some ⟨predForm 2 a.toNat b.toNat d, .none, false, false, false, false, 2⟩
  | .vpredAndn b a d => some ⟨predForm 3 a.toNat b.toNat d, .none, false, false, false, false, 2⟩
  | .vpredOrn b a d => some ⟨predForm 4 a.toNat b.toNat d, .none, false, false, false, false, 2⟩
  | .vpredNot a d => some ⟨predForm 5 a.toNat 0 d, .none, false, false, false, false, 2⟩
  | .vpredMov a d => some ⟨predForm 6 a.toNat 0 d, .none, false, false, false, false, 2⟩
  | .vpredFromv v d => some ⟨fromForm v d, .none, false, false, false, false, 2⟩
  | .vbkGet w k v => some ⟨idForm (.bracket k.toNat w.toNat) v, .none, false, false, false, false, 2⟩
  | _ => none

end Sys2Proof.Machine
end

