-- ==== Sys2Proof/Machine/Prefix.lean ====
section
/-! DEFINITION. The prefixes (R60 to R63): MOD in its two layouts (R170 to R172, R214), REP (R110, R111), one repeat in each
step, and INV (R174 to R192), one round in each step, so that a halt or a save can stand between repeats and between
rounds (R111, R190). -/

namespace Sys2Proof.Machine

/-! ## The instruction behind a prefix -/

/-- R52: the instructions that only supervisor groups may run. -/
def privileged (i : Instr) : Bool :=
  match i with
  | .eret => true
  | .tlbinv _ _ => true
  | .oppark _ => true
  | .srr n _ => decide (0x800 ≤ n.toNat)
  | .srw n _ => decide (0x800 ≤ n.toNat)
  | _ => false

/-- An instruction that follows in a unit: with its stall count and its length in parcels. -/
structure Inner where
  instr  : Instr
  stall  : BitVec 2
  length : Nat
deriving DecidableEq, Repr

/-- R64 steps 1 to 4 for the instruction `off` parcels after the PC. -/
def State.innerAt (s : State) (b : Block) (g : Group) (off : Nat) : Except Cond Inner :=
  let r := s.fetchParcels b (g.pc + BitVec.ofNat 64 (2 * off)) 2
  match decode r.1 with
  | .instr i stall _ => .ok ⟨i, stall, parcelCount (r.1.getD 0 0)⟩
  | .illegal c => .error { cause := c }
  | .short =>
    match r.2 with
    | some (f, va) => .error { cause := f.cause, sec := f.sec, kind := 0, va := va }
    | none => .error { cause := 0x01 }

/-- R64 step 5 for an instruction behind a prefix: a privileged one is reported first. -/
def State.misuse (s : State) (b : Block) (i : Instr) : Cond :=
  { cause := if privileged i && !s.superOf b then 0x09 else 0x04 }

/-- The executing group, with the stall count of the unit that it executes (R25). -/
def State.paced (s : State) (stall : BitVec 2) : State := s.changeAt s.cur (fun x => { x with pace := stall })

/-! ## MOD in its ALU layout -/

/-- R63, R171: the fields of a MOD word in its ALU layout. -/
def modFields (p : BitVec 6) (c : BitVec 1) (k : BitVec 5) (e f h i : BitVec 1) (u : BitVec 2) : ModAlu :=
  { sat := u.toNat, k := k.toInt, negA := decide (i = 1#1), negB := decide (h = 1#1), absA := decide (f = 1#1),
    absB := decide (e = 1#1), clamp := if c = 1#1 then some p.toNat else none }

/-- R63, R170: does a target accept the fields of a MOD word? -/
def Accepts.admits (a : Accepts) (m : ModAlu) : Bool :=
  match a with
  | .none => false
  | .arith => true
  | .bits => !m.negA && !m.negB && !m.absA && !m.absB && decide (m.k = 0)
  | .move => !m.negA && !m.negB && !m.absA && !m.absB && decide (m.sat = 0) && m.clamp.isNone
  | .cvt => !m.negB && !m.absB

/-- R60, R63: the target of a MOD word `off` parcels before its instruction. -/
def State.modTarget (s : State) (b : Block) (g : Group) (off : Nat) (m : ModAlu) : Except Cond (Target × BitVec 2) :=
  match s.innerAt b g off with
  | .error c => .error c
  | .ok x =>
    match laneTarget x.instr with
    | none => .error (s.misuse b x.instr)
    | some t => if t.accepts.admits m then .ok (t, x.stall) else .error (s.misuse b x.instr)

/-- MOD, ALU layout (R60, R63, R170 to R172). -/
def execModAlu (p : BitVec 6) (c : BitVec 1) (k : BitVec 5) (e f h i : BitVec 1) (u : BitVec 2) (s : State) :
    Host.Outcome State Fault Refusal :=
  match s.current with
  | none => .fault .noGroup
  | some (b, g) =>
    let m := modFields p c k e f h i u
    match s.modTarget b g 2 m with
    | .error x => .next (s.trap x)
    | .ok (t, stall) => runLane t.form m (2 + t.length) (s.paced stall)

/-! ## MOD in its memory layout -/

/-- The memory instructions as a MOD prefix takes them (R60); none for every other instruction. -/
def memForm (i : Instr) : Option MemForm :=
  match i with
  | .ldS8 g x b t => some ⟨.load 1 true, g.toNat, x.toNat, b.toNat, t.toNat⟩
  | .ldZ8 g x b t => some ⟨.load 1 false, g.toNat, x.toNat, b.toNat, t.toNat⟩
  | .ldS16 g x b t => some ⟨.load 2 true, g.toNat, x.toNat, b.toNat, t.toNat⟩
  | .ldZ16 g x b t => some ⟨.load 2 false, g.toNat, x.toNat, b.toNat, t.toNat⟩
  | .ld32 g x b t => some ⟨.load 4 false, g.toNat, x.toNat, b.toNat, t.toNat⟩
  | .ld64 g x b t => some ⟨.load 8 false, g.toNat, x.toNat, b.toNat, t.toNat⟩
  | .ld128 g x b t => some ⟨.load 16 false, g.toNat, x.toNat, b.toNat, t.toNat⟩
  | .st8 g x b t => some ⟨.store 1, g.toNat, x.toNat, b.toNat, t.toNat⟩
  | .st16 g x b t => some ⟨.store 2, g.toNat, x.toNat, b.toNat, t.toNat⟩
  | .st32 g x b t => some ⟨.store 4, g.toNat, x.toNat, b.toNat, t.toNat⟩
  | .st64 g x b t => some ⟨.store 8, g.toNat, x.toNat, b.toNat, t.toNat⟩
  | .st128 g x b t => some ⟨.store 16, g.toNat, x.toNat, b.toNat, t.toNat⟩
  | .ldc g x b t => some ⟨.constant, g.toNat, x.toNat, b.toNat, t.toNat⟩
  | .ldsmp g x b t => some ⟨.sample, g.toNat, x.toNat, b.toNat, t.toNat⟩
  | .lds z i x t => some ⟨.scratchLoad z.toNat i.toNat, 0, x.toNat, 0, t.toNat⟩
  | .sts z i x t => some ⟨.scratchStore z.toNat i.toNat, 0, x.toNat, 0, t.toNat⟩
  | .atomAdd32 x b t => some ⟨.atomic 0, 0, x.toNat, b.toNat, t.toNat⟩
  | .atomAdd64 x b t => some ⟨.atomic 1, 0, x.toNat, b.toNat, t.toNat⟩
  | .atomFaddF32 x b t => some ⟨.atomic 2, 0, x.toNat, b.toNat, t.toNat⟩
  | .atomExch32 x b t => some ⟨.atomic 3, 0, x.toNat, b.toNat, t.toNat⟩
  | .atomMinI32 x b t => some ⟨.atomic 4, 0, x.toNat, b.toNat, t.toNat⟩
  | .atomMaxI32 x b t => some ⟨.atomic 5, 0, x.toNat, b.toNat, t.toNat⟩
  | .atomMinZ32 x b t => some ⟨.atomic 6, 0, x.toNat, b.toNat, t.toNat⟩
  | .atomMaxZ32 x b t => some ⟨.atomic 7, 0, x.toNat, b.toNat, t.toNat⟩
  | .atomAnd32 x b t => some ⟨.atomic 8, 0, x.toNat, b.toNat, t.toNat⟩
  | .atomOr32 x b t => some ⟨.atomic 9, 0, x.toNat, b.toNat, t.toNat⟩
  | .atomXor32 x b t => some ⟨.atomic 10, 0, x.toNat, b.toNat, t.toNat⟩
  | .atomExch64 x b t => some ⟨.atomic 11, 0, x.toNat, b.toNat, t.toNat⟩
  | .atomFminF32 x b t => some ⟨.atomic 12, 0, x.toNat, b.toNat, t.toNat⟩
  | .atomFmaxF32 x b t => some ⟨.atomic 13, 0, x.toNat, b.toNat, t.toNat⟩
  | .atomCas32 x b t => some ⟨.atomic 14, 0, x.toNat, b.toNat, t.toNat⟩
  | .atomCas64 x b t => some ⟨.atomic 15, 0, x.toNat, b.toNat, t.toNat⟩
  | .atoms o x t => some ⟨.scratchAtomic o.toNat, 0, x.toNat, 0, t.toNat⟩
  | .sld i z b d => some ⟨.scalarLoad z.toNat i.toNat, 0, 0, b.toNat, d.toNat⟩
  | .sst i z b d => some ⟨.scalarStore z.toNat i.toNat, 0, 0, b.toNat, d.toNat⟩
  | .sldc i z b d => some ⟨.scalarConstant z.toNat i.toNat, 0, 0, b.toNat, d.toNat⟩
  | _ => none

/-- R214: the orders that an operation may carry beside relaxed. -/
def MemOp.takesOrder (op : MemOp) (order : Nat) : Bool :=
  match op with
  | .load _ _ | .constant | .sample | .scratchLoad _ _ | .scalarLoad _ _ | .scalarConstant _ _ =>
    decide (order = 0 ∨ order = 1)
  | .store _ | .scratchStore _ _ | .scalarStore _ _ => decide (order = 0 ∨ order = 2)
  | .atomic _ | .scratchAtomic _ => true

/-- R63: may an operation carry wt or take? -/
def MemOp.takesWait (op : MemOp) : Bool :=
  match op with
  | .load _ _ | .scalarLoad _ _ | .scalarConstant _ _ => true
  | _ => false

/-- R63: the hints that an operation may carry. -/
def MemOp.takesHint (op : MemOp) (hint : Nat) : Bool :=
  match op with
  | .load _ _ | .scalarLoad _ _ => true
  | .scratchLoad _ _ | .scratchStore _ _ | .scratchAtomic _ => decide (hint = 0)
  | _ => decide (hint ≠ 1)

/-- R63: does an operation admit the fields of a MOD word? -/
def MemOp.admits (op : MemOp) (m : MemMod) : Bool :=
  op.takesOrder m.order && ((!m.wt && !m.take) || op.takesWait) && op.takesHint m.hint &&
    (decide (op ≠ .sample) || decide (m.off = 0))

/-- R63: the fields of a MOD word in its memory layout, for a unit of four parcels. -/
def modMemFields (o : BitVec 9) (k w : BitVec 1) (h : BitVec 2) (c : BitVec 3) (r : BitVec 2) : MemMod :=
  { off := o.signExtend 64 * 8, order := r.toNat, scope := c.toNat, hint := h.toNat, wt := decide (w = 1#1),
    take := decide (k = 1#1), length := 4 }

/-- MOD, memory layout (R60, R63, R214, R215). -/
def execModMemory (o : BitVec 9) (k w : BitVec 1) (h : BitVec 2) (c : BitVec 3) (r : BitVec 2) (s : State) :
    Host.Outcome State Fault Refusal :=
  match s.current with
  | none => .fault .noGroup
  | some (b, g) =>
    match s.innerAt b g 2 with
    | .error x => .next (s.trap x)
    | .ok x =>
      match memForm x.instr with
      | none => .next (s.trap (s.misuse b x.instr))
      | some f =>
        if f.op.admits (modMemFields o k w h c r) then runMem f (modMemFields o k w h c r) (s.paced x.stall)
        else .next (s.trap (s.misuse b x.instr))

/-! ## REP (R61, R110, R111) -/

/-- R61: the stride that a code names. -/
def strideOf (r : BitVec 2) : Int :=
  match r.toNat with
  | 0 => 1
  | 1 => 2
  | 2 => 4
  | _ => -1

/-- R61: a register number on repeat `i`. -/
def stepped (on : Bool) (stride : Int) (i n : Nat) : Int := if on then (n : Int) + (i : Int) * stride else (n : Int)

/-- R61: the form of a target on repeat `i`; none when a stepped number leaves the register file. A compact instruction's
first source is its destination, where it has one. -/
def Target.repeatAt (t : Target) (p : BitVec 3) (stride : Int) (i : Nat) : Option LaneForm :=
  let f := t.form
  let d := stepped (p.getLsbD 2) stride i f.d
  let a := match f.a with
    | some n => stepped (if t.length = 1 then p.getLsbD 2 else p.getLsbD 1) stride i n
    | none => 0
  let b := stepped (p.getLsbD 0) stride i (match f.b with
    | .reg n => n
    | _ => 0)
  if d < 0 ∨ 127 < d ∨ a < 0 ∨ 127 < a ∨ b < 0 ∨ 127 < b then none
  else some { f with
    d := d.toNat
    a := f.a.map (fun _ => a.toNat)
    b := match f.b with
      | .reg _ => .reg b.toNat
      | o => o }

/-- R61: may REP repeat a target with these steps? -/
def Target.steps (t : Target) (p : BitVec 3) : Bool :=
  t.rep && (!p.getLsbD 2 || t.stepD) && (!p.getLsbD 1 || t.stepA) && (!p.getLsbD 0 || t.stepB)

/-- R60, R61: the instruction that a REP word repeats: its target, the MOD fields on it, its stall count, and the length of
the unit in parcels. A memory MOD raises cause 0x04 whatever follows it. DESIGN CHOICE (assumption 107). -/
def State.repTarget (s : State) (b : Block) (g : Group) : Except Cond (Target × ModAlu × BitVec 2 × Nat) :=
  match s.innerAt b g 2 with
  | .error c => .error c
  | .ok x =>
    match x.instr with
    | .modAlu p c k e f h i u =>
      let m := modFields p c k e f h i u
      match s.modTarget b g 4 m with
      | .error c => .error c
      | .ok (t, stall) => .ok (t, m, stall, 4 + t.length)
    | i =>
      match laneTarget i with
      | some t => .ok (t, .plain, x.stall, 2 + t.length)
      | none => .error (s.misuse b i)

/-- REP (R61, R110, R111): the repeat that REPIDX names; after the last one the PC moves past the unit. The registers of
every repeat are checked each time (R64). DESIGN CHOICE (assumption 9). -/
def execRep (r : BitVec 2) (p : BitVec 3) (c : BitVec 6) (s : State) : Host.Outcome State Fault Refusal :=
  match s.current with
  | none => .fault .noGroup
  | some (b, g) =>
    match s.repTarget b g with
    | .error x => .next (s.trap x)
    | .ok (t, m, stall, len) =>
      let forms := (List.range (c.toNat + 1)).map (t.repeatAt p (strideOf r))
      if !t.steps p || forms.any Option.isNone then .next (s.trap { cause := 0x04 })
      else
        let regs := forms.flatMap (fun f => match f with
          | some f => f.need.regs
          | none => [])
        match (forms[g.repidx.toNat]?).getD none with
        | none => onGroup (s.paced stall) { regs := regs } (fun _ g _ => s.putGroup ({ g with repidx := 0 }.advance len))
        | some f =>
          onGroup (s.paced stall) { f.need with regs := regs } (fun _ g v =>
            let g1 := g.applyForm v f m
            let g2 := if g.repidx.toNat = c.toNat then { g1 with repidx := 0 }.advance len
              else { g1 with repidx := g1.repidx + 1 }
            s.done g2 (g.lateResults f))

/-! ## INV: the routine (R174 to R178) -/

/-- An instruction of a routine: a lane form, or a load. -/
inductive Routine where
  | lane (f : LaneForm)
  | load (f : MemForm)
deriving DecidableEq, Repr

/-- A routine instruction with its stall count. -/
structure RoutineOp where
  op    : Routine
  stall : BitVec 2
deriving DecidableEq, Repr

/-- R176: the instruction as a routine's, when it may stand there. -/
def routineOf (i : Instr) : Option Routine :=
  match laneTarget i with
  | some t =>
    match t.form.op with
    | .quad _ => none
    | .shuffle _ => none
    | .bracket _ _ => none
    | _ => some (.lane t.form)
  | none =>
    match memForm i with
    | some f =>
      match f.op with
      | .scratchLoad _ _ => some (.load f)
      | .constant => some (.load f)
      | _ => none
    | none => none

/-- R60: is an instruction a prefix? -/
def isPrefix (i : Instr) : Bool :=
  match i with
  | .rep _ _ _ => true
  | .inv _ _ _ _ _ _ => true
  | .modAlu _ _ _ _ _ _ _ _ => true
  | .modMemory _ _ _ _ _ _ => true
  | _ => false

/-- Is an instruction IEND? -/
def isIend (i : Instr) : Bool :=
  match i with
  | .iend => true
  | _ => false

/-- What is checked of a routine instruction before it executes. -/
def Routine.need (r : Routine) : Need :=
  match r with
  | .lane f => f.need
  | .load f => f.need

/-- A register of R177: a vector register, or a predicate. -/
inductive RoutineReg where
  | vector (n : Nat)
  | predicate (n : Nat)
deriving DecidableEq, Repr

/-- A predicate number as a register of R177; p0 and the other numbers are none. -/
def predReg (n : Nat) : List RoutineReg := if 1 ≤ n ∧ n ≤ 7 then [.predicate n] else []

/-- R177: what a routine instruction reads. -/
def Routine.reads (r : Routine) : List RoutineReg :=
  r.need.reads.map .vector ++
  (match r with
   | .lane f => match f.op with
     | .select _ pn => predReg pn
     | .pred op pa pb => if op = 7 then [] else if op < 5 then predReg pa ++ predReg pb else predReg pa
     | _ => []
   | .load f => predReg f.guard)

/-- R177: what a routine instruction writes. -/
def Routine.writes (r : Routine) : List RoutineReg :=
  match r with
  | .lane f => if f.toPred then predReg f.d else [.vector f.d]
  | .load f => (f.op.dataRegs f.t).map .vector

/-- R178 step 2: the routine from its instruction `i`, `off` parcels after the PC: its instructions, how many there are,
IEND's stall count and the length of the unit in parcels; or the first cause with the index that it names. -/
def State.routine (s : State) (b : Block) (g : Group) (fuel i off : Nat) :
    Except (Cond × Nat) (List RoutineOp × BitVec 2 × Nat) :=
  match fuel with
  | 0 => .error ({ cause := 0x05 }, 16)
  | fuel + 1 =>
    match s.innerAt b g off with
    | .error c => .error (c, i)
    | .ok x =>
      if isIend x.instr then
        if i = 0 then .error ({ cause := 0x05 }, 0) else .ok ([], x.stall, off + 2)
      else if isPrefix x.instr then .error ({ cause := if i = 0 then 0x04 else 0x05 }, i)
      else match routineOf x.instr with
        | none => .error ({ cause := 0x05 }, i)
        | some op =>
          if op.need.regs.any (fun r => decide (g.budget ≤ r)) then .error ({ cause := 0x0C }, i)
          else match s.routine b g fuel (i + 1) (off + x.length) with
            | .error e => .error e
            | .ok (ops, stall, len) => .ok (⟨op, x.stall⟩ :: ops, stall, len)

/-- R177, R178: the first instruction, from index `i`, that writes vX or the target, or that reads what it or a later one
writes before an earlier one wrote it. -/
def badRead (x y i : Nat) (done : List RoutineReg) (ops : List RoutineOp) : Option Nat :=
  match ops with
  | [] => none
  | o :: rest =>
    let later := (o :: rest).flatMap (fun p => p.op.writes)
    if o.op.writes.any (fun r => decide (r = .vector x ∨ r = .vector (y + 1))) ||
        o.op.reads.any (fun r => later.contains r && !done.contains r) then some i
    else badRead x y (i + 1) (done ++ o.op.writes) rest

/-- R177, R178: the index that a broken register rule names: IEND for a rule of the whole unit, else an instruction:
the rules of the whole unit come first, since a routine with vX equal to vY always breaks a rule of one instruction too.
DEDUCED (assumption 10). -/
def badRoutine (x y : Nat) (ops : List RoutineOp) : Option Nat :=
  if x = y ∨ x = y + 1 ∨ !(ops.flatMap (fun p => p.op.writes)).contains (.vector y) then some ops.length
  else badRead x y 0 [] ops

/-! ## INV: the search (R179 to R186) -/

/-- R181: the fields of INVST. -/
def invstOf (pos : Nat) (act : Bool) (round : Nat) : BitVec 12 :=
  BitVec.ofNat 12 (pos % 32 * 128 + (if act then 64 else 0) + round % 64)

/-- R181: INVST.POS. -/
def Group.invPos (g : Group) : Nat := g.invst.toNat / 128

/-- R181, R183: the round that the next INV unit runs first. -/
def Group.invRound (g : Group) : Nat := if g.invst.getLsbD 6 then g.invst.toNat % 64 else 0

/-- The operands of an INV unit (R174, R182). -/
structure Search where
  float : Bool
  down  : Bool
  width : Nat
  x     : Nat
  y     : Nat
  bk    : Nat
deriving DecidableEq, Repr

/-- R182: the position of a value. -/
def Search.position (q : Search) (v : LaneWord) : Int := if q.float then keyF32 v else v.toInt

/-- R182: the value at a position. -/
def Search.valueAt (q : Search) (k : Int) : LaneWord := if q.float then unkeyF32 k else BitVec.ofInt 32 k

/-- R182: a value that compares with none. -/
def Search.isNan (q : Search) (v : LaneWord) : Bool := q.float && (decodeF fp32 v.toNat).isNan

/-- R182, R184: `a` lies before `b` in the direction of the search. -/
def Search.before (q : Search) (a b : LaneWord) : Bool :=
  !q.isNan a && !q.isNan b &&
    (if q.down then decide (q.position b < q.position a) else decide (q.position a < q.position b))

/-- R182, R184: `a` has reached `b` in the direction of the search. -/
def Search.reached (q : Search) (a b : LaneWord) : Bool := !q.isNan a && !q.isNan b && !q.before a b

/-- The bracket words and the target of a lane. -/
structure Bracket where
  lo  : LaneWord
  hi  : LaneWord
  flo : LaneWord
  fhi : LaneWord
deriving DecidableEq, Repr

/-- The bracket of lane `l`. -/
def Search.bracket (q : Search) (g : Group) (l : Nat) : Bracket :=
  ⟨g.bracket q.bk 0 l, g.bracket q.bk 1 l, g.bracket q.bk 2 l, g.bracket q.bk 3 l⟩

/-- R183: a lane that is not searched. -/
def Search.prefinished (q : Search) (k : Bracket) (t : LaneWord) : Bool :=
  decide (q.position k.hi < q.position k.lo) || q.isNan k.lo || q.isNan k.hi || q.isNan t

/-- R183, R184: a lane that takes part in round `r`. -/
def Search.live (q : Search) (k : Bracket) (t : LaneWord) (r : Nat) : Bool :=
  !q.prefinished k t &&
    (decide (r = 0) || (decide (r = 1) && q.before k.flo t) ||
      (decide (2 ≤ r) && decide ((q.width : Int) < q.position k.hi - q.position k.lo)))

/-- R183: the point that a lane evaluates in round `r`. -/
def Search.point (q : Search) (k : Bracket) (r : Nat) : LaneWord :=
  if r = 0 then k.lo
  else if r = 1 then k.hi
  else q.valueAt (q.position k.lo + (q.position k.hi - q.position k.lo) / 2)

/-- R183, R184: the bracket after round `r` gave the value `f` at `p`, and whether MV is set. -/
def Search.update (q : Search) (k : Bracket) (t : LaneWord) (r : Nat) (p f : LaneWord) : Bracket × Bool :=
  if r = 0 then
    let k1 := { k with flo := f }
    if q.isNan f then ({ k1 with hi := k.lo, fhi := f }, true)
    else if q.reached f t then ({ k1 with hi := k.lo, fhi := f }, false)
    else (k1, false)
  else if r = 1 then
    let k1 := { k with fhi := f }
    if q.isNan f || q.before f t then ({ k1 with lo := k.hi, flo := f }, true) else (k1, false)
  else if q.isNan f || q.before f k.flo || q.before k.fhi f then ({ k with lo := k.hi, flo := k.fhi }, true)
  else if q.reached f t then ({ k with hi := p, fhi := f }, false)
  else ({ k with lo := p, flo := f }, false)

/-- R183: write the bracket words of the lanes of `m`. -/
def Search.put (q : Search) (g : Group) (m : Mask) (f : Nat → Bracket) : Group :=
  (((g.setBracket q.bk 0 m (fun l => (f l).lo)).setBracket q.bk 1 m (fun l => (f l).hi)).setBracket q.bk 2 m
    (fun l => (f l).flo)).setBracket q.bk 3 m (fun l => (f l).fhi)

/-- R135: the flag MV, number 13, of the lanes that `f` names. -/
def Group.raiseMv (g : Group) (m : Mask) (f : Nat → Bool) : Group :=
  g.raise m (fun l => if f l then 0x20#6 else 0#6)

/-! ## INV: one evaluation (R186 to R189) -/

/-- How an evaluation has come along. -/
structure Eval where
  state : State
  group : Group
deriving DecidableEq, Repr

/-- What ended an evaluation early: a condition at an instruction, a frame that its home holds (R404), or bytes of peers
that have not come (R212). -/
inductive EvalStop where
  | cond (c : Cond)
  | held
  | awaits (ranges : List (Word × Nat))
deriving DecidableEq, Repr

/-- R188, R197, R226, R237: one routine load of the scratchpad in some lanes. -/
def Eval.loadScratch (e : Eval) (b : Block) (r : Group) (lanes : List Nat) (f : MemForm) (z i : Nat) : Except EvalStop Eval :=
  let s := e.state
  let n := 2 ^ z
  let qs := r.scratchRequests f (i * n) 0 lanes n false none
  let checked := qs.map (fun q => (q, s.scratchCheck b false q.va.toNat n))
  match pickFail (scratchFails r checked) with
  | some (c, ls) =>
    .error (.cond { cause := c.cause, sec := c.sec, kind := 0, va := addressOf qs (ls.headD 0), fmask := maskOfList ls })
  | none =>
    let blks := blocksIn checked
    let ahead := blks.filter (fun k => s.usesAhead k (placesIn checked n k))
    let vs := checked.map (fun p => match p.2 with
      | .ok t => (p.1.lane, bytesNat (s.loadScratch (ahead.contains t.id) t.id (p.1.va.toNat % 2 ^ 28) n))
      | .error _ => (p.1.lane, 0))
    .ok ⟨s.dropAhead (fun a => blks.contains a.blk && !ahead.contains a.blk), e.group.receive (.lanes f.t n false) vs⟩

/-- R188, R212, R220: one routine load of the constant path in some lanes; what it reads of peers has been asked for. -/
def Eval.loadConstant (e : Eval) (b : Block) (r : Group) (lanes : List Nat) (f : MemForm) : Except EvalStop Eval :=
  let s := e.state
  let m := MemMod.plain.mem .load .constant 4 (.lanes f.t 4 false) false
  match s.checkLanes b r m (r.requests f 0 lanes 4 false none) with
  | .error c => .error (.cond c)
  | .ok (ok, zeros) =>
    if s.anyHeld ok then .error .held
    else if s.awaits b r (ok.map (fun q => (q.1.va, 4))) then .error (.awaits (ok.map (fun q => (q.1.va, 4))))
    else
      let x0 : Served := ⟨s.retainAll b ok, zeros.map (fun l => (l, 0)), [], zeros, [], []⟩
      let x := ok.foldl (fun (x : Served) (q : LaneReq × Place) =>
        match q.2 with
        | .peer dev pa _ =>
          match s.peerBytes r dev pa 4 with
          | .ok bs => x.accept q.1.lane (bytesNat (overlayHeld (s.heldFor b r) q.1.va.toNat bs))
          | .error c => x.refuse q.1 c
        | _ => x.load b (s.heldFor b r) m q.1 q.2) x0
      match refusalCond (x.refused.filter (fun q => !hasLane r.helper q.1)) [] false (0, 0) with
      | some c => .error (.cond { c with pmask := none })
      | none => .ok ⟨x.state, e.group.receive m.dest (x.values ++ x.refused.map (fun q => (q.1, 0)))⟩

/-- R217, R219, R220: one routine load in the lanes of `live`; `r` is the group as the unit reads it. DEDUCED
(assumption 12). -/
def Eval.load (e : Eval) (b : Block) (r : Group) (live : Mask) (f : MemForm) : Except EvalStop Eval :=
  let lanes := { r with exec := live }.taking f.guard true
  match f.op with
  | .scratchLoad z i => e.loadScratch b r lanes f z i
  | _ => e.loadConstant b r lanes f

/-- R186, R187: a routine's instructions from index `i`, with lane effects in `live` alone: how far they come, and what
stopped them at which index. -/
def Eval.run (e : Eval) (b : Block) (live : Mask) (i : Nat) (ops : List RoutineOp) : Eval × Option (EvalStop × Nat) :=
  match ops with
  | [] => (e, none)
  | o :: rest =>
    let g := e.group
    let n := o.op.need
    if g.chk && g.undersized n.reads n.flags then (e, some (.cond { cause := 0x06 }, i))
    else
      let r := g.seen e.state.tick n.reads n.flags
      let after := fun (x : Group) (late : List Hazard) =>
        let aged := { x with pace := o.stall }.age late
        { aged with exec := g.exec, redo := g.redo, remote := g.remote, pace := g.pace }
      match o.op with
      | .lane f =>
        let x := after ({ g with exec := live }.applyForm r f .plain) (g.lateResults f)
        ({ e with group := x } : Eval).run b live (i + 1) rest
      | .load f =>
        match e.load b r live f with
        | .error x => (e, some (x, i))
        | .ok e1 => ({ e1 with group := after e1.group [] } : Eval).run b live (i + 1) rest

/-- R31, R187: the distances of producers before the unit stay as they were; a later write by the unit stands. DEDUCED
(assumption 11). -/
def ownHazards (g0 g1 : Group) (live : Mask) (written : List RoutineReg) : List Hazard :=
  g0.hazards.map (fun (h : Hazard) =>
    match h.reg with
    | .vector r => if written.contains (.vector r) then h.overwrite r live (g1.vec r) else h
    | .flags =>
      { h with oldFlags := writeRun h.oldFlags 8 6 (fun n =>
          readCell h.oldFlags n ||| (readCell g1.flags n &&& ~~~(readCell g0.flags n))) }
    | .span => h)

/-- R185: a search is over: the results, and the PC past IEND. -/
def State.invDone (s : State) (g : Group) (q : Search) (target : Nat → LaneWord) (len : Nat) (stall : BitVec 2) : State :=
  let pre := fun (l : Nat) => q.prefinished (q.bracket g l) (target l)
  let fin := maskOf (fun l => hasLane g.exec l && !pre l)
  let g1 := g.setVec q.x g.exec (fun l => if pre l then (q.bracket g l).lo else (q.bracket g l).hi)
  let g2 := g1.setVec q.y fin (fun l => (q.bracket g l).fhi)
  s.done ({ g2 with invst := 0, aim := none, pace := stall }.advance len)

/-- R183: round `r` of a search in the live lanes: INVST names the next round, or the search is over after round 33. A round
that has to wait for a peer, or for a home, has no effect and is the one that INVST names, and it runs whole when the wait
is over, or when a halt or a save that has met it is (R190, R191). -/
def State.invRound (s : State) (b : Block) (g : Group) (q : Search) (ops : List RoutineOp) (target : Nat → LaneWord)
    (r : Nat) (live : Mask) (len : Nat) (stall : BitVec 2) : State :=
  let before := fun (l : Nat) => q.bracket g l
  let here := { g with invst := invstOf g.invPos true r }
  let g1 := { g with invst := invstOf g.invPos true r }.setVec q.x live (fun l => q.point (before l) r)
  let g2 := { g1 with hazards := ({ g1 with pace := 0 }.age []).hazards }
  let (e, stop) := (⟨s, g2⟩ : Eval).run b live 0 ops
  let back := { e.group with
    hazards := ownHazards g1 e.group live (.vector q.x :: .vector q.y :: ops.flatMap (fun o => o.op.writes)) }
  match stop with
  | some (.held, _) => (s.putGroup here).wait .replies
  | some (.awaits ranges, _) => (s.putGroup here).askFor b here ranges 2
  | some (.cond c, i) =>
    let s1 := e.state.putGroup { back with invst := invstOf i true r }
    if c.cause = 0x85 then s1.trapPeer c else s1.trap c
  | none =>
    let out := (List.range 96).map (fun l => q.update (before l) (target l) r (q.point (before l) r) (back.vec q.y l))
    let at' := fun (l : Nat) => out.getD l (before l, false)
    let g3 := (q.put back live (fun l => (at' l).1)).raiseMv live (fun l => (at' l).2)
    if r = 33 then e.state.invDone g3 q target len stall
    else e.state.putGroup { g3 with invst := invstOf g.invPos true (r + 1), remote := [] }

/-- R180, R182: the stopping width. -/
def Group.tolerance (g : Group) (l : BitVec 2) : Nat :=
  match l.toNat with
  | 0 => 1
  | 1 => 16
  | 2 => 4096
  | _ => max 1 g.invtol.toNat

/-- R187: the target words that the unit reads: those it has read before, or those that it sees now. -/
def Group.targets (g r : Group) (y l : Nat) : LaneWord :=
  match g.aim with
  | some c => readCell c l
  | none => r.vec (y + 1) l

/-- INV (R174 to R192): the checks of R178, then one round of the search, or its end. The budget check of its own registers
(R109) comes after those of the routine, with POS as it was. DESIGN CHOICE (assumption 37). -/
def execInv (l : BitVec 2) (d m : BitVec 1) (y x : BitVec 7) (k : BitVec 2) (s : State) :
    Host.Outcome State Fault Refusal :=
  match s.current with
  | none => .fault .noGroup
  | some (b, g) =>
    let named := fun (i : Nat) => { g with invst := invstOf i (g.invst.getLsbD 6) g.invst.toNat }
    match s.routine b g 17 0 2 with
    | .error (c, i) => .next ((s.putGroup (named i)).trap c)
    | .ok (ops, stall, len) =>
      match badRoutine x.toNat y.toNat ops with
      | some i => .next ((s.putGroup (named i)).trap { cause := 0x05 })
      | none =>
        onGroup s { regs := [x.toNat, y.toNat, y.toNat + 1], reads := [y.toNat + 1] } (fun b g v =>
          let q : Search := ⟨decide (m = 1#1), decide (d = 1#1), g.tolerance l, x.toNat, y.toNat, k.toNat⟩
          let begun := g.invst.getLsbD 6
          let g0 := if begun then g else { g with aim := none }
          let target := g0.targets v y.toNat
          let g1 := if g.undersized [y.toNat + 1] false then { g0 with aim := some (runCells 0 96 target) } else g0
          let r := g.invRound
          let pre := fun (l : Nat) => q.prefinished (q.bracket g l) (target l)
          let g2 := if r = 0 then g1.raiseMv g.exec pre else g1
          let live := maskOf (fun l => hasLane g.exec l && q.live (q.bracket g l) (target l) r)
          if live = 0 then s.invDone g2 q target len stall
          else s.invRound b g2 q ops target r live len stall)

/-- IEND outside a unit, or reached in the middle of one (R175). -/
def execIend (s : State) : Host.Outcome State Fault Refusal := onGroup s {} (fun _ _ _ => s.trap { cause := 0x05 })

end Sys2Proof.Machine
end

