-- ==== Sys2Proof/Machine/Scalar.lean ====
section
/-! DEFINITION. The scalar instructions (R66 to R74): the ALU, compares, immediate forms, constants, and the moves
between lanes and scalars. -/

namespace Sys2Proof.Machine

/-- R67: an instruction that writes the scalar `d` raises cause 0x07 inside a compacted region, unless `d` is s0. -/
def scalarNeed (d : BitVec 6) : Need := { region := if d = 0#6 then none else some 0x07 }

/-- R70: a scalar result is written as 64 bits, and the PC advances by one word. -/
def scalarWrite (d : BitVec 6) (f : Group → Word) (s : State) : Host.Outcome State Fault Refusal :=
  onGroup s (scalarNeed d) (fun _ g _ => s.done ((g.setScalar d.toNat (f g)).advance 2))

/-- R70: an operation on two scalars. -/
def scalarBinary (op : Word → Word → Word) (b a d : BitVec 6) (s : State) : Host.Outcome State Fault Refusal :=
  scalarWrite d (fun g => op (g.scalar a.toNat) (g.scalar b.toNat)) s

/-- R71: a division writes its result, and a zero divisor sets SFLG.IDZ. -/
def scalarDivide (op : Word → Word → Word) (b a d : BitVec 6) (s : State) : Host.Outcome State Fault Refusal :=
  onGroup s (scalarNeed d) (fun _ g _ =>
    let g1 := if g.scalar b.toNat = 0 then { g with idz := true } else g
    s.done ((g1.setScalar d.toNat (op (g.scalar a.toNat) (g.scalar b.toNat))).advance 2))

/-- R72: an operation on a scalar and an immediate. -/
def scalarImmediate (op : Word → Word) (a d : BitVec 6) (s : State) : Host.Outcome State Fault Refusal :=
  scalarWrite d (fun g => op (g.scalar a.toNat)) s

/-! ## The operations (R70, R71) -/

/-- R70: the high half of the signed product. -/
def mulHigh (a b : Word) : Word := BitVec.ofInt 64 (a.toInt * b.toInt / 2 ^ 64)

/-- R70: the high half of the unsigned product. -/
def mulHighZ (a b : Word) : Word := BitVec.ofNat 64 (a.toNat * b.toNat / 2 ^ 64)

/-- R70, R71: the signed quotient, truncated toward zero; all ones for a zero divisor. -/
def quotient (a b : Word) : Word := if b = 0 then BitVec.allOnes 64 else BitVec.ofInt 64 (a.toInt.tdiv b.toInt)

/-- R70, R71: the unsigned quotient; all ones for a zero divisor. -/
def quotientZ (a b : Word) : Word := if b = 0 then BitVec.allOnes 64 else BitVec.ofNat 64 (a.toNat / b.toNat)

/-- R70, R71: the signed remainder, with the sign of `a`; `a` for a zero divisor. -/
def remainder (a b : Word) : Word := if b = 0 then a else BitVec.ofInt 64 (a.toInt.tmod b.toInt)

/-- R70, R71: the unsigned remainder; `a` for a zero divisor. -/
def remainderZ (a b : Word) : Word := if b = 0 then a else BitVec.ofNat 64 (a.toNat % b.toNat)

/-- 1 or 0 (R70). -/
def oneIf (x : Bool) : Word := if x then 1 else 0

/-! ## The instructions -/

/-- SADD (R70). -/
def execSadd (b a d : BitVec 6) (s : State) : Host.Outcome State Fault Refusal :=
  scalarBinary (fun a b => a + b) b a d s

/-- SSUB (R70). -/
def execSsub (b a d : BitVec 6) (s : State) : Host.Outcome State Fault Refusal :=
  scalarBinary (fun a b => a - b) b a d s

/-- SMUL (R70). -/
def execSmul (b a d : BitVec 6) (s : State) : Host.Outcome State Fault Refusal :=
  scalarBinary (fun a b => a * b) b a d s

/-- SMULH (R70). -/
def execSmulh (b a d : BitVec 6) (s : State) : Host.Outcome State Fault Refusal :=
  scalarBinary (fun a b => mulHigh a b) b a d s

/-- SMULHZ (R70). -/
def execSmulhz (b a d : BitVec 6) (s : State) : Host.Outcome State Fault Refusal :=
  scalarBinary (fun a b => mulHighZ a b) b a d s

/-- SAND (R70). -/
def execSand (b a d : BitVec 6) (s : State) : Host.Outcome State Fault Refusal :=
  scalarBinary (fun a b => a &&& b) b a d s

/-- SOR (R70). -/
def execSor (b a d : BitVec 6) (s : State) : Host.Outcome State Fault Refusal :=
  scalarBinary (fun a b => a ||| b) b a d s

/-- SXOR (R70). -/
def execSxor (b a d : BitVec 6) (s : State) : Host.Outcome State Fault Refusal :=
  scalarBinary (fun a b => a ^^^ b) b a d s

/-- SSHL (R70). -/
def execSshl (b a d : BitVec 6) (s : State) : Host.Outcome State Fault Refusal :=
  scalarBinary (fun a b => a <<< (b.toNat % 64)) b a d s

/-- SSHR (R70). -/
def execSshr (b a d : BitVec 6) (s : State) : Host.Outcome State Fault Refusal :=
  scalarBinary (fun a b => a >>> (b.toNat % 64)) b a d s

/-- SSRA (R70). -/
def execSsra (b a d : BitVec 6) (s : State) : Host.Outcome State Fault Refusal :=
  scalarBinary (fun a b => a.sshiftRight (b.toNat % 64)) b a d s

/-- SMIN (R70). -/
def execSmin (b a d : BitVec 6) (s : State) : Host.Outcome State Fault Refusal :=
  scalarBinary (fun a b => if a.toInt ≤ b.toInt then a else b) b a d s

/-- SMAX (R70). -/
def execSmax (b a d : BitVec 6) (s : State) : Host.Outcome State Fault Refusal :=
  scalarBinary (fun a b => if a.toInt ≤ b.toInt then b else a) b a d s

/-- SMINZ (R70). -/
def execSminz (b a d : BitVec 6) (s : State) : Host.Outcome State Fault Refusal :=
  scalarBinary (fun a b => if a.toNat ≤ b.toNat then a else b) b a d s

/-- SMAXZ (R70). -/
def execSmaxz (b a d : BitVec 6) (s : State) : Host.Outcome State Fault Refusal :=
  scalarBinary (fun a b => if a.toNat ≤ b.toNat then b else a) b a d s

/-- SSEQ (R70). -/
def execSseq (b a d : BitVec 6) (s : State) : Host.Outcome State Fault Refusal :=
  scalarBinary (fun a b => oneIf (a == b)) b a d s

/-- SSNE (R70). -/
def execSsne (b a d : BitVec 6) (s : State) : Host.Outcome State Fault Refusal :=
  scalarBinary (fun a b => oneIf (a != b)) b a d s

/-- SSLT (R70). -/
def execSslt (b a d : BitVec 6) (s : State) : Host.Outcome State Fault Refusal :=
  scalarBinary (fun a b => oneIf (decide (a.toInt < b.toInt))) b a d s

/-- SSLTZ (R70). -/
def execSsltz (b a d : BitVec 6) (s : State) : Host.Outcome State Fault Refusal :=
  scalarBinary (fun a b => oneIf (decide (a.toNat < b.toNat))) b a d s

/-- SSLE (R70). -/
def execSsle (b a d : BitVec 6) (s : State) : Host.Outcome State Fault Refusal :=
  scalarBinary (fun a b => oneIf (decide (a.toInt ≤ b.toInt))) b a d s

/-- SSLEZ (R70). -/
def execSslez (b a d : BitVec 6) (s : State) : Host.Outcome State Fault Refusal :=
  scalarBinary (fun a b => oneIf (decide (a.toNat ≤ b.toNat))) b a d s

/-- SDIV (R70, R71). -/
def execSdiv (b a d : BitVec 6) (s : State) : Host.Outcome State Fault Refusal :=
  scalarDivide quotient b a d s

/-- SDIVZ (R70, R71). -/
def execSdivz (b a d : BitVec 6) (s : State) : Host.Outcome State Fault Refusal :=
  scalarDivide quotientZ b a d s

/-- SREM (R70, R71). -/
def execSrem (b a d : BitVec 6) (s : State) : Host.Outcome State Fault Refusal :=
  scalarDivide remainder b a d s

/-- SREMZ (R70, R71). -/
def execSremz (b a d : BitVec 6) (s : State) : Host.Outcome State Fault Refusal :=
  scalarDivide remainderZ b a d s

/-- SMOV (R70). -/
def execSmov (a d : BitVec 6) (s : State) : Host.Outcome State Fault Refusal :=
  scalarImmediate (fun a => a) a d s

/-- SADDI (R72, R47). -/
def execSaddi (i : BitVec 10) (a d : BitVec 6) (s : State) : Host.Outcome State Fault Refusal :=
  scalarImmediate (fun a => a + i.signExtend 64) a d s

/-- SANDI (R72, R47). -/
def execSandi (i : BitVec 10) (a d : BitVec 6) (s : State) : Host.Outcome State Fault Refusal :=
  scalarImmediate (fun a => a &&& i.signExtend 64) a d s

/-- SORI (R72, R47). -/
def execSori (i : BitVec 10) (a d : BitVec 6) (s : State) : Host.Outcome State Fault Refusal :=
  scalarImmediate (fun a => a ||| i.signExtend 64) a d s

/-- SXORI (R72, R47). -/
def execSxori (i : BitVec 10) (a d : BitVec 6) (s : State) : Host.Outcome State Fault Refusal :=
  scalarImmediate (fun a => a ^^^ i.signExtend 64) a d s

/-- SSHLI (R72, R47). -/
def execSshli (i a d : BitVec 6) (s : State) : Host.Outcome State Fault Refusal :=
  scalarImmediate (fun a => a <<< i.toNat) a d s

/-- SSHRI (R72, R47). -/
def execSshri (i a d : BitVec 6) (s : State) : Host.Outcome State Fault Refusal :=
  scalarImmediate (fun a => a >>> i.toNat) a d s

/-- SSRAI (R72, R47). -/
def execSsrai (i a d : BitVec 6) (s : State) : Host.Outcome State Fault Refusal :=
  scalarImmediate (fun a => a.sshiftRight i.toNat) a d s

/-- SLI (R73). -/
def execSli (i : BitVec 16) (d : BitVec 6) (s : State) : Host.Outcome State Fault Refusal :=
  scalarWrite d (fun _ => i.signExtend 64) s

/-- R73: a scalar with the 16 bits from bit `lo` replaced. -/
def insertHalf (lo : Nat) (x : Word) (i : BitVec 16) : Word :=
  (x &&& ~~~(0xFFFF#64 <<< lo)) ||| (i.setWidth 64 <<< lo)

/-- SLH16 (R73). -/
def execSlh16 (i : BitVec 16) (d : BitVec 6) (s : State) : Host.Outcome State Fault Refusal :=
  scalarWrite d (fun g => insertHalf 16 (g.scalar d.toNat) i) s

/-- SLH32 (R73). -/
def execSlh32 (i : BitVec 16) (d : BitVec 6) (s : State) : Host.Outcome State Fault Refusal :=
  scalarWrite d (fun g => insertHalf 32 (g.scalar d.toNat) i) s

/-- SLH48 (R73). -/
def execSlh48 (i : BitVec 16) (d : BitVec 6) (s : State) : Host.Outcome State Fault Refusal :=
  scalarWrite d (fun g => insertHalf 48 (g.scalar d.toNat) i) s

/-- R74: the lane that a lane field names: its number, or the whole value of a scalar. -/
def Group.laneIndex (g : Group) (x : BitVec 1) (l : BitVec 7) : Nat :=
  if x = 1#1 then (g.scalar (l.toNat % 64)).toNat else l.toNat

/-- SGETL (R74): lane `n` of a register, zero-extended; an absent lane is no source (R95) and reads 0. DEDUCED
(assumption 36). -/
def execSgetl (x : BitVec 1) (l a : BitVec 7) (d : BitVec 6) (s : State) : Host.Outcome State Fault Refusal :=
  onGroup s { scalarNeed d with regs := [a.toNat], reads := [a.toNat] } (fun _ g r =>
    let n := g.laneIndex x l
    if 96 ≤ n then s.trap { cause := 0x0A }
    else s.done ((g.setScalar d.toNat ((r.peek a.toNat n).setWidth 64)).advance 2))

/-- SSETL (R74): bits [31:0] of a scalar into lane `n` of a register, whatever its EXEC bit; an absent lane is no target
(R95). -/
def execSsetl (x : BitVec 1) (l : BitVec 7) (a : BitVec 6) (d : BitVec 7) (s : State) :
    Host.Outcome State Fault Refusal :=
  onGroup s { regs := [d.toNat] } (fun _ g _ =>
    let n := g.laneIndex x l
    if 96 ≤ n then s.trap { cause := 0x0A }
    else
      let v : LaneWord := (g.scalar a.toNat).setWidth 32
      s.done ((g.setVec d.toNat (g.present &&& maskOf (fun k => decide (k = n))) (fun _ => v)).advance 2))

end Sys2Proof.Machine
end

