-- ==== Sys2Proof/Machine/Dispatch.lean ====
section
/-! DEFINITION. What each instruction and each step of the device does: one direct call of its meaning. -/

namespace Sys2Proof.Machine

/-- One arm for each constructor. -/
def exec (i : Instr) (s : State) : Host.Outcome State Fault Refusal :=
  match i with
  | .vaddI32Compact b d => Sys2Proof.Machine.execVaddI32Compact b d s
  | .vsubI32Compact b d => Sys2Proof.Machine.execVsubI32Compact b d s
  | .vmulI32Compact b d => Sys2Proof.Machine.execVmulI32Compact b d s
  | .vandCompact b d => Sys2Proof.Machine.execVandCompact b d s
  | .vorCompact b d => Sys2Proof.Machine.execVorCompact b d s
  | .vxorCompact b d => Sys2Proof.Machine.execVxorCompact b d s
  | .vshlCompact b d => Sys2Proof.Machine.execVshlCompact b d s
  | .vshrCompact b d => Sys2Proof.Machine.execVshrCompact b d s
  | .vsraCompact b d => Sys2Proof.Machine.execVsraCompact b d s
  | .vmovCompact b d => Sys2Proof.Machine.execVmovCompact b d s
  | .vminI32Compact b d => Sys2Proof.Machine.execVminI32Compact b d s
  | .vmaxI32Compact b d => Sys2Proof.Machine.execVmaxI32Compact b d s
  | .vfaddF32Compact b d => Sys2Proof.Machine.execVfaddF32Compact b d s
  | .vfsubF32Compact b d => Sys2Proof.Machine.execVfsubF32Compact b d s
  | .vfmulF32Compact b d => Sys2Proof.Machine.execVfmulF32Compact b d s
  | .vfmaxF32Compact b d => Sys2Proof.Machine.execVfmaxF32Compact b d s
  | .sadd b a d => Sys2Proof.Machine.execSadd b a d s
  | .ssub b a d => Sys2Proof.Machine.execSsub b a d s
  | .smul b a d => Sys2Proof.Machine.execSmul b a d s
  | .smulh b a d => Sys2Proof.Machine.execSmulh b a d s
  | .smulhz b a d => Sys2Proof.Machine.execSmulhz b a d s
  | .sdiv b a d => Sys2Proof.Machine.execSdiv b a d s
  | .sdivz b a d => Sys2Proof.Machine.execSdivz b a d s
  | .srem b a d => Sys2Proof.Machine.execSrem b a d s
  | .sremz b a d => Sys2Proof.Machine.execSremz b a d s
  | .sand b a d => Sys2Proof.Machine.execSand b a d s
  | .sor b a d => Sys2Proof.Machine.execSor b a d s
  | .sxor b a d => Sys2Proof.Machine.execSxor b a d s
  | .sshl b a d => Sys2Proof.Machine.execSshl b a d s
  | .sshr b a d => Sys2Proof.Machine.execSshr b a d s
  | .ssra b a d => Sys2Proof.Machine.execSsra b a d s
  | .smin b a d => Sys2Proof.Machine.execSmin b a d s
  | .smax b a d => Sys2Proof.Machine.execSmax b a d s
  | .sminz b a d => Sys2Proof.Machine.execSminz b a d s
  | .smaxz b a d => Sys2Proof.Machine.execSmaxz b a d s
  | .sseq b a d => Sys2Proof.Machine.execSseq b a d s
  | .ssne b a d => Sys2Proof.Machine.execSsne b a d s
  | .sslt b a d => Sys2Proof.Machine.execSslt b a d s
  | .ssltz b a d => Sys2Proof.Machine.execSsltz b a d s
  | .ssle b a d => Sys2Proof.Machine.execSsle b a d s
  | .sslez b a d => Sys2Proof.Machine.execSslez b a d s
  | .smov a d => Sys2Proof.Machine.execSmov a d s
  | .saddi imm a d => Sys2Proof.Machine.execSaddi imm a d s
  | .sandi imm a d => Sys2Proof.Machine.execSandi imm a d s
  | .sori imm a d => Sys2Proof.Machine.execSori imm a d s
  | .sxori imm a d => Sys2Proof.Machine.execSxori imm a d s
  | .sshli imm a d => Sys2Proof.Machine.execSshli imm a d s
  | .sshri imm a d => Sys2Proof.Machine.execSshri imm a d s
  | .ssrai imm a d => Sys2Proof.Machine.execSsrai imm a d s
  | .sli imm d => Sys2Proof.Machine.execSli imm d s
  | .slh16 imm d => Sys2Proof.Machine.execSlh16 imm d s
  | .slh32 imm d => Sys2Proof.Machine.execSlh32 imm d s
  | .slh48 imm d => Sys2Proof.Machine.execSlh48 imm d s
  | .sld imm z b d => Sys2Proof.Machine.execSld imm z b d s
  | .sst imm z b d => Sys2Proof.Machine.execSst imm z b d s
  | .sldc imm z b d => Sys2Proof.Machine.execSldc imm z b d s
  | .sgetl x l a d => Sys2Proof.Machine.execSgetl x l a d s
  | .ssetl x l a d => Sys2Proof.Machine.execSsetl x l a d s
  | .jmp o => Sys2Proof.Machine.execJmp o s
  | .brz o r => Sys2Proof.Machine.execBrz o r s
  | .brnz o r => Sys2Proof.Machine.execBrnz o r s
  | .loop o r => Sys2Proof.Machine.execLoop o r s
  | .brp o c n p => Sys2Proof.Machine.execBrp o c n p s
  | .jpt o => Sys2Proof.Machine.execJpt o s
  | .call o n p => Sys2Proof.Machine.execCall o n p s
  | .calli a => Sys2Proof.Machine.execCalli a s
  | .jmpi a => Sys2Proof.Machine.execJmpi a s
  | .srr n d => Sys2Proof.Machine.execSrr n d s
  | .srw n a => Sys2Proof.Machine.execSrw n a s
  | .sleep a => Sys2Proof.Machine.execSleep a s
  | .bkpt n => Sys2Proof.Machine.execBkpt n s
  | .vaddI32 x b a d => Sys2Proof.Machine.execVaddI32 x b a d s
  | .vsubI32 x b a d => Sys2Proof.Machine.execVsubI32 x b a d s
  | .vmulI32 x b a d => Sys2Proof.Machine.execVmulI32 x b a d s
  | .vmulh x b a d => Sys2Proof.Machine.execVmulh x b a d s
  | .vmulhz x b a d => Sys2Proof.Machine.execVmulhz x b a d s
  | .vmadI32 x b a d => Sys2Proof.Machine.execVmadI32 x b a d s
  | .vand x b a d => Sys2Proof.Machine.execVand x b a d s
  | .vor x b a d => Sys2Proof.Machine.execVor x b a d s
  | .vxor x b a d => Sys2Proof.Machine.execVxor x b a d s
  | .vshl x b a d => Sys2Proof.Machine.execVshl x b a d s
  | .vshr x b a d => Sys2Proof.Machine.execVshr x b a d s
  | .vsra x b a d => Sys2Proof.Machine.execVsra x b a d s
  | .vminI32 x b a d => Sys2Proof.Machine.execVminI32 x b a d s
  | .vmaxI32 x b a d => Sys2Proof.Machine.execVmaxI32 x b a d s
  | .vminZ32 x b a d => Sys2Proof.Machine.execVminZ32 x b a d s
  | .vmaxZ32 x b a d => Sys2Proof.Machine.execVmaxZ32 x b a d s
  | .vabsd x b a d => Sys2Proof.Machine.execVabsd x b a d s
  | .vpopc a d => Sys2Proof.Machine.execVpopc a d s
  | .vclz a d => Sys2Proof.Machine.execVclz a d s
  | .vbrev a d => Sys2Proof.Machine.execVbrev a d s
  | .vnot a d => Sys2Proof.Machine.execVnot a d s
  | .vbfeI32 x b a d => Sys2Proof.Machine.execVbfeI32 x b a d s
  | .vbfeZ32 x b a d => Sys2Proof.Machine.execVbfeZ32 x b a d s
  | .vbfi x b a d => Sys2Proof.Machine.execVbfi x b a d s
  | .vsel n p a d => Sys2Proof.Machine.execVsel n p a d s
  | .vdot4I8 x b a d => Sys2Proof.Machine.execVdot4I8 x b a d s
  | .vdot4Z8 x b a d => Sys2Proof.Machine.execVdot4Z8 x b a d s
  | .vaddi imm a d => Sys2Proof.Machine.execVaddi imm a d s
  | .vshli imm a d => Sys2Proof.Machine.execVshli imm a d s
  | .vshri imm a d => Sys2Proof.Machine.execVshri imm a d s
  | .vsrai imm a d => Sys2Proof.Machine.execVsrai imm a d s
  | .vandi imm a d => Sys2Proof.Machine.execVandi imm a d s
  | .vli imm d => Sys2Proof.Machine.execVli imm d s
  | .vbkSet w k v => Sys2Proof.Machine.execVbkSet w k v s
  | .vbkGet w k v => Sys2Proof.Machine.execVbkGet w k v s
  | .vicmp x b a c p => Sys2Proof.Machine.execVicmp x b a c p s
  | .vfaddF32 x b a d => Sys2Proof.Machine.execVfaddF32 x b a d s
  | .vfsubF32 x b a d => Sys2Proof.Machine.execVfsubF32 x b a d s
  | .vfmulF32 x b a d => Sys2Proof.Machine.execVfmulF32 x b a d s
  | .vfmaF32 x b a d => Sys2Proof.Machine.execVfmaF32 x b a d s
  | .vfminF32 x b a d => Sys2Proof.Machine.execVfminF32 x b a d s
  | .vfmaxF32 x b a d => Sys2Proof.Machine.execVfmaxF32 x b a d s
  | .vfaddH2 x b a d => Sys2Proof.Machine.execVfaddH2 x b a d s
  | .vfsubH2 x b a d => Sys2Proof.Machine.execVfsubH2 x b a d s
  | .vfmulH2 x b a d => Sys2Proof.Machine.execVfmulH2 x b a d s
  | .vfmaH2 x b a d => Sys2Proof.Machine.execVfmaH2 x b a d s
  | .vfminH2 x b a d => Sys2Proof.Machine.execVfminH2 x b a d s
  | .vfmaxH2 x b a d => Sys2Proof.Machine.execVfmaxH2 x b a d s
  | .vfaddB2 x b a d => Sys2Proof.Machine.execVfaddB2 x b a d s
  | .vfsubB2 x b a d => Sys2Proof.Machine.execVfsubB2 x b a d s
  | .vfmulB2 x b a d => Sys2Proof.Machine.execVfmulB2 x b a d s
  | .vfmaB2 x b a d => Sys2Proof.Machine.execVfmaB2 x b a d s
  | .vfminB2 x b a d => Sys2Proof.Machine.execVfminB2 x b a d s
  | .vfmaxB2 x b a d => Sys2Proof.Machine.execVfmaxB2 x b a d s
  | .vfrcp a d => Sys2Proof.Machine.execVfrcp a d s
  | .vfrsq a d => Sys2Proof.Machine.execVfrsq a d s
  | .vfsqrt a d => Sys2Proof.Machine.execVfsqrt a d s
  | .vfex2 a d => Sys2Proof.Machine.execVfex2 a d s
  | .vflg2 a d => Sys2Proof.Machine.execVflg2 a d s
  | .vfsin a d => Sys2Proof.Machine.execVfsin a d s
  | .vfcos a d => Sys2Proof.Machine.execVfcos a d s
  | .vftanh a d => Sys2Proof.Machine.execVftanh a d s
  | .vfcls a d => Sys2Proof.Machine.execVfcls a d s
  | .vlaneid d => Sys2Proof.Machine.execVlaneid d s
  | .vtid d => Sys2Proof.Machine.execVtid d s
  | .vfcmp x b a c p => Sys2Proof.Machine.execVfcmp x b a c p s
  | .vcvt f g a d => Sys2Proof.Machine.execVcvt f g a d s
  | .vpackI8x4 a d => Sys2Proof.Machine.execVpackI8x4 a d s
  | .vpackTer16 a d => Sys2Proof.Machine.execVpackTer16 a d s
  | .vpackE8m0 a d => Sys2Proof.Machine.execVpackE8m0 a d s
  | .vqx q a d => Sys2Proof.Machine.execVqx q a d s
  | .vshflIdx x b a d => Sys2Proof.Machine.execVshflIdx x b a d s
  | .vshflUp x b a d => Sys2Proof.Machine.execVshflUp x b a d s
  | .vshflDn x b a d => Sys2Proof.Machine.execVshflDn x b a d s
  | .vshflXor x b a d => Sys2Proof.Machine.execVshflXor x b a d s
  | .vred p r a d => Sys2Proof.Machine.execVred p r a d s
  | .vscan p r a d => Sys2Proof.Machine.execVscan p r a d s
  | .vvoteAny n p d => Sys2Proof.Machine.execVvoteAny n p d s
  | .vvoteAll n p d => Sys2Proof.Machine.execVvoteAll n p d s
  | .vvoteBallot n p d => Sys2Proof.Machine.execVvoteBallot n p d s
  | .vvotePopc n p d => Sys2Proof.Machine.execVvotePopc n p d s
  | .vpredAnd b a d => Sys2Proof.Machine.execVpredAnd b a d s
  | .vpredOr b a d => Sys2Proof.Machine.execVpredOr b a d s
  | .vpredXor b a d => Sys2Proof.Machine.execVpredXor b a d s
  | .vpredAndn b a d => Sys2Proof.Machine.execVpredAndn b a d s
  | .vpredOrn b a d => Sys2Proof.Machine.execVpredOrn b a d s
  | .vpredNot a d => Sys2Proof.Machine.execVpredNot a d s
  | .vpredMov a d => Sys2Proof.Machine.execVpredMov a d s
  | .vpredFromv v d => Sys2Proof.Machine.execVpredFromv v d s
  | .vflgRd m d => Sys2Proof.Machine.execVflgRd m d s
  | .vflgClr m => Sys2Proof.Machine.execVflgClr m s
  | .vflgRdclr m d => Sys2Proof.Machine.execVflgRdclr m d s
  | .ldS8 g x b t => Sys2Proof.Machine.execLdS8 g x b t s
  | .ldZ8 g x b t => Sys2Proof.Machine.execLdZ8 g x b t s
  | .ldS16 g x b t => Sys2Proof.Machine.execLdS16 g x b t s
  | .ldZ16 g x b t => Sys2Proof.Machine.execLdZ16 g x b t s
  | .ld32 g x b t => Sys2Proof.Machine.execLd32 g x b t s
  | .ld64 g x b t => Sys2Proof.Machine.execLd64 g x b t s
  | .ld128 g x b t => Sys2Proof.Machine.execLd128 g x b t s
  | .st8 g x b t => Sys2Proof.Machine.execSt8 g x b t s
  | .st16 g x b t => Sys2Proof.Machine.execSt16 g x b t s
  | .st32 g x b t => Sys2Proof.Machine.execSt32 g x b t s
  | .st64 g x b t => Sys2Proof.Machine.execSt64 g x b t s
  | .st128 g x b t => Sys2Proof.Machine.execSt128 g x b t s
  | .lds z imm x t => Sys2Proof.Machine.execLds z imm x t s
  | .sts z imm x t => Sys2Proof.Machine.execSts z imm x t s
  | .ldc g x b t => Sys2Proof.Machine.execLdc g x b t s
  | .ldsmp g x b t => Sys2Proof.Machine.execLdsmp g x b t s
  | .atomAdd32 x b t => Sys2Proof.Machine.execAtomAdd32 x b t s
  | .atomAdd64 x b t => Sys2Proof.Machine.execAtomAdd64 x b t s
  | .atomFaddF32 x b t => Sys2Proof.Machine.execAtomFaddF32 x b t s
  | .atomExch32 x b t => Sys2Proof.Machine.execAtomExch32 x b t s
  | .atomMinI32 x b t => Sys2Proof.Machine.execAtomMinI32 x b t s
  | .atomMaxI32 x b t => Sys2Proof.Machine.execAtomMaxI32 x b t s
  | .atomMinZ32 x b t => Sys2Proof.Machine.execAtomMinZ32 x b t s
  | .atomMaxZ32 x b t => Sys2Proof.Machine.execAtomMaxZ32 x b t s
  | .atomAnd32 x b t => Sys2Proof.Machine.execAtomAnd32 x b t s
  | .atomOr32 x b t => Sys2Proof.Machine.execAtomOr32 x b t s
  | .atomXor32 x b t => Sys2Proof.Machine.execAtomXor32 x b t s
  | .atomExch64 x b t => Sys2Proof.Machine.execAtomExch64 x b t s
  | .atomFminF32 x b t => Sys2Proof.Machine.execAtomFminF32 x b t s
  | .atomFmaxF32 x b t => Sys2Proof.Machine.execAtomFmaxF32 x b t s
  | .atomCas32 x b t => Sys2Proof.Machine.execAtomCas32 x b t s
  | .atomCas64 x b t => Sys2Proof.Machine.execAtomCas64 x b t s
  | .atoms o x t => Sys2Proof.Machine.execAtoms o x t s
  | .pref b a => Sys2Proof.Machine.execPref b a s
  | .cwb b a => Sys2Proof.Machine.execCwb b a s
  | .cinv b a => Sys2Proof.Machine.execCinv b a s
  | .cwbi b a => Sys2Proof.Machine.execCwbi b a s
  | .fence k c => Sys2Proof.Machine.execFence k c s
  | .pfence t f => Sys2Proof.Machine.execPfence t f s
  | .opinst b a => Sys2Proof.Machine.execOpinst b a s
  | .oprem b => Sys2Proof.Machine.execOprem b s
  | .opfire c b => Sys2Proof.Machine.execOpfire c b s
  | .opqry c b a => Sys2Proof.Machine.execOpqry c b a s
  | .cseal a => Sys2Proof.Machine.execCseal a s
  | .cwait b => Sys2Proof.Machine.execCwait b s
  | .cntwait c b => Sys2Proof.Machine.execCntwait c b s
  | .cntadd c b => Sys2Proof.Machine.execCntadd c b s
  | .cntinit c b => Sys2Proof.Machine.execCntinit c b s
  | .mseal a => Sys2Proof.Machine.execMseal a s
  | .mwait b => Sys2Proof.Machine.execMwait b s
  | .tzero c a => Sys2Proof.Machine.execTzero c a s
  | .tsta c b a => Sys2Proof.Machine.execTsta c b a s
  | .tlda c b a => Sys2Proof.Machine.execTlda c b a s
  | .tmul j q f c u => Sys2Proof.Machine.execTmul j q f c u s
  | .mbinit c b => Sys2Proof.Machine.execMbinit c b s
  | .mbarr b => Sys2Proof.Machine.execMbarr b s
  | .mbexp c b => Sys2Proof.Machine.execMbexp c b s
  | .mbwait c b => Sys2Proof.Machine.execMbwait c b s
  | .mbtry c b a => Sys2Proof.Machine.execMbtry c b a s
  | .walk b a => Sys2Proof.Machine.execWalk b a s
  | .wnext a => Sys2Proof.Machine.execWnext a s
  | .trda c u t => Sys2Proof.Machine.execTrda c u t s
  | .twra c u t => Sys2Proof.Machine.execTwra c u t s
  | .shpub c b a => Sys2Proof.Machine.execShpub c b a s
  | .shqry a => Sys2Proof.Machine.execShqry a s
  | .ralloc b a => Sys2Proof.Machine.execRalloc b a s
  | .rfree b => Sys2Proof.Machine.execRfree b s
  | .trap n => Sys2Proof.Machine.execTrap n s
  | .supcall n => Sys2Proof.Machine.execSupcall n s
  | .tlbinv c b => Sys2Proof.Machine.execTlbinv c b s
  | .oppark b => Sys2Proof.Machine.execOppark b s
  | .phint n => Sys2Proof.Machine.execPhint n s
  | .rlabel n => Sys2Proof.Machine.execRlabel n s
  | .tcopyLd m e v c h => Sys2Proof.Machine.execTcopyLd m e v c h s
  | .tcopySt e v c h => Sys2Proof.Machine.execTcopySt e v c h s
  | .rep r p c => Sys2Proof.Machine.execRep r p c s
  | .inv l d m y x k => Sys2Proof.Machine.execInv l d m y x k s
  | .modAlu p c k e f h imm u => Sys2Proof.Machine.execModAlu p c k e f h imm u s
  | .modMemory o k w h c r => Sys2Proof.Machine.execModMemory o k w h c r s
  | .join => Sys2Proof.Machine.execJoin s
  | .ret => Sys2Proof.Machine.execRet s
  | .exit => Sys2Proof.Machine.execExit s
  | .nop => Sys2Proof.Machine.execNop s
  | .yield => Sys2Proof.Machine.execYield s
  | .barBlk => Sys2Proof.Machine.execBarBlk s
  | .barClu => Sys2Proof.Machine.execBarClu s
  | .wend => Sys2Proof.Machine.execWend s
  | .shwait => Sys2Proof.Machine.execShwait s
  | .trapf => Sys2Proof.Machine.execTrapf s
  | .eret => Sys2Proof.Machine.execEret s
  | .ckpt => Sys2Proof.Machine.execCkpt s
  | .iend => Sys2Proof.Machine.execIend s
  | .compactionMeeting blk => Sys2Proof.Machine.execCompactionMeeting blk s
  | .compactedGroupStart blk => Sys2Proof.Machine.execCompactedGroupStart blk s
  | .compactionClose blk => Sys2Proof.Machine.execCompactionClose blk s
  | .stoseedWrite value => Sys2Proof.Machine.execStoseedWrite value s
  | .wcodestClear value => Sys2Proof.Machine.execWcodestClear value s
  | .redinjArm value => Sys2Proof.Machine.execRedinjArm value s
  | .migcmdStart => Sys2Proof.Machine.execMigcmdStart s
  | .migcmdRelease => Sys2Proof.Machine.execMigcmdRelease s
  | .migdescWrite value => Sys2Proof.Machine.execMigdescWrite value s
  | .registerWrite reg value => Sys2Proof.Machine.execRegisterWrite reg value s
  | .migrationCopyComplete data => Sys2Proof.Machine.execMigrationCopyComplete data s
  | .migrationCopyFail cause => Sys2Proof.Machine.execMigrationCopyFail cause s
  | .groupPromotion core => Sys2Proof.Machine.execGroupPromotion core s
  | .localityWindowEnd core => Sys2Proof.Machine.execLocalityWindowEnd core s
  | .sleepEnd g => Sys2Proof.Machine.execSleepEnd g s
  | .waitConditionMet g => Sys2Proof.Machine.execWaitConditionMet g s
  | .barrierDeparture blk cluster => Sys2Proof.Machine.execBarrierDeparture blk cluster s
  | .accessRepliesComplete g => Sys2Proof.Machine.execAccessRepliesComplete g s
  | .l1Writeback core base words => Sys2Proof.Machine.execL1Writeback core base words s
  | .l2SwcWriteback die line => Sys2Proof.Machine.execL2SwcWriteback die line s
  | .queueWake queue => Sys2Proof.Machine.execQueueWake queue s
  | .launchRecord queue => Sys2Proof.Machine.execLaunchRecord queue s
  | .waitmemRecord queue => Sys2Proof.Machine.execWaitmemRecord queue s
  | .signalRecord queue => Sys2Proof.Machine.execSignalRecord queue s
  | .barrierRecord queue => Sys2Proof.Machine.execBarrierRecord queue s
  | .launchStart launch => Sys2Proof.Machine.execLaunchStart launch s
  | .blockPlacement launch cores => Sys2Proof.Machine.execBlockPlacement launch cores s
  | .launchCompletion launch => Sys2Proof.Machine.execLaunchCompletion launch s
  | .timeSliceExpiry launch => Sys2Proof.Machine.execTimeSliceExpiry launch s
  | .shapeApply launch => Sys2Proof.Machine.execShapeApply launch s
  | .holdEntryDrain g => Sys2Proof.Machine.execHoldEntryDrain g s
  | .inletStoreRequest req => Sys2Proof.Machine.execInletStoreRequest req s
  | .operatorWeightLoad handle => Sys2Proof.Machine.execOperatorWeightLoad handle s
  | .sequencerPass handle strikes => Sys2Proof.Machine.execSequencerPass handle strikes s
  | .slotCompletion handle slot => Sys2Proof.Machine.execSlotCompletion handle slot s
  | .forwardDelivery handle slot => Sys2Proof.Machine.execForwardDelivery handle slot s
  | .forwardRetry handle slot => Sys2Proof.Machine.execForwardRetry handle slot s
  | .forwardTimeout handle slot => Sys2Proof.Machine.execForwardTimeout handle slot s
  | .outletWaitServe g => Sys2Proof.Machine.execOutletWaitServe g s
  | .outletWaitTimeout g => Sys2Proof.Machine.execOutletWaitTimeout g s
  | .operatorRemoval handle => Sys2Proof.Machine.execOperatorRemoval handle s
  | .arrayKstep core strikes => Sys2Proof.Machine.execArrayKstep core strikes s
  | .tzeroPerform core => Sys2Proof.Machine.execTzeroPerform core s
  | .tldaPerform core => Sys2Proof.Machine.execTldaPerform core s
  | .tstaPerform core => Sys2Proof.Machine.execTstaPerform core s
  | .copyCompletion copy => Sys2Proof.Machine.execCopyCompletion copy s
  | .trapRecordDelivery => Sys2Proof.Machine.execTrapRecordDelivery s
  | .trapRecordTimeout launch => Sys2Proof.Machine.execTrapRecordTimeout launch s
  | .answerApply token disp result => Sys2Proof.Machine.execAnswerApply token disp result s
  | .debuggerHalt g => Sys2Proof.Machine.execDebuggerHalt g s
  | .debuggerResume g send => Sys2Proof.Machine.execDebuggerResume g send s
  | .preemptionRequest launch => Sys2Proof.Machine.execPreemptionRequest launch s
  | .forcedHardSave launch => Sys2Proof.Machine.execForcedHardSave launch s
  | .blockSave blk => Sys2Proof.Machine.execBlockSave blk s
  | .saveComplete launch => Sys2Proof.Machine.execSaveComplete launch s
  | .contextResume launch => Sys2Proof.Machine.execContextResume launch s
  | .signatureCompare blk grp => Sys2Proof.Machine.execSignatureCompare blk grp s
  | .meetingPoint blk grp => Sys2Proof.Machine.execMeetingPoint blk grp s
  | .fabricRequestReceive p => Sys2Proof.Machine.execFabricRequestReceive p s
  | .atomicPacketReceive p => Sys2Proof.Machine.execAtomicPacketReceive p s
  | .opstoreReceive p => Sys2Proof.Machine.execOpstoreReceive p s
  | .dataReply p => Sys2Proof.Machine.execDataReply p s
  | .ackReply p => Sys2Proof.Machine.execAckReply p s
  | .nackReply p => Sys2Proof.Machine.execNackReply p s
  | .retryReply p => Sys2Proof.Machine.execRetryReply p s
  | .inval p => Sys2Proof.Machine.execInval p s
  | .invack p => Sys2Proof.Machine.execInvack p s
  | .recordPacket p => Sys2Proof.Machine.execRecordPacket p s
  | .noticePacket p => Sys2Proof.Machine.execNoticePacket p s
  | .retransmitTimeout req => Sys2Proof.Machine.execRetransmitTimeout req s
  | .replyCacheExpiry src stream seq => Sys2Proof.Machine.execReplyCacheExpiry src stream seq s
  | .flowOff port cls => Sys2Proof.Machine.execFlowOff port cls s
  | .flowOn port cls => Sys2Proof.Machine.execFlowOn port cls s
  | .linkLoss port => Sys2Proof.Machine.execLinkLoss port s
  | .linkLossNotice port => Sys2Proof.Machine.execLinkLossNotice port s
  | .linkRetrained port => Sys2Proof.Machine.execLinkRetrained port s
  | .swap => Sys2Proof.Machine.execSwap s
  | .swapGraceExpiry => Sys2Proof.Machine.execSwapGraceExpiry s
  | .fberrClr => Sys2Proof.Machine.execFberrClr s
  | .swfailClear => Sys2Proof.Machine.execSwfailClear s
  | .spawn window whole line => Sys2Proof.Machine.execSpawn window whole line s
  | .hostMemAccess write pa size data => Sys2Proof.Machine.execHostMemAccess write pa size data s
  | .mailboxDoorbell widx => Sys2Proof.Machine.execMailboxDoorbell widx s
  | .registerQueue ctx desc => Sys2Proof.Machine.execRegisterQueue ctx desc s
  | .registerContext info => Sys2Proof.Machine.execRegisterContext info s
  | .preemptService ctx => Sys2Proof.Machine.execPreemptService ctx s
  | .resumeService ctx => Sys2Proof.Machine.execResumeService ctx s
  | .discardService ctx => Sys2Proof.Machine.execDiscardService ctx s
  | .fenceCore core => Sys2Proof.Machine.execFenceCore core s
  | .retirePseudoChannel frames => Sys2Proof.Machine.execRetirePseudoChannel frames s
  | .retrainLink port => Sys2Proof.Machine.execRetrainLink port s
  | .domainCopy req => Sys2Proof.Machine.execDomainCopy req s
  | .reset images => Sys2Proof.Machine.execReset images s
  | .firmwareHandover image accepts => Sys2Proof.Machine.execFirmwareHandover image accepts s
  | .handoverTimeout => Sys2Proof.Machine.execHandoverTimeout s
  | .getVersion => Sys2Proof.Machine.execGetVersion s
  | .getCapabilities => Sys2Proof.Machine.execGetCapabilities s
  | .negotiateAlgorithms sha256 => Sys2Proof.Machine.execNegotiateAlgorithms sha256 s
  | .getDigests => Sys2Proof.Machine.execGetDigests s
  | .getCertificate => Sys2Proof.Machine.execGetCertificate s
  | .challenge nonce => Sys2Proof.Machine.execChallenge nonce s
  | .getMeasurements nonce => Sys2Proof.Machine.execGetMeasurements nonce s
  | .replay ctx => Sys2Proof.Machine.execReplay ctx s
  | .cap value => Sys2Proof.Machine.execCap value s
  | .caperrClear => Sys2Proof.Machine.execCaperrClear s
  | .tripClear => Sys2Proof.Machine.execTripClear s
  | .powerCapTick watts => Sys2Proof.Machine.execPowerCapTick watts s
  | .thermalTick degrees => Sys2Proof.Machine.execThermalTick degrees s
  | .thermalTrip degrees => Sys2Proof.Machine.execThermalTrip degrees s
  | .inputVoltageChange millivolts => Sys2Proof.Machine.execInputVoltageChange millivolts s
  | .inputRecoveryTimeout => Sys2Proof.Machine.execInputRecoveryTimeout s
  | .retryDelayExpiry req => Sys2Proof.Machine.execRetryDelayExpiry req s
  | .rdmaRequestReceive write src ctx va data => Sys2Proof.Machine.execRdmaRequestReceive write src ctx va data s
  | .domainCopyCompletion id cause data => Sys2Proof.Machine.execDomainCopyCompletion id cause data s
  | .hostLinkTraining lanes => Sys2Proof.Machine.execHostLinkTraining lanes s
  | .journalDrain ctx entries => Sys2Proof.Machine.execJournalDrain ctx entries s

end Sys2Proof.Machine
end

