-- ==== Sys2Proof/Machine/Agents.lean ====
section
/-! DEFINITION. Who moves: issuing a unit of a group (R21, R64, R112), and the moves that the agents of a state could
make, one of which a step without an agenda takes (assumption 1). -/

namespace Sys2Proof.Machine

/-! ## Issuing (R64, R112, R296) -/

/-- R296: may a group issue its next unit: it runs, stands in the active set, and no debugger halts it? -/
def Group.ready (g : Group) : Bool := decide (g.status = .running) && g.active && g.started && g.halt.isNone

/-- R396: the translation that a fetch has used is retained. -/
def State.retainFetch (s : State) (b : Block) (pc : Word) : State := s.retain b.core (s.ctxOf b) pc

/-- R26: the stall count of the unit that the executing group issues. -/
def State.setPace (s : State) (n : BitVec 2) : State := s.changeAt s.cur (fun x => { x with pace := n })

/-- R237, R243: does an instruction, alone or behind a MOD of relaxed order, let a later scratchpad load of its group pass
earlier stores? Lane operations, under a prefix too, scalar operations, uniform branches, relaxed accesses but ATOMS, and a
release fence do; every other one is taken to order the loads behind it. -/
def keepsAhead (i : Instr) : Bool :=
  match i with
  | .sadd _ _ _ | .ssub _ _ _ | .smul _ _ _ | .smulh _ _ _ | .smulhz _ _ _ | .sand _ _ _ | .sor _ _ _ | .sxor _ _ _
  | .sshl _ _ _ | .sshr _ _ _ | .ssra _ _ _ | .smin _ _ _ | .smax _ _ _ | .sminz _ _ _ | .smaxz _ _ _ | .sseq _ _ _
  | .ssne _ _ _ | .sslt _ _ _ | .ssltz _ _ _ | .ssle _ _ _ | .sslez _ _ _ | .sdiv _ _ _ | .sdivz _ _ _
  | .srem _ _ _ | .sremz _ _ _ | .smov _ _ | .saddi _ _ _ | .sandi _ _ _ | .sori _ _ _ | .sxori _ _ _
  | .sshli _ _ _ | .sshri _ _ _ | .ssrai _ _ _ | .sli _ _ | .slh16 _ _ | .slh32 _ _ | .slh48 _ _ | .sgetl _ _ _ _
  | .ssetl _ _ _ _ | .jmp _ | .brz _ _ | .brnz _ _ | .loop _ _ | .rep _ _ _ | .inv _ _ _ _ _ _ => true
  | .fence k _ => decide (k.toNat = 1)
  | other =>
    match memForm other with
    | some f =>
      match f.op with
      | .scratchAtomic _ => false
      | _ => true
    | none => (laneTarget other).isSome

/-- R237, R243: the same of a unit, of these parcels: a MOD in its memory layout with its instruction. -/
def unitKeepsAhead (i : Instr) (ps : List (BitVec 16)) : Bool :=
  match i with
  | .modMemory o k w h c r =>
    decide ((modMemFields o k w h c r).order = 0) && (match decode (ps.drop 2) with
      | .instr j _ _ => keepsAhead j
      | _ => false)
  | other => keepsAhead other

/-- R228, R214, R243: does a unit, of these parcels, order its group's loads behind what it acquires, and nothing more: a
fence, or a load with an order? -/
def unitAcquires (i : Instr) (ps : List (BitVec 16)) : Bool :=
  match i with
  | .fence _ _ => true
  | .modMemory _ _ _ _ _ _ => match decode (ps.drop 2) with
    | .instr j _ _ => match (memForm j).map MemForm.op with
      | some (.load _ _) | some (.scalarLoad _ _) | some (.scratchLoad _ _) => true
      | _ => false
    | _ => false
  | _ => false

/-- A memory instruction of relaxed order with its offset, alone or behind a MOD, of a unit with these parcels. -/
def relaxedForm (i : Instr) (ps : List (BitVec 16)) : Option (MemForm × Word) :=
  match i with
  | .modMemory o k w h c r =>
    let m := modMemFields o k w h c r
    match decode (ps.drop 2) with
    | .instr j _ _ => if m.order = 0 ∧ !m.wt ∧ !m.take then (memForm j).map (fun f => (f, m.off)) else none
    | _ => none
  | other => (memForm other).map (fun f => (f, 0))

/-- The addresses of a generic access of a group, and its size. -/
def Group.touches (g : Group) (f : MemForm) (off : Word) : List Word × Nat :=
  match f.op with
  | .load n _ => ((g.requests f off (g.taking f.guard true) n false none).map LaneReq.va, n)
  | .store n => ((g.requests f off (g.taking f.guard false) n false none).map LaneReq.va, n)
  | .scalarLoad z i | .scalarStore z i =>
    let n := (scalarAccess z).1
    ((g.scalarRequest f i n off false).map LaneReq.va, n)
  | _ => ([], 0)

/-- R233: does a generic load of a group of a block, at these addresses with this size, name no byte of HBM that a store
names? -/
def State.apart (s : State) (b : Block) (x y : List Word × Nat) : Bool :=
  let place := fun (k : Access) (va : Word) => s.translate b.core (s.ctxOf b) (!s.superOf b) k va
  x.1.all (fun u => y.1.all (fun v => match place .load u, place .store v with
    | .ok (.local p _ _ _), .ok (.local q _ _ _) => decide (p + x.2 ≤ q ∨ q + y.2 ≤ p)
    | .ok (.local _ _ _ _), .ok _ => true
    | _, _ => false))

/-- R233, R235, R237: may the relaxed load `l` of a group `g` still be performed after a store `f` of it, as it is now, `h`?
The store names no register of the load's result, and other bytes, and they are not both accesses of scratchpads. -/
def State.mayFollow (s : State) (b : Block) (g : Group) (l : MemForm × Word) (h : Group) (f : MemForm × Word) : Bool :=
  let different := s.apart b (g.touches l.1 l.2) (h.touches f.1 f.2)
  let sources := f.1.op.indexRegs f.1.x ++ f.1.op.dataRegs f.1.t
  let scalars := match f.1.op with
    | .scalarStore _ _ => [f.1.b, f.1.t]
    | _ => [f.1.b]
  let free := match l.1.op with
    | .scalarLoad _ _ => !scalars.contains l.1.t
    | op => (op.dataRegs l.1.t).all (fun r => !sources.contains r)
  match l.1.op, f.1.op with
  | .scratchLoad _ _, .store _ | .scratchLoad _ _, .scalarStore _ _ => free
  | .load _ _, .scratchStore _ _ | .scalarLoad _ _, .scratchStore _ _ => free
  | .load _ _, .store _ | .scalarLoad _ _, .store _ | .load _ _, .scalarStore _ _ | .scalarLoad _ _, .scalarStore _ _ =>
    free && different
  | _, _ => false

/-- R235: what the issue of a unit leaves of the loads that may still be performed: those of other groups, and of the
executing group the unit itself, when it is a relaxed load, or the one before it, when it is a store that the load may
follow. -/
def State.noteLater (s : State) (i : Instr) (ps : List (BitVec 16)) : State :=
  match s.current with
  | none => s
  | some (b, g) =>
    let fresh := (s.laters.filter (fun e => decide (e.tick + 1 = s.tick))).map (fun (e : Later) => { e with tick := s.tick })
    let form := relaxedForm i ps
    let loads := match form.map (fun f => f.1.op) with
      | some (.load _ _) | some (.scalarLoad _ _) | some (.scratchLoad _ _) => true
      | _ => false
    let follows := fun (e : Later) => match form, decode e.parcels with
      | some f, .instr j _ _ => match relaxedForm j e.parcels with
        | some l => g.hazards.isEmpty && s.mayFollow b e.before l g f
        | none => false
      | _, _ => false
    let mine := if loads then (if b.pair.isNone ∧ g.hazards.isEmpty then [⟨s.cur, ps, g, s.tick⟩] else [])
      else fresh.filter (fun e => e.group == s.cur && follows e)
    { s with laters := mine ++ fresh.filter (fun e => !(e.group == s.cur)) }

/-- R235, R237, R240, R241: what the issue of a unit does to loads out of their turn. A unit that orders the loads behind it
drops what its group has read ahead; a fence or an acquiring load, what it has read before the last release of another
agent, since without one there is nothing that it synchronises with. DESIGN CHOICE (assumption 44). -/
def State.orderAhead (s : State) (i : Instr) (ps : List (BitVec 16)) : State :=
  let s1 := if unitKeepsAhead i ps then s
    else if unitAcquires i ps then s.dropAhead (fun e => decide (e.tick ≤ s.releasedTo))
    else s.dropAhead (fun _ => true)
  s1.noteLater i ps

/-- R297: is a unit, of these parcels, a load of the generic path: LD or SLD, alone or with a MOD? -/
def genericLoad (i : Instr) (ps : List (BitVec 16)) : Bool :=
  let plain := fun (j : Instr) => match (memForm j).map MemForm.op with
    | some (.load _ _) | some (.scalarLoad _ _) => true
    | _ => false
  match i with
  | .modMemory _ _ _ _ _ _ => match decode (ps.drop 2) with
    | .instr j _ _ => plain j
    | _ => false
  | other => plain other

/-- R64: fetch and decode the unit at the group's PC, and perform it or take the trap that it raises. A group that may not
issue loads now goes to the pending set before one (R297). -/
def State.issueUnit (s : State) (b : Block) (g : Group) : Host.Outcome State Fault Refusal :=
  match s.fetchUnit b g.pc with
  | .error f => .next (s.trap { cause := f.1.cause, sec := f.1.sec, kind := 0, va := f.2 })
  | .ok ps =>
    match decode ps with
    | .instr i stall _ =>
      if !s.mayLoad b.core s.cur && genericLoad i ps then .next (s.changeAt s.cur (fun x => { x with active := false }))
      else exec i (((s.retainFetch b g.pc).setPace stall).orderAhead i ps)
    | .illegal c => .next (s.trap { cause := c })
    | .short => .next (s.trap { cause := 0x01 })

/-- A group that is ready issues its next unit; the move of one that is not is idle. -/
def State.issue (s : State) (r : GRef) : Host.Outcome State Fault Refusal :=
  match { s with cur := r }.current with
  | none => .next s
  | some (b, g) => if g.ready && !b.ended then { s with cur := r }.issueUnit b g else .next { s with cur := r }

/-! ## The moves of a state's agents -/

/-- A move that a state without an agenda may make: what another agent does, or which group issues. -/
inductive Pick where
  | issue (r : GRef)
  | group (k : Nat) (r : GRef)
  | block (k : Nat) (blk : Nat)
  | pair (k : Nat) (blk grp : Nat)
  | core (k : Nat) (core : Nat)
  | oper (k : Nat) (handle slot : Nat)
  | queue (k : Nat) (queue : Nat)
  | launch (k : Nat) (launch : Nat)
  | copy (k : Nat) (copy : Nat)
  | answer (a : Word × Byte × Word)
  | delivery
  | device (k : Nat)
deriving DecidableEq, Repr

/-- The numbers 0 to `n` - 1, each as a move. -/
def kinds (n : Nat) (f : Nat → Pick) : List Pick := (List.range n).map f

/-- The moves that the agents of a state could make; one that is not due has no effect. -/
def State.candidates (s : State) : List Pick :=
  (s.everyGroup.flatMap (fun e => Pick.issue e.1 :: kinds 9 (fun k => .group k e.1))) ++
  (s.blocks.flatMap (fun b => kinds 6 (fun k => .block k b.id) ++
    (List.range b.allGroups.length).flatMap (fun g => kinds 2 (fun k => .pair k b.id g)))) ++
  ((s.blocks.map Block.core).eraseDups.flatMap (fun c => kinds 11 (fun k => .core k c))) ++
  (s.operators.flatMap (fun o => (List.range o.slots.length).flatMap (fun i => kinds 7 (fun k => .oper k o.handle i)))) ++
  (s.queues.flatMap (fun q => kinds 5 (fun k => .queue k q.id))) ++
  (s.launches.flatMap (fun l => kinds 8 (fun k => .launch k l.id))) ++
  (s.copies.flatMap (fun c => kinds 2 (fun k => .copy k c.id))) ++ s.answers.map Pick.answer ++
  (if s.records.isEmpty then [] else [.delivery]) ++
  (if s.contexts.isEmpty then [] else kinds 7 .device)

/-- The cores that a free choice names for a placement: as many as a launch places at once, in one hearth, or two anywhere
for a pair. -/
def State.freeCores (s : State) (launch : Nat) : List Nat :=
  match s.launch? launch with
  | none => []
  | some l =>
    let hearth := Config.freeNat s.tick 40 % 256
    if l.header.red then [Config.freeNat s.tick 41 % 4096, Config.freeNat s.tick 42 % 4096]
    else (List.range l.header.clsize).map (fun k => 16 * hearth + Config.freeNat s.tick (43 + k) % 16)

/-- How many faults strike an array step (R281): a free number. -/
def State.freeStrikes (s : State) : Nat := Config.freeNat s.tick 60

/-- The address of the word that a free choice names, when the memory can be read there now. -/
def State.freeBase (s : State) : Option Nat :=
  let base := 8 * Config.freeNat s.tick 64
  if s.spoiled base 8 || (List.range 8).any (fun k => s.heldByHome (base + k)) then none else some base

/-- R232, R236, R401: a cache of a core takes the latest bytes of a word, whichever, before a load asks for them: a later
load may return these bytes. DESIGN CHOICE (assumption 98). -/
def State.lineFill (s : State) (core : Nat) : State :=
  let swc := Config.freeBool s.tick 65
  match s.freeBase with
  | none => s
  | some base =>
    match Config.freeNat s.tick 66 % 3 with
    | 0 => (s.genericWord core swc base 0).2
    | 1 => (s.pathWord core swc base 0 false).2
    | _ => (s.pathWord core swc base 0 true).2

/-- R235, R238: a group that can issue performs a load of one word, whichever, ahead of its turn. DESIGN CHOICE
(assumption 98). -/
def State.loadEarly (s : State) (r : GRef) : State :=
  match s.groupAt r, s.freeBase with
  | some (b, g), some base =>
    if g.ready && !b.ended then s.readEarly r b.core (Config.freeBool s.tick 65) (Config.freeBool s.tick 67) base else s
  | _, _ => s

/-- R235: a load that may still be performed is performed now, after the stores that its group has issued since. DESIGN
CHOICE (assumption 98). -/
def State.loadLate (s : State) (r : GRef) : State :=
  match s.laters.find? (fun e => e.group == r && decide (e.tick + 1 = s.tick)), s.groupAt r with
  | some e, some (b, g) =>
    if !g.ready || b.ended then s
    else match decode e.parcels with
    | .instr i _ _ =>
      match exec i ({ s with cur := r }.putAt r { e.before with holds := g.holds }) with
      | .next t => match t.groupAt r with
        | some (_, h) =>
          if h.status = .running ∧ h.stop.isNone ∧ h.pending.isNone then
            s.putAt r { g with vectors := h.vectors, scalars := h.scalars }
          else s
        | none => s
      | _ => s
    | _ => s
  | _, _ => s

/-- R206: an uncorrectable error strikes a byte of the HBM, whichever. DESIGN CHOICE (assumption 38). -/
def State.decay (s : State) : State :=
  let pa := Config.freeNat s.tick 68
  if backed pa then { s with bad := pa :: s.bad.filter (fun a => decide (a ≠ pa)) } else s

/-- R396: the device retains a translation, of whichever context, core and address: one that an access which faulted, a
copy, a cache operation, an engine or a held store has walked. DESIGN CHOICE (assumption 7). -/
def State.keepMove (s : State) : State :=
  match s.contexts with
  | [] => s
  | c :: rest =>
    let ctx := ((c :: rest).getD (Config.freeNat s.tick 73 % (rest.length + 1)) c).ctx
    s.retain (Config.freeNat s.tick 74 % 4096) ctx (BitVec.ofNat 64 (Config.freeNat s.tick 75))

/-- Make a move. -/
def State.perform (s : State) (p : Pick) : Host.Outcome State Fault Refusal :=
  match p with
  | .issue r => s.issue r
  | .group k r =>
    match k with
    | 0 => execWaitConditionMet r s
    | 1 => execSleepEnd r s
    | 2 => execAccessRepliesComplete r s
    | 3 => execOutletWaitServe r s
    | 4 => execOutletWaitTimeout r s
    | 5 => execHoldEntryDrain r s
    | 6 => .next (s.readAhead r)
    | 7 => .next (s.loadEarly r)
    | _ => .next (s.loadLate r)
  | .block k b =>
    match k with
    | 0 => execBarrierDeparture b false s
    | 1 => execBarrierDeparture b true s
    | 2 => execCompactionMeeting b s
    | 3 => execCompactedGroupStart b s
    | 4 => execCompactionClose b s
    | _ => execBlockSave b s
  | .pair k b g => if k = 0 then execSignatureCompare b g s else execMeetingPoint b g s
  | .core k c =>
    match k with
    | 0 => execGroupPromotion c s
    | 1 => execArrayKstep c s.freeStrikes s
    | 2 => execTzeroPerform c s
    | 3 => execTldaPerform c s
    | 4 => execTstaPerform c s
    | 5 => execL1Writeback c (Config.freeNat s.tick 61) (Config.freeNat s.tick 62) s
    | 6 => execL2SwcWriteback (dieOf c) (Config.freeNat s.tick 63) s
    | 7 => .next (s.lineFill c)
    | 8 => .next (s.arrayPart c)
    | 9 => .next (s.evict c (Config.freeNat s.tick 69))
    | _ => execLocalityWindowEnd c s
  | .oper k h i =>
    match k with
    | 0 => execOperatorWeightLoad h s
    | 1 => execSequencerPass h s.freeStrikes s
    | 2 => execSlotCompletion h i s
    | 3 => execForwardDelivery h i s
    | 4 => execForwardRetry h i s
    | 5 => execForwardTimeout h i s
    | _ => execOperatorRemoval h s
  | .queue k q =>
    match k with
    | 0 => execQueueWake q s
    | 1 => execLaunchRecord q s
    | 2 => execWaitmemRecord q s
    | 3 => execSignalRecord q s
    | _ => execBarrierRecord q s
  | .launch k l =>
    match k with
    | 0 => execLaunchStart l s
    | 1 => execBlockPlacement l (s.freeCores l) s
    | 2 => execShapeApply l s
    | 3 => execLaunchCompletion l s
    | 4 => execSaveComplete l s
    | 5 => execTimeSliceExpiry l s
    | 6 => execTrapRecordTimeout l s
    | _ => execForcedHardSave l s
  | .copy k c => if k = 0 then execCopyCompletion c s else .next (s.copyPart c)
  | .answer a => execAnswerApply a.1 a.2.1 a.2.2 s
  | .delivery => execTrapRecordDelivery s
  | .device k => .next (match k with
      | 0 => s.decay
      | 1 => s.awayMove
      | 2 => s.monitorMove
      | 3 => s.flushMove
      | 4 => s.journalMove
      | 5 => s.signalMove
      | _ => s.keepMove)

/-- A state without an agenda makes one of the moves that its agents could make, whichever; with none, it is idle. -/
def State.idleMove (s : State) : Host.Outcome State Fault Refusal :=
  match s.candidates with
  | [] => .next s
  | p :: rest => s.perform ((p :: rest).getD (Config.freeNat s.tick 39 % (rest.length + 1)) p)

/-! ## The instruction that a test of the host places (assumption 2) -/

/-- The most bytes that a unit can have. -/
def unitBytes : Nat := 72

/-- The physical address of the executing group's PC, when it can issue and its unit lies in HBM. -/
def State.codePlace (s : State) : Option Nat :=
  match s.current with
  | none => none
  | some (b, g) =>
    if g.ready && !b.ended && s.mayLoad b.core s.cur then
      match s.translate b.core (s.ctxOf b) (!s.superOf b) .fetch g.pc, s.translate b.core (s.ctxOf b) (!s.superOf b) .fetch (g.pc + 70) with
      | .ok (.local pa false _ _), .ok (.local qa false _ _) => if qa = pa + 70 then some pa else none
      | _, _ => none
    else none

/-- The bytes of an instruction whose word is numbered as the opcode table numbers it, with zeros above. -/
def tableBytes (nbits w : Nat) : List Byte := natBytes unitBytes (w % 2 ^ nbits)

/-- The image header of the placed launch: four threads, 128 registers of budget, code at 64 KiB. -/
def placedHeader : Header :=
  { blankHeader with entry := 0x10000, grid := 1, threads := 4, part := 0x00000010, roles := [(0, 128), (0, 0), (0, 0)], budget := 128 }

/-- The placed launch of a context. -/
def placedLaunch (id : Nat) (ctx : BitVec 32) : Launch :=
  { newLaunch id none ctx 0 false { blankRecord with grid := 0x100000100001 } with
    header := placedHeader, started := true, next := 1, limit := 1 }

/-- A context that no other has. -/
def State.freshContext (s : State) : BitVec 32 := BitVec.ofNat 32 ((s.contexts.map (fun c => c.ctx.toNat)).foldl max 0 + 1)

/-- The tables of the placed context: its lowest GiB of virtual addresses is the lowest GiB of HBM. -/
def placedTables : List (Nat × List Byte) :=
  [(0x10000000, natBytes 8 0x10010003), (0x10010000, natBytes 8 0x3D)]

/-- A block of one group that can issue at 64 KiB. -/
def State.placedBlock (s : State) (l : Launch) (id : Nat) : Block :=
  { s.freshBlock l id 0 0 none with groups := [freshGroup l 0 (0, 0, 128) 0 true] }

/-- A context, a launch and a block whose group can issue, the oldest of its core (R297), with their tables in HBM. -/
def State.withGroup (s : State) : State :=
  let ctx := s.freshContext
  let l := placedLaunch s.nextId ctx
  let b := s.placedBlock l (s.nextId + 1)
  { s with
    mem := placedTables.foldl (fun m e => writeBytes m e.1 e.2) s.mem
    bad := s.bad.filter (fun a => decide (a < 0x10000000 ∨ 0x10010008 ≤ a))
    contexts := s.contexts ++ [⟨ctx, 0x10000000, 0, 0, 0, 0, 0, false, 0, 0⟩]
    launches := s.launches ++ [l]
    blocks := b :: s.blocks
    nextId := s.nextId + 2
    cur := ⟨b.id, 0, false⟩ }

/-- The state with bytes at a physical address and the executing group next to issue. -/
def State.withBytes (s : State) (pa : Nat) (bs : List Byte) : State :=
  { s with
    mem := writeBytes s.mem pa bs
    bad := s.bad.filter (fun a => !(decide (pa ≤ a) && decide (a < pa + bs.length)))
    agenda := [.issue s.cur] }

end Sys2Proof.Machine
end

