-- ==== Sys2Proof/Machine/Step.lean ====
section
/-! DEFINITION. One step of the device. -/

namespace Sys2Proof.Machine

/-- One step: the move at the head of the agenda, or one that the agents of the state make (R112, assumption 1). A move of
the agenda that names an encoded instruction is idle: groups fetch theirs. DESIGN CHOICE (assumption 1). DESIGN CHOICE
(assumption 97). -/
def step (s : State) : Host.Outcome State Fault Refusal :=
  let s1 := { s with tick := s.tick + 1, agenda := s.agenda.drop 1 }
  match s.agenda with
  | [] => s1.idleMove
  | .issue r :: _ => s1.issue r
  | .event i :: _ => if i.parcels = 0 then exec i s1 else .next s1

/-- The state in which the next step fetches and runs the instruction of a word (assumption 2): it stands at the PC of the
executing group, when that group can issue from HBM; otherwise at the PC of a group that is placed for it. -/
def State.withFetchWord (s : State) (nbits w : Nat) : State :=
  match s.codePlace with
  | some pa => s.withBytes pa (tableBytes nbits w)
  | none => s.withGroup.withBytes 0x10000 (tableBytes nbits w)

end Sys2Proof.Machine
end

