-- ==== Sys2Proof/Safety.lean ====
section
/-! DEFINITION. What counts as a safe run, and the words that statements use: a step that answers a next state, when a unit
issues (R64), the registers of a group as functions, what a unit leaves of its group, and what leaves memory as it was. -/

namespace Sys2Proof.Machine

/-- The outcome is a next state. -/
def Completes (o : Host.Outcome State Fault Refusal) : Prop := ∃ t, o = .next t

/-- A run of `n` steps that stops nowhere. -/
def SafeFor (n : Nat) (s : State) : Prop :=
  match n with
  | 0 => True
  | n + 1 => ∃ t, step s = .next t ∧ SafeFor n t

/-- R64, R65: the checks of a unit hold: a privileged one is in a supervisor context, one that the region forbids is outside
it, every vector register it names is below the budget, and under CHK.DIST no result that it reads is late. -/
def Issues (s : State) (b : Block) (g : Group) (n : Need) : Prop :=
  (n.priv = true → s.superOf b = true) ∧ (n.region ≠ none → g.compacted = false) ∧
  (∀ r ∈ n.regs, r < g.budget) ∧ (g.chk = true → g.undersized n.reads n.flags = false)

/-! ## The registers of a group -/

/-- The registers of a group as functions: the scalars s0 to s60 (R13), the activity mask (R14, s61 to s63), the vector
registers (R97), the predicates p0 to p7 (R138), the lane flags (R135), the brackets (R169) and the xorshift states
(R127). -/
structure Regs where
  scalar  : Nat → Word
  exec    : Nat → Bool
  vec     : Nat → Nat → LaneWord
  pred    : Nat → Nat → Bool
  flag    : Nat → LaneFlags
  bracket : Nat → Nat → Nat → LaneWord
  rng     : Nat → BitVec 32

/-- The registers of a group. -/
def Group.regs (g : Group) : Regs :=
  { scalar := g.scalar, exec := hasLane g.exec, vec := g.vec, pred := g.pnum, flag := g.laneFlags,
    bracket := g.bracket, rng := readCell g.rng }

/-- Every register and every lane agree. -/
def Regs.Agree (x y : Regs) : Prop :=
  (∀ n, n < 61 → x.scalar n = y.scalar n) ∧ (∀ l, l < 96 → x.exec l = y.exec l) ∧
  (∀ r l, l < 96 → x.vec r l = y.vec r l) ∧ (∀ p l, p < 8 → l < 96 → x.pred p l = y.pred p l) ∧
  (∀ l, l < 96 → x.flag l = y.flag l) ∧ (∀ k w l, k < 4 → w < 4 → l < 96 → x.bracket k w l = y.bracket k w l) ∧
  (∀ l, l < 96 → x.rng l = y.rng l)

/-- R13, R14, R95: the registers after a write of scalar `d`: s0 ignores it, and s61 to s63 take bits [31:0] as a beat of
the activity mask, where absent lanes stay 0. -/
def Regs.setScalar (x : Regs) (present : Mask) (d : Nat) (v : Word) : Regs :=
  if d = 0 then x
  else if d < 61 then { x with scalar := fun n => if n = d then v else x.scalar n }
  else { x with exec := fun l => hasLane present l && (if l / 32 = d - 61 then v.getLsbD (l % 32) else x.exec l) }

/-- R97, R139: the registers after a write of the vector register `d` in the lanes that `m` holds. -/
def Regs.setLanes (x : Regs) (d : Nat) (m : Nat → Bool) (v : Nat → LaneWord) : Regs :=
  { x with vec := fun r l => if r = d ∧ m l = true then v l else x.vec r l }

/-- R138, R150: the registers after a write of the predicate `d` in the lanes that `m` holds; p0 is read-only. -/
def Regs.setPred (x : Regs) (d : Nat) (m : Nat → Bool) (v : Nat → Bool) : Regs :=
  { x with pred := fun p l => if p = d ∧ d ≠ 0 ∧ m l = true then v l else x.pred p l }

/-- R135, R100: the registers after flags are raised in the lanes that `m` holds. -/
def Regs.raise (x : Regs) (m : Nat → Bool) (f : Nat → LaneFlags) : Regs :=
  { x with flag := fun l => if m l = true then x.flag l ||| f l else x.flag l }

/-- R168: the registers after flags are cleared in the lanes that `m` holds. -/
def Regs.clear (x : Regs) (m : Nat → Bool) (f : LaneFlags) : Regs :=
  { x with flag := fun l => if m l = true then x.flag l &&& ~~~f else x.flag l }

/-- What a unit leaves of its group (R18, R27): the PC `pc`, the registers `r`, grown distances, and every other field of
`g` as it stands there. -/
def Moves (g h : Group) (pc : Word) (r : Regs) : Prop :=
  h = { g with pc := pc, scalars := h.scalars, exec := h.exec, vectors := h.vectors, preds := h.preds, flags := h.flags,
               brackets := h.brackets, rng := h.rng, hazards := h.hazards, redo := 0, remote := [] } ∧
  h.regs.Agree r

/-- The instruction completes in the state `t` but for its group, which goes from `g` to the PC `pc` with the registers
`r`. -/
def RunsIn (i : Instr) (s t : State) (g : Group) (pc : Word) (r : Regs) : Prop :=
  ∃ h, exec i s = .next (t.putGroup h) ∧ Moves g h pc r

/-- The instruction completes: only its group changes, which goes to the PC `pc` with the registers `r`. -/
def RunsTo (i : Instr) (s : State) (g : Group) (pc : Word) (r : Regs) : Prop := RunsIn i s s g pc r

/-- The group leaves the active set and waits at its unit; nothing else changes (R311). -/
def Waits (i : Instr) (s : State) (w : Wait) : Prop :=
  exec i s = .next (s.changeAt s.cur (fun x => { x with status := .waiting w, active := false }))

/-- The instruction answers a next state, in which the executing group and its block satisfy `p`. -/
def GoesTo (i : Instr) (s : State) (p : State → Block → Group → Prop) : Prop :=
  ∃ t b g, exec i s = .next t ∧ t.groupAt s.cur = some (b, g) ∧ p t b g

/-- Wherever the checks `n` of the unit hold, the instruction of `len` parcels completes: its group goes past it with the
registers that `w` gives from the block, the group and the group as the unit's reads see it (R30). -/
def Does (i : Instr) (n : Need) (len : Nat) (w : Block → Group → Group → Regs) : Prop :=
  ∀ (s : State) (b : Block) (g : Group), s.current = some (b, g) → Issues s b g n →
    RunsTo i s g (g.pc + BitVec.ofNat 64 (2 * len)) (w b g (g.seen s.tick n.reads n.flags))

/-- The lanes of a group that a unit acts in, helpers included (R139). -/
def Group.acts (g : Group) : Nat → Bool := hasLane g.exec

/-- The active lanes that are not helpers (R7, R100). -/
def Group.works (g : Group) : Nat → Bool := fun l => hasLane g.exec l && !hasLane g.helper l

/-- R127: the registers after the xorshift state of every acting lane has advanced by `n` steps. -/
def Regs.stepStates (x : Regs) (m : Nat → Bool) (n : Nat) : Regs :=
  { x with rng := fun l => if m l = true then n.repeat xorshift (x.rng l) else x.rng l }

/-- R169: the registers after a write of the word `w` of the bracket register `k`. -/
def Regs.setBracket (x : Regs) (k w : Nat) (m : Nat → Bool) (v : Nat → LaneWord) : Regs :=
  { x with bracket := fun i j l => if i = k ∧ j = w ∧ m l = true then v l else x.bracket i j l }

/-! ## Memory -/

/-- Every byte of memory reads as before, on every core, on hardware-coherent and software-coherent pages alike. -/
def MemoryKept (s t : State) : Prop :=
  t.mem = s.mem ∧ ∀ (core pa : Nat) (swc : Bool), t.look core swc pa = s.look core swc pa

/-- Nothing but the blocks changes. -/
def OnlyBlocks (s t : State) : Prop := t = { s with blocks := t.blocks }

end Sys2Proof.Machine
end

