-- ==== Sys2Proof/Certificates/Slice0/Obligations.lean ====
section
/-! DEFINITION. The statements for the provers, family by family, with the tables of instructions that they name. -/

set_option Elab.async false

open Sys2Proof Sys2Proof.Machine

namespace Sys2Proof.Machine

/-! ## Tables of the scalar instructions -/

/-- R70: the operations on two scalars, with the result on s[a] and s[b]. -/
def scalarTable (b a d : BitVec 6) : List (Instr × (Word → Word → Word)) :=
  [(.sadd b a d, fun x y => x + y), (.ssub b a d, fun x y => x - y), (.smul b a d, fun x y => x * y),
   (.smulh b a d, fun x y => BitVec.ofInt 64 (x.toInt * y.toInt / 2 ^ 64)),
   (.smulhz b a d, fun x y => BitVec.ofNat 64 (x.toNat * y.toNat / 2 ^ 64)),
   (.sand b a d, fun x y => x &&& y), (.sor b a d, fun x y => x ||| y), (.sxor b a d, fun x y => x ^^^ y),
   (.sshl b a d, fun x y => x <<< (y.toNat % 64)), (.sshr b a d, fun x y => x >>> (y.toNat % 64)),
   (.ssra b a d, fun x y => x.sshiftRight (y.toNat % 64)),
   (.smin b a d, fun x y => if y.slt x then y else x), (.smax b a d, fun x y => if x.slt y then y else x),
   (.sminz b a d, fun x y => if y < x then y else x), (.smaxz b a d, fun x y => if x < y then y else x),
   (.sseq b a d, fun x y => if x = y then 1 else 0), (.ssne b a d, fun x y => if x = y then 0 else 1),
   (.sslt b a d, fun x y => if x.slt y then 1 else 0), (.ssltz b a d, fun x y => if x < y then 1 else 0),
   (.ssle b a d, fun x y => if x.sle y then 1 else 0), (.sslez b a d, fun x y => if x ≤ y then 1 else 0)]

/-- R70, R72, R73: the moves, the immediate forms and the constants, with the result on s[a] (for SLH, on s[d]). -/
def scalarImmediateTable (i : BitVec 10) (h : BitVec 16) (k a d : BitVec 6) : List (Instr × BitVec 6 × (Word → Word)) :=
  [(.smov a d, a, fun x => x), (.saddi i a d, a, fun x => x + i.signExtend 64),
   (.sandi i a d, a, fun x => x &&& i.signExtend 64), (.sori i a d, a, fun x => x ||| i.signExtend 64),
   (.sxori i a d, a, fun x => x ^^^ i.signExtend 64), (.sshli k a d, a, fun x => x <<< k.toNat),
   (.sshri k a d, a, fun x => x >>> k.toNat), (.ssrai k a d, a, fun x => x.sshiftRight k.toNat),
   (.sli h d, a, fun _ => h.signExtend 64),
   (.slh16 h d, d, fun x => x.extractLsb' 32 32 ++ h ++ x.extractLsb' 0 16),
   (.slh32 h d, d, fun x => x.extractLsb' 48 16 ++ h ++ x.extractLsb' 0 32),
   (.slh48 h d, d, fun x => h ++ x.extractLsb' 0 48)]

/-- R71: the divisions, with the result for a zero divisor and for any other. -/
def scalarDivideTable (b a d : BitVec 6) : List (Instr × (Word → Word) × (Word → Word → Word)) :=
  [(.sdiv b a d, fun _ => BitVec.allOnes 64, fun x y => x.sdiv y), (.sdivz b a d, fun _ => BitVec.allOnes 64, fun x y => x / y),
   (.srem b a d, fun x => x, fun x y => x.srem y), (.sremz b a d, fun x => x, fun x y => x % y)]

/-! ## Tables of the lane instructions -/

/-- What a lane instruction in the VR layout checks and reads: `old` says whether it reads its destination. -/
def vectorNeed (x : BitVec 1) (b a d : BitVec 7) (old : Bool) : Need :=
  { regs := a.toNat :: (operandB x b).regs ++ [d.toNat],
    reads := a.toNat :: (operandB x b).regs ++ (if old then [d.toNat] else []) }

/-- What a compact lane instruction checks and reads (R42): its destination is its first source. -/
def compactNeed (b : BitVec 5) (d : BitVec 6) : Need :=
  { regs := [d.toNat, b.toNat, d.toNat], reads := [d.toNat, b.toNat] }

/-- What an instruction with one source register and a destination checks and reads. -/
def unaryNeed (a d : BitVec 7) : Need := { regs := [a.toNat, d.toNat], reads := [a.toNat] }

/-- R144: the operations on two lane words. -/
def vectorTable (x : BitVec 1) (b a d : BitVec 7) : List (Instr × (LaneWord → LaneWord → LaneWord)) :=
  [(.vaddI32 x b a d, fun p q => p + q), (.vsubI32 x b a d, fun p q => p - q), (.vmulI32 x b a d, fun p q => p * q),
   (.vmulh x b a d, fun p q => BitVec.ofInt 32 (p.toInt * q.toInt / 2 ^ 32)),
   (.vmulhz x b a d, fun p q => BitVec.ofNat 32 (p.toNat * q.toNat / 2 ^ 32)),
   (.vand x b a d, fun p q => p &&& q), (.vor x b a d, fun p q => p ||| q), (.vxor x b a d, fun p q => p ^^^ q),
   (.vshl x b a d, fun p q => p <<< (q.toNat % 32)), (.vshr x b a d, fun p q => p >>> (q.toNat % 32)),
   (.vsra x b a d, fun p q => p.sshiftRight (q.toNat % 32)),
   (.vminI32 x b a d, fun p q => if q.slt p then q else p), (.vmaxI32 x b a d, fun p q => if p.slt q then q else p),
   (.vminZ32 x b a d, fun p q => if q < p then q else p), (.vmaxZ32 x b a d, fun p q => if p < q then q else p),
   (.vabsd x b a d, fun p q => if p.slt q then q - p else p - q)]

/-- R147: the extractions of the field of `q`'s position and width (from bits [4:0] and [13:8]) from `p`. -/
def fieldTable (x : BitVec 1) (b a d : BitVec 7) : List (Instr × (LaneWord → Nat → Nat → LaneWord)) :=
  [(.vbfeZ32 x b a d, fun p pos w => (p <<< (32 - w - pos)) >>> (32 - w)),
   (.vbfeI32 x b a d, fun p pos w => if w = 0 then 0 else (p <<< (32 - w - pos)).sshiftRight (32 - w))]

/-- R144, R145, R147: the operations that read their destination, with the result on a, b and the old d. -/
def vectorOldTable (x : BitVec 1) (b a d : BitVec 7) : List (Instr × (LaneWord → LaneWord → LaneWord → LaneWord)) :=
  let byte := fun (signed : Bool) (p : LaneWord) (j : Nat) =>
    if signed then (p.extractLsb' (8 * j) 8).signExtend 32 else (p.extractLsb' (8 * j) 8).setWidth 32
  let dot := fun (signed : Bool) (p q o : LaneWord) =>
    o + byte signed p 0 * byte signed q 0 + byte signed p 1 * byte signed q 1 + byte signed p 2 * byte signed q 2 +
      byte signed p 3 * byte signed q 3
  [(.vmadI32 x b a d, fun p q o => p * q + o), (.vdot4I8 x b a d, dot true), (.vdot4Z8 x b a d, dot false),
   (.vbfi x b a d, fun p q o =>
     let pos := q.toNat % 32
     let field := (BitVec.allOnes 32 >>> (32 - min (q.toNat / 256 % 64) (32 - pos))) <<< pos
     (o &&& ~~~field) ||| ((p <<< pos) &&& field))]

/-- R42: the compact integer operations on vd and vb. -/
def compactTable (b : BitVec 5) (d : BitVec 6) : List (Instr × (LaneWord → LaneWord → LaneWord)) :=
  [(.vaddI32Compact b d, fun p q => p + q), (.vsubI32Compact b d, fun p q => p - q),
   (.vmulI32Compact b d, fun p q => p * q), (.vandCompact b d, fun p q => p &&& q),
   (.vorCompact b d, fun p q => p ||| q), (.vxorCompact b d, fun p q => p ^^^ q),
   (.vshlCompact b d, fun p q => p <<< (q.toNat % 32)), (.vshrCompact b d, fun p q => p >>> (q.toNat % 32)),
   (.vsraCompact b d, fun p q => p.sshiftRight (q.toNat % 32)),
   (.vminI32Compact b d, fun p q => if q.slt p then q else p), (.vmaxI32Compact b d, fun p q => if p.slt q then q else p)]

/-- R146, R148: the operations on one lane word and the immediate forms. -/
def unaryTable (i : BitVec 8) (k : BitVec 5) (a d : BitVec 7) : List (Instr × (LaneWord → LaneWord)) :=
  [(.vpopc a d, fun p => BitVec.ofNat 32 ((List.range 32).filter p.getLsbD).length),
   (.vclz a d, fun p => BitVec.ofNat 32 (((List.range 32).find? (fun j => p.getMsbD j)).getD 32)),
   (.vbrev a d, fun p => p.reverse), (.vnot a d, fun p => ~~~p),
   (.vaddi i a d, fun p => p + i.signExtend 32), (.vandi i a d, fun p => p &&& i.signExtend 32),
   (.vshli k a d, fun p => p <<< k.toNat), (.vshri k a d, fun p => p >>> k.toNat),
   (.vsrai k a d, fun p => p.sshiftRight k.toNat)]

/-- R153, R154: the floating-point operations that do not read their destination. -/
def floatTable (x : BitVec 1) (b a d : BitVec 7) : List (Instr × Fmt × FpOp) :=
  [(.vfaddF32 x b a d, fp32, .add), (.vfsubF32 x b a d, fp32, .sub), (.vfmulF32 x b a d, fp32, .mul),
   (.vfminF32 x b a d, fp32, .min), (.vfmaxF32 x b a d, fp32, .max),
   (.vfaddH2 x b a d, fp16, .add), (.vfsubH2 x b a d, fp16, .sub), (.vfmulH2 x b a d, fp16, .mul),
   (.vfminH2 x b a d, fp16, .min), (.vfmaxH2 x b a d, fp16, .max),
   (.vfaddB2 x b a d, bf16, .add), (.vfsubB2 x b a d, bf16, .sub), (.vfmulB2 x b a d, bf16, .mul),
   (.vfminB2 x b a d, bf16, .min), (.vfmaxB2 x b a d, bf16, .max)]

/-- R153, R154: the fused multiply-adds, which read their destination. -/
def fusedTable (x : BitVec 1) (b a d : BitVec 7) : List (Instr × Fmt) :=
  [(.vfmaF32 x b a d, fp32), (.vfmaH2 x b a d, fp16), (.vfmaB2 x b a d, bf16)]

/-- R42, R153: the compact floating-point operations. -/
def compactFloatTable (b : BitVec 5) (d : BitVec 6) : List (Instr × FpOp) :=
  [(.vfaddF32Compact b d, .add), (.vfsubF32Compact b d, .sub), (.vfmulF32Compact b d, .mul), (.vfmaxF32Compact b d, .max)]

/-- R155 to R157: the special functions of one register, by number. -/
def specialTable (a d : BitVec 7) : List (Instr × Nat) :=
  [(.vfrcp a d, 0), (.vfrsq a d, 1), (.vfsqrt a d, 2), (.vfex2 a d, 3), (.vflg2 a d, 4), (.vfsin a d, 5),
   (.vfcos a d, 6), (.vftanh a d, 7), (.vfcls a d, 8)]

/-- R159: the packs, by kind, with how many registers they read. -/
def packTable (a d : BitVec 7) : List (Instr × Nat × Nat) := [(.vpackI8x4 a d, 0, 4), (.vpackTer16 a d, 1, 16), (.vpackE8m0 a d, 2, 4)]

/-- The registers after a lane result: the value, the sticky flags it raises, in the lanes that act and work. -/
def Regs.result (x : Regs) (g : Group) (d : Nat) (out : Nat → LaneOut) : Regs :=
  (x.setLanes d g.acts (fun l => (out l).value)).raise g.works (fun l => (out l).flags)

/-- R139, R128: the registers after a lane form, modified as `m` says: the value to a register or a predicate, the flags,
and the steps of the xorshift states. -/
def Regs.formed (x : Regs) (g r : Group) (f : LaneForm) (m : ModAlu) : Regs :=
  let out := laneEval r f m
  let y := if f.toPred then x.setPred f.d g.acts (fun l => (out l).value.getLsbD 0)
    else x.setLanes f.d g.acts (fun l => (out l).value)
  { y.raise g.works (fun l => (out l).flags) with
    rng := fun l => if g.acts l = true then (out l).steps.repeat xorshift (x.rng l) else x.rng l }

/-- R161: the quad exchanges and R162: the shuffles, with the lane that lane `l` reads; `c` is the lane's second operand. -/
def shuffleTable (x : BitVec 1) (b a d : BitVec 7) : List (Instr × (Nat → Nat → Nat)) :=
  [(.vshflIdx x b a d, fun _ c => c), (.vshflUp x b a d, fun l c => if c ≤ l then l - c else l),
   (.vshflDn x b a d, fun l c => l + c), (.vshflXor x b a d, fun l c => l ^^^ c)]

/-- R152: predicate logic on two predicate numbers. -/
def predicateTable (b a : BitVec 4) (d : BitVec 3) : List (Instr × (Bool → Bool → Bool)) :=
  [(.vpredAnd b a d, fun p q => p && q), (.vpredOr b a d, fun p q => p || q), (.vpredXor b a d, fun p q => p != q),
   (.vpredAndn b a d, fun p q => p && !q), (.vpredOrn b a d, fun p q => p || !q)]

/-- R150: the integer conditions. -/
def conditionHolds (c : Nat) (p q : LaneWord) : Bool :=
  match c with
  | 0 => p == q
  | 1 => p != q
  | 2 => p.slt q
  | 3 => p.sle q
  | 4 => q.slt p
  | 5 => q.sle p
  | 6 => p.ult q
  | 7 => p.ule q
  | 8 => q.ult p
  | _ => q.ule p

/-- R167: the votes over the working lanes `m` whose predicate holds in `h`. -/
def voteTable (n : BitVec 1) (p : BitVec 4) (d : BitVec 6) : List (Instr × ((Nat → Bool) → (Nat → Bool) → Word)) :=
  [(.vvoteAny n p d, fun m h => if (List.range 96).any (fun l => m l && h l) then 1 else 0),
   (.vvoteAll n p d, fun m h => if (List.range 96).all (fun l => !m l || h l) then 1 else 0),
   (.vvotePopc n p d, fun m h => BitVec.ofNat 64 ((List.range 96).filter (fun l => m l && h l)).length)]

/-! ## Words for control transfers -/

/-- R80: fewer than 32 of the block's entries are on the chip, so that a push spills none. -/
def HasRoom (b : Block) : Prop := (b.allEntries.filter (fun e => e.spilled.isNone)).length < 32

/-- The state after a push: the block has given one more entry its age. -/
def State.pushed (s : State) (b : Block) : State := s.putBlock { b with seq := b.seq + 1 }

/-- R83: the lanes that a lane predicate, xor neg, takes; a helper follows the lowest working lane of its quad, and its own
predicate where there is none. -/
def Group.taken (g : Group) (p : BitVec 3) (n : BitVec 1) (l : Nat) : Bool :=
  let k := if hasLane g.helper l then (((List.range 4).map (fun k => l / 4 * 4 + k)).find? g.works).getD l else l
  hasLane g.exec l && (g.pnum p.toNat k != decide (n = 1#1))

/-- R89, R99: a quad of the lane `l` holds a lane in `m`. -/
def quadHolds (m : Nat → Bool) (l : Nat) : Bool := (List.range 4).any (fun k => m (l / 4 * 4 + k))

/-- R89: the lanes that live on after the working lanes have ended. -/
def Group.survives (g : Group) (l : Nat) : Bool := hasLane g.present l && !hasLane g.helper l && !hasLane g.exec l

/-- R33: the special registers that hold no clock, with what each reads; `l` is the launch of the block. -/
def specialRegisterTable (s : State) (b : Block) (g : Group) (l : Launch) : List (Nat × Nat) :=
  let x := max 1 l.gridX
  [(0x000, g.gid), (0x001, b.groupCount g), (0x002, b.lin % x), (0x003, b.lin / x % max 1 l.gridY),
   (0x004, b.lin / x / max 1 l.gridY), (0x005, b.lin / s.clusterSize b), (0x006, s.clusterRank b),
   (0x007, s.clusterSize b), (0x008, if l.record.maq then l.predict else l.gridX), (0x009, l.gridY), (0x00A, l.gridZ),
   (0x00B, s.coreNumber (s.pairCore b)), (0x00C, s.pairCore b % 512 / 16), (0x00D, dieOf (s.pairCore b) % 8),
   (0x00E, s.fabric.devid.toNat), (0x00F, g.role), (0x010, g.roleGid), (0x011, b.core % 512),
   (0x100, g.frm.toNat), (0x101, g.ten.toNat), (0x102, if g.chk then 1 else 0), (0x103, g.invtol.toNat),
   (0x104, g.invst.toNat), (0x105, g.repidx.toNat), (0x106, if g.idz then 1 else 0), (0x107, g.stoseed.toNat),
   (0x108, if (s.core b.core).rsv then 1 else 0), (0x109, g.opkey.toNat), (0x10A, g.cklive.toNat),
   (0x10B, g.fstrm.toNat), (0x200, l.header.part.toNat), (0x800, g.sepc.toNat),
   (0x801, if s.superOf b then 1 else 0), (0x802, s.redinj.toNat), (0x803, s.mig.desc.toNat),
   (0x804, s.mig.cause.toNat * 256 + s.mig.state.toNat * 4)]

/-- R33, R90: the writable special registers of a group, with what a write of a legal value leaves of the group. -/
def groupRegisterTable (g : Group) (v : Word) : List (Nat × Bool × Group) :=
  [(0x100, decide (v.toNat % 8 ≤ 4), { g with frm := v.setWidth 3 }), (0x101, true, { g with ten := v.setWidth 7 }),
   (0x102, true, { g with chk := v.getLsbD 0 }), (0x103, true, { g with invtol := v.setWidth 32 }),
   (0x104, decide (v.toNat % 64 ≤ 33), { g with invst := v.setWidth 12 }), (0x105, true, { g with repidx := v.setWidth 6 }),
   (0x106, true, { g with idz := v.getLsbD 0 }), (0x109, true, { g with opkey := v.setWidth 16 }),
   (0x10A, true, { g with cklive := v.setWidth 12 }),
   (0x10B, decide (v.toNat % 4096 < 0xFFE), { g with fstrm := v.setWidth 12 }), (0x800, true, { g with sepc := v })]

/-- R350: the fields of a record that its group and block give. -/
def RecordOf (r : TrapRecord) (s : State) (b : Block) (g : Group) : Prop :=
  r.pc = g.pc ∧ r.sup = s.superOf b ∧ r.ctx = s.ctxOf b ∧ r.gid = g.gid ∧ r.block = b.lin ∧ r.repidx = g.repidx ∧
  r.invst = g.invst

/-- R346, R351: the group has stopped with one record that leaves for the fault server of its launch, the PC and the masks
as they were. -/
def StopsWith (i : Instr) (s : State) (b : Block) (g : Group) (l : Launch) (p : TrapRecord → Prop) : Prop :=
  GoesTo i s (fun t _ h => h.status = .stopped ∧ h.pc = g.pc ∧ h.exec = g.exec ∧ h.present = g.present ∧
    ∃ x, h.stop = some x ∧ RecordOf x.record s b g ∧ p x.record ∧
      t.records = s.records ++ [⟨some l.fsrv, b.launch, x.record, none⟩])

/-- R353: the answer that lane `l` of a supervisor group sends. -/
def Group.sends (g : Group) (l : Nat) : Option (Word × Byte × Word) :=
  let word := fun (r : Nat) => g.vec (r + 1) l ++ g.vec r l
  if word 0 = 0 then none
  else if hasLane g.exec l then some (word 0, (g.vec 2 l).setWidth 8, word 4)
  else if (g.vec 3 l).msb then some (word 0, 3, 0)
  else none

/-! ## Words for memory -/

/-- R209: the lanes that take part in a memory instruction: active, guarded, not performed before (R212), and helpers only
for loads. `r` is the group as the unit reads it. -/
def Group.takes (r : Group) (guard : Nat) (helpers : Bool) (l : Nat) : Bool :=
  hasLane r.exec l && r.pnum guard l && (helpers || !hasLane r.helper l) && !hasLane r.redo l

/-- The block holds no store back and the group none of its own: neither a maquette block nor one of a pair. -/
def Plain (b : Block) (g : Group) : Prop := b.mode = .normal ∧ b.pair = none ∧ g.holds = []

/-- R211, R393, R404: an access of `n` bytes at `va` passes its checks and is served by the local physical address `pa`,
whose home holds no request back. -/
def Reaches (s : State) (b : Block) (k : Access) (n : Nat) (va : Word) (pa : Nat) (swc uncached : Bool) : Prop :=
  canonical va = true ∧ va.toNat % n = 0 ∧ s.heldByHome pa = false ∧
  ∃ mig, s.translate b.core (s.ctxOf b) (!s.superOf b) k va = .ok (.local pa swc uncached mig)

/-- R235, R242, R400, R401: the values that a generic load of the executing group may return for a byte: what the group has
read of its word ahead of its turn; or the latest that the core has seen, or that of a clean copy in its L1 or, on a
software-coherent page, in its die's L2, where no dirty byte stands before it. -/
def State.mayRead (s : State) (core : Nat) (swc uncached : Bool) (a : Nat) (v : Byte) : Prop :=
  (∃ e ∈ s.earlies, e.group = s.cur ∧ e.pa = a / 8 * 8 ∧ e.swc = swc ∧ e.uncached = uncached ∧ e.bytes[a % 8]? = some v) ∨
  if uncached then v = s.home a
  else v = s.look core swc a ∨
    (findCopy (s.core core).l1Dirty (l1Key swc a) = none ∧
      (findCopy (s.core core).l1Clean (l1Key swc a) = some v ∨
        (swc = true ∧ findCopy (s.die (dieOf core)).dirty a = none ∧ findCopy (s.die (dieOf core)).clean a = some v)))

/-- R236, R400: the values that a load of the constant path may return for a byte: the L2's, its clean copy among them, or
the cache's. -/
def State.mayFetch (s : State) (core : Nat) (swc uncached : Bool) (a : Nat) (v : Byte) : Prop :=
  if uncached then v = s.home a
  else v = s.l2Byte (dieOf core) swc a ∨ findCopy (s.core core).constant a = some v ∨
    (swc = true ∧ findCopy (s.die (dieOf core)).dirty a = none ∧ findCopy (s.die (dieOf core)).clean a = some v)

/-- R217: word `j` of the destination of a load of the bytes `bs`, short values sign- or zero-extended. -/
def loadWord (signed : Bool) (bs : List Byte) (j : Nat) : LaneWord :=
  if signed then BitVec.ofInt 32 (signedOf (8 * bs.length) (bytesNat bs)) else BitVec.ofNat 32 (bytesNat bs / 2 ^ (32 * j))

/-- R217: the registers after the words `w` of lanes arrive in `n` registers from `t`. -/
def Regs.fill (x : Regs) (t n : Nat) (m : Nat → Bool) (w : Nat → Nat → LaneWord) : Regs :=
  { x with vec := fun r l => if t ≤ r ∧ r < t + n ∧ m l = true then w l (r - t) else x.vec r l }

/-- R217: the lane loads, with the size and whether they sign-extend. -/
def loadTable (gd : BitVec 2) (x : BitVec 7) (b : BitVec 6) (t : BitVec 7) : List (Instr × Nat × Bool) :=
  [(.ldS8 gd x b t, 1, true), (.ldZ8 gd x b t, 1, false), (.ldS16 gd x b t, 2, true), (.ldZ16 gd x b t, 2, false),
   (.ld32 gd x b t, 4, false), (.ld64 gd x b t, 8, false), (.ld128 gd x b t, 16, false)]

/-- R218: the lane stores, with the size. -/
def storeTable (gd : BitVec 2) (x : BitVec 7) (b : BitVec 6) (t : BitVec 7) : List (Instr × Nat) :=
  [(.st8 gd x b t, 1), (.st16 gd x b t, 2), (.st32 gd x b t, 4), (.st64 gd x b t, 8), (.st128 gd x b t, 16)]

/-- R224: the lane atomics, with their operation number (R57). -/
def atomicTable (x : BitVec 7) (b : BitVec 6) (t : BitVec 7) : List (Instr × Nat) :=
  [(.atomAdd32 x b t, 0), (.atomAdd64 x b t, 1), (.atomFaddF32 x b t, 2), (.atomExch32 x b t, 3), (.atomMinI32 x b t, 4),
   (.atomMaxI32 x b t, 5), (.atomMinZ32 x b t, 6), (.atomMaxZ32 x b t, 7), (.atomAnd32 x b t, 8), (.atomOr32 x b t, 9),
   (.atomXor32 x b t, 10), (.atomExch64 x b t, 11), (.atomFminF32 x b t, 12), (.atomFmaxF32 x b t, 13),
   (.atomCas32 x b t, 14), (.atomCas64 x b t, 15)]

/-- R224: what an atomic stores: from the old value `m`, its operand or comparand `a` and the new value `n` of a
compare-and-swap. -/
def atomicResult (k m a n : Nat) : Nat :=
  let old := BitVec.ofNat 32 m
  let opd := BitVec.ofNat 32 a
  match k with
  | 0 => (old + opd).toNat
  | 1 => (BitVec.ofNat 64 m + BitVec.ofNat 64 a).toNat
  | 2 => (fpElem fp32 .add .plain .rne 0 0 m a 0).1
  | 3 => a
  | 4 => (if opd.slt old then opd else old).toNat
  | 5 => (if old.slt opd then opd else old).toNat
  | 6 => (if opd < old then opd else old).toNat
  | 7 => (if old < opd then opd else old).toNat
  | 8 => (old &&& opd).toNat
  | 9 => (old ||| opd).toNat
  | 10 => (old ^^^ opd).toNat
  | 11 => a
  | 12 => (minMaxBits fp32 false m a).1
  | 13 => (minMaxBits fp32 true m a).1
  | _ => if m = a then n else m

/-- R57: how many bytes an atomic acts on, and how many registers hold its operands. -/
def atomicShape (k : Nat) : Nat × Nat :=
  if k = 15 then (8, 4) else if k = 14 then (4, 2) else if k = 1 ∨ k = 11 then (8, 2) else (4, 1)

/-- R223: the operands of lane `l`, from the registers from `t`. -/
def Group.atomicInputs (r : Group) (k t l : Nat) : Nat × Nat :=
  let word := fun (j : Nat) => (r.vec (t + j) l).toNat
  if k = 15 then (word 0 + 2 ^ 32 * word 1, word 2 + 2 ^ 32 * word 3)
  else if k = 14 then (word 0, word 1)
  else if k = 1 ∨ k = 11 then (word 0 + 2 ^ 32 * word 1, 0)
  else (word 0, 0)

/-- Read-modify-writes of `n` bytes, one after the other, on the bytes `m`: each has a lane, a place and two operands. The
old value of each lane, and the bytes after all of them. -/
def readModifyWrites (n : Nat) (op : Nat → Nat → Nat → Nat) (qs : List (Nat × (Nat × Nat) × Nat × Nat))
    (m : Nat × Nat → Byte) : (Nat → Nat) × (Nat × Nat → Byte) :=
  match qs with
  | [] => (fun _ => 0, m)
  | (l, (k, a), x, y) :: rest =>
    let old := bytesNat ((List.range n).map (fun j => m (k, a + j)))
    let new := op old x y
    let r := readModifyWrites n op rest (fun p =>
      if p.1 = k ∧ a ≤ p.2 ∧ p.2 < a + n then BitVec.ofNat 8 (new / 256 ^ (p.2 - a)) else m p)
    (fun j => if j = l then old else r.1 j, r.2)

/-- A byte of the scratchpad of a block. -/
def State.scratchByte (s : State) (k off : Nat) : Byte :=
  match s.block? k with
  | some b => readCell b.scratch off
  | none => 0

/-- R400: no dirty byte of the other coherence class stands at an address, on the core or its die. -/
def OneClass (s : State) (core : Nat) (swc : Bool) (a : Nat) : Prop :=
  findCopy (s.core core).l1Dirty (l1Key (!swc) a) = none ∧
  (swc = false → findCopy (s.die (dieOf core)).dirty a = none)

/-! ## Words for operators -/

/-- R264: the trailer of a slot: GEN in bits [23:0], STATE in [27:24], ERR in [31:28], TAG in [63:32]. -/
def trailerOf (x : Slot) : Word :=
  let state : BitVec 4 := match x.state with
    | .empty => 0
    | .filling => 1
    | .queued => 2
    | .computing => 3
    | .ready => 4
  x.tag ++ x.err ++ state ++ x.gen

/-- R258: a store request to an inlet slot is refused: by remote access rules, by the same-context policy, by the state of
the slot, or by another writer's claim. -/
def Operator.refuses (o : Operator) (q : SlotRequest) : Prop :=
  let x := o.slot q.slot
  (q.remote = true ∧ (o.desc.racc = false ∨ (o.desc.key ≠ 0 ∧ o.desc.key ≠ q.key))) ∨
  (o.desc.wpol = 2 ∧ q.isGroup = true ∧ q.ctx ≠ o.ctx) ∨
  (x.state = .queued ∨ x.state = .computing ∨ (o.desc.rmode = 1 ∧ x.state = .ready)) ∨
  (o.desc.wpol = 1 ∧ x.state = .filling ∧ x.claim ≠ none ∧ x.claim ≠ some q.tag)

/-- The step answers a next state that satisfies `p`. -/
def StepsTo (i : Instr) (s : State) (p : State → Prop) : Prop := ∃ t, exec i s = .next t ∧ p t

/-- R292, R353: the status of a launch that the fault server (7) or the driver (8) ends: over a status that its shape gave
it, and after an earlier such end that one's. -/
def Launch.abandoned (l : Launch) (code : Nat) : Option Nat := if l.status = some 7 ∨ l.status = some 8 then l.status else some code

/-! ## Words for the array, the batches and the barriers -/

/-- R314, R318, R327: the instruction queues one piece of matrix work at its core, in the open batch of its group; its
image, if it has one, is in the scratchpad of the block `img`. -/
def Queues (i : Instr) (s : State) (b : Block) (g : Group) (w : ArrayWork) (img : Nat) : Prop :=
  let c := s.core b.core
  RunsIn i s { s.putCore { c with queue := c.queue ++ [⟨s.nextId, b.id, s.cur.grp, w, [], img, false⟩] } with nextId := s.nextId + 1 }
    { g with matrix := g.matrix ++ [⟨s.nextId, 0, false, none⟩] } (g.pc + 4) g.regs

/-- A cell of the accumulator memory of a block (R199). -/
def Block.cell (b : Block) (unit row cell : Nat) : BitVec 32 := readCell b.acc (cellKey unit row cell)

/-- R281, R327: the array takes its oldest work from its queue and performs it: the block goes from `b` to one that
satisfies `p`, and the group that issued the work finds it done, with the cause recorded. -/
def Performs (i : Instr) (s : State) (core : Nat) (j : ArrayJob) (rest : List ArrayJob) (b : Block)
    (cause : Option (Byte × Word)) (p : Block → Prop) : Prop :=
  StepsTo i s (fun t => t.mem = s.mem ∧ (t.core core).queue = rest ∧ ∃ b', t.block? j.blk = some b' ∧ p b' ∧
    ∀ k, b'.groups[k]? = (b.groups[k]?).map (fun g =>
      if k = j.grp then { g with matrix := g.matrix.map (fun w =>
        if w.id = j.id then { w with done := true, cause := cause } else w) } else g))

/-- R325: a copy is complete: it is in progress no more, and its group finds it done without a cause. -/
def Settles (s t : State) (c : Copy) : Prop :=
  t.copies = s.copies.filter (fun x => x.id != c.id) ∧
  ∀ b, s.block? c.blk = some b → ∃ b', t.block? c.blk = some b' ∧
    ∀ k, b'.groups[k]? = (b.groups[k]?).map (fun g =>
      if k = c.grp then { g with copies := g.copies.map (fun w =>
        if w.id = c.id then { w with done := true, cause := none } else w) } else g)

/-- R235, R242: while no frame migrates, the core reads every byte of memory as before. -/
def Unmoved (s t : State) (core : Nat) : Prop :=
  s.mig.state ≠ 2#2 → ∀ swc a, OneClass s core swc a → t.look core swc a = s.look core swc a

/-- A word of `n` bytes at a place of a scratchpad holds `v`, modulo its size, and every other scratchpad byte is as
before. -/
def Stored (s t : State) (k off n v : Nat) : Prop :=
  ∀ j o, (s.block? j).isSome = true →
    t.scratchByte j o = if j = k ∧ off ≤ o ∧ o < off + n then BitVec.ofNat 8 (v / 256 ^ (o - off)) else s.scratchByte j o

/-- R330: the word of a barrier object: PHASE in bit 0, ARRIVE in [11:1], EXPECT in [22:12], BYTES in [50:23]. -/
def objectWord (phase arrive expect : Nat) (bytes : Int) : Nat :=
  phase + 2 * arrive + 2 ^ 12 * expect + 2 ^ 23 * (bytes % 2 ^ 28).toNat

/-- R330: the word after an update: with nothing pending the phase flips and the arrivals are expected anew. -/
def settledWord (phase arrive expect : Nat) (bytes : Int) : Nat :=
  if arrive = 0 ∧ bytes = 0 then objectWord (1 - phase) expect expect 0 else objectWord phase arrive expect bytes

/-- The instruction answers a state in which its group waits, out of the active set. -/
def Waits' (i : Instr) (s : State) (w : Wait) (p : Group → Prop) (q : State → Prop) : Prop :=
  GoesTo i s (fun t _ h => h.status = .waiting w ∧ h.active = false ∧ p h ∧ q t)

/-- R329: the groups of a block that had arrived stand past their barrier, and the other ones as before. -/
def Departed (b b' : Block) (arrived : Group → Bool) (w : Wait) : Prop :=
  b'.groups.length = b.groups.length ∧ ∀ (k : Nat) (g h : Group), b.groups[k]? = some g → b'.groups[k]? = some h →
    (arrived g = false → h = g) ∧
    (arrived g = true → h.pc = g.pc + 4 ∧ arrived h = false ∧ h.scalars = g.scalars ∧ h.vectors = g.vectors ∧
      h.exec = g.exec ∧ h.status = if g.status = .waiting w then .running else g.status)

end Sys2Proof.Machine

/-! ## Scalars -/

/-- R70: every operation on two scalars writes the scalar of the table and advances the PC by 4; nothing else changes. A
compacted group may name only s0 as a destination (R67). -/
def Clauses.ScalarArithmetic : Prop :=
  ∀ (s : State) (blk : Block) (g : Group) (b a d : BitVec 6), s.current = some (blk, g) →
    (d = 0 ∨ g.compacted = false) →
    ∀ e ∈ scalarTable b a d,
      RunsTo e.1 s g (g.pc + 4) (g.regs.setScalar g.present d.toNat (e.2 (g.scalar a.toNat) (g.scalar b.toNat)))

/-- R72, R73: the immediate forms, SMOV, SLI and SLH. -/
def Clauses.ScalarImmediates : Prop :=
  ∀ (s : State) (blk : Block) (g : Group) (i : BitVec 10) (h : BitVec 16) (k a d : BitVec 6),
    s.current = some (blk, g) → (d = 0 ∨ g.compacted = false) →
    ∀ e ∈ scalarImmediateTable i h k a d,
      RunsTo e.1 s g (g.pc + 4) (g.regs.setScalar g.present d.toNat (e.2.2 (g.scalar e.2.1.toNat)))

/-- R70, R71: the divisions: a zero divisor gives the value that R71 names and sets SFLG.IDZ; nothing traps. -/
def Clauses.ScalarDivision : Prop :=
  ∀ (s : State) (blk : Block) (g : Group) (b a d : BitVec 6), s.current = some (blk, g) →
    (d = 0 ∨ g.compacted = false) →
    ∀ e ∈ scalarDivideTable b a d,
      let x := g.scalar a.toNat
      let y := g.scalar b.toNat
      RunsTo e.1 s { g with idz := g.idz || decide (y = 0) } (g.pc + 4)
        (g.regs.setScalar g.present d.toNat (if y = 0 then e.2.1 x else e.2.2 x y))

/-- R74: SGETL copies one lane of a register, zero-extended; the lane number may be the whole value of a scalar. An absent
lane reads 0 (assumption 36). A lane number of 96 or more raises 0x0A (UnitChecks). -/
def Clauses.LaneToScalar : Prop :=
  ∀ (s : State) (blk : Block) (g : Group) (x : BitVec 1) (l a : BitVec 7) (d : BitVec 6) (n : Nat),
    s.current = some (blk, g) → n = (if x = 1#1 then (g.scalar (l.toNat % 64)).toNat else l.toNat) → n < 96 →
    Issues s blk g { region := if d = 0#6 then none else some 0x07, regs := [a.toNat], reads := [a.toNat] } →
    RunsTo (.sgetl x l a d) s g (g.pc + 4)
      (g.regs.setScalar g.present d.toNat
        (if hasLane g.present n then ((g.seen s.tick [a.toNat] false).vec a.toNat n).setWidth 64 else 0))

/-- R74: SSETL writes bits [31:0] of a scalar into one present lane of a register, whatever its EXEC bit. -/
def Clauses.ScalarToLane : Prop :=
  ∀ (s : State) (blk : Block) (g : Group) (x : BitVec 1) (l : BitVec 7) (a : BitVec 6) (d : BitVec 7) (n : Nat),
    s.current = some (blk, g) → n = (if x = 1#1 then (g.scalar (l.toNat % 64)).toNat else l.toNat) → n < 96 →
    d.toNat < g.budget →
    RunsTo (.ssetl x l a d) s g (g.pc + 4)
      (g.regs.setLanes d.toNat (fun k => hasLane g.present k && decide (k = n))
        (fun _ => (g.scalar a.toNat).setWidth 32))

/-! ## Lanes -/

/-- R42, R144, R147: the integer lane operations that do not read their destination: in the VR layout, in the compact one,
the compact move and the bit-field extractions. -/
def Clauses.LaneIntegers : Prop :=
  (∀ (x : BitVec 1) (b a d : BitVec 7), ∀ e ∈ vectorTable x b a d, Does e.1 (vectorNeed x b a d false) 2 (fun _ g r =>
      g.regs.setLanes d.toNat g.acts (fun l => e.2 (r.vec a.toNat l) (r.operand (operandB x b) l)))) ∧
  (∀ (x : BitVec 1) (b a d : BitVec 7), ∀ e ∈ fieldTable x b a d, Does e.1 (vectorNeed x b a d false) 2 (fun _ g r =>
      g.regs.setLanes d.toNat g.acts (fun l =>
        let q := r.operand (operandB x b) l
        let pos := q.toNat % 32
        e.2 (r.vec a.toNat l) pos (min (q.toNat / 256 % 64) (32 - pos))))) ∧
  (∀ (b : BitVec 5) (d : BitVec 6), ∀ e ∈ compactTable b d, Does e.1 (compactNeed b d) 1 (fun _ g r =>
      g.regs.setLanes d.toNat g.acts (fun l => e.2 (r.vec d.toNat l) (r.vec b.toNat l)))) ∧
  (∀ (b : BitVec 5) (d : BitVec 6),
    Does (.vmovCompact b d) { regs := [b.toNat, d.toNat], reads := [b.toNat] } 1 (fun _ g r =>
      g.regs.setLanes d.toNat g.acts (fun l => r.vec b.toNat l)))

/-- R144, R145, R147, R149: the lane operations that read their destination: VMAD, VDOT4, VBFI and VSEL. -/
def Clauses.LaneAccumulate : Prop :=
  (∀ (x : BitVec 1) (b a d : BitVec 7), ∀ e ∈ vectorOldTable x b a d, Does e.1 (vectorNeed x b a d true) 2 (fun _ g r =>
      g.regs.setLanes d.toNat g.acts (fun l =>
        e.2 (r.vec a.toNat l) (r.operand (operandB x b) l) (r.vec d.toNat l)))) ∧
  (∀ (n : BitVec 1) (p : BitVec 4) (a d : BitVec 7),
    Does (.vsel n p a d) { regs := [a.toNat, d.toNat], reads := [a.toNat, d.toNat], flags := flagNumber p.toNat } 2
      (fun _ g r => g.regs.setLanes d.toNat g.acts (fun l =>
        if r.pnum p.toNat l = true ↔ n = 0#1 then r.vec a.toNat l else r.vec d.toNat l)))

/-- R146, R148: the operations on one register, the immediate forms and the constant. -/
def Clauses.LaneUnary : Prop :=
  (∀ (i : BitVec 8) (k : BitVec 5) (a d : BitVec 7), ∀ e ∈ unaryTable i k a d, Does e.1 (unaryNeed a d) 2 (fun _ g r =>
      g.regs.setLanes d.toNat g.acts (fun l => e.2 (r.vec a.toNat l)))) ∧
  (∀ (i : BitVec 15) (d : BitVec 7), Does (.vli i d) { regs := [d.toNat] } 2 (fun _ g _ =>
      g.regs.setLanes d.toNat g.acts (fun _ => i.signExtend 32)))

/-- R153, R154, R135: the floating-point operations write the value that `fpLane` delivers in the group's mode and raise its
flags, in the VR and the compact layout. -/
def Clauses.LaneFloats : Prop :=
  (∀ (x : BitVec 1) (b a d : BitVec 7), ∀ e ∈ floatTable x b a d, Does e.1 (vectorNeed x b a d false) 2 (fun _ g r =>
      g.regs.result g d.toNat (fun l =>
        fpLane e.2.1 e.2.2 .plain (g.mode false l) 0 0 (r.vec a.toNat l) (r.operand (operandB x b) l) 0))) ∧
  (∀ (x : BitVec 1) (b a d : BitVec 7), ∀ e ∈ fusedTable x b a d, Does e.1 (vectorNeed x b a d true) 2 (fun _ g r =>
      g.regs.result g d.toNat (fun l =>
        fpLane e.2 .fma .plain (g.mode false l) 0 0 (r.vec a.toNat l) (r.operand (operandB x b) l) (r.vec d.toNat l)))) ∧
  (∀ (b : BitVec 5) (d : BitVec 6), ∀ e ∈ compactFloatTable b d, Does e.1 (compactNeed b d) 1 (fun _ g r =>
      g.regs.result g d.toNat (fun l =>
        fpLane fp32 e.2 .plain (g.mode false l) 0 0 (r.vec d.toNat l) (r.vec b.toNat l) 0)))

/-- R155 to R157: the special functions, the class mask, VLANEID and VTID: the thread index is the number of the group that
the lane belongs to, times 96, plus the lane. -/
def Clauses.LaneSpecials : Prop :=
  (∀ (a d : BitVec 7), ∀ e ∈ specialTable a d, Does e.1 (unaryNeed a d) 2 (fun _ g r =>
      g.regs.result g d.toNat (fun l => sfuLane e.2 (g.mode false l) (r.vec a.toNat l)))) ∧
  (∀ (d : BitVec 7), Does (.vlaneid d) { regs := [d.toNat] } 2 (fun _ g _ =>
      g.regs.setLanes d.toNat g.acts (fun l => BitVec.ofNat 32 l))) ∧
  (∀ (d : BitVec 7), Does (.vtid d) { regs := [d.toNat] } 2 (fun _ g _ =>
      g.regs.setLanes d.toNat g.acts (fun l =>
        let grp := if g.compacted then ((g.carrier.getD (l / 4) none).getD 0) else g.gid
        BitVec.ofNat 32 (grp * 96 + l))))

/-- R158, R159, R128: VCVT and the packs; under stochastic rounding (mode 4) each converted element of an acting lane steps
its xorshift state once. -/
def Clauses.LaneConversions : Prop :=
  (∀ (f h : BitVec 4) (a d : BitVec 7), Does (.vcvt f h a d) (unaryNeed a d) 2 (fun _ g r =>
      (g.regs.result g d.toNat (fun l => cvtLane f h .plain (g.mode true l) 0 0 (r.vec a.toNat l))).stepStates g.acts
        (if g.frm.toNat = 4 then 1 else 0))) ∧
  (∀ (a d : BitVec 7), ∀ e ∈ packTable a d,
    let regs := (List.range e.2.2).map (fun k => a.toNat + k)
    Does e.1 { regs := regs ++ [d.toNat], reads := regs } 2 (fun _ g r =>
      (g.regs.result g d.toNat (fun l =>
        let p := fun (k : Nat) => r.vec (a.toNat + k) l
        if e.2.1 = 0 then packI8 (p 0) (p 1) (p 2) (p 3)
        else if e.2.1 = 1 then ⟨BitVec.ofNat 32 (packTer p 16).1, flagsOf false false (packTer p 16).2 false false, 0⟩
        else
          let o := packE8 (g.mode true l) [p 0, p 1, p 2, p 3]
          ⟨BitVec.ofNat 32 o.1, o.2.1, 0⟩)).stepStates g.acts
        (if e.2.1 = 2 ∧ g.frm.toNat = 4 then 4 else 0)))

/-- R150 to R152: compares and predicate logic write a predicate in the acting lanes; p0 stays true. VFCMP raises NV. -/
def Clauses.LanePredicates : Prop :=
  (∀ (x : BitVec 1) (b a : BitVec 7) (c : BitVec 4) (p : BitVec 3),
    Does (.vicmp x b a c p) { regs := a.toNat :: (operandB x b).regs, reads := a.toNat :: (operandB x b).regs } 2
      (fun _ g r => g.regs.setPred p.toNat g.acts (fun l =>
        conditionHolds c.toNat (r.vec a.toNat l) (r.operand (operandB x b) l)))) ∧
  (∀ (x : BitVec 1) (b a : BitVec 7) (c : BitVec 4) (p : BitVec 3),
    Does (.vfcmp x b a c p) { regs := a.toNat :: (operandB x b).regs, reads := a.toNat :: (operandB x b).regs } 2
      (fun _ g r =>
        let o := fun (l : Nat) => fcmpLane c.toNat (r.vec a.toNat l) (r.operand (operandB x b) l)
        (g.regs.setPred p.toNat g.acts (fun l => (o l).1)).raise g.works (fun l => if (o l).2 then 1#6 else 0#6))) ∧
  (∀ (b a : BitVec 4) (d : BitVec 3), ∀ e ∈ predicateTable b a d,
    Does e.1 { flags := flagNumber a.toNat || flagNumber b.toNat } 2 (fun _ g r =>
      g.regs.setPred d.toNat g.acts (fun l => e.2 (r.pnum a.toNat l) (r.pnum b.toNat l)))) ∧
  (∀ (a : BitVec 4) (d : BitVec 3),
    Does (.vpredNot a d) { flags := flagNumber a.toNat } 2 (fun _ g r =>
      g.regs.setPred d.toNat g.acts (fun l => !r.pnum a.toNat l)) ∧
    Does (.vpredMov a d) { flags := flagNumber a.toNat } 2 (fun _ g r =>
      g.regs.setPred d.toNat g.acts (fun l => r.pnum a.toNat l))) ∧
  (∀ (v : BitVec 7) (d : BitVec 3),
    Does (.vpredFromv v d) { regs := [v.toNat], reads := [v.toNat] } 2 (fun _ g r =>
      g.regs.setPred d.toNat g.acts (fun l => decide (r.vec v.toNat l ≠ 0))))

/-- R160 to R162: exchanges read the old value of another lane, 0 from an absent one; a shuffle whose lane number is 96 or
more reads the lane's own value. -/
def Clauses.LaneExchanges : Prop :=
  (∀ (q : BitVec 4) (a d : BitVec 7), Does (.vqx q a d) (unaryNeed a d) 2 (fun _ g r =>
      g.regs.setLanes d.toNat g.acts (fun l =>
        let src := l / 4 * 4 + (if q.toNat < 3 then l % 4 ^^^ (q.toNat + 1) else q.toNat - 3)
        if hasLane g.present src then r.vec a.toNat src else 0))) ∧
  (∀ (x : BitVec 1) (b a d : BitVec 7), ∀ e ∈ shuffleTable x b a d, Does e.1 (vectorNeed x b a d false) 2 (fun _ g r =>
      g.regs.setLanes d.toNat g.acts (fun l =>
        let n := e.2 l (r.operand (operandB x b) l).toNat
        let src := if 96 ≤ n then l else n
        if hasLane g.present src then r.vec a.toNat src else 0)))

/-- R163 to R166: VRED gives every acting lane of a span the reduction of the span in the fixed tree order, and VSCAN gives
each position the running reduction in ascending order, inclusive or exclusive, over quads or the group; positions outside
S contribute the identity. Bit 0 of VSCAN's field is the exclusive form and bit 1 the quad span. -/
def Clauses.LaneReductions : Prop :=
  (∀ (p : BitVec 2) (rop : BitVec 4) (a d : BitVec 7), Does (.vred p rop a d) (unaryNeed a d) 2 (fun _ g r =>
      let x := fun (l : Nat) => if g.works l then r.vec a.toNat l else reduceIdentity rop.toNat
      let tree := reduceTree rop.toNat (g.mode false 0) x
      let out := fun (l : Nat) =>
        if p = 1#2 then tree 2 (l / 4 * 4) else if p = 2#2 then tree 5 (l / 32 * 32)
        else reduceGroup rop.toNat (g.mode false 0) x
      (g.regs.setLanes d.toNat g.acts (fun l => (out l).1)).raise g.works (fun l => (out l).2))) ∧
  (∀ (p : BitVec 2) (rop : BitVec 4) (a d : BitVec 7), Does (.vscan p rop a d) (unaryNeed a d) 2 (fun _ g r =>
      let x := fun (l : Nat) => if g.works l then r.vec a.toNat l else reduceIdentity rop.toNat
      let run := fun (n lo : Nat) => scanOutputs rop.toNat (g.mode false 0) x (p.getLsbD 0) n lo (reduceIdentity rop.toNat) 0
      let out := fun (l : Nat) =>
        if p.getLsbD 1 then (run 4 (l / 4 * 4)).getD (l % 4) (0, 0) else (run 96 0).getD l (0, 0)
      (g.regs.setLanes d.toNat g.acts (fun l => (out l).1)).raise g.works (fun l => (out l).2)))

/-- R167: the votes over the lanes of S in which a predicate number, xor neg, holds; BALLOT writes its three beats to three
scalars. -/
def Clauses.Votes : Prop :=
  (∀ (n : BitVec 1) (p : BitVec 4) (d : BitVec 6), ∀ e ∈ voteTable n p d,
    Does e.1 { region := if d = 0#6 then none else some 0x07, flags := flagNumber p.toNat } 2 (fun _ g r =>
      g.regs.setScalar g.present d.toNat (e.2 g.works (fun l => r.pnum p.toNat l != decide (n = 1#1))))) ∧
  (∀ (n : BitVec 1) (p : BitVec 4) (d : BitVec 6), d.toNat ≤ 61 →
    Does (.vvoteBallot n p d) { region := some 0x07, flags := flagNumber p.toNat } 2 (fun _ g r =>
      let beat := fun (j : Nat) => BitVec.ofNat 64 ((List.range 32).foldl (fun acc i =>
        if g.works (32 * j + i) && (r.pnum p.toNat (32 * j + i) != decide (n = 1#1)) then acc + 2 ^ i else acc) 0)
      ((g.regs.setScalar g.present d.toNat (beat 0)).setScalar g.present (d.toNat + 1) (beat 1)).setScalar g.present
        (d.toNat + 2) (beat 2)))

/-- R168, R169: VFLG reads and clears sticky flags (the read comes first), VBK moves words of the bracket registers. -/
def Clauses.FlagsAndBrackets : Prop :=
  (∀ (m : BitVec 6) (d : BitVec 7),
    Does (.vflgRd m d) { regs := [d.toNat], flags := true } 2 (fun _ g r =>
      g.regs.setLanes d.toNat g.acts (fun l => (r.laneFlags l &&& m).setWidth 32)) ∧
    Does (.vflgClr m) {} 2 (fun _ g _ => g.regs.clear g.acts m) ∧
    Does (.vflgRdclr m d) { regs := [d.toNat], flags := true } 2 (fun _ g r =>
      (g.regs.setLanes d.toNat g.acts (fun l => (r.laneFlags l &&& m).setWidth 32)).clear g.acts m)) ∧
  (∀ (w k : BitVec 2) (v : BitVec 7),
    Does (.vbkGet w k v) { regs := [v.toNat] } 2 (fun _ g _ =>
      g.regs.setLanes v.toNat g.acts (fun l => g.bracket k.toNat w.toNat l)) ∧
    Does (.vbkSet w k v) { regs := [v.toNat], reads := [v.toNat] } 2 (fun _ g r =>
      g.regs.setBracket k.toNat w.toNat g.acts (fun l => r.vec v.toNat l)))

/-! ## Control transfers -/

/-- R79, R19: the uniform branches: a target is `off16` parcels from the branch itself. LOOP decrements its counter first,
and branches while what the counter then reads is not 0; the counter may be a beat of the activity mask (R13). -/
def Clauses.UniformBranches : Prop :=
  ∀ (s : State) (blk : Block) (g : Group) (o : BitVec 16) (r : BitVec 6), s.current = some (blk, g) →
    let target := g.pc + (o.signExtend 64 <<< 1)
    RunsTo (.jmp o) s g target g.regs ∧
    RunsTo (.brz o r) s g (if g.scalar r.toNat = 0 then target else g.pc + 4) g.regs ∧
    RunsTo (.brnz o r) s g (if g.scalar r.toNat = 0 then g.pc + 4 else target) g.regs ∧
    (r ≠ 0#6 → g.compacted = false →
      let v := g.scalar r.toNat - 1
      let left := if r.toNat < 61 then v != 0
        else (List.range 32).any (fun l => v.getLsbD l && hasLane g.present (32 * (r.toNat - 61) + l))
      RunsTo (.loop o r) s g (if left then target else g.pc + 4) (g.regs.setScalar g.present r.toNat v))

/-- R80, R82, R83, R84: JPT pushes a join entry with its target and the activity mask; BRP branches when every working lane
takes, falls through when none does, and otherwise pushes a path entry for the lanes left behind. -/
def Clauses.DivergentBranches : Prop :=
  ∀ (s : State) (blk : Block) (g : Group) (o : BitVec 16) (n : BitVec 1) (p : BitVec 3),
    s.current = some (blk, g) →
    let target := g.pc + (o.signExtend 64 <<< 1)
    let some' := fun (f : Nat → Bool) => ∃ l, l < 96 ∧ g.works l = true ∧ f l = true
    (HasRoom blk → RunsIn (.jpt o) s (s.pushed blk)
      { g with entries := ⟨.join, target, g.exec, blk.seq, none⟩ :: g.entries } (g.pc + 4) g.regs) ∧
    (¬some' (g.taken p n) → RunsTo (.brp o 0 n p) s g (g.pc + 4) g.regs) ∧
    (some' (g.taken p n) → ¬some' (fun l => !g.taken p n l) → RunsTo (.brp o 0 n p) s g target g.regs) ∧
    (some' (g.taken p n) → some' (fun l => !g.taken p n l) → HasRoom blk →
      RunsIn (.brp o 0 n p) s (s.pushed blk)
        { g with entries := ⟨.path, g.pc + 4, g.exec &&& ~~~maskOf (g.taken p n), blk.seq, none⟩ :: g.entries } target
        { g.regs with exec := g.taken p n })

/-- R103: a `brp.cmp` under its join entry waits for the compaction meeting with the lanes that take and those that do
not, where every group that waits already stands at the same address under the same join. -/
def Clauses.CompactionArrival : Prop :=
  ∀ (s : State) (blk : Block) (g : Group) (o : BitVec 16) (n : BitVec 1) (p : BitVec 3) (e : Entry) (rest : List Entry),
    s.current = some (blk, g) → g.compacted = false → g.entries = e :: rest → e.kind = .join →
    (∀ x ∈ blk.groups, ∀ a m k j, x.status = .waiting (.compaction a m k j) → x.pc = g.pc ∧ j = e.pc) →
    Waits (.brp o 1 n p) s (.compaction (g.pc + (o.signExtend 64 <<< 1)) (maskOf (g.taken p n))
      (g.exec &&& ~~~maskOf (g.taken p n)) e.pc)

/-- R86, R87: the calls push a call entry with the activity mask and write the return address to s59; CALL goes on with the
lanes of its predicate, and does nothing where it holds in none. The indirect transfers take the one even target that
all working lanes hold, and do nothing when no lane works. -/
def Clauses.CallsAndIndirect : Prop :=
  ∀ (s : State) (blk : Block) (g : Group) (o : BitVec 16) (n : BitVec 1) (p : BitVec 3) (a : BitVec 7) (t : Word),
    s.current = some (blk, g) →
    let some' := fun (f : Nat → Bool) => ∃ l, l < 96 ∧ g.works l = true ∧ f l = true
    let called := { g with entries := ⟨.call, g.pc + 4, g.exec, blk.seq, none⟩ :: g.entries }
    let linked := g.regs.setScalar g.present 59 (g.pc + 4)
    let need : Need := { regs := [a.toNat, a.toNat + 1], reads := [a.toNat, a.toNat + 1] }
    let r := g.seen s.tick need.reads false
    (¬some' (g.taken p n) → RunsTo (.call o n p) s g (g.pc + 4) g.regs) ∧
    (some' (g.taken p n) → g.compacted = false → HasRoom blk →
      RunsIn (.call o n p) s (s.pushed blk) called (g.pc + (o.signExtend 64 <<< 1))
        { linked with exec := g.taken p n }) ∧
    (Issues s blk g need → ¬some' (fun _ => true) →
      RunsTo (.calli a) s g (g.pc + 4) g.regs ∧ RunsTo (.jmpi a) s g (g.pc + 4) g.regs) ∧
    (Issues s blk g need → some' (fun _ => true) → t.getLsbD 0 = false →
      (∀ l, l < 96 → g.works l = true → r.vec (a.toNat + 1) l ++ r.vec a.toNat l = t) →
      RunsTo (.jmpi a) s g t g.regs ∧
      (g.compacted = false → HasRoom blk → RunsIn (.calli a) s (s.pushed blk) called t linked))

/-- R81, R85, R88: JOIN and RET resume from the top entry where one of its lanes lives: a join entry goes on past its JOIN,
a path entry at its address, a call entry at s59. At the end of a region JOIN waits for its close (R107). -/
def Clauses.Returns : Prop :=
  ∀ (s : State) (blk : Block) (g : Group) (e : Entry) (rest : List Entry), s.current = some (blk, g) →
    (g.entries = e :: rest → e.spilled = none → (rest = [] ∨ ∃ x ∈ rest, x.spilled = none) →
      (∃ l, l < 96 ∧ hasLane e.mask l = true ∧ hasLane g.present l = true ∧ hasLane g.helper l = false) →
      let regs := { g.regs with exec := fun l => hasLane e.mask l && hasLane g.present l }
      (e.kind = .join → e.pc = g.pc → RunsTo .join s { g with entries := rest } (e.pc + 4) regs) ∧
      (e.kind = .path → RunsTo .join s { g with entries := rest } e.pc regs) ∧
      (e.kind = .call → (g.scalar 59).getLsbD 0 = false →
        RunsTo .ret s { g with entries := rest } (g.scalar 59) regs)) ∧
    (g.entries = [] → g.compacted = true → (∃ cs, blk.region = some (cs, g.pc)) → Waits .join s .regionEnd)

/-- R89, R99: EXIT ends the working lanes. A lane whose quad holds a lane that lives on becomes a helper beside it, and the
other lanes leave the group. With an entry that holds such a lane the group resumes from it; without entries it ends. -/
def Clauses.Exits : Prop :=
  ∀ (s : State) (blk : Block) (g : Group), s.current = some (blk, g) →
    let stays := fun (l : Nat) => hasLane g.present l && quadHolds g.survives l
    (∀ (e : Entry) (rest : List Entry), g.entries = e :: rest → (∀ x ∈ g.entries, x.spilled = none) →
      (∃ l, l < 96 ∧ hasLane e.mask l = true ∧ g.survives l = true) →
      ∃ h, exec .exit s = .next (s.putGroup h) ∧
        h.pc = (if e.kind = .join then e.pc + 4 else e.pc) ∧ h.entries.length = rest.length ∧
        (∀ l, l < 96 → hasLane h.present l = stays l) ∧
        (∀ l, l < 96 → hasLane h.helper l = ((hasLane g.helper l || (g.works l && quadHolds g.survives l)) &&
          (!hasLane g.present l || quadHolds g.survives l))) ∧
        (∀ l, l < 96 → hasLane h.exec l = (stays l && (hasLane e.mask l ||
          (g.works l && quadHolds (fun k => hasLane e.mask k && g.survives k) l)))) ∧
        h.scalars = g.scalars ∧ h.vectors = g.vectors ∧ h.preds = g.preds ∧ h.flags = g.flags) ∧
    (g.entries = [] → blk.pair = none → s.cur.cmp = false → (∀ w ∈ g.copies, w.done = true → w.cause = none) →
      GoesTo .exit s (fun t _ h => h.status = .ended ∧ h.pc = g.pc ∧ h.walk = none ∧ t.mem = s.mem ∧
        ∀ l, l < 96 → hasLane h.present l = stays l))

/-! ## System instructions -/

/-- R90, R91, R92, R360, R362, R377: NOP, YIELD, a SLEEP of 0 cycles, a BKPT of an image without debugging, PHINT without
a pending pre-emption, RLABEL and an unpaired CKPT advance the PC, and do what their rules name besides. -/
def Clauses.HintsAndLabels : Prop :=
  ∀ (s : State) (blk : Block) (g : Group) (l : Launch) (n : BitVec 12) (a : BitVec 6), s.current = some (blk, g) →
    s.launch? blk.launch = some l →
    RunsTo .nop s g (g.pc + 4) g.regs ∧
    RunsTo .yield s { g with active := false } (g.pc + 4) g.regs ∧
    (g.scalar a.toNat = 0 → RunsTo (.sleep a) s g (g.pc + 4) g.regs) ∧
    (l.header.debug = false → RunsTo (.bkpt n) s g (g.pc + 4) g.regs) ∧
    (n.toNat < l.header.nlive → l.saving = .no → RunsTo (.phint n) s g (g.pc + 4) g.regs) ∧
    (g.compacted = false →
      RunsTo (.rlabel 0xFFF) s { g with rlabel := none } (g.pc + 4) g.regs ∧
      (n ≠ 0xFFF#12 → n.toNat < l.header.nrest →
        RunsTo (.rlabel n) s { g with rlabel := some (n.toNat, g.entries.length) } (g.pc + 4) g.regs) ∧
      (blk.pair = none → RunsTo .ckpt s g (g.pc + 4) g.regs))

/-- R91, R92: a SLEEP takes the group out of the active set for its cycles, at most 2^32 - 1, and a BKPT of an image with
debugging halts the group at itself. -/
def Clauses.SleepAndHalt : Prop :=
  ∀ (s : State) (blk : Block) (g : Group) (l : Launch) (n : BitVec 12) (a : BitVec 6), s.current = some (blk, g) →
    (g.scalar a.toNat ≠ 0 → GoesTo (.sleep a) s (fun _ _ h =>
      h.status = .waiting .sleep ∧ h.active = false ∧ h.pc = g.pc ∧
      ∃ now, (s.die (dieOf blk.core)).cycle ≤ now ∧ h.readyAt = now + min (g.scalar a.toNat).toNat (2 ^ 32 - 1))) ∧
    (s.launch? blk.launch = some l → l.header.debug = true → GoesTo (.bkpt n) s (fun _ _ h =>
      h.halt = some ⟨n, true⟩ ∧ h.active = false ∧ h.pc = g.pc ∧ h.status = g.status))

/-- R33, R90: SRR reads the special register of the table; the numbers from 0x800 are for supervisor contexts. -/
def Clauses.SpecialReads : Prop :=
  ∀ (s : State) (blk : Block) (g : Group) (l : Launch) (d : BitVec 6), s.current = some (blk, g) →
    s.launch? blk.launch = some l → (d = 0 ∨ g.compacted = false) →
    ∀ e ∈ specialRegisterTable s blk g l, (0x800 ≤ e.1 → s.superOf blk = true) →
      RunsTo (.srr (BitVec.ofNat 12 e.1) d) s g (g.pc + 4) (g.regs.setScalar g.present d.toNat (BitVec.ofNat 64 e.2))

/-- R34: CYCLE never runs back on a die, nor NSTIME on the device, and each read leaves its value as the bound of the
next. -/
def Clauses.Clocks : Prop :=
  ∀ (s : State) (blk : Block) (g : Group) (d : BitVec 6), s.current = some (blk, g) → blk.pair = none →
    (d = 0 ∨ g.compacted = false) → (∀ j ∈ s.journals, j.ctx ≠ s.ctxOf blk) →
    (∃ t v, RunsIn (.srr 0x300 d) s t g (g.pc + 4) (g.regs.setScalar g.present d.toNat (BitVec.ofNat 64 v)) ∧
      (s.die (dieOf blk.core)).cycle ≤ v ∧ s.cycle ≤ v + 8 ∧ (t.die (dieOf blk.core)).cycle = v ∧ t.blocks = s.blocks) ∧
    (∃ t v, RunsIn (.srr 0x301 d) s t g (g.pc + 4) (g.regs.setScalar g.present d.toNat (BitVec.ofNat 64 v)) ∧
      s.nstime ≤ v ∧ t = { s with nstime := v })

/-- R33, R90, R127: SRW writes a legal value to a register of the group; STOSEED seeds the xorshift state of every lane;
REDINJ and MIGDESC keep their fields; a write of a read-only register changes nothing. -/
def Clauses.SpecialWrites : Prop :=
  ∀ (s : State) (blk : Block) (g : Group) (a : BitVec 6), s.current = some (blk, g) →
    let v := g.scalar a.toNat
    (∀ e ∈ groupRegisterTable g v, e.2.1 = true → (0x800 ≤ e.1 → s.superOf blk = true) →
      RunsTo (.srw (BitVec.ofNat 12 e.1) a) s e.2.2 (g.pc + 4) g.regs) ∧
    RunsTo (.srw 0x107 a) s { g with stoseed := v.setWidth 32 } (g.pc + 4)
      { g.regs with rng := fun l => seedState (v.setWidth 32) l } ∧
    (∀ n : BitVec 12, (n.toNat ≤ 0x11 ∨ n = 0x200 ∨ n = 0x300 ∨ n = 0x301) →
      RunsTo (.srw n a) s g (g.pc + 4) g.regs) ∧
    (s.superOf blk = true →
      (v.toNat / 256 % 4 ≠ 3 → (v.toNat / 256 % 4 = 1 → v.toNat / 1024 % 64 < 32) →
        RunsIn (.srw 0x802 a) s { s with redinj := v &&& 0xFFFFFFFF007FFF7F#64 } g (g.pc + 4) g.regs) ∧
      (v.toNat % 32 = 0 →
        RunsIn (.srw 0x803 a) s { s with mig := { s.mig with desc := v } } g (g.pc + 4) g.regs))

/-- R349, R346, R350, R351: TRAP and SUPCALL stop the group with one record: cause 0x00 or 0x0D with the immediate, and for
SUPCALL s1 to s3 as arguments. -/
def Clauses.SoftwareTraps : Prop :=
  ∀ (s : State) (blk : Block) (g : Group) (l : Launch) (n : BitVec 12), s.current = some (blk, g) →
    s.launch? blk.launch = some l → blk.mode ≠ .tentative → blk.pair = none → s.superOf blk = false →
    StopsWith (.trap n) s blk g l (fun r => r.cause = 0x00 ∧ r.kind = 1 ∧ r.code = n ∧ r.pv = false) ∧
    StopsWith (.supcall n) s blk g l (fun r =>
      r.cause = 0x0D ∧ r.kind = 1 ∧ r.code = n ∧ r.arg0 = g.scalar 1 ∧ r.arg1 = g.scalar 2 ∧ r.arg2 = g.scalar 3)

/-- R347, R348: TRAPF raises the lowest enabled flag that any working lane holds, as a deferred trap with the lanes that
hold an enabled one; it goes on when no lane does, and clears nothing. -/
def Clauses.FlagTraps : Prop :=
  ∀ (s : State) (blk : Block) (g : Group) (l : Launch) (k : Nat), s.current = some (blk, g) →
    s.launch? blk.launch = some l → Issues s blk g { flags := true } →
    let r := g.seen s.tick [] true
    let raised := fun (j lane : Nat) => g.works lane && (r.laneFlags lane).getLsbD j && g.ten.getLsbD j
    ((∀ j lane, j < 6 → lane < 96 → raised j lane = false) → (g.idz && g.ten.getLsbD 6) = false →
      RunsTo .trapf s g (g.pc + 4) g.regs) ∧
    (blk.mode ≠ .tentative → blk.pair = none → s.superOf blk = false → k < 6 → (∃ lane, lane < 96 ∧ raised k lane = true) →
      (∀ j lane, j < k → lane < 96 → raised j lane = false) →
      StopsWith .trapf s blk g l (fun x => x.cause = BitVec.ofNat 8 (0x60 + k) ∧ x.kind = 2 ∧
        ∀ lane, lane < 96 → hasLane x.fmask lane = (List.range 6).any (fun j => raised j lane)))

/-- R353: ERET sends the answers of the live lanes, clears v3, and resumes at SEPC with every present lane. -/
def Clauses.SupervisorReturn : Prop :=
  ∀ (s : State) (blk : Block) (g : Group), s.current = some (blk, g) →
    Issues s blk g { priv := true, reads := [0, 1, 2, 3, 4, 5] } → g.sepc.getLsbD 0 = false →
    let r := g.seen s.tick [0, 1, 2, 3, 4, 5] false
    let sent := ((List.range 96).filter (fun l => hasLane g.present l && !hasLane g.helper l)).filterMap r.sends
    RunsIn .eret s { s with answers := s.answers ++ sent } g g.sepc
      { g.regs.setLanes 3 (hasLane g.present) (fun _ => 0) with exec := hasLane g.present }

/-- R397: TLBINV takes every retained translation of its context that overlaps its pages from the cores of its scope,
drops the replicas of these pages, and goes on when no old request is left. -/
def Clauses.TranslationInvalidation : Prop :=
  ∀ (s : State) (blk : Block) (g : Group) (c b : BitVec 6), s.current = some (blk, g) → s.superOf blk = true →
    let v := g.scalar b.toNat
    let w := (g.scalar c.toNat).toNat
    let n := w % 2 ^ 24
    let scope := w / 2 ^ 24 % 16
    let ctx := BitVec.ofNat 32 (w / 2 ^ 32)
    v.toNat % 65536 = 0 → w / 2 ^ 28 % 16 = 0 → scope ≤ 2 →
    (n ≠ 0 → canonical v = true ∧ v.toNat + n * 65536 ≤ 2 ^ 64 ∧
      canonical (v + BitVec.ofNat 64 (n * 65536 - 1)) = true) →
    s.oldRequests blk.core scope ctx = false →
    let first := v.toNat % 2 ^ 52 / 65536
    ∃ t, RunsIn (.tlbinv c b) s t g (g.pc + 4) g.regs ∧
      (∀ e ∈ t.tlb, e.ctx = ctx → e.overlaps first n = true → ∀ k, inScope blk.core scope k = true → e.servesCore k = false) ∧
      (∀ e ∈ s.tlb, (e.ctx ≠ ctx ∨ e.overlaps first n = false) → e ∈ t.tlb) ∧
      t.replicas = s.replicas.filter (fun r => !s.replicaIn blk.core ctx first n r)

/-! ## Memory -/

/-- R210, R217, R235: the lane loads: each lane gets the bytes at its address, each byte the latest that its core has seen
or a clean copy; memory stays as it was. -/
def Clauses.LaneLoads : Prop :=
  ∀ (s : State) (blk : Block) (g : Group) (gd : BitVec 2) (x t : BitVec 7) (b : BitVec 6),
    s.current = some (blk, g) → Plain blk g →
    ∀ e ∈ loadTable gd x b t,
      let n := e.2.1
      let r := g.seen s.tick [x.toNat] false
      let m := r.takes gd.toNat true
      let va := fun (l : Nat) => r.scalar b.toNat + (r.vec x.toNat l).setWidth 64
      Issues s blk g { regs := x.toNat :: regRun t.toNat ((n + 3) / 4), reads := [x.toNat] } →
      ∀ (pa : Nat → Nat) (swc unc : Nat → Bool),
        (∀ l, l < 96 → m l = true → Reaches s blk .load n (va l) (pa l) (swc l) (unc l) ∧ s.spoiled (pa l) n = false) →
        ∃ (t' : State) (bs : Nat → List Byte),
          RunsIn e.1 s t' { g with pending := none, status := .running } (g.pc + 4)
            (g.regs.fill t.toNat ((n + 3) / 4) m (fun l => loadWord e.2.2 (bs l))) ∧
          MemoryKept s t' ∧
          ∀ l, l < 96 → m l = true → (bs l).length = n ∧
            ∀ k v, (bs l)[k]? = some v → s.mayRead blk.core (swc l) (unc l) (pa l + k) v

/-- R76, R220, R236: the scalar loads and LDC, on the generic path or the constant path. The lanes of one LDC name no word
through pages of both coherence classes. -/
def Clauses.ScalarAndConstantLoads : Prop :=
  ∀ (s : State) (blk : Block) (g : Group), s.current = some (blk, g) → Plain blk g →
    (∀ (i : BitVec 8) (z : BitVec 2) (b d : BitVec 6) (pa : Nat) (swc unc : Bool), (d = 0 ∨ g.compacted = false) →
      let n := if z = 2#2 then 8 else 4
      let value := fun (bs : List Byte) =>
        if z = 1#2 then (BitVec.ofNat 32 (bytesNat bs)).signExtend 64 else BitVec.ofNat 64 (bytesNat bs)
      Reaches s blk .load n (g.scalar b.toNat + BitVec.ofNat 64 (4 * i.toNat)) pa swc unc → s.spoiled pa n = false →
      (∃ (t' : State) (bs : List Byte),
        RunsIn (.sld i z b d) s t' { g with pending := none, status := .running } (g.pc + 4)
          (g.regs.setScalar g.present d.toNat (value bs)) ∧ MemoryKept s t' ∧ bs.length = n ∧
        ∀ k v, bs[k]? = some v → s.mayRead blk.core swc unc (pa + k) v) ∧
      (∃ (t' : State) (bs : List Byte),
        RunsIn (.sldc i z b d) s t' { g with pending := none, status := .running } (g.pc + 4)
          (g.regs.setScalar g.present d.toNat (value bs)) ∧ MemoryKept s t' ∧ bs.length = n ∧
        ∀ k v, bs[k]? = some v → s.mayFetch blk.core swc unc (pa + k) v)) ∧
    (∀ (gd : BitVec 2) (x t : BitVec 7) (b : BitVec 6) (pa : Nat → Nat) (swc unc : Nat → Bool),
      let r := g.seen s.tick [x.toNat] false
      let m := r.takes gd.toNat true
      Issues s blk g { regs := [x.toNat, t.toNat], reads := [x.toNat] } →
      (∀ l, l < 96 → m l = true →
        Reaches s blk .load 4 (r.scalar b.toNat + (r.vec x.toNat l).setWidth 64) (pa l) (swc l) (unc l) ∧
        s.spoiled (pa l) 4 = false) →
      (∀ l k, l < 96 → k < 96 → pa l / 8 = pa k / 8 → swc l = swc k) →
      ∃ (t' : State) (bs : Nat → List Byte),
        RunsIn (.ldc gd x b t) s t' { g with pending := none, status := .running } (g.pc + 4)
          (g.regs.fill t.toNat 1 m (fun l => loadWord false (bs l))) ∧
        MemoryKept s t' ∧
        ∀ l, l < 96 → m l = true → (bs l).length = 4 ∧
          ∀ k v, (bs l)[k]? = some v → s.mayFetch blk.core (swc l) (unc l) (pa l + k) v)

/-- R218, R213: the lane stores: a byte that no higher lane stores after it reads back as its lane's data (at home on an
uncached page), and every byte outside the stored ones reads as before on every core. -/
def Clauses.LaneStores : Prop :=
  ∀ (s : State) (blk : Block) (g : Group) (gd : BitVec 2) (x t : BitVec 7) (b : BitVec 6),
    s.current = some (blk, g) → Plain blk g →
    ∀ e ∈ storeTable gd x b t,
      let n := e.2
      let data := regRun t.toNat ((n + 3) / 4)
      let r := g.seen s.tick (x.toNat :: data) false
      let m := r.takes gd.toNat false
      Issues s blk g { regs := x.toNat :: data, reads := x.toNat :: data } →
      ∀ (pa : Nat → Nat) (swc unc : Nat → Bool),
        (∀ l, l < 96 → m l = true →
          Reaches s blk .store n (r.scalar b.toNat + (r.vec x.toNat l).setWidth 64) (pa l) (swc l) (unc l)) →
        ∃ t' : State,
          RunsIn e.1 s t' { g with pending := none, status := .running } (g.pc + 4) g.regs ∧
          (∀ l k, l < 96 → m l = true → k < n →
            (∀ l' k', l < l' ∨ (l = l' ∧ k < k') → l' < 96 → m l' = true → k' < n →
              pa l' + k' ≠ pa l + k ∧ s.route (pa l' + k') ≠ s.route (pa l + k)) →
            let v := (r.vec (t.toNat + k / 4) l).extractLsb' (8 * (k % 4)) 8
            if unc l then t'.home (pa l + k) = v else t'.look blk.core (swc l) (pa l + k) = v) ∧
          (∀ a, (∀ l k, l < 96 → m l = true → k < n → pa l + k ≠ a ∧ s.route (pa l + k) ≠ s.route a) →
            ∀ core swc', t'.look core swc' a = s.look core swc' a)

/-- R76: SST stores the low bytes of a scalar, and every other byte reads as before. -/
def Clauses.ScalarStores : Prop :=
  ∀ (s : State) (blk : Block) (g : Group) (i : BitVec 8) (z : BitVec 2) (b d : BitVec 6) (pa : Nat) (swc unc : Bool),
    s.current = some (blk, g) → Plain blk g →
    let n := if z = 2#2 then 8 else 4
    Reaches s blk .store n (g.scalar b.toNat + BitVec.ofNat 64 (4 * i.toNat)) pa swc unc →
    ∃ t' : State,
      RunsIn (.sst i z b d) s t' { g with pending := none, status := .running } (g.pc + 4) g.regs ∧
      (∀ k, k < n → (∀ k', k < k' → k' < n → s.route (pa + k') ≠ s.route (pa + k)) →
        let v := (g.scalar d.toNat).extractLsb' (8 * k) 8
        if unc then t'.home (pa + k) = v else t'.look blk.core swc (pa + k) = v) ∧
      (∀ a, (∀ k, k < n → pa + k ≠ a ∧ s.route (pa + k) ≠ s.route a) →
        ∀ core swc', t'.look core swc' a = s.look core swc' a)

/-- R223, R224, R225: the lane atomics are performed lane by lane in ascending order on the latest bytes: each lane gets the
old value, and the location holds the result of the last; bytes outside the locations read as before on every core. -/
def Obligations.LaneAtomics : Prop :=
  ∀ (s : State) (blk : Block) (g : Group) (x t : BitVec 7) (b : BitVec 6) (sw : Bool),
    s.current = some (blk, g) → Plain blk g → s.mig.state ≠ 2#2 → (∀ j ∈ s.journals, j.ctx ≠ s.ctxOf blk) →
    ∀ e ∈ atomicTable x b t,
      let n := (atomicShape e.2).1
      let data := regRun t.toNat (atomicShape e.2).2
      let r := g.seen s.tick (x.toNat :: data) false
      let m := r.takes 0 false
      Issues s blk g { regs := x.toNat :: data, reads := x.toNat :: data } →
      ∀ (pa : Nat → Nat) (unc : Nat → Bool),
        (∀ l, l < 96 → m l = true →
          Reaches s blk .atomic n (r.scalar b.toNat + (r.vec x.toNat l).setWidth 64) (pa l) sw (unc l) ∧
          s.spoiled (pa l) n = false ∧ ∀ k, k < n → OneClass s blk.core sw (pa l + k)) →
        let qs := ((List.range 96).filter m).map (fun l => (l, (0, pa l), r.atomicInputs e.2 t.toNat l))
        let out := readModifyWrites n (atomicResult e.2) qs (fun p => s.look blk.core sw p.2)
        ∃ t' : State,
          RunsIn e.1 s t' { g with pending := none, status := .running } (g.pc + 4)
            (g.regs.fill t.toNat (n / 4) m (fun l j => BitVec.ofNat 32 (out.1 l / 2 ^ (32 * j)))) ∧
          (∀ l k, l < 96 → m l = true → k < n → t'.look blk.core sw (pa l + k) = out.2 (0, pa l + k)) ∧
          (∀ a, (∀ l k, l < 96 → m l = true → k < n → pa l + k ≠ a) →
            ∀ core swc', t'.look core swc' a = s.look core swc' a)

/-- R196, R219, R226, R237: LDS, STS and ATOMS act on the scratchpads that their lanes' addresses select, lane by lane in
ascending order; every other byte of every scratchpad stays. The bytes that one LDS returns of a block's scratchpad are
those that stand there, or all of them those that its group has read ahead and not stored to since: that all of them are of
one moment, and where a group reads ahead, is the model's choice (assumption 44). -/
def Obligations.ScratchpadAccesses : Prop :=
  ∀ (s : State) (blk : Block) (g : Group) (x t : BitVec 7), s.current = some (blk, g) → g.holds = [] →
    (∀ (z : BitVec 2) (i : BitVec 6) (tb : Nat → Block),
      let n := 2 ^ z.toNat
      let data := regRun t.toNat ((n + 3) / 4)
      let place := fun (r : Group) (l : Nat) => (r.vec x.toNat l + BitVec.ofNat 32 (i.toNat * n)).toNat
      (let r := g.seen s.tick [x.toNat] false
       let m := r.takes 0 true
       Issues s blk g { regs := x.toNat :: data, reads := [x.toNat] } →
       (∀ l, l < 96 → m l = true → s.scratchCheck blk false (place r l) n = .ok (tb l)) →
       ∃ (v : Nat → Nat → Byte) (left : List Ahead) (old : Nat → Bool), (∀ e ∈ left, e ∈ s.aheads) ∧
         RunsIn (.lds z i x t) s { s with aheads := left } g (g.pc + 4) (g.regs.fill t.toNat ((n + 3) / 4) m (fun l =>
           loadWord false ((List.range n).map (v l)))) ∧
         ∀ l k, l < 96 → m l = true → k < n →
           let off := place r l % 2 ^ 28 + k
           if old (tb l).id = true then
             ∃ e ∈ s.aheads, e.group = s.cur ∧ e.blk = (tb l).id ∧ off ∉ e.stored ∧ v l k = readCell e.seen off
           else v l k = s.scratchByte (tb l).id off) ∧
      (let r := g.seen s.tick (x.toNat :: data) false
       let m := r.takes 0 false
       Issues s blk g { regs := x.toNat :: data, reads := x.toNat :: data } →
       (∀ l, l < 96 → m l = true → s.scratchCheck blk true (place r l) n = .ok (tb l)) →
       let qs := ((List.range 96).filter m).map (fun l => (l, ((tb l).id, place r l % 2 ^ 28),
         (r.vec t.toNat l).toNat + 2 ^ 32 * (if n = 8 then (r.vec (t.toNat + 1) l).toNat else 0), 0))
       let out := readModifyWrites n (fun _ v _ => v) qs (fun p => s.scratchByte p.1 p.2)
       ∃ t' : State, RunsIn (.sts z i x t) s t' g (g.pc + 4) g.regs ∧ t'.mem = s.mem ∧
         ∀ k off, (s.block? k).isSome = true → t'.scratchByte k off = out.2 (k, off))) ∧
    (∀ (o : BitVec 4) (tb : Nat → Block),
      let n := (atomicShape o.toNat).1
      let data := regRun t.toNat (atomicShape o.toNat).2
      let r := g.seen s.tick (x.toNat :: data) false
      let m := r.takes 0 false
      Issues s blk g { regs := x.toNat :: data, reads := x.toNat :: data } →
      (∀ l, l < 96 → m l = true → s.scratchCheck blk true (r.vec x.toNat l).toNat n = .ok (tb l)) →
      let qs := ((List.range 96).filter m).map (fun l =>
        (l, ((tb l).id, (r.vec x.toNat l).toNat % 2 ^ 28), r.atomicInputs o.toNat t.toNat l))
      let out := readModifyWrites n (atomicResult o.toNat) qs (fun p => s.scratchByte p.1 p.2)
      ∃ t' : State, RunsIn (.atoms o x t) s t' g (g.pc + 4)
          (g.regs.fill t.toNat (n / 4) m (fun l j => BitVec.ofNat 32 (out.1 l / 2 ^ (32 * j)))) ∧ t'.mem = s.mem ∧
        ∀ k off, (s.block? k).isSome = true → t'.scratchByte k off = out.2 (k, off))

/-- R221, R222: LDSMP of a group that runs samples a table on local pages with nothing kept in the sampler cache and no
clean copy in the die's L2: the four weighted elements that the clamped coordinates name, summed and rounded once; a NaN
coordinate gives the canonical NaN. No word of the table and its descriptor is named through pages of both coherence
classes. -/
def Obligations.Samples : Prop :=
  ∀ (s : State) (blk : Block) (g : Group) (gd : BitVec 2) (x t : BitVec 7) (b : BitVec 6) (dpa : Nat) (dswc dunc : Bool)
    (pa : Word → Nat) (swc unc : Word → Bool), (∀ va, unc va = true → swc va = false) → (dunc = true → dswc = false) →
    s.current = some (blk, g) → Plain blk g → g.status = .running → g.pending = none →
    (s.core blk.core).sampler = [] → (s.die (dieOf blk.core)).clean = [] →
    (∀ va va', pa va / 8 = pa va' / 8 → swc va = swc va') → (∀ va k, k < 16 → pa va / 8 = (dpa + k) / 8 → swc va = dswc) →
    let r := g.seen s.tick [x.toNat, x.toNat + 1] false
    let m := r.takes gd.toNat true
    let byte := fun (sw : Bool) (a : Nat) => s.l2Byte (dieOf blk.core) sw a
    let d := parseSample ((List.range 16).map (fun k => byte dswc (dpa + k)))
    let coord := fun (k l : Nat) => decodeF fp32 (r.vec (x.toNat + k) l).toNat
    let nan := fun (l : Nat) => (coord 0 l).isNan || (coord 1 l).isNan
    let taps := fun (l : Nat) => sampleTaps (sampleCoord (coord 0 l) d.width) (sampleCoord (coord 1 l) d.height) d.width d.height
    let value := fun (q : Nat × Nat × Nat) =>
      let va := d.element q.1 q.2.1
      ((byte (swc va) (pa va)).toNat + 256 * (byte (swc va) (pa va + 1)).toNat, q.2.2)
    Issues s blk g { regs := [x.toNat, x.toNat + 1, t.toNat], reads := [x.toNat, x.toNat + 1] } →
    (g.scalar b.toNat).toNat % 16 = 0 → Reaches s blk .load 16 (g.scalar b.toNat) dpa dswc dunc →
    s.spoiled dpa 16 = false → d.ok = true →
    (∀ l, l < 96 → m l = true → nan l = false → ∀ q ∈ taps l,
      let va := d.element q.1 q.2.1
      Reaches s blk .load 2 va (pa va) (swc va) (unc va) ∧ s.spoiled (pa va) 2 = false) →
    ∃ t' : State,
      RunsIn (.ldsmp gd x b t) s t' g (g.pc + 4)
        (g.regs.fill t.toNat 1 m (fun l _ => if nan l then 0x7FC00000 else sampleValue ((taps l).map value))) ∧
      MemoryKept s t'

/-- R228, R242, R435: FENCE of a group that holds no store: a release of cluster scope or wider leaves no dirty byte in
the L1, an acquire no clean one, and the core reads every byte as before. -/
def Clauses.Fences : Prop :=
  ∀ (s : State) (blk : Block) (g : Group) (k : BitVec 2) (c : BitVec 3), s.current = some (blk, g) → Plain blk g →
    (c = 2#3 → s.peerFault blk = false) → s.mig.state ≠ 2#2 →
    ∃ t' : State, RunsIn (.fence k c) s t' g (g.pc + 4) g.regs ∧
      (c.toNat < 2 → MemoryKept s t') ∧
      (2 ≤ c.toNat → k ≠ 0#2 → (t'.core blk.core).l1Dirty = []) ∧
      (2 ≤ c.toNat → k ≠ 1#2 → (t'.core blk.core).l1Clean = []) ∧
      ∀ swc a, OneClass s blk.core swc a → t'.look blk.core swc a = s.look blk.core swc a

/-- R228: PFENCE writes back the generic path's dirty bytes when it is a from-path and empties the caches of its to-paths;
with an empty side it orders nothing. -/
def Clauses.PathFences : Prop :=
  ∀ (s : State) (blk : Block) (g : Group) (toSide fromSide : BitVec 4), s.current = some (blk, g) →
    ((toSide = 0 ∨ fromSide = 0) → RunsTo (.pfence toSide fromSide) s g (g.pc + 4) g.regs) ∧
    (toSide ≠ 0 → fromSide ≠ 0 → s.mig.state ≠ 2#2 → ∃ t' : State, RunsIn (.pfence toSide fromSide) s t' g (g.pc + 4) g.regs ∧
      (fromSide.getLsbD 0 = true → (t'.core blk.core).l1Dirty = []) ∧
      (toSide.getLsbD 0 = true → (t'.core blk.core).l1Clean = []) ∧
      (toSide.getLsbD 1 = true → (t'.core blk.core).constant = []) ∧
      (toSide.getLsbD 2 = true → (t'.core blk.core).sampler = []) ∧
      ∀ swc a, OneClass s blk.core swc a → t'.look blk.core swc a = s.look blk.core swc a)

/-- R227: PREF is a hint. CWB leaves no dirty byte of the range in the L1, CWBI and CINV no byte of its lines at all; the
core reads every byte as before, but for the dirty bytes of software-coherent pages in the range that CINV discards. -/
def Clauses.CacheMaintenance : Prop :=
  ∀ (s : State) (blk : Block) (g : Group) (b a : BitVec 6) (ps : List CachePage), s.current = some (blk, g) →
    Plain blk g → s.mig.state ≠ 2#2 →
    let va := g.scalar a.toNat
    let n := (g.scalar b.toNat).toNat
    let last := va + BitVec.ofNat 64 (n - 1)
    let within := fun (p : CachePage) (q : Nat) => p.pa ≤ q ∧ q < p.pa + p.n
    let onLine := fun (p : CachePage) (q : Nat) => p.pa / 64 ≤ q / 64 ∧ q / 64 ≤ (p.pa + p.n - 1) / 64
    let ranged := 0 < n ∧ n ≤ 2 ^ 30 ∧ canonical va = true ∧ canonical last = true ∧ va.toNat ≤ last.toNat ∧
      last.toNat / 2 ^ 51 = va.toNat / 2 ^ 51
    let same := fun (t' : State) (ok : Bool → Nat → Prop) =>
      ∀ swc q, ok swc q → OneClass s blk.core swc q → t'.look blk.core swc q = s.look blk.core swc q
    let gone := fun (t' : State) => ∀ p ∈ ps, 0 < p.n → ∀ q, onLine p q →
      findCopy (t'.core blk.core).l1Dirty (l1Key p.swc q) = none ∧ findCopy (t'.core blk.core).l1Clean (l1Key p.swc q) = none
    RunsTo (.pref b a) s g (g.pc + 4) g.regs ∧
    (n = 0 → RunsTo (.cwb b a) s g (g.pc + 4) g.regs ∧ RunsTo (.cinv b a) s g (g.pc + 4) g.regs ∧
      RunsTo (.cwbi b a) s g (g.pc + 4) g.regs) ∧
    (ranged → s.cachePages blk .cwb 16386 va n = .ok ps → ∃ t' : State,
      RunsIn (.cwb b a) s t' g (g.pc + 4) g.regs ∧ same t' (fun _ _ => True) ∧
      ∀ p ∈ ps, ∀ q, within p q → findCopy (t'.core blk.core).l1Dirty (l1Key p.swc q) = none) ∧
    (ranged → s.cachePages blk .cwbi 16386 va n = .ok ps → ∃ t' : State,
      RunsIn (.cwbi b a) s t' g (g.pc + 4) g.regs ∧ same t' (fun _ _ => True) ∧ gone t') ∧
    (ranged → s.cachePages blk .cinv 16386 va n = .ok ps → ∃ t' : State,
      RunsIn (.cinv b a) s t' g (g.pc + 4) g.regs ∧ gone t' ∧
      same t' (fun swc q => swc = true → ∀ p ∈ ps, p.swc = true → ¬within p q) ∧
      ∀ p ∈ ps, p.swc = true → ∀ q, within p q → t'.look blk.core true q = t'.home q)

/-! ## Resident operators -/

/-- R248 to R253, R312: OPINST with a descriptor that passes the checks of R249 and R250 installs an operator and returns
its handle; without room on the core it returns 0. -/
def Clauses.OperatorInstallation : Prop :=
  ∀ (s s1 : State) (blk : Block) (g : Group) (bf af : BitVec 6) (bs : List Byte), s.current = some (blk, g) →
    Plain blk g → g.compacted = false → (g.scalar bf.toNat).toNat % 64 = 0 →
    s.readRecord blk g (g.scalar bf.toNat) 8 = .ok (bs, s1) →
    let d := parseOpDesc bs
    opReservedOk bs = true → d.ok = true → s1.opStorageOk blk d = true → s1.windowsOk blk d = true →
    let full := 8 ≤ (s1.core blk.core).ops.length ∨ 98304 < s1.weightTaken blk.core + d.weightRoom
    (full → RunsIn (.opinst bf af) s s1 g (g.pc + 4) (g.regs.setScalar g.present af.toNat 0)) ∧
    (¬full → ∃ t h o, RunsIn (.opinst bf af) s t g (g.pc + 4) (g.regs.setScalar g.present af.toNat (BitVec.ofNat 64 h)) ∧
      (t.core blk.core).ops = (s1.core blk.core).ops ++ [o] ∧ o.handle = h ∧ o.ctx = s1.ctxOf blk ∧ o.blk = blk.id ∧
      o.desc = d ∧ o.loaded = false ∧ o.fired = [] ∧ o.pass = [] ∧ o.slots = List.replicate d.slots Slot.empty ∧
      t.mem = s1.mem)

/-- R256, R260, R264, R312: OPREM of an idle operator removes it, and waits for a pass; OPFIRE captures the bytes of a slot,
missing ones as 0, and queues it; OPQRY returns the trailer. -/
def Clauses.OperatorUse : Prop :=
  ∀ (s : State) (blk : Block) (g : Group) (a b c : BitVec 6) (o : Operator), s.current = some (blk, g) →
    Plain blk g → g.compacted = false → s.myOperator blk (g.scalar b.toNat) = some o →
    let i := (g.scalar c.toNat).toNat
    let x := o.slot i
    (o.pass = [] → ∃ t, RunsIn (.oprem b) s t g (g.pc + 4) g.regs ∧ t.operator? o.handle = none ∧ t.mem = s.mem) ∧
    (o.pass ≠ [] → GoesTo (.oprem b) s (fun t _ h => h.status = .waiting (.removal (g.scalar b.toNat)) ∧ h.pc = g.pc ∧
      t.operator? o.handle = some { o with removing := true })) ∧
    (i < o.desc.slots → i < o.slots.length → o.failed = false → x.state ≠ .queued → x.state ≠ .computing →
      ¬(o.desc.rmode = 1 ∧ x.state = .ready) →
      ∃ t o', RunsIn (.opfire c b) s t g (g.pc + 4) g.regs ∧ t.operator? o.handle = some o' ∧ t.mem = s.mem ∧
        o'.fired = o.fired ++ [i] ∧ (o'.slot i).state = .queued ∧ (o'.slot i).firing = s.writerTag blk.core g.slot 0 ∧
        (o'.slot i).claim = none ∧ (o'.slot i).capture = (List.range (o.desc.kop * o.desc.actSize)).map (fun k =>
          if x.mask.testBit k then readCell (s.slotStore o) (o.desc.store % 2 ^ 28 + i * o.desc.inStride + k) else 0) ∧
        ∀ j, j ≠ i → o'.slot j = o.slot j) ∧
    (i < o.desc.slots → ∃ t, RunsIn (.opqry c b a) s t g (g.pc + 4) (g.regs.setScalar g.present a.toNat (trailerOf x)) ∧
      t.mem = s.mem ∧ t.operator? o.handle = s.operator? o.handle)

/-- R370: OPPARK of a supervisor parks an operator whose launch has a save area and that has no pass, and asks for a
parked one to be installed again. -/
def Clauses.OperatorParking : Prop :=
  ∀ (s : State) (blk ob : Block) (g : Group) (b : BitVec 6) (o : Operator) (l : Launch), s.current = some (blk, g) →
    s.superOf blk = true → g.compacted = false → g.scalar b.toNat ≠ 0 →
    s.operator? (g.scalar b.toNat).toNat = some o → o.removing = false →
    s.anyBlock? o.blk = some ob → s.launch? ob.launch = some l → l.header.save ≠ 0 →
    (o.parked = true → ∃ t, RunsIn (.oppark b) s t g (g.pc + 4) g.regs ∧
      t.operator? o.handle = some { o with reinstall := true }) ∧
    (o.parked = false → o.pass = [] → ∃ t, RunsIn (.oppark b) s t g (g.pc + 4) g.regs ∧
      t.operator? o.handle = some { o with parked := true, loaded := false, reinstall := false }) ∧
    (o.parked = false → o.pass ≠ [] → Waits (.oppark b) s (.parking (g.scalar b.toNat)))

/-- R257, R258, R259, R260, R263: a store request that a rule of R258 refuses changes nothing; one that is accepted and
does not fire leaves its element bytes in the slot, which is filling. So for every request; one of the host is remote,
from no group, has key 0 and a tag of class 2 that names the device. That a request which touches padding alone is judged
by these rules too, and that one of a fire word alone which does not fire changes nothing, is the model's choice
(assumption 102). -/
def Obligations.InletRequests : Prop :=
  ∀ (s : State) (q : SlotRequest) (o : Operator), s.operator? q.handle = some o →
    let leaves := fun (r : SlotRequest) (t : State) => t.mem = s.mem ∧ ∃ o', t.operator? q.handle = some o' ∧
      (o'.slot q.slot).state = .filling ∧ o'.fired = o.fired ∧
      (∀ e ∈ q.bytes, e.1 < o.desc.kop * o.desc.actSize →
        (o'.slot q.slot).mask.testBit e.1 = true ∧ readCell (t.slotStore o') (o.desc.inByte q.slot e.1) = e.2) ∧
      (∀ k, (∀ e ∈ q.bytes, e.1 ≠ k) → (o'.slot q.slot).mask.testBit k = (o.slot q.slot).mask.testBit k) ∧
      (o'.slot q.slot).claim =
        (if o.desc.wpol = 1 ∧ (o.slot q.slot).state ≠ .filling then some r.tag else (o.slot q.slot).claim) ∧
      ∀ j, j ≠ q.slot → o'.slot j = o.slot j
    let whole := q.slot < o.slots.length ∧ (s.anyBlock? o.blk).isSome = true ∧
      (∃ e ∈ q.bytes, e.1 < o.desc.kop * o.desc.actSize) ∧ (∀ e ∈ q.bytes, e.1 ≠ o.desc.inStride - 8) ∧
      (q.bytes.map Prod.fst).Nodup ∧ o.desc.fpol = true
    let h := s.hostRequest q
    (o.refuses q → ∃ c, s.storeRequest q = .error c) ∧
    (¬o.refuses q → whole → ∃ t, s.storeRequest q = .ok t ∧ leaves q t) ∧
    (h.remote = true ∧ h.isGroup = false ∧ h.key = 0 ∧ h.tag.toNat % 4 = 2 ∧ h.tag.toNat / 2 ^ 19 = s.fabric.devid.toNat ∧
      h.handle = q.handle ∧ h.slot = q.slot ∧ h.bytes = q.bytes) ∧
    (o.refuses h → exec (.inletStoreRequest q) s = .next s) ∧
    (¬o.refuses h → whole → StepsTo (.inletStoreRequest q) s (leaves h))

/-- R254, R261, R263, R370: the steps of an operator's sequencer: the weights arrive, a pass takes up to 96 fired slots in
order when no other operator of the core that is to make a pass has fired earlier and no group waits to park this one, and a
slot of a KEEP or TAKE operator completes with its result in the outlet and the next generation. -/
def Clauses.SequencerSteps : Prop :=
  ∀ (s : State) (o : Operator) (ob : Block) (h i : Nat), s.operator? h = some o → s.anyBlock? o.blk = some ob →
    (∀ (w sc : List Byte), o.loaded = false → o.failed = false → o.parked = false → o.desc.cnten = false →
      s.weightsOf (s.coreOfOperator h) (!s.superOf ob) o = .ok (w, sc) →
      StepsTo (.operatorWeightLoad h) s (fun t => t.mem = s.mem ∧ ∃ o', t.operator? h = some o' ∧ o'.loaded = true ∧
        o'.slots = o.slots ∧ o'.fired = o.fired ∧ (∀ k, k < w.length → some (readCell o'.weights k) = w[k]?) ∧
        ∀ k, k < sc.length → some (readCell o'.scales k) = sc[k]?)) ∧
    (∀ strikes, strikes < 2 → o.loaded = true → o.parked = false → o.removing = false → o.pass = [] → o.fired ≠ [] →
      s.parking h = false →
      (∀ x ∈ (s.core (s.coreOfOperator h)).ops, s.passDue x = true →
        (o.slot (o.fired.headD 0)).stamp ≤ (x.slot (x.fired.headD 0)).stamp) →
      StepsTo (.sequencerPass h strikes) s (fun t => t.mem = s.mem ∧ ∃ o', t.operator? h = some o' ∧
        o'.pass = o.fired.take 96 ∧ o'.fired = o.fired.drop 96 ∧ o'.poison = false ∧
        o'.results = (o.fired.take 96).map (fun i => (i, o.result i)) ∧
        ∀ j ∈ o.fired.take 96, j < o.slots.length → (o'.slot j).state = .computing)) ∧
    (o.pass.head? = some i → o.desc.rmode < 2 → o.poison = false → o.left = none → i < o.slots.length →
      StepsTo (.slotCompletion h i) s (fun t => t.mem = s.mem ∧ ∃ o', t.operator? h = some o' ∧
        o'.pass = o.pass.drop 1 ∧ (o'.slot i).state = .ready ∧ (o'.slot i).err = 0 ∧ (o'.slot i).tag = (o.slot i).firing ∧
        (o'.slot i).gen = (if (o.slot i).gen = 0xFFFFFF#24 then 1 else (o.slot i).gen + 1) ∧
        ∀ k, k < (o.resultOf i).length → some (readCell (t.slotStore o') (o.desc.outByte i k)) = (o.resultOf i)[k]?)) ∧
    (o.removing = true → o.pass = [] → StepsTo (.operatorRemoval h) s (fun t => t.operator? h = none ∧ t.mem = s.mem))

/-- R267, R268: a forwarding operator in overwrite mode delivers the words of a result to local pages, whether for the first
time or again; a delivery whose retries outlast TMO fails with error 2 and tells the fault server. That a word to a
software-coherent page is performed at the home is the model's choice (assumption 111). -/
def Clauses.Deliveries : Prop :=
  ∀ (s : State) (o : Operator) (ob : Block) (l : Launch) (h i : Nat), s.operator? h = some o → o.handle = h →
    s.anyBlock? o.blk = some ob → s.launch? ob.launch = some l → o.pass.head? = some i → o.awaiting = [] →
    i < o.slots.length → o.poison = false →
    let words := o.left.getD (List.range ((o.desc.nop * o.desc.outSize + 3) / 4))
    let va := fun (k : Nat) => o.desc.outlet + BitVec.ofNat 64 (i * o.desc.fstr * 64 + 4 * k)
    let piece := fun (k : Nat) => ((o.resultOf i).drop (4 * k)).take 4
    let done := fun (t : State) (state : SlotState) (err : BitVec 4) => ∃ o', t.operator? h = some o' ∧
      o'.pass = o.pass.drop 1 ∧ o'.left = none ∧ (o'.slot i).state = state ∧ (o'.slot i).err = err
    (∀ (pa : Nat → Nat) (mig swc unc : Nat → Bool), o.desc.rmode = 2 → s.mig.state ≠ 2#2 → s.copies = [] →
      (∀ k ∈ words, s.translate (s.coreOfOperator h) o.ctx (!s.superOf ob) .store (va k) =
        .ok (.local (pa k) (swc k) (unc k) (mig k))) →
      (∀ k ∈ words, ∀ j ∈ words, j ≠ k → pa j + 4 ≤ pa k ∨ pa k + 4 ≤ pa j) →
      ∀ e, (e = Instr.forwardRetry h i ∧ o.left ≠ none) ∨ (e = Instr.forwardDelivery h i ∧ o.left = none) →
      StepsTo e s (fun t => done t .empty 0 ∧
        ∀ k ∈ words, ∀ j, j < (piece k).length → some (t.home (pa k + j)) = (piece k)[j]?)) ∧
    (o.left ≠ none → o.desc.tmo ≠ 0 → StepsTo (.forwardTimeout h i) s (fun t => done t .empty 2 ∧ t.mem = s.mem ∧
      ∃ r, t.records = s.records ++ [⟨some l.fsrv, ob.launch, r, none⟩] ∧ r.cause = 0x42 ∧ r.kind = 3))

/-- R266, R265, R212: while the sequencer holds every lane of a load that waits for results, nothing happens; once their
results are there the load completes with the bytes of the outlet slots; and a lane whose TMO passes while it asks for
data is refused with 0x43, with the lanes already served in the performed mask. That the lanes are
served one by one, each once its result is there, is the model's choice (assumption 96). -/
def Clauses.OutletWaits : Prop :=
  ∀ (s : State) (r : GRef) (b : Block) (g : Group) (l : Launch) (p : Pending) (t n : Nat) (sg : Bool), s.groupAt r = some (b, g) →
    r.cmp = false → Plain b g → s.launch? b.launch = some l → s.superOf b = false → g.status = .waiting .outlet →
    g.pending = some p → p.dest = .lanes t n sg → p.order = 0 → p.take = false → p.scalar = false → p.waits ≠ [] →
    ((∀ w ∈ p.waits, s.outletHeld w.2 = true) → exec (.outletWaitServe r) s = .next s) ∧
    (∀ (out : Word → Operator × Nat × Nat), p.requests = [] → p.refused = [] → p.values = [] →
      (p.waits.map Prod.fst).Nodup → (n = 1 ∨ n = 2 ∨ n = 4 ∨ n = 8 ∨ n = 16) →
      (∀ w ∈ p.waits, w.1 < 96 ∧ s.outletHeld w.2 = false ∧
        s.windowAt (w.2.toNat % 2 ^ 52) = .outlet (out w.2).1 (out w.2).2.1 (out w.2).2.2 ∧
        (out w.2).1.outletCause (out w.2).2.1 (out w.2).2.2 n = none) →
      StepsTo (.outletWaitServe r) s (fun t' => t'.mem = s.mem ∧ ∃ b' h, t'.groupAt r = some (b', h) ∧
        h.status = .running ∧ h.pending = none ∧ h.pc = g.pc + BitVec.ofNat 64 (2 * p.length) ∧
        ∀ w ∈ p.waits, ∀ j, j < (n + 3) / 4 → h.vec (t + j) w.1 =
          loadWord sg ((List.range n).map (fun k => s.outletByte (out w.2).1 (out w.2).2.1 ((out w.2).2.2 + k))) j)) ∧
    (∀ (w : Nat × Word) (o : Operator) (i off : Nat), p.waits = [w] → p.requests = [] → p.refused = [] → w.1 < 96 →
      hasLane g.helper w.1 = false → s.windowAt (w.2.toNat % 2 ^ 52) = .outlet o i off → s.outletHeld w.2 = true →
      o.desc.touchesData off = true → o.desc.tmo ≠ 0 →
      StepsTo (.outletWaitTimeout r) s (fun t' => t'.mem = s.mem ∧ ∃ b' h x, t'.groupAt r = some (b', h) ∧
        h.status = .stopped ∧ h.pc = g.pc ∧ h.stop = some x ∧ x.record.cause = 0x43 ∧ x.record.kind = 0 ∧
        x.record.fmask = maskOf (fun k => decide (k = w.1)) ∧ x.record.pv = true ∧ x.record.pmask = p.got ||| g.redo ∧
        t'.records = s.records ++ [⟨some l.fsrv, b.launch, x.record, none⟩]))

/-! ## The matrix array -/

/-- R314, R311, R318, R327: an instruction queues one piece of matrix work at its core, joins it to the open batch of its
group and goes on; the image of TSTA and TLDA may lie in a cluster peer's scratchpad. -/
def Clauses.MatrixQueue : Prop :=
  ∀ (s : State) (blk : Block) (g : Group) (c a : BitVec 5) (b : BitVec 6), s.current = some (blk, g) →
    g.compacted = false →
    let addr := (g.scalar b.toNat).toNat % 2 ^ 32
    let n := c.toNat + 1
    (a.toNat + n ≤ s.accRoom blk → Queues (.tzero c a) s blk g (.zero a.toNat n) blk.id) ∧
    (∀ t : Block, a.toNat + n ≤ s.accRoom blk → addr % 64 = 0 → s.inScratch blk addr (12288 * n) = some t →
      (t.id = blk.id ∨ t.fatal = false) →
      Queues (.tsta c b a) s blk g (.store a.toNat n (addr % 2 ^ 28)) t.id ∧
      Queues (.tlda c b a) s blk g (.load a.toNat n (addr % 2 ^ 28)) t.id) ∧
    (∀ (j : BitVec 2) (q : BitVec 6) (f : BitVec 2) (code u : BitVec 5),
      let p := tmulPair (g.scalar q.toNat) (g.scalar (q.toNat + 1))
      let scales := if p.sen = true ∧ p.vs ≤ 124 then (List.range 4).map (fun k => p.vs + k) else []
      let r := g.seen s.tick scales false
      Issues s blk g { region := some 0x04, reads := scales } →
      s.tmulCause blk r p u.toNat f.toNat code.toNat j.toNat = none →
      Queues (.tmul j q f code u) s blk g (.kstep u.toNat p.n f.toNat code.toNat p.clr p.a p.w p.wsp p.ks
        (r.actScales p j.toNat) (blk.weightScales p)) blk.id)

/-- R281, R284, R318, R327: the array performs its oldest work: TZERO clears units and their poison, TLDA and TSTA move an
image of 96 rows of 32 cells a unit, row by row, between the units and the scratchpad of the block or of a cluster peer
that has not ended fatally, and TSTA of a poisoned unit writes nothing and records cause 0xA1. What the work has written
ahead of its completion stays as it is now (R320). That a unit has four marks, one for eight columns of cells, where the
spec speaks of a unit's mark, is the model's reading (assumption 13). -/
def Clauses.MatrixImages : Prop :=
  ∀ (s : State) (core : Nat) (j : ArrayJob) (rest : List ArrayJob) (b : Block), (s.core core).queue = j :: rest →
    s.block? j.blk = some b → ∀ (u n addr : Nat), u + n ≤ 32 →
      let inside := fun (k : Nat) => u ≤ k ∧ k < u + n
      let cleared := fun (b' : Block) =>
        ∀ k, k < 128 → b'.poison.getLsbD k = (b.poison.getLsbD k && !decide (inside (k / 4)))
      let image := fun (old new : Cells 8) =>
        (∀ k m c e, inside k → m < 96 → c < 32 → e < 4 →
          let o := addr + 12288 * (k - u) + 128 * m + 4 * c + e
          readCell new o = if o ∈ j.did then readCell old o else (b.cell k m c).extractLsb' (8 * e) 8) ∧
        ∀ o, o < addr ∨ addr + 12288 * n ≤ o → readCell new o = readCell old o
      (j.work = .zero u n → Performs (.tzeroPerform core) s core j rest b none (fun b' =>
        b'.scratch = b.scratch ∧ cleared b' ∧
        ∀ k m c, m < 96 → c < 32 → b'.cell k m c =
          if inside k ∧ cellKey k m c ∉ j.did then 0 else b.cell k m c)) ∧
      (j.work = .load u n addr → Performs (.tldaPerform core) s core j rest b none (fun b' =>
        b'.scratch = b.scratch ∧ cleared b' ∧
        ∀ k m c, m < 96 → c < 32 → b'.cell k m c =
          if inside k ∧ cellKey k m c ∉ j.did then
            BitVec.ofNat 32 (bytesNat (readBytes (s.imageBytes b j) (addr + 12288 * (k - u) + 128 * m + 4 * c) 4))
          else b.cell k m c)) ∧
      (j.work = .store u n addr → (∀ k, k < 128 → inside (k / 4) → b.poison.getLsbD k = false) →
        (j.img = b.id → Performs (.tstaPerform core) s core j rest b none (fun b' =>
          b'.acc = b.acc ∧ b'.poison = b.poison ∧ image b.scratch b'.scratch)) ∧
        (∀ x, j.img ≠ b.id → s.block? j.img = some x → x.fatal = false →
          Performs (.tstaPerform core) s core j rest b none (fun b' =>
            b'.acc = b.acc ∧ b'.poison = b.poison ∧ b'.scratch = b.scratch) ∧
          StepsTo (.tstaPerform core) s (fun t => ∃ x', t.block? j.img = some x' ∧ image x.scratch x'.scratch))) ∧
      (j.work = .store u n addr → (∃ k, k < 128 ∧ inside (k / 4) ∧ b.poison.getLsbD k = true) →
        Performs (.tstaPerform core) s core j rest b (some (0xA1, 0)) (fun b' => b'.scratch = b.scratch ∧ b'.acc = b.acc))

/-- R273, R281, R283, R284: a K-step whose checks have passed, or that at most one fault strikes, leaves in every cell of
its tile the value of the step's order of accumulation, but in those that it has written already (R320), and every other
cell as it was; one that reads a poisoned unit poisons its tile and records 0xA1. That the marks are those of the tile's
columns alone, and that a clearing step takes theirs away, is the model's reading (assumption 13). -/
def Clauses.MatrixSteps : Prop :=
  ∀ (s : State) (core strikes : Nat) (j : ArrayJob) (rest : List ArrayJob) (b : Block) (q : KStep),
    (s.core core).queue = j :: rest → s.block? j.blk = some b → kstepOf j.work = some q → q.cols ≤ 512 →
    q.unit + unitSpan q.accf q.cols ≤ 32 →
    let inside := fun (k : Nat) => q.unit ≤ k ∧ k < q.unit + unitSpan q.accf q.cols
    let tiled := fun (k : Nat) => decide (inside (k / 4)) &&
      (cellColumns q.accf (k / 4 - q.unit) (8 * (k % 4))).any (fun e => decide (e.1 < q.cols))
    (b.readsPoison q = true → Performs (.arrayKstep core strikes) s core j rest b (some (0xA1, 0)) (fun b' =>
      b'.acc = b.acc ∧ b'.scratch = b.scratch ∧
      ∀ k, k < 128 → b'.poison.getLsbD k = (b.poison.getLsbD k || tiled k))) ∧
    (b.readsPoison q = false → (strikes < 2 ∨ j.passed = true) →
     Performs (.arrayKstep core strikes) s core j rest b none (fun b' =>
      b'.scratch = b.scratch ∧
      (∀ k, k < 128 → b'.poison.getLsbD k = (b.poison.getLsbD k && !(q.clear && tiled k))) ∧
      (∀ k m c, ¬inside k → m < 96 → c < 32 → b'.cell k m c = b.cell k m c) ∧
      (∀ k m c, m < 96 → c < 32 → cellKey k m c ∈ j.did → b'.cell k m c = b.cell k m c) ∧
      ∀ k m c col place, inside k → m < 96 → c < 32 → cellKey k m c ∉ j.did →
        (col, place) ∈ cellColumns q.accf (k - q.unit) c →
        cellPart (b'.cell k m c) place =
          if col < q.cols then
            kCell q.accf q.planes
              (fun blk => alignBlock (if q.act = 5 then 3 else q.act) ((List.range 24).map (fun i => b.activation q m (24 * blk + i))))
              (fun p blk => b.columnCodes q col p blk) (q.weightScale col) (q.actScale m)
              (if q.clear then 0 else cellPart (b.cell k m c) place) % 2 ^ (if q.accf = 1 ∨ q.accf = 2 then 16 else 32)
          else cellPart (b.cell k m c) place))

/-- R319: TRDA reads one column of a unit into a register, lane `m` from row `m`, and TWRA writes one from the working
lanes. -/
def Clauses.MatrixColumns : Prop :=
  ∀ (s : State) (blk : Block) (g : Group) (c : BitVec 6) (u : BitVec 5) (t : BitVec 7), s.current = some (blk, g) →
    let col := (g.scalar c.toNat).toNat
    col < 32 → u.toNat < s.accRoom blk →
    (t.toNat < g.budget → (∀ k, k < 4 → blk.poison.getLsbD (4 * u.toNat + k) = false) →
      RunsTo (.trda c u t) s g (g.pc + 4) (g.regs.setLanes t.toNat g.acts (fun m => blk.cell u.toNat m col))) ∧
    (Issues s blk g { regs := [t.toNat], reads := [t.toNat] } →
      ∃ acc : Cells 32, RunsIn (.twra c u t) s (s.putBlock { blk with acc := acc }) g (g.pc + 4) g.regs ∧
        ∀ k m x, m < 96 → x < 32 → readCell acc (cellKey k m x) =
          if k = u.toNat ∧ x = col ∧ g.works m = true then (g.seen s.tick [t.toNat] false).vec t.toNat m
          else blk.cell k m x)

/-! ## Batches, counters, barriers and walks -/

/-- R327, R325, R431, R432: CSEAL and MSEAL give the open batch the next number; CWAIT and MWAIT of a batch go on when all
work up to it is done without a cause, with no clean line left in the L1, and wait while some is not; a wait for batch 0
waits for nothing. -/
def Clauses.Batches : Prop :=
  ∀ (s : State) (blk : Block) (g : Group) (a : BitVec 6), s.current = some (blk, g) → Plain blk g → g.compacted = false →
    let n := (g.scalar a.toNat).toNat
    let sealed := fun (ws : List Work) (k : Nat) => ws.map (fun w => if w.batch = 0 then { w with batch := k } else w)
    let covered := fun (w : Work) => 1 ≤ w.batch ∧ w.batch ≤ n
    RunsTo (.cseal a) s { g with copies := sealed g.copies (g.copySeal + 1), copySeal := g.copySeal + 1 } (g.pc + 4)
      (g.regs.setScalar g.present a.toNat (BitVec.ofNat 64 (g.copySeal + 1))) ∧
    RunsTo (.mseal a) s { g with matrix := sealed g.matrix (g.matSeal + 1), matSeal := g.matSeal + 1 } (g.pc + 4)
      (g.regs.setScalar g.present a.toNat (BitVec.ofNat 64 (g.matSeal + 1))) ∧
    (n = 0 → RunsTo (.cwait a) s g (g.pc + 4) g.regs ∧ RunsTo (.mwait a) s g (g.pc + 4) g.regs) ∧
    (0 < n → n ≤ g.copySeal →
      ((∀ w ∈ g.copies, covered w → w.done = true ∧ w.cause = none) →
        ∃ t, RunsIn (.cwait a) s t g (g.pc + 4) g.regs ∧ (t.core blk.core).l1Clean = [] ∧ Unmoved s t blk.core) ∧
      ((∃ w ∈ g.copies, covered w ∧ w.done = false) → Waits (.cwait a) s (.copyBatch n))) ∧
    (0 < n → n ≤ g.matSeal →
      ((∀ w ∈ g.matrix, covered w → w.done = true ∧ w.cause = none) →
        ∃ t, RunsIn (.mwait a) s t g (g.pc + 4) g.regs ∧ (t.core blk.core).l1Clean = [] ∧ Unmoved s t blk.core) ∧
      ((∃ w ∈ g.matrix, covered w ∧ w.done = false) → Waits (.mwait a) s (.matrixBatch n)))

/-- R328, R431, R432: CNTINIT stores a counter, CNTADD adds to it modulo 2^32, and CNTWAIT goes on while the counter is
below its limit, both read as signed, with no clean line left in the L1, and waits otherwise. -/
def Clauses.Counters : Prop :=
  ∀ (s : State) (blk : Block) (g : Group) (c b : BitVec 6) (k off : Nat), s.current = some (blk, g) → Plain blk g →
    g.compacted = false →
    let v := g.scalar c.toNat
    let addr := (g.scalar b.toNat).toNat
    (s.scratchWord blk true addr 4 = .ok (k, off) →
      (∃ t, RunsIn (.cntinit c b) s t g (g.pc + 4) g.regs ∧ t.mem = s.mem ∧ Stored s t k off 4 v.toNat) ∧
      (∃ t, RunsIn (.cntadd c b) s t g (g.pc + 4) g.regs ∧ Unmoved s t blk.core ∧
        Stored s t k off 4 (s.scratchNat k off 4 + v.toNat))) ∧
    (s.scratchWord blk false addr 4 = .ok (k, off) →
      let below := (BitVec.ofNat 32 (s.scratchNat k off 4)).slt (v.setWidth 32)
      (below = true → ∃ t, RunsIn (.cntwait c b) s t g (g.pc + 4) g.regs ∧ Unmoved s t blk.core ∧
        (t.core blk.core).l1Clean = []) ∧
      (below = false → Waits (.cntwait c b) s (.counter addr (v.setWidth 32))))

/-- R330: a barrier object holds the phase, the pending arrivals, the expected ones and the pending bytes; MBINIT makes one,
MBARR takes one arrival, MBEXP adds bytes, each flips the phase when nothing is pending any more; MBTRY and MBWAIT ask
whether the phase has left the one that is given. -/
def Clauses.BarrierObjects : Prop :=
  ∀ (s : State) (blk : Block) (g : Group) (c b a : BitVec 6) (k off p n e : Nat) (bytes : Int),
    s.current = some (blk, g) → Plain blk g → g.compacted = false →
    p < 2 → n < 2048 → e < 2048 → -(2 ^ 27) ≤ bytes → bytes < 2 ^ 27 →
    let v := (g.scalar c.toNat).toNat
    let addr := (g.scalar b.toNat).toNat
    let word := s.scratchNat k off 8
    (s.scratchWord blk true addr 8 = .ok (k, off) →
      (1 ≤ v → v ≤ 2047 → ∃ t, RunsIn (.mbinit c b) s t g (g.pc + 4) g.regs ∧ t.mem = s.mem ∧
        Stored s t k off 8 (objectWord 0 v v 0)) ∧
      (word = objectWord p n e bytes → 0 < n → 0 < e → ∃ t, RunsIn (.mbarr b) s t g (g.pc + 4) g.regs ∧
        Unmoved s t blk.core ∧ Stored s t k off 8 (settledWord p (n - 1) e bytes)) ∧
      (word = objectWord p n e bytes → v < 2 ^ 27 → bytes + v < 2 ^ 27 → ∃ t, RunsIn (.mbexp c b) s t g (g.pc + 4) g.regs ∧
        t.mem = s.mem ∧ Stored s t k off 8 (settledWord p n e (bytes + v)))) ∧
    (s.scratchWord blk false addr 8 = .ok (k, off) → word = objectWord p n e bytes → 0 < e →
      (p ≠ v % 2 →
        (∃ t, RunsIn (.mbwait c b) s t g (g.pc + 4) g.regs ∧ Unmoved s t blk.core ∧ (t.core blk.core).l1Clean = []) ∧
        (∃ t, RunsIn (.mbtry c b a) s t g (g.pc + 4) (g.regs.setScalar g.present a.toNat 1) ∧ Unmoved s t blk.core ∧
          (t.core blk.core).l1Clean = [])) ∧
      (p = v % 2 → Waits (.mbwait c b) s (.phase addr ((g.scalar c.toNat).getLsbD 0)) ∧
        RunsTo (.mbtry c b a) s g (g.pc + 4) (g.regs.setScalar g.present a.toNat 0)))

/-- R329, R241, R371: BAR.BLK and BAR.CLU arrive and wait; when every group of the block, or of every block of the cluster,
has arrived or ended, the groups that arrived go on past their barrier; the two blocks of a pair count as one. That a group
which a stop, a save or a halt has taken out of its wait is past the barrier too is the model's choice (assumption 22). -/
def Clauses.Barriers : Prop :=
  (∀ (s : State) (blk : Block) (g : Group), s.current = some (blk, g) → g.compacted = false → g.holds = [] →
    ((∀ x ∈ blk.groups, ∀ a m k j, x.status ≠ .waiting (.compaction a m k j)) →
      Waits' .barBlk s (.barrierBlock) (fun h => h.arrivedB = true ∧ h.pc = g.pc) (fun t => t.mem = s.mem)) ∧
    (s.peerFault blk = false →
      Waits' .barClu s (.barrierCluster) (fun h => h.arrivedC = true ∧ h.pc = g.pc) (fun t => Unmoved s t blk.core))) ∧
  (∀ (s : State) (blk : Block), s.block? blk.id = some blk →
    let both := blk :: (s.otherHalf blk).toList
    (both.map Block.id).Nodup → (∀ x ∈ both, x.fatal = false ∧ ∀ g ∈ x.groups, g.status = .ended ∨ g.arrivedB = true) →
    (∃ x ∈ both, ∃ g ∈ x.groups, g.arrivedB = true) →
    StepsTo (.barrierDeparture blk.id false) s (fun t => t.mem = s.mem ∧ ∀ x ∈ both, s.block? x.id = some x →
      ∃ b, t.block? x.id = some b ∧ b.epoch = (x.epoch.1 + 1, x.epoch.2) ∧ Departed x b Group.arrivedB .barrierBlock)) ∧
  (∀ (s : State) (blk : Block), s.block? blk.id = some blk → (s.clusterOf blk).length = s.clusterSize blk →
    let all := (s.clusterOf blk).flatMap (fun x => x :: (s.otherHalf x).toList)
    (all.map Block.id).Nodup →
    (∀ x ∈ all, x.fatal = false ∧ x.groups ≠ [] ∧ ∀ g ∈ x.groups, g.status = .ended ∨ g.arrivedC = true) →
    (∃ x ∈ all, ∃ g ∈ x.groups, g.arrivedC = true) →
    StepsTo (.barrierDeparture blk.id true) s (fun t => ∀ x ∈ all, s.block? x.id = some x →
      (t.core x.core).l1Clean = [] ∧ ∃ b, t.block? x.id = some b ∧ b.epoch = (x.epoch.1, x.epoch.2 + 1) ∧
        Departed x b Group.arrivedC .barrierCluster))

/-- R298, R332: WALK starts a walk and gives its first tile, WNEXT the next, and WEND ends it. Whatever order the walk
has, it gives every tile of the nest exactly once, and -1 when no tile is left. -/
def Clauses.Walks : Prop :=
  (∀ (s s1 : State) (blk : Block) (g : Group) (b a : BitVec 6) (bs : List Byte), s.current = some (blk, g) →
    g.compacted = false →
    (g.scalar b.toNat).toNat % 16 = 0 → g.walk = none → s.readRecord blk g (g.scalar b.toNat) 2 = .ok (bs, s1) →
    nestOk (nestCounts bs) = true → (∀ j ∈ s1.journals, j.ctx ≠ s.ctxOf blk) →
    ∃ order, RunsIn (.walk b a) s s1 { g with walk := some ⟨nestCounts bs, order, 1⟩ } (g.pc + 4)
      (g.regs.setScalar g.present a.toNat (Walk.tile ⟨nestCounts bs, order, 1⟩ 0))) ∧
  (∀ (s : State) (blk : Block) (g : Group) (a : BitVec 6) (w : Walk), s.current = some (blk, g) → g.compacted = false →
    RunsTo .wend s { g with walk := none } (g.pc + 4) g.regs ∧
    (g.walk = some w →
      RunsTo (.wnext a) s { g with walk := some { w with given := min (w.given + 1) (max w.given (nestTiles w.counts)) } }
        (g.pc + 4) (g.regs.setScalar g.present a.toNat (w.tile w.given)))) ∧
  (∀ (w : Walk) (i : Nat),
    (i < nestTiles w.counts → ∃ k, k < nestTiles w.counts ∧ w.tile k = tileWord w.counts i ∧
      ∀ j, j < nestTiles w.counts → j ≠ k → ∃ m, m < nestTiles w.counts ∧ m ≠ i ∧ w.tile j = tileWord w.counts m) ∧
    (nestTiles w.counts ≤ i → w.tile i = BitVec.allOnes 64))

/-! ## Copies -/

/-- R321 to R325: TCOPY starts one copy for each elected lane, with the elements that the lane's origin gives, adds them
to the group's open batch and to the counter, and goes on; without an elected lane it does nothing. -/
def Obligations.CopyStarts : Prop :=
  ∀ (s : State) (blk : Block) (g : Group) (m e : BitVec 1) (v : BitVec 7) (c h : BitVec 6), s.current = some (blk, g) →
    Plain blk g →
    let regs := (List.range 4).map (fun k => v.toNat + k)
    let r := g.seen s.tick regs false
    let lanes := g.elected (decide (e = 1#1))
    let va := g.scalar h.toNat
    Issues s blk g { region := some 0x04, regs := regs, reads := regs } →
    ∀ x ∈ [(Instr.tcopyLd m e v c h, false, decide (m = 1#1)), (Instr.tcopySt e v c h, true, false)],
      (lanes = [] → RunsTo x.1 s g (g.pc + 4) g.regs) ∧
      ∀ (bs : List Byte) (side : List Block) (base : Nat) (cnt : Option (Nat × Nat))
        (plans : List (List (Nat × Option (Word × Place)))),
        lanes ≠ [] → va.toNat % 64 = 0 → s.groupRead blk g va 64 = .ok bs →
        let q := parseShaped bs
        q.ok x.2.1 = true → s.copySide blk q x.2.2 = some (side, base) → s.copyGone blk x.2.1 x.2.2 side = false →
        s.copyCounter blk g c.toNat = .ok cnt →
        s.copyPlans blk x.2.1 q (lanes.map (fun l => (l, r.origin v.toNat l))) = .ok plans →
        (∀ y ∈ s.copies, y.id < s.nextId) →
        ∃ (t : State) (new : List Copy),
          RunsIn x.1 s t { g with copies := g.copies ++ new.map (fun y => ⟨y.id, 0, false, none⟩) } (g.pc + 4) g.regs ∧
          t.mem = s.mem ∧ t.copies = s.copies ++ new ∧ new.length = lanes.length ∧
          (∀ (k : Nat) (y : Copy) (l : Nat), new[k]? = some y → lanes[k]? = some l →
            y.blk = blk.id ∧ y.grp = s.cur.grp ∧ y.store = x.2.1 ∧ y.mcast = x.2.2 ∧ y.toStore = q.wst ∧ y.base = base ∧
            y.bytes = q.size ∧ y.cnt = cnt ∧
            y.elems.map (fun e => (e.off, e.at_.map Prod.fst)) = q.elements (r.origin v.toNat l)) ∧
          (∀ k off, cnt = some (k, off) → Stored s t k off 4 (s.scratchNat k off 4 + lanes.length))

/-- R325, R326, R400, R432: the one copy in progress, of local bytes, completes: each byte of the destination takes what its
source held at the issue or holds now, from a software-coherent page perhaps the clean copy of its die's L2; a byte out of
bounds takes 0, no other byte changes, and the group finds the copy done. A copy to memory writes at the home, past the
dies' L2. An element that has landed before stays as it is. -/
def Clauses.CopyMoves : Prop :=
  ∀ (s : State) (c : Copy) (b : Block) (pa : Nat → Nat) (swc unc mig : Nat → Bool),
    s.copies = [c] → s.block? c.blk = some b → b.pair = none → c.requests = [] →
    c.cnt = none → c.credit = none → (s.block? c.dst).isSome = true →
    (∀ (k : Nat) (e : CopyElem), c.elems[k]? = some e → e.off = k * 2 ^ c.esz ∧
      e.was.length = 2 ^ c.esz ∧ (e.at_ = none ∨
        (pa k % 2 ^ c.esz = 0 ∧ ∃ va, e.at_ = some (va, .local (pa k) (swc k) (unc k) (mig k))))) → c.esz ≤ 3 →
    let n := 2 ^ c.esz
    let die := s.die (dieOf b.core)
    let old := fun (e : CopyElem) (j : Nat) (now : Byte) (v : Byte) => v = now ∨ v = e.was.getD j now
    (c.store = false → c.mcast = false → c.toStore = false → (∀ k, k < c.elems.length → s.spoiled (pa k) n = false) →
      StepsTo (.copyCompletion c.id) s (fun t => t.mem = s.mem ∧ Settles s t c ∧
        (∀ (k : Nat) (e : CopyElem), c.elems[k]? = some e → ∀ j, j < n →
          let v := t.scratchByte c.dst (c.base + e.off + j)
          if e.landed = true then v = s.scratchByte c.dst (c.base + e.off + j)
          else if e.at_ = none then v = 0
          else old e j (s.l2Byte (dieOf b.core) (swc k) (pa k + j)) v ∨
            (swc k = true ∧ findCopy die.dirty (pa k + j) = none ∧ findCopy die.clean (pa k + j) = some v)) ∧
        ∀ i o, (s.block? i).isSome = true → (i ≠ c.dst ∨ o < c.base ∨ c.base + c.elems.length * n ≤ o) →
          t.scratchByte i o = s.scratchByte i o)) ∧
    (c.store = true → s.mig.state ≠ 2#2 →
      (∀ i j, i < j → j < c.elems.length → pa i + n ≤ pa j ∨ pa j + n ≤ pa i) →
      StepsTo (.copyCompletion c.id) s (fun t => Settles s t c ∧ t.dies = s.dies ∧
        (∀ (k : Nat) (e : CopyElem), c.elems[k]? = some e → e.at_ ≠ none → e.landed = true → ∀ j, j < n →
          t.home (pa k + j) = s.home (pa k + j)) ∧
        (∀ (k : Nat) (e : CopyElem), c.elems[k]? = some e → e.at_ ≠ none → e.landed = false → ∀ j, j < n →
          old e j (s.scratchByte c.dst (c.base + e.off + j)) (t.home (pa k + j))) ∧
        (∀ a, (∀ (k : Nat) (e : CopyElem), c.elems[k]? = some e → e.at_ ≠ none → a < pa k ∨ pa k + n ≤ a) →
          t.home a = s.home a) ∧
        ∀ i o, (s.block? i).isSome = true → t.scratchByte i o = s.scratchByte i o))

/-- R325, R328, R330: a completed copy takes 1 from its counter and its box bytes from the pending bytes of its barrier
object. -/
def Clauses.CopyCredits : Prop :=
  ∀ (s : State) (c : Copy) (b : Block) (k off p n e : Nat) (bytes : Int),
    s.copies.find? (fun x => x.id == c.id) = some c → s.block? c.blk = some b → b.pair = none → c.requests = [] →
    c.elems = [] → c.mcast = false → (s.block? k).isSome = true →
    (c.cnt = some (k, off) → c.credit = none →
      StepsTo (.copyCompletion c.id) s (fun t => t.mem = s.mem ∧ Settles s t c ∧
        Stored s t k off 4 (s.scratchNat k off 4 + (2 ^ 32 - 1)))) ∧
    (c.cnt = none → c.credit = some (k, off) → k ≠ 0 → p < 2 → n < 2048 → e < 2048 → -(2 ^ 27) ≤ bytes - c.bytes →
      bytes < 2 ^ 27 → s.scratchNat k off 8 = objectWord p n e bytes →
      StepsTo (.copyCompletion c.id) s (fun t => t.mem = s.mem ∧ Settles s t c ∧
        Stored s t k off 8 (settledWord p n e (bytes - c.bytes))))

/-! ## Shapes, the arena and held stores -/

/-- R306, R333: SHPUB stores the two words of the record, and every started maquette launch that awaits its shape at that
address is judged: malformed with status 5, beyond its limit with status 4, or accepted. That every launch with the address
is judged, whatever its context, is the model's reading (assumption 52). -/
def Clauses.ShapePublication : Prop :=
  ∀ (s : State) (blk : Block) (g : Group) (c b a : BitVec 6) (pa pb : Nat) (swc sw unc un : Bool),
    s.current = some (blk, g) → Plain blk g → g.compacted = false → s.mig.state ≠ 2#2 →
    let va := g.scalar a.toNat
    let low := g.scalar b.toNat
    let high := g.scalar c.toNat
    let x := low.toNat % 2 ^ 24
    let y := low.toNat / 2 ^ 24 % 2 ^ 20
    let z := low.toNat / 2 ^ 44
    va.toNat % 16 = 0 → Reaches s blk .store 8 va pa swc unc → Reaches s blk .store 8 (va + 8) pb sw un →
    (pa + 8 ≤ pb ∨ pb + 8 ≤ pa) →
    ∃ t : State, RunsIn (.shpub c b a) s t { g with pending := none, status := .running } (g.pc + 4) g.regs ∧
      (∀ k, k < 8 →
        (if unc then t.home (pa + k) else t.look blk.core swc (pa + k)) = low.extractLsb' (8 * k) 8 ∧
        (if un then t.home (pb + k) else t.look blk.core sw (pb + k)) = high.extractLsb' (8 * k) 8) ∧
      ∀ l : Launch, s.launch? l.id = some l → l.started = true → l.complete = false → l.torn = false →
        l.record.maq = true → l.judged = false → l.record.shaddr = va → (l.limit ≠ 0 ∨ l.status = none) →
        (∀ j ∈ s.journals, j.ctx ≠ l.ctx) →
        let broken := y = 0 ∨ y ≠ l.gridY ∨ z ≠ l.gridZ
        ∃ m, t.launch? l.id = some m ∧ m.judged = true ∧ m.applied = false ∧ m.shape = some ⟨low, high⟩ ∧
          (broken → m.truth = l.truth ∧ m.status = some (l.status.getD 5)) ∧
          (¬broken → m.truth = some x ∧ m.status = if l.record.lx < x then some (l.status.getD 4) else l.status)

/-- R334: SHWAIT and SHQRY wait while the launch awaits its shape; then SHWAIT goes on, and SHQRY returns the published
record, or the grid of a launch without MAQ, in two scalars. That SHWAIT, and SHQRY of a launch without MAQ, leave no clean
line in the L1, as SHQRY after an acceptance does, is the model's choice (assumption 52). -/
def Clauses.ShapeQueries : Prop :=
  ∀ (s : State) (blk : Block) (g : Group) (l : Launch) (a : BitVec 6), s.current = some (blk, g) → g.compacted = false →
    s.launch? blk.launch = some l → a.toNat ≤ 62 →
    let open' := l.record.maq = true ∧ (blk.mode = .tentative ∨ l.judged = false)
    let h : Shape := if l.record.maq then l.shape.getD ⟨0, 0⟩
      else ⟨BitVec.ofNat 64 (l.gridX + 2 ^ 24 * l.gridY + 2 ^ 44 * l.gridZ), 0⟩
    (open' → Waits .shwait s .shape ∧ Waits (.shqry a) s .shape) ∧
    (¬open' →
      (∃ t, RunsIn .shwait s t g (g.pc + 4) g.regs ∧ (t.core blk.core).l1Clean = [] ∧ Unmoved s t blk.core) ∧
      (∃ t, RunsIn (.shqry a) s t g (g.pc + 4)
          ((g.regs.setScalar g.present a.toNat h.low).setScalar g.present (a.toNat + 1) h.high) ∧
        (t.core blk.core).l1Clean = [] ∧ Unmoved s t blk.core))

/-- R307, R335: RALLOC hands out the next bytes of the block's sub-arena, rounded up to lines of 64 bytes, and RFREE gives
back the newest allocation. -/
def Clauses.Arena : Prop :=
  ∀ (s : State) (blk : Block) (g : Group) (l : Launch) (b a : BitVec 6), s.current = some (blk, g) → g.compacted = false →
    s.launch? blk.launch = some l → l.record.maq = true → l.record.arena ≠ 0 →
    let base := l.record.arena + BitVec.ofNat 64 (blk.lin * l.record.quota)
    let r := ((g.scalar b.toNat).toNat + 63) / 64 * 64
    (blk.pair = none → blk.arena + r ≤ l.record.quota →
      RunsIn (.ralloc b a) s (s.putBlock { blk with arena := blk.arena + r, allocs := blk.arena :: blk.allocs }) g (g.pc + 4)
        (g.regs.setScalar g.present a.toNat (base + BitVec.ofNat 64 blk.arena))) ∧
    (∀ at' rest, blk.allocs = at' :: rest → g.scalar b.toNat = base + BitVec.ofNat 64 at' →
      RunsIn (.rfree b) s (s.putBlock { blk with arena := at', allocs := rest }) g (g.pc + 4) g.regs)

/-- R305: a judged shape confirms the tentative blocks below its x and squashes the others; a confirmed block that holds
nothing is a normal one. -/
def Clauses.ShapeVerdicts : Prop :=
  ∀ (s : State) (l : Launch), s.launch? l.id = some l → l.judged = true → l.applied = false → l.complete = false →
    l.torn = false → l.saving ≠ .saved → (s.blocks.map Block.id).Nodup →
    (∀ b ∈ s.blocks, b.launch = l.id → b.mode = .tentative → ∀ g ∈ b.allGroups, g.holds = [] ∧ g.status ≠ .held) →
    StepsTo (.shapeApply l.id) s (fun t => t.mem = s.mem ∧
      (∃ m, t.launch? l.id = some m ∧ m.applied = true ∧ m.judged = true ∧ m.truth = l.truth) ∧
      ∀ b ∈ s.blocks, b.launch = l.id →
        (b.mode ≠ .tentative → t.block? b.id = some b) ∧
        (b.mode = .tentative → b.lin % max 1 l.gridX < l.truth.getD l.record.fx → t.block? b.id = some { b with mode := .normal }) ∧
        (b.mode = .tentative → l.truth.getD l.record.fx ≤ b.lin % max 1 l.gridX → t.block? b.id = none))

/-- R305, R239: the oldest entry that a group of a confirmed block holds is performed as a store to its line, the youngest
byte at each address, and is gone, once no entry stands before it that its group has synchronised with. -/
def Clauses.HeldStores : Prop :=
  ∀ (s : State) (r : GRef) (b : Block) (g : Group) (e : HoldEntry) (pa : Nat) (swc unc mig : Bool), r.cmp = false →
    s.block? r.blk = some b → b.groups[r.grp]? = some g → g.holds.head? = some e → e.sent = none → b.mode = .confirmed →
    b.pair = none → g.status ≠ .stopped → (∀ x ∈ b.allGroups, x.status ≠ .held) → s.mig.state ≠ 2#2 →
    (∀ f ∈ b.entriesHeld, e.epoch.1 ≤ f.epoch.1 ∧ e.epoch.2 ≤ f.epoch.2) → s.olderHeld b.launch e.after = false →
    s.heldByHome pa = false →
    s.translate b.core (s.ctxOf b) (!s.superOf b) .store (BitVec.ofInt 64 (signedOf 52 (64 * e.line))) =
      .ok (.local pa swc unc mig) →
    StepsTo (.holdEntryDrain r) s (fun t =>
      (∃ b' h, t.block? r.blk = some b' ∧ b'.groups[r.grp]? = some h ∧ h = { g with holds := g.holds.drop 1 }) ∧
      ∀ k v, k < 64 → heldByte [e] (64 * e.line + k) = some v →
        (if unc then t.home (pa + k) else t.look b.core swc (pa + k)) = v)

/-! ## Queues and launches -/

/-- R287, R289: a queue that is woken takes its new write index; one that is too far ahead stops the queue. A queue
without a launch under way hands over the launch at its read index. -/
def Clauses.QueueWakes : Prop :=
  ∀ (s : State) (q : Queue) (w h : Nat), s.queue? q.id = some q → q.stopped = false →
    (s.frontWord q.ctx q.widxVa 8 = .ok w → w ≠ q.widx →
      (2 ^ q.lsize < (w + 2 ^ 64 - q.ridx % 2 ^ 64) % 2 ^ 64 →
        StepsTo (.queueWake q.id) s (fun t => ∃ p, t.queue? q.id = some p ∧ p.stopped = true ∧ p.widx = q.widx)) ∧
      ((w + 2 ^ 64 - q.ridx % 2 ^ 64) % 2 ^ 64 ≤ 2 ^ q.lsize → s.queueHead { q with widx := w } = .found h → h % 256 ≠ 1 →
        StepsTo (.queueWake q.id) s (fun t => t = s.putQueue { q with widx := w }))) ∧
    (s.queueHead q = .found h → h % 256 = 2 → (∀ l ∈ s.launches, l.queue ≠ some q.id ∨ l.started = true) →
      StepsTo (.launchRecord q.id) s (fun t => ∃ l : Launch, t = { s with nextId := s.nextId + 1, launches := s.launches ++ [l] } ∧
        l.id = s.nextId ∧ l.queue = some q.id ∧ l.ctx = q.ctx ∧ l.fsrv = q.fsrv ∧ l.started = false ∧ l.complete = false ∧
        l.record.tag = BitVec.ofNat 16 (h / 2 ^ 32) ∧ l.record.ord = h.testBit 48 ∧ l.record.maq = h.testBit 49))

/-- R287, R288, R289: WAITMEM holds its queue until the word is at least its value; SIGNAL and BARRIER hold it until every
launch before them has completed, and SIGNAL then stores its value; the queue goes on to the next record, past a store at
a peer once the peer has accepted it, and stops where the peer refuses it. -/
def Clauses.QueueRecords : Prop :=
  ∀ (s : State) (q : Queue) (h v : Nat) (bs : List Byte), s.queue? q.id = some q → s.queueHead q = .found h →
    q.widx = q.ridx + 64 → s.frontRead q.ctx (q.address q.ridx) 24 = .ok bs →
    let addr := BitVec.ofNat 64 (bytesNat ((bs.drop 8).take 8))
    let value := bytesNat ((bs.drop 16).take 8)
    let idle := ∀ l ∈ s.launches, l.queue = some q.id → l.complete = true
    let passed := fun (s1 t : State) => t.queue? q.id = some { q with ridx := q.ridx + 64 } ∧ t = s1.passRecord q 1
    let stopped := fun (t : State) => ∃ x, t.queue? q.id = some x ∧ x.stopped = true ∧ x.ridx = q.ridx
    (h % 256 = 3 → s.frontWord q.ctx addr 8 = .ok v →
      (value ≤ v → StepsTo (.waitmemRecord q.id) s (passed s)) ∧
      (v < value → exec (.waitmemRecord q.id) s = .next s)) ∧
    (h % 256 = 4 → s.signalling q.id = false → (¬idle → exec (.signalRecord q.id) s = .next s) ∧
      (idle → ∀ s1, (s.frontStore q.ctx addr value = .ok (none, s1) → StepsTo (.signalRecord q.id) s (passed s1)) ∧
        ∀ k, s.frontStore q.ctx addr value = .ok (some k, s1) →
          exec (.signalRecord q.id) s = .next { s1 with writes := (k, .signal q.id addr) :: s1.writes })) ∧
    (h % 256 = 4 → ∀ k p, s.writes = [(k, .signal q.id addr)] → s.replyTo k = some p →
      (replyCause p = none → StepsTo (.signalRecord q.id) s (passed (s.settleWrite k))) ∧
      (replyCause p ≠ none → StepsTo (.signalRecord q.id) s stopped)) ∧
    (h % 256 = 5 → (¬idle → exec (.barrierRecord q.id) s = .next s) ∧
      (idle → StepsTo (.barrierRecord q.id) s (passed s)))

/-- R290, R291, R357: a launch starts when its record and its image are read: with every block of its grid to be placed, or
with none and status 1 for a partition error, 2 for a parameter error, 3 for a malformed image. -/
def Clauses.LaunchStarts : Prop :=
  ∀ (s : State) (q : Queue) (l : Launch) (bs hb : List Byte), s.launch? l.id = some l → l.queue = some q.id →
    s.queue? q.id = some q → q.stopped = false → l.started = false → l.complete = false → l.record.ord = false →
    l.record.maq = false → s.frontRead q.ctx (q.address q.ridx) 64 = .ok bs →
    let r := l.record.fill bs
    let l1 := { l with record := r, header := parseHeader hb }
    r.img.toNat % 64 = 0 → r.hcnt = 0 → s.frontRead l.ctx r.img 768 = .ok hb → l1.header.saved = false →
    StepsTo (.launchStart l.id) s (fun t => ∃ m, t.launch? l.id = some m ∧ m.started = true ∧ m.header = parseHeader hb ∧
      m.record = r ∧ m.next = l.next ∧
      (l1.header.partitionBad = true → m.status = some 1 ∧ m.limit = 0) ∧
      (l1.header.partitionBad = false → l1.parameterBad = true → m.status = some 2 ∧ m.limit = 0) ∧
      (l1.header.partitionBad = false → l1.parameterBad = false → headerMalformed hb = true → m.status = some 3 ∧ m.limit = 0) ∧
      (l1.header.partitionBad = false → l1.parameterBad = false → headerMalformed hb = false →
        m.status = l.status ∧ m.limit = l1.gridX * l1.gridY * l1.gridZ))

/-- R293, R294, R95, R108: the dispatcher places the next block of a launch on a core with room: with a group for each entry
of its plan, at the entry point of the image. -/
def Clauses.BlockPlacements : Prop :=
  ∀ (s : State) (l : Launch) (c n : Nat), s.launch? l.id = some l → l.started = true → l.complete = false →
    l.torn = false → l.saving = .no → l.savedBlk = [] → l.redo = [] → l.next < l.limit → l.header.clsize = 1 →
    l.header.red = false → l.record.maq = false → s.power.holding = false → s.mayPlace l = true →
    s.visitOf (fun x n => !s.visitLeft x n) l = some n →
    s.coreHasRoom l.header c = true →
    StepsTo (.blockPlacement l.id [c]) s (fun t => t.mem = s.mem ∧ (t.core c).l1Clean = [] ∧
      t.launch? l.id = some { l with next := l.next + 1 } ∧
      ∃ b, t.blocks = s.blocks ++ [b] ∧ b.id = s.nextId ∧ b.launch = l.id ∧ b.lin = l.next ∧ b.core = c ∧ b.mode = .normal ∧
        b.ended = false ∧ b.groups.length = l.header.plan.length ∧
        ∀ (k : Nat) (g : Group), b.groups[k]? = some g → g.pc = l.header.entry ∧ g.status = .running ∧ g.gid = k ∧
          l.header.plan[k]? = some (g.role, g.roleGid, g.budget) ∧
          ∀ x, x < 96 → hasLane g.present x = decide (x < min 96 ((min 96 (l.header.threads - 96 * k) + 3) / 4 * 4)))

/-- R292: a launch whose blocks have all ended stores its status word, the status in bits [7:0] and the true x above it,
and is complete; its blocks are gone. That the word is stored at its home on a software-coherent page too is the model's
choice (assumption 111). -/
def Clauses.LaunchCompletions : Prop :=
  ∀ (s : State) (l : Launch) (pa : Nat) (swc unc mig : Bool), s.launch? l.id = some l → s.launchOver l = true →
    l.record.maq = false → l.record.done ≠ 0 → l.record.done.toNat % 8 = 0 → l.record.cntr = 0 → l.record.hcnt = 0 →
    l.finals = 0 → s.writes = [] → s.copies = [] →
    s.mig.state ≠ 2#2 → (∀ b ∈ s.blocks, b.launch = l.id → (s.core b.core).l1Dirty = [] ∧ ∀ o ∈ s.operators, o.blk ≠ b.id) →
    s.translate frontEnd l.ctx (s.userCtx l.ctx) .store l.record.done = .ok (.local pa swc unc mig) →
    StepsTo (.launchCompletion l.id) s (fun t =>
      (∀ k, k < 8 → t.home (pa + k) = BitVec.ofNat 8 ((l.status.getD 0 % 256 + 256 * (l.gridX % 2 ^ 24)) / 256 ^ k)) ∧
      (∀ a, a < pa ∨ pa + 8 ≤ a → t.home a = s.home a) ∧
      (∃ m, t.launch? l.id = some m ∧ m.complete = true ∧ m.status = l.status) ∧
      ∀ b, b ∈ t.blocks ↔ b ∈ s.blocks ∧ b.launch ≠ l.id)

/-! ## Prefixes -/

/-- R60, R63, R170: a MOD word in its ALU layout and the lane instruction behind it are one unit: the lanes get what the
instruction computes under the fields of the word, and the PC moves past both. -/
def Clauses.ModifiedLanes : Prop :=
  (∀ (s : State) (blk : Block) (g : Group) (p : BitVec 6) (c : BitVec 1) (k : BitVec 5) (e f h i : BitVec 1) (u : BitVec 2)
    (x : Inner) (t : Target), s.current = some (blk, g) → s.innerAt blk g 2 = .ok x → laneTarget x.instr = some t →
    let m := modFields p c k e f h i u
    let r := g.seen s.tick t.form.need.reads t.form.need.flags
    t.accepts.admits m = true → Issues s blk g t.form.need →
    RunsIn (.modAlu p c k e f h i u) s s { g with pace := x.stall } (g.pc + BitVec.ofNat 64 (4 + 2 * t.length))
      (g.regs.formed g r t.form m)) ∧
  (∀ (r : Group) (x : BitVec 1) (b a d : BitVec 7) (l : Nat) (h i : BitVec 1),
    let v := fun (u : BitVec 2) => laneEval r (vrForm (.int .add) x b a d) (modFields 0 0 0 0 0 h i u) l
    let p := (r.vec a.toNat l).toInt * (if i = 1#1 then -1 else 1)
    let q := (r.operand (operandB x b) l).toInt * (if h = 1#1 then -1 else 1)
    let fits := -(2 ^ 31) ≤ p + q ∧ p + q < 2 ^ 31
    (v 0#2).value = BitVec.ofInt 32 (p + q) ∧ (v 0#2).flags = 0 ∧
    (v 1#2).value = BitVec.ofInt 32 (max (-(2 ^ 31)) (min (2 ^ 31 - 1) (p + q))) ∧
    ((v 1#2).flags = 0 ↔ fits))

/-- R214, R242: an access of this order (bit 0: acquire, bit 1: release) and scope is an acquire of cluster scope or wider.
-/
def wideAcquire (order : BitVec 2) (c : BitVec 3) : Prop := order.getLsbD 0 = true ∧ 2 ≤ c.toNat

/-- R214, R242: the access is a release of cluster scope or wider. -/
def wideRelease (order : BitVec 2) (c : BitVec 3) : Prop := order.getLsbD 1 = true ∧ 2 ≤ c.toNat

/-- The bytes outside those that a modified store or atomic names, which `far` tells, read as before: on every core, or,
when the access is a release that writes the L1 back, on its own (R242). -/
def KeptOutside (s t : State) (core : Nat) (order : BitVec 2) (c : BitVec 3) (far : Nat → Prop) : Prop :=
  ∀ a swc, far a →
    (¬wideRelease order c → ∀ k, t.look k swc a = s.look k swc a) ∧
    (wideRelease order c → OneClass s core swc a → t.look core swc a = s.look core swc a)

/-- R63, R75, R76, R203, R204, R214, R217, R220: a MOD word in its memory layout moves the addresses of the lane load,
scalar load, SLDC or LDC behind it by its offset in units of 8 bytes, with any hint that the instruction may carry, and the
PC goes past both; an acquire of cluster scope or wider leaves no clean line in the L1. A byte of a load with `.rep` of a
hardware-coherent page may also be its launch's replica. On local memory `.wt` and `.take` change nothing. -/
def Clauses.ModifiedLoads : Prop :=
  ∀ (s : State) (blk : Block) (g : Group) (o : BitVec 9) (k w : BitVec 1) (h : BitVec 2) (c : BitVec 3) (order : BitVec 2)
    (stall : BitVec 2) (len : Nat) (b : BitVec 6), s.current = some (blk, g) → Plain blk g → order.toNat ≤ 1 →
    (order ≠ 0 → c = 2#3 → s.peerFault blk = false) →
    let after := { g with pace := stall, pending := none, status := .running }
    let copied := fun (swc unc : Bool) (a : Nat) (v : Byte) => h = 1#2 ∧ swc = false ∧ unc = false ∧
      ∃ y ∈ s.replicas, y.launch = blk.launch ∧ y.pa = a ∧ y.byte = v
    let clear := fun (t' : State) => wideAcquire order c → (t'.core blk.core).l1Clean = []
    (∀ (gd : BitVec 2) (x t : BitVec 7) (pa : Nat → Nat) (swc unc : Nat → Bool),
      let r := g.seen s.tick [x.toNat] false
      let m := r.takes gd.toNat true
      let va := fun (l : Nat) => r.scalar b.toNat + (r.vec x.toNat l).setWidth 64 + o.signExtend 64 * 8
      (∀ e ∈ loadTable gd x b t, s.innerAt blk g 2 = .ok ⟨e.1, stall, len⟩ →
        let n := e.2.1
        Issues s blk g { regs := x.toNat :: regRun t.toNat ((n + 3) / 4), reads := [x.toNat] } →
        (∀ l, l < 96 → m l = true → Reaches s blk .load n (va l) (pa l) (swc l) (unc l) ∧ s.spoiled (pa l) n = false) →
        ∃ (t' : State) (bs : Nat → List Byte),
          RunsIn (.modMemory o k w h c order) s t' after (g.pc + 8)
            (g.regs.fill t.toNat ((n + 3) / 4) m (fun l => loadWord e.2.2 (bs l))) ∧
          MemoryKept s t' ∧ clear t' ∧
          ∀ l, l < 96 → m l = true → (bs l).length = n ∧ ∀ k v, (bs l)[k]? = some v →
            s.mayRead blk.core (swc l) (unc l) (pa l + k) v ∨ copied (swc l) (unc l) (pa l + k) v) ∧
      (s.innerAt blk g 2 = .ok ⟨.ldc gd x b t, stall, len⟩ → h ≠ 1#2 →
        Issues s blk g { regs := [x.toNat, t.toNat], reads := [x.toNat] } →
        (∀ l, l < 96 → m l = true → Reaches s blk .load 4 (va l) (pa l) (swc l) (unc l) ∧ s.spoiled (pa l) 4 = false) →
        (∀ l k, l < 96 → k < 96 → pa l / 8 = pa k / 8 → swc l = swc k) →
        ∃ (t' : State) (bs : Nat → List Byte),
          RunsIn (.modMemory o 0 0 h c order) s t' after (g.pc + 8)
            (g.regs.fill t.toNat 1 m (fun l => loadWord false (bs l))) ∧
          MemoryKept s t' ∧ clear t' ∧
          ∀ l, l < 96 → m l = true → (bs l).length = 4 ∧
            ∀ k v, (bs l)[k]? = some v → s.mayFetch blk.core (swc l) (unc l) (pa l + k) v)) ∧
    (∀ (i : BitVec 8) (z : BitVec 2) (d : BitVec 6) (pa : Nat) (swc unc : Bool), (d = 0 ∨ g.compacted = false) →
      let n := if z = 2#2 then 8 else 4
      let va := g.scalar b.toNat + BitVec.ofNat 64 (4 * i.toNat) + o.signExtend 64 * 8
      let value := fun (bs : List Byte) =>
        if z = 1#2 then (BitVec.ofNat 32 (bytesNat bs)).signExtend 64 else BitVec.ofNat 64 (bytesNat bs)
      let runs := fun (may : Nat → Byte → Prop) => ∃ (t' : State) (bs : List Byte),
        RunsIn (.modMemory o k w h c order) s t' after (g.pc + 8) (g.regs.setScalar g.present d.toNat (value bs)) ∧
        MemoryKept s t' ∧ clear t' ∧ bs.length = n ∧ ∀ k v, bs[k]? = some v → may (pa + k) v
      Reaches s blk .load n va pa swc unc → s.spoiled pa n = false →
      (s.innerAt blk g 2 = .ok ⟨.sld i z b d, stall, len⟩ →
        runs (fun a v => s.mayRead blk.core swc unc a v ∨ copied swc unc a v)) ∧
      (s.innerAt blk g 2 = .ok ⟨.sldc i z b d, stall, len⟩ → h ≠ 1#2 → runs (s.mayFetch blk.core swc unc)))

/-- R63, R76, R214, R218, R242: the same for the lane stores and SST: a byte that no later lane stores reads back, and every
byte outside the stored ones reads as before; a release of cluster scope or wider leaves no dirty byte in the L1. -/
def Clauses.ModifiedStores : Prop :=
  ∀ (s : State) (blk : Block) (g : Group) (o : BitVec 9) (h : BitVec 2) (c : BitVec 3) (order : BitVec 2) (stall : BitVec 2)
    (len : Nat) (b : BitVec 6), s.current = some (blk, g) → Plain blk g → h ≠ 1#2 → (order = 0 ∨ order = 2#2) →
    (order ≠ 0 → c = 2#3 → s.peerFault blk = false) → (wideRelease order c → s.mig.state ≠ 2#2) →
    let after := { g with pace := stall, pending := none, status := .running }
    let flushed := fun (t' : State) => wideRelease order c → (t'.core blk.core).l1Dirty = []
    (∀ (gd : BitVec 2) (x t : BitVec 7), ∀ e ∈ storeTable gd x b t, s.innerAt blk g 2 = .ok ⟨e.1, stall, len⟩ →
      let n := e.2
      let data := regRun t.toNat ((n + 3) / 4)
      let r := g.seen s.tick (x.toNat :: data) false
      let m := r.takes gd.toNat false
      Issues s blk g { regs := x.toNat :: data, reads := x.toNat :: data } →
      ∀ (pa : Nat → Nat) (swc unc : Nat → Bool),
        (∀ l, l < 96 → m l = true → Reaches s blk .store n
          (r.scalar b.toNat + (r.vec x.toNat l).setWidth 64 + o.signExtend 64 * 8) (pa l) (swc l) (unc l)) →
        ∃ t' : State, RunsIn (.modMemory o 0 0 h c order) s t' after (g.pc + 8) g.regs ∧ flushed t' ∧
          (∀ l k, l < 96 → m l = true → k < n →
            (∀ l' k', l < l' ∨ (l = l' ∧ k < k') → l' < 96 → m l' = true → k' < n →
              pa l' + k' ≠ pa l + k ∧ s.route (pa l' + k') ≠ s.route (pa l + k)) →
            let v := (r.vec (t.toNat + k / 4) l).extractLsb' (8 * (k % 4)) 8
            if unc l then t'.home (pa l + k) = v else t'.look blk.core (swc l) (pa l + k) = v) ∧
          KeptOutside s t' blk.core order c (fun a =>
            ∀ l k, l < 96 → m l = true → k < n → pa l + k ≠ a ∧ s.route (pa l + k) ≠ s.route a)) ∧
    (∀ (i : BitVec 8) (z : BitVec 2) (d : BitVec 6) (pa : Nat) (swc unc : Bool),
      s.innerAt blk g 2 = .ok ⟨.sst i z b d, stall, len⟩ →
      let n := if z = 2#2 then 8 else 4
      Reaches s blk .store n (g.scalar b.toNat + BitVec.ofNat 64 (4 * i.toNat) + o.signExtend 64 * 8) pa swc unc →
      ∃ t' : State, RunsIn (.modMemory o 0 0 h c order) s t' after (g.pc + 8) g.regs ∧ flushed t' ∧
        (∀ k, k < n → (∀ k', k < k' → k' < n → s.route (pa + k') ≠ s.route (pa + k)) →
          let v := (g.scalar d.toNat).extractLsb' (8 * k) 8
          if unc then t'.home (pa + k) = v else t'.look blk.core swc (pa + k) = v) ∧
        KeptOutside s t' blk.core order c (fun a => ∀ k, k < n → pa + k ≠ a ∧ s.route (pa + k) ≠ s.route a))

/-- R63, R214, R223, R224, R242: the same for the lane atomics, which may be an acquire, a release or both. -/
def Clauses.ModifiedAtomics : Prop :=
  ∀ (s : State) (blk : Block) (g : Group) (o : BitVec 9) (h : BitVec 2) (c : BitVec 3) (order : BitVec 2) (stall : BitVec 2)
    (len : Nat) (x t : BitVec 7) (b : BitVec 6) (sw : Bool), s.current = some (blk, g) → Plain blk g → h ≠ 1#2 →
    (order ≠ 0 → c = 2#3 → s.peerFault blk = false) → s.mig.state ≠ 2#2 → (∀ j ∈ s.journals, j.ctx ≠ s.ctxOf blk) →
    ∀ e ∈ atomicTable x b t, s.innerAt blk g 2 = .ok ⟨e.1, stall, len⟩ →
      let n := (atomicShape e.2).1
      let data := regRun t.toNat (atomicShape e.2).2
      let r := g.seen s.tick (x.toNat :: data) false
      let m := r.takes 0 false
      Issues s blk g { regs := x.toNat :: data, reads := x.toNat :: data } →
      ∀ (pa : Nat → Nat) (unc : Nat → Bool),
        (∀ l, l < 96 → m l = true →
          Reaches s blk .atomic n (r.scalar b.toNat + (r.vec x.toNat l).setWidth 64 + o.signExtend 64 * 8) (pa l) sw (unc l) ∧
          s.spoiled (pa l) n = false ∧ ∀ k, k < n → OneClass s blk.core sw (pa l + k)) →
        let qs := ((List.range 96).filter m).map (fun l => (l, (0, pa l), r.atomicInputs e.2 t.toNat l))
        let out := readModifyWrites n (atomicResult e.2) qs (fun p => s.look blk.core sw p.2)
        ∃ t' : State,
          RunsIn (.modMemory o 0 0 h c order) s t' { g with pace := stall, pending := none, status := .running } (g.pc + 8)
            (g.regs.fill t.toNat (n / 4) m (fun l j => BitVec.ofNat 32 (out.1 l / 2 ^ (32 * j)))) ∧
          (wideAcquire order c → (t'.core blk.core).l1Clean = []) ∧ (wideRelease order c → (t'.core blk.core).l1Dirty = []) ∧
          (∀ l k, l < 96 → m l = true → k < n → t'.look blk.core sw (pa l + k) = out.2 (0, pa l + k)) ∧
          KeptOutside s t' blk.core order c (fun a => ∀ l k, l < 96 → m l = true → k < n → pa l + k ≠ a)

/-- R63, R196, R214, R216, R219, R226: the same for LDS, STS and ATOMS, whose scratchpad addresses the offset moves. That
the bytes one LDS returns of a block are all current or all read ahead is the model's choice (assumption 44). -/
def Clauses.ModifiedScratchpads : Prop :=
  ∀ (s : State) (blk : Block) (g : Group) (o : BitVec 9) (c : BitVec 3) (order : BitVec 2) (stall : BitVec 2) (len : Nat)
    (x t : BitVec 7), s.current = some (blk, g) → g.holds = [] → (order ≠ 0 → c = 2#3 → s.peerFault blk = false) →
    let after := { g with pace := stall }
    let place := fun (r : Group) (i n l : Nat) =>
      (r.vec x.toNat l + BitVec.ofNat 32 (i * n) + (o.signExtend 64 * 8).setWidth 32).toNat
    let kept := fun (t' : State) => (¬wideRelease order c → t'.mem = s.mem) ∧
      (wideRelease order c → (t'.core blk.core).l1Dirty = [] ∧ Unmoved s t' blk.core) ∧
      (wideAcquire order c → (t'.core blk.core).l1Clean = [])
    (∀ (z : BitVec 2) (i : BitVec 6) (tb : Nat → Block),
      let n := 2 ^ z.toNat
      let data := regRun t.toNat ((n + 3) / 4)
      (s.innerAt blk g 2 = .ok ⟨.lds z i x t, stall, len⟩ → order.toNat ≤ 1 →
       let r := g.seen s.tick [x.toNat] false
       let m := r.takes 0 true
       Issues s blk g { regs := x.toNat :: data, reads := [x.toNat] } →
       (∀ l, l < 96 → m l = true → s.scratchCheck blk false (place r i.toNat n l) n = .ok (tb l)) →
       ∃ (t' : State) (v : Nat → Nat → Byte) (old : Nat → Bool), kept t' ∧ (∀ e ∈ t'.aheads, e ∈ s.aheads) ∧
         (∀ k off, t'.scratchByte k off = s.scratchByte k off) ∧
         RunsIn (.modMemory o 0 0 0 c order) s t' after (g.pc + 8) (g.regs.fill t.toNat ((n + 3) / 4) m (fun l =>
           loadWord false ((List.range n).map (v l)))) ∧
         ∀ l k, l < 96 → m l = true → k < n →
           let off := place r i.toNat n l % 2 ^ 28 + k
           if old (tb l).id = true then
             ∃ e ∈ s.aheads, e.group = s.cur ∧ e.blk = (tb l).id ∧ off ∉ e.stored ∧ v l k = readCell e.seen off
           else v l k = s.scratchByte (tb l).id off) ∧
      (s.innerAt blk g 2 = .ok ⟨.sts z i x t, stall, len⟩ → (order = 0 ∨ order = 2#2) →
       let r := g.seen s.tick (x.toNat :: data) false
       let m := r.takes 0 false
       Issues s blk g { regs := x.toNat :: data, reads := x.toNat :: data } →
       (∀ l, l < 96 → m l = true → s.scratchCheck blk true (place r i.toNat n l) n = .ok (tb l)) →
       let qs := ((List.range 96).filter m).map (fun l => (l, ((tb l).id, place r i.toNat n l % 2 ^ 28),
         (r.vec t.toNat l).toNat + 2 ^ 32 * (if n = 8 then (r.vec (t.toNat + 1) l).toNat else 0), 0))
       let out := readModifyWrites n (fun _ v _ => v) qs (fun p => s.scratchByte p.1 p.2)
       ∃ t' : State, RunsIn (.modMemory o 0 0 0 c order) s t' after (g.pc + 8) g.regs ∧ kept t' ∧
         ∀ k off, (s.block? k).isSome = true → t'.scratchByte k off = out.2 (k, off))) ∧
    (∀ (a : BitVec 4) (tb : Nat → Block), s.innerAt blk g 2 = .ok ⟨.atoms a x t, stall, len⟩ →
      let n := (atomicShape a.toNat).1
      let data := regRun t.toNat (atomicShape a.toNat).2
      let r := g.seen s.tick (x.toNat :: data) false
      let m := r.takes 0 false
      Issues s blk g { regs := x.toNat :: data, reads := x.toNat :: data } →
      (∀ l, l < 96 → m l = true → s.scratchCheck blk true (place r 0 n l) n = .ok (tb l)) →
      let qs := ((List.range 96).filter m).map (fun l =>
        (l, ((tb l).id, place r 0 n l % 2 ^ 28), r.atomicInputs a.toNat t.toNat l))
      let out := readModifyWrites n (atomicResult a.toNat) qs (fun p => s.scratchByte p.1 p.2)
      ∃ t' : State, RunsIn (.modMemory o 0 0 0 c order) s t' after (g.pc + 8)
          (g.regs.fill t.toNat (n / 4) m (fun l j => BitVec.ofNat 32 (out.1 l / 2 ^ (32 * j)))) ∧ kept t' ∧
        ∀ k off, (s.block? k).isSome = true → t'.scratchByte k off = out.2 (k, off))

/-- R63, R214, R221, R222: LDSMP behind a MOD word with offset 0 samples as it does alone, under the conditions of its own
statement (Samples); an acquire of cluster scope or wider in which a lane takes part leaves no clean line in the L1. -/
def Clauses.ModifiedSamples : Prop :=
  ∀ (s : State) (blk : Block) (g : Group) (h : BitVec 2) (c : BitVec 3) (order : BitVec 2) (stall : BitVec 2) (len : Nat)
    (gd : BitVec 2) (x t : BitVec 7) (b : BitVec 6) (dpa : Nat) (dswc dunc : Bool) (pa : Word → Nat) (swc unc : Word → Bool),
    (∀ va, unc va = true → swc va = false) → (dunc = true → dswc = false) →
    s.current = some (blk, g) → Plain blk g → g.status = .running → g.pending = none →
    h ≠ 1#2 → order.toNat ≤ 1 → (order ≠ 0 → c = 2#3 → s.peerFault blk = false) →
    s.innerAt blk g 2 = .ok ⟨.ldsmp gd x b t, stall, len⟩ →
    (s.core blk.core).sampler = [] → (s.die (dieOf blk.core)).clean = [] →
    (∀ va va', pa va / 8 = pa va' / 8 → swc va = swc va') → (∀ va k, k < 16 → pa va / 8 = (dpa + k) / 8 → swc va = dswc) →
    let r := g.seen s.tick [x.toNat, x.toNat + 1] false
    let m := r.takes gd.toNat true
    let byte := fun (sw : Bool) (a : Nat) => s.l2Byte (dieOf blk.core) sw a
    let d := parseSample ((List.range 16).map (fun k => byte dswc (dpa + k)))
    let coord := fun (k l : Nat) => decodeF fp32 (r.vec (x.toNat + k) l).toNat
    let nan := fun (l : Nat) => (coord 0 l).isNan || (coord 1 l).isNan
    let taps := fun (l : Nat) => sampleTaps (sampleCoord (coord 0 l) d.width) (sampleCoord (coord 1 l) d.height) d.width d.height
    let value := fun (q : Nat × Nat × Nat) =>
      let va := d.element q.1 q.2.1
      ((byte (swc va) (pa va)).toNat + 256 * (byte (swc va) (pa va + 1)).toNat, q.2.2)
    Issues s blk g { regs := [x.toNat, x.toNat + 1, t.toNat], reads := [x.toNat, x.toNat + 1] } →
    (g.scalar b.toNat).toNat % 16 = 0 → Reaches s blk .load 16 (g.scalar b.toNat) dpa dswc dunc →
    s.spoiled dpa 16 = false → d.ok = true →
    (∀ l, l < 96 → m l = true → nan l = false → ∀ q ∈ taps l,
      let va := d.element q.1 q.2.1
      Reaches s blk .load 2 va (pa va) (swc va) (unc va) ∧ s.spoiled (pa va) 2 = false) →
    ∃ t' : State,
      RunsIn (.modMemory 0 0 0 h c order) s t' { g with pace := stall } (g.pc + 8)
        (g.regs.fill t.toNat 1 m (fun l _ => if nan l then 0x7FC00000 else sampleValue ((taps l).map value))) ∧
      MemoryKept s t' ∧ (wideAcquire order c → (∃ l, l < 96 ∧ m l = true) → (t'.core blk.core).l1Clean = [])

/-- R63, R263, R265, R266: a lane load of outlet slots with `.wt` waits whole while the sequencer holds all its lanes; with
`.take` it returns the bytes of the result that it reads in one slot of a TAKE operator, and empties the slot. -/
def Clauses.ModifiedOutlets : Prop :=
  ∀ (s : State) (blk : Block) (g : Group) (o : BitVec 9) (k : BitVec 1) (h : BitVec 2) (c : BitVec 3) (order : BitVec 2)
    (stall : BitVec 2) (len : Nat) (gd : BitVec 2) (x t : BitVec 7) (b : BitVec 6), s.current = some (blk, g) → Plain blk g →
    order.toNat ≤ 1 → (order ≠ 0 → c = 2#3 → s.peerFault blk = false) →
    ∀ e ∈ loadTable gd x b t, s.innerAt blk g 2 = .ok ⟨e.1, stall, len⟩ →
      let n := e.2.1
      let r := g.seen s.tick [x.toNat] false
      let m := r.takes gd.toNat true
      let va := fun (l : Nat) => r.scalar b.toNat + (r.vec x.toNat l).setWidth 64 + o.signExtend 64 * 8
      Issues s blk g { regs := x.toNat :: regRun t.toNat ((n + 3) / 4), reads := [x.toNat] } →
      (∃ l, l < 96 ∧ m l = true) →
      ∀ (u : Nat → Nat) (off : Nat → Nat), (∀ l, l < 96 → m l = true → canonical (va l) = true ∧ (va l).toNat % n = 0 ∧
          s.translate blk.core (s.ctxOf blk) (!s.superOf blk) .load (va l) = .ok (.window (u l))) →
        ((∀ l, l < 96 → m l = true → ∃ q i, s.windowAt (u l) = .outlet q i (off l) ∧
            q.mustWait i (q.desc.touchesData (off l)) = true) →
          GoesTo (.modMemory o k 1 h c order) s (fun t' _ y => t'.mem = s.mem ∧ y.status = .waiting .outlet ∧
            y.active = false ∧ y.pc = g.pc ∧ ∃ p, y.pending = some p ∧ p.requests = [] ∧ p.values = [] ∧ p.refused = [] ∧
              p.waits = ((List.range 96).filter m).map (fun l => (l, va l)) ∧ p.take = decide (k = 1#1) ∧
              p.dest = .lanes t.toNat n e.2.2 ∧ p.length = 4)) ∧
        (∀ (q : Operator) (i : Nat), s.operator? q.handle = some q → q.desc.rmode = 1 →
          (∀ l, l < 96 → m l = true → s.windowAt (u l) = .outlet q i (off l) ∧ q.desc.touchesData (off l) = true ∧
            q.outletCause i (off l) n = none) →
          ∃ t' : State, RunsIn (.modMemory o 1 0 h c order) s t' { g with pace := stall, pending := none, status := .running }
              (g.pc + 8) (g.regs.fill t.toNat ((n + 3) / 4) m (fun l =>
                loadWord e.2.2 ((List.range n).map (fun k => s.outletByte q i (off l + k))))) ∧
            MemoryKept s t' ∧ (wideAcquire order c → (t'.core blk.core).l1Clean = []) ∧
            t'.operator? q.handle = some (q.putSlot i { q.slot i with state := .empty }) ∧
            ∀ k, k ≠ q.handle → t'.operator? k = s.operator? k)

/-- All of: ModifiedLoads (R63, R75, R76, R203, R204, R214, R217, R220), ModifiedStores (R63, R76, R214, R218, R242),
ModifiedAtomics (R63, R214, R223, R224, R242), ModifiedScratchpads (R63, R196, R214, R216, R219, R226), ModifiedSamples
(R63, R214, R221, R222), ModifiedOutlets (R63, R263, R265, R266). -/
def Obligations.ModifiedAccesses : Prop :=
  Clauses.ModifiedLoads ∧ Clauses.ModifiedStores ∧ Clauses.ModifiedAtomics ∧ Clauses.ModifiedScratchpads ∧
    Clauses.ModifiedSamples ∧ Clauses.ModifiedOutlets

/-- R61, R110, R111: a REP unit performs, from REPIDX on, one repeat after another with its register numbers stepped, and
moves on past the last one with REPIDX 0. -/
def Clauses.Repeats : Prop :=
  ∀ (s : State) (blk : Block) (g : Group) (rs : BitVec 2) (p : BitVec 3) (c : BitVec 6) (b a d : BitVec 7)
    (stall : BitVec 2) (len : Nat), s.current = some (blk, g) →
    let stride : Int := if rs = 0#2 then 1 else if rs = 1#2 then 2 else if rs = 2#2 then 4 else -1
    let reg := fun (n : BitVec 7) (bit k : Nat) => (n.toNat : Int) + if p.getLsbD bit then (k : Int) * stride else 0
    let i := g.repidx.toNat
    let now := fun (n : BitVec 7) (bit : Nat) => (reg n bit i).toNat
    let need : Need := { reads := [now a 1, now b 0] }
    let r := g.seen s.tick need.reads false
    ∀ e ∈ vectorTable 0 b a d, s.innerAt blk g 2 = .ok ⟨e.1, stall, len⟩ → i ≤ c.toNat → Issues s blk g need →
      (∀ k, k ≤ c.toNat → ∀ v ∈ [reg d 2 k, reg a 1 k, reg b 0 k], 0 ≤ v ∧ v ≤ 127 ∧ v.toNat < g.budget) →
      RunsIn (.rep rs p c) s s { g with pace := stall, repidx := if i = c.toNat then 0 else g.repidx + 1 }
        (if i = c.toNat then g.pc + 8 else g.pc)
        (g.regs.setLanes (now d 2) g.acts (fun l => e.2 (r.vec (now a 1) l) (r.vec (now b 0) l)))

/-- R181, R183 to R185: an INV unit in the rounds of its bisection: in every lane whose bracket is wider than the stopping
width the routine is evaluated at the midpoint, the bracket takes the half that the target lies in, and a value outside
the bracket's own ends the lane and raises MV; once no bracket is that wide, vX and vY take the upper end and its value,
and the PC moves past IEND. -/
def Obligations.Searches : Prop :=
  ∀ (s : State) (blk : Block) (g : Group) (tol k : BitVec 2) (y x b : BitVec 7) (ops : List RoutineOp) (stall : BitVec 2)
    (len : Nat), s.current = some (blk, g) → s.routine blk g 17 0 2 = .ok (ops, stall, len) →
    badRoutine x.toNat y.toNat ops = none → Issues s blk g { regs := [x.toNat, y.toNat, y.toNat + 1] } →
    g.hazards = [] → g.redo = 0 → g.aim = none → g.remote = [] → g.invst.getLsbD 6 = true →
    let round := g.invst.toNat % 64
    2 ≤ round → round ≤ 33 →
    let width : Nat := if tol = 0#2 then 1 else if tol = 1#2 then 16 else if tol = 2#2 then 4096 else max 1 g.invtol.toNat
    let lo := fun (l : Nat) => g.bracket k.toNat 0 l
    let hi := fun (l : Nat) => g.bracket k.toNat 1 l
    let flo := fun (l : Nat) => g.bracket k.toNat 2 l
    let fhi := fun (l : Nat) => g.bracket k.toNat 3 l
    let live := fun (l : Nat) => g.acts l && (lo l).sle (hi l) && decide ((width : Int) < (hi l).toInt - (lo l).toInt)
    ((∀ l, l < 96 → live l = false) →
      RunsIn (.inv tol 0 0 y x k) s s { g with invst := 0, pace := stall } (g.pc + BitVec.ofNat 64 (2 * len))
        ((g.regs.setLanes x.toNat g.acts (fun l => if (hi l).slt (lo l) then lo l else hi l)).setLanes y.toNat
          (fun l => g.acts l && (lo l).sle (hi l)) fhi)) ∧
    (∀ (st : BitVec 2) (t : Target), ∀ e ∈ vectorTable 0 b x y, laneTarget e.1 = some t → ops = [⟨.lane t.form, st⟩] →
      b ≠ x → round < 33 → (∃ l, l < 96 ∧ live l = true) →
      let mid := fun (l : Nat) => BitVec.ofInt 32 ((lo l).toInt + ((hi l).toInt - (lo l).toInt) / 2)
      let f := fun (l : Nat) => e.2 (mid l) (g.vec b.toNat l)
      let broke := fun (l : Nat) => (f l).slt (flo l) || (fhi l).slt (f l)
      let up := fun (l : Nat) => (g.vec (y.toNat + 1) l).sle (f l)
      let regs := (g.regs.setLanes x.toNat live mid).setLanes y.toNat live f
      let regs := regs.setBracket k.toNat 0 live (fun l => if broke l then hi l else if up l then lo l else mid l)
      let regs := regs.setBracket k.toNat 1 live (fun l => if !broke l && up l then mid l else hi l)
      let regs := regs.setBracket k.toNat 2 live (fun l => if broke l then fhi l else if up l then flo l else f l)
      let regs := regs.setBracket k.toNat 3 live (fun l => if !broke l && up l then f l else fhi l)
      RunsIn (.inv tol 0 0 y x k) s s
        { g with invst := BitVec.ofNat 12 (g.invst.toNat / 128 % 32 * 128 + 64 + (round + 1)) } g.pc
        (regs.raise (fun l => live l && g.works l) (fun l => if broke l then 0x20#6 else 0)))

/-- R175: an IEND that no INV unit ends with raises cause 0x05. -/
def Clauses.StrayEnds : Prop :=
  ∀ (s : State) (blk : Block) (g : Group) (l : Launch), s.current = some (blk, g) → s.launch? blk.launch = some l →
    blk.mode ≠ .tentative → blk.pair = none → s.superOf blk = false →
    StopsWith .iend s blk g l (fun r => r.cause = 0x05 ∧ r.kind = 1)

/-! ## Compaction -/

/-- R104, R105, R107, R241: a meeting at which every group of an unpaired block has arrived opens a region: each lane of a
side whose quad holds a working lane of that side is carried by a compacted group of the side, at its place in its quad,
from its own group; each lane of a compacted group comes from its side. A side has as many compacted groups as its fullest
quad has groups with a working lane there, and at each quad these fill them from the first on, in ascending order. A free
slot starts the next compacted group; once all have reached the region's end, the groups resume past their JOIN. That the
meeting counts as one executed unit for the distances of late results is the model's choice (assumption 105). -/
def Obligations.Compaction : Prop :=
  (∀ (s : State) (b : Block) (target fall join : Word), s.block? b.id = some b → b.region = none → b.pair = none →
    b.groups ≠ [] →
    (∀ g ∈ b.groups, g.pc + 4 = fall ∧ ∃ t f, g.status = .waiting (.compaction target t f join)) →
    StepsTo (.compactionMeeting b.id) s (fun t => t.mem = s.mem ∧ ∃ cs, t.block? b.id = some
        { b with groups := b.groups.map (fun g => g.age []), region := some (cs, join), epoch := (b.epoch.1 + 1, b.epoch.2) } ∧
      (∀ (i : Nat) (c : Group), cs[i]? = some c → c.gid = i) ∧
      ∀ (taken : Bool),
        let side := fun (g : Group) => match g.status with
          | .waiting (.compaction _ x y _) => if taken then x else y
          | _ => 0
        let start := if taken then target else fall
        let works := fun (g : Group) (l : Nat) => quadHolds (fun k => hasLane (side g) k && !hasLane g.helper k) l
        let holders := fun (q : Nat) => (List.range b.groups.length).filter (fun j => match b.groups[j]? with
          | some g => works g (4 * q)
          | none => false)
        (∀ (j : Nat) (g : Group) (l : Nat), b.groups[j]? = some g → l < 96 → hasLane (side g) l = true →
          works g l = true → ∃ c ∈ cs, c.pc = start ∧ c.carrierOf l = some j ∧ hasLane c.exec l = true) ∧
        (target ≠ fall →
          let own := cs.filter (fun c => decide (c.pc = start))
          (∀ c ∈ own, ∀ l, l < 96 → hasLane c.exec l = true →
            ∃ j g, c.carrierOf l = some j ∧ b.groups[j]? = some g ∧ hasLane (side g) l = true) ∧
          own.length = ((List.range 24).map (fun q => (holders q).length)).foldl max 0 ∧
          ∀ (k : Nat) (c : Group), own[k]? = some c → ∀ q, q < 24 → c.carrierOf (4 * q) = (holders q)[k]?))) ∧
  (∀ (s : State) (b : Block) (cs : List Group) (join : Word) (k : Nat) (c : Group), s.block? b.id = some b →
    b.region = some (cs, join) → cs[k]? = some c → c.started = false → (∀ j x, j < k → cs[j]? = some x → x.started = true) →
    b.packed.length < b.groups.length →
    StepsTo (.compactedGroupStart b.id) s (fun t => ∃ ds h, t.block? b.id = some { b with region := some (ds, join) } ∧
      ds.length = cs.length ∧ ds[k]? = some h ∧ h.started = true ∧ h.pc = c.pc ∧ h.exec = c.exec ∧ h.carrier = c.carrier ∧
      ∀ j, j ≠ k → ds[j]? = cs[j]?)) ∧
  (∀ (s : State) (b : Block) (cs : List Group) (join : Word), s.block? b.id = some b → b.region = some (cs, join) → b.pair = none →
    (∀ c ∈ cs, c.started = true ∧ (c.status = .ended ∨ c.status = .waiting .regionEnd) ∧ c.sigs = [] ∧ c.holds = []) →
    (∀ g ∈ b.groups, (∃ a t f, g.status = .waiting (.compaction a t f join)) ∧ (∀ e ∈ g.entries, e.spilled = none) ∧
      ∃ e, g.entries.head? = some e ∧ e.kind = .join ∧
        ∃ l, l < 96 ∧ hasLane e.mask l = true ∧ hasLane g.present l = true ∧ hasLane g.helper l = false) →
    StepsTo (.compactionClose b.id) s (fun t => t.mem = s.mem ∧ ∃ b', t.block? b.id = some b' ∧ b'.region = none ∧
      ∀ (k : Nat) (g : Group) (e : Entry) (rest : List Entry), b.groups[k]? = some g → g.entries = e :: rest →
        ∃ h, b'.groups[k]? = some h ∧ h = { g with
          status := .running, pc := e.pc + 4, exec := e.mask &&& g.present, entries := rest, hazards := h.hazards, slot := h.slot }))

/-! ## Waiting groups and the scheduler -/

/-- R296, R311, R327, R328, R330, R398: a waiting group whose condition holds is taken up again, past its unit where the
wait is all that the unit does; before that nothing happens. -/
def Clauses.WaitConditions : Prop :=
  ∀ (s : State) (r : GRef) (b : Block) (g : Group), s.groupAt r = some (b, g) → g.halt = none →
    let again := s.changeAt r (fun x => { x with status := .running, active := false })
    let covered := fun (n : Nat) (w : Work) => 1 ≤ w.batch ∧ w.batch ≤ n ∧ w.done = false
    let past := fun (t : State) => ∃ b' h, t.groupAt r = some (b', h) ∧ h.status = .running ∧ h.active = false ∧ h.pc = g.pc + 4
    (∀ n, g.status = .waiting (.copyBatch n) →
      exec (.waitConditionMet r) s = .next (if ∃ w ∈ g.copies, covered n w then s else again)) ∧
    (∀ n, g.status = .waiting (.matrixBatch n) →
      exec (.waitConditionMet r) s = .next (if ∃ w ∈ g.matrix, covered n w then s else again)) ∧
    (∀ addr limit k off, g.status = .waiting (.counter addr limit) → s.scratchWord b false addr 4 = .ok (k, off) →
      let below := (BitVec.ofNat 32 (s.scratchNat k off 4)).slt limit
      (below = true → StepsTo (.waitConditionMet r) s past) ∧
      (below = false → exec (.waitConditionMet r) s = .next s)) ∧
    (∀ addr old k off p n e bytes, g.status = .waiting (.phase addr old) → s.scratchWord b false addr 8 = .ok (k, off) →
      p < 2 → n < 2048 → e < 2048 → 0 < e → -(2 ^ 27) ≤ bytes → bytes < 2 ^ 27 →
      s.scratchNat k off 8 = objectWord p n e bytes →
      (p ≠ (if old then 1 else 0) → StepsTo (.waitConditionMet r) s past) ∧
      (p = (if old then 1 else 0) → exec (.waitConditionMet r) s = .next s)) ∧
    (∀ core scope ctx, g.status = .waiting (.invalidation core scope ctx) →
      (s.oldRequests core scope ctx = false → StepsTo (.waitConditionMet r) s past) ∧
      (s.oldRequests core scope ctx = true → exec (.waitConditionMet r) s = .next s))

/-- R91, R212: a sleep ends once its cycles have passed, past its unit; an access that awaits replies writes what they
bring and goes on past its unit when all are there. -/
def Clauses.SleepsAndReplies : Prop :=
  ∀ (s : State) (r : GRef) (b : Block) (g : Group), s.groupAt r = some (b, g) → r.cmp = false →
    (g.status = .waiting .sleep → StepsTo (.sleepEnd r) s (fun t => g.readyAt ≤ (t.die (dieOf b.core)).cycle ∧
      ∃ b' h, t.groupAt r = some (b', h) ∧ h.status = .running ∧ h.pc = g.pc + 4 ∧ h.exec = g.exec)) ∧
    (∀ (p : Pending) (id l off t : Nat) (q : Packet), g.pending = some p → g.status = .waiting .replies → b.pair = none →
      p.requests = [(id, [(l, off)])] → p.dest = .lanes t 4 false → p.refused = [] → p.values = [] → p.order = 0 →
      p.atomic = false → p.scalar = false → p.waits = [] → p.held = [] → b.mode = .normal → g.holds = [] → l < 96 →
      (s.replyTo id = none → exec (.accessRepliesComplete r) s = .next s) ∧
      (s.replyTo id = some q → replyCause q = none → StepsTo (.accessRepliesComplete r) s (fun u => u.mem = s.mem ∧
        ∃ b' h, u.groupAt r = some (b', h) ∧ h.status = .running ∧ h.pending = none ∧
          h.pc = g.pc + BitVec.ofNat 64 (2 * p.length) ∧ h.vec t l = BitVec.ofNat 32 (replyValue q off 4) ∧
          ∀ i j, (i ≠ t ∨ j ≠ l) → j < 96 → h.vec i j = g.vec i j)))

/-- R112, R296, R297: promotion takes one ready group into the active set of its core, and one out of it when it is full;
at the end of a locality window N falls by 1 (not below 2) when more than 1/8 of the loads met a victim, and rises by 1
(not above 8) when fewer than 1/32 did. -/
def Clauses.Promotions : Prop :=
  ∀ (s : State) (core : Nat),
    (s.pendingSet core ≠ [] → StepsTo (.groupPromotion core) s (fun t => ∃ r ∈ s.pendingSet core,
      let into := s.changeAt r (fun x => { x with active := true })
      if (s.activeSet core).length < 8 then t = into
      else ∃ a ∈ s.activeSet core, t = into.changeAt a (fun x => { x with active := false }))) ∧
    let c := s.core core
    let n := if c.throttle = 0 then 8 else c.throttle
    StepsTo (.localityWindowEnd core) s (fun t => ∃ m, t = s.putCore { c with throttle := m, loads := 0, hits := 0 } ∧
      (c.loads < 8 * c.hits → m = max (n - 1) 2) ∧ (32 * c.hits < c.loads → m = min (n + 1) 8) ∧
      (8 * c.hits ≤ c.loads → c.loads ≤ 32 * c.hits → m = n))

/-- R202, R400: a write-back of an L1 leaves no dirty byte of its block there, and its core reads every byte as before;
one of an L2 brings the dirty bytes of its line home, and no other. -/
def Clauses.WriteBacks : Prop :=
  ∀ (s : State) (core base words line : Nat), s.mig.state ≠ 2#2 →
    (keyPa base % 8 = 0 → 1 ≤ words → words ≤ 8 → StepsTo (.l1Writeback core base words) s (fun t => Unmoved s t core ∧
      ∀ k, keySwc k = keySwc base → keyPa base ≤ keyPa k → keyPa k < keyPa base + 8 * words →
        findCopy (t.core core).l1Dirty k = none)) ∧
    StepsTo (.l2SwcWriteback core line) s (fun t => t.blocks = s.blocks ∧
      ∀ a, (a / 64 = line → findCopy (t.die core).dirty a = none ∧
          ∀ v, findCopy (s.die core).dirty a = some v → t.home a = v) ∧
        ((a / 64 ≠ line ∨ findCopy (s.die core).dirty a = none) →
          findCopy (t.die core).dirty a = findCopy (s.die core).dirty a ∧ t.home a = s.home a))

/-! ## The fault server and the debugger -/

/-- R351, R437: a record reaches the policy firmware, or the next place of this device's trap queue, after which the write
index moves; a full ring holds it. One for a peer leaves as a request, and is the sender's until the peer has taken it,
which is the model's choice (assumption 118). Records that reach no server in time go to the firmware, and their launch
ends. -/
def Clauses.RecordDeliveries : Prop :=
  ∀ (s : State) (x : FlyingRecord) (rest : List FlyingRecord), s.records = x :: rest → s.recordPending x = false →
    (x.server = none → StepsTo .trapRecordDelivery s (fun t => t.records = rest ∧ t.mem = s.mem ∧
      t.firmware.records = s.firmware.records ++ [x.record])) ∧
    (∀ (c : ContextInfo) (w rd : Nat), rest = [] → x.server = some s.fabric.devid → x.sent = none → s.trapQueue = some c →
      s.frontWord c.ctx c.tqw 8 = .ok w → s.frontWord c.ctx c.tqr 8 = .ok rd →
      (2 ^ c.tqLog ≤ w - rd → exec .trapRecordDelivery s = .next s) ∧
      (∀ s1 k s2, w - rd < 2 ^ c.tqLog →
        s.engineWrite frontEnd c.ctx false (c.tqb + BitVec.ofNat 64 (128 * (w % 2 ^ c.tqLog))) x.record.bytes = .ok s1 →
        s1.frontStore c.ctx c.tqw (w + 1) = .ok (k, s2) →
        exec .trapRecordDelivery s = .next { s2 with records := [] })) ∧
    (∀ dev : BitVec 13, x.server = some dev → dev ≠ s.fabric.devid →
      (x.sent = none → s.fabric.reaches dev = true → StepsTo .trapRecordDelivery s (fun t => t.mem = s.mem ∧
        ∃ k, t.records = { x with sent := some k } :: rest)) ∧
      ∀ k, x.sent = some k →
        (rest = [] → s.replyTo k = none → exec .trapRecordDelivery s = .next s) ∧
        ∀ p, s.replyTo k = some p → StepsTo .trapRecordDelivery s (fun t => t.mem = s.mem ∧
          t.records = if replyCause p = none then rest else { x with sent := none } :: rest)) ∧
    (∀ l : Launch, rest = [] → x.server ≠ none → s.launch? l.id = some l → x.launch = l.id → (s.blocks.map Block.id).Nodup →
      (∀ b ∈ s.blocks, ∀ g ∈ b.allGroups, ∀ w ∈ g.copies, w.done = true → w.cause = none) →
      StepsTo (.trapRecordTimeout l.id) s (fun t => t.records = [] ∧ t.firmware.records = s.firmware.records ++ [x.record] ∧
        (∃ m, t.launch? l.id = some m ∧ m.torn = true ∧ m.status = l.abandoned 7) ∧
        ∀ b ∈ t.blocks, b.launch = l.id → b.ended = true))

/-- R353: an answer acts on the group that its token stops, once: RETRY resumes it at its unit, without the lanes already
performed; SKIP past its unit, with the result of a SUPCALL in s1; ENDBLK ends its block, ENDLNCH its launch. An answer to
any other token is ignored. -/
def Clauses.Answers : Prop :=
  ∀ (s : State) (token result : Word) (disp : Byte), (token ≠ 0 → s.tokenSaved token = false) →
    (s.stoppedBy token = none → StepsTo (.answerApply token disp result) s (fun t =>
      t = { s with answers := s.answers.erase (token, disp, result) })) ∧
    (∀ (r : GRef) (b : Block) (g : Group) (x : Stop) (l : Launch), s.stoppedBy token = some (r, g) → r.cmp = false →
      s.groupAt r = some (b, g) → g.stop = some x → b.pair = none → s.launch? b.launch = some l → x.drain = false →
      b.ended = false →
      let live := fun (h : Group) => h.status = .running ∧ h.stop = none ∧ h.scalars = (if x.record.cause = 0x0D ∧ disp ≠ 0 then
        writeCell g.scalars 1 result else g.scalars) ∧ h.vectors = g.vectors ∧ h.exec = g.exec ∧ h.present = g.present
      (disp = 0 → StepsTo (.answerApply token disp result) s (fun t => t.mem = s.mem ∧ ∃ b' h, t.groupAt r = some (b', h) ∧ live h ∧
        h.pc = g.pc ∧ h.redo = g.redo ||| (if x.record.pv then x.record.pmask else 0))) ∧
      (disp = 1 ∨ disp = 2 → StepsTo (.answerApply token disp result) s (fun t => t.mem = s.mem ∧ ∃ b' h,
        t.groupAt r = some (b', h) ∧ live h ∧ h.pc = g.pc + BitVec.ofNat 64 x.length ∧ h.redo = 0 ∧
        (disp = 1 → h.flags = g.flags))) ∧
      (disp = 3 → StepsTo (.answerApply token disp result) s (fun t => ∃ b', t.block? r.blk = some b' ∧ b'.ended = true ∧
        b'.fatal = true ∧ ∃ m, t.launch? b.launch = some m ∧ m.status = l.abandoned 7)) ∧
      (disp = 4 → StepsTo (.answerApply token disp result) s (fun t => ∃ m, t.launch? b.launch = some m ∧ m.torn = true ∧
        m.status = l.abandoned 7)))

/-- R92, R311, R354: a debugger halts a group between units, and a wait of it ends at its unit; on resumption the group
goes on at its PC, or past the BKPT that halted it. -/
def Clauses.Debugger : Prop :=
  ∀ (s : State) (r : GRef) (b : Block) (g : Group), s.groupAt r = some (b, g) → r.cmp = false →
    (g.halt = none → (g.status = .running ∨ g.status = .waiting .barrierBlock ∨ g.status = .waiting .barrierCluster) →
      StepsTo (.debuggerHalt r) s (fun t => t.mem = s.mem ∧ ∃ b', t.groupAt r =
        some (b', { g with halt := some ⟨0, false⟩, active := false, status := .running }))) ∧
    (∀ (h : Halt) (l : Launch), g.halt = some h → s.launch? b.launch = some l → g.stop = none →
      (∀ m ∈ s.launches, m.ctx = l.ctx → m.sliceDue = false) →
        ∀ send, StepsTo (.debuggerResume r send) s (fun t => t.mem = s.mem ∧
        ∃ b' x, t.groupAt r = some (b', x) ∧ x.halt = none ∧
        x.active = false ∧ x.status = g.status ∧ x.scalars = g.scalars ∧ x.vectors = g.vectors ∧
        x.pc = if h.atBkpt then g.pc + 4 else g.pc))

/-! ## Register writes -/

/-- R33, R384, R403, R404: a step that writes one special register of the executing group changes that register alone: it
seeds the xorshift states, clears the array's status, arms an injection, names a migration descriptor, releases a frame, or
starts the migration that a legal descriptor names. -/
def Clauses.RegisterSteps : Prop :=
  ∀ (s : State) (blk : Block) (g : Group) (v : Word), s.current = some (blk, g) →
    (∃ rng : Cells 32, exec (.stoseedWrite v) s = .next (s.putGroup { g with stoseed := v.setWidth 32, rng := rng }) ∧
      ∀ l, l < 96 → readCell rng l = seedState (v.setWidth 32) l) ∧
    exec (.wcodestClear v) s =
      .next ((if v.getLsbD 0 = true then s.putCore { s.core blk.core with rsv := false } else s).putGroup g) ∧
    (∀ e ∈ groupRegisterTable g v, e.2.1 = true → (0x800 ≤ e.1 → s.superOf blk = true) →
      exec (.registerWrite (.special (BitVec.ofNat 12 e.1)) v) s = .next (s.putGroup e.2.2)) ∧
    (s.superOf blk = true →
      (v.toNat / 256 % 4 ≠ 3 → (v.toNat / 256 % 4 = 1 → v.toNat / 1024 % 64 < 32) →
        exec (.redinjArm v) s = .next ({ s with redinj := v &&& 0xFFFFFFFF007FFF7F#64 }.putGroup g)) ∧
      (v.toNat % 32 = 0 → exec (.migdescWrite v) s = .next ({ s with mig := { s.mig with desc := v } }.putGroup g)) ∧
      (s.mig.state = 2#2 ∨ s.mig.state = 3#2 →
        exec .migcmdRelease s = .next ({ s with mig := { s.mig with state := 0 } }.putGroup g)) ∧
      ∀ (bs : List Byte) (src dst size k : Nat) (dev : BitVec 13), s.mig.state = 0#2 →
        s.groupRead blk g s.mig.desc 32 = .ok bs →
        wordAt bs 0 8 = src + 2 ^ 48 * dev.toNat → wordAt bs 8 8 = dst → wordAt bs 16 8 = k → wordAt bs 24 8 = 0 →
        (k = 0 ∧ size = 2 ^ 16 ∨ k = 1 ∧ size = 2 ^ 21 ∨ k = 2 ∧ size = 2 ^ 30) →
        src < 2 ^ 48 → dst < 2 ^ 48 → src % size = 0 → dst % size = 0 → backed dst = true → backed (dst + size - 1) = true →
        (∀ f ∈ s.firmware.retired, f * 2 ^ 16 < dst ∨ dst + size ≤ f * 2 ^ 16) →
        dev.toNat / 512 = s.fabric.devid.toNat / 512 →
        exec .migcmdStart s = .next ({ s with mig := { s.mig with
          state := 1, cause := 0, src := src, sdev := dev, dst := dst, size := size } }.putGroup g))

/-- R451, R455: the management block, while the package has power: a legal CAP is taken and another one noted; CAPERR and
TRIP clear when 1 is written; MWIDX takes no index that posts more than 64 requests, and MBASE nothing while one is posted;
the block reads its registers where they stand, and 0 elsewhere. Without power it takes nothing. -/
def Clauses.ManagementRegisters : Prop :=
  ∀ (s : State) (v : Word) (w : BitVec 16),
    let p := s.power
    (p.on = false → ∀ o, exec (.registerWrite (.management o) v) s = .next s) ∧ (p.on = true →
    let cap : BitVec 12 := v.setWidth 12
    let legal := cap = 0#12 ∨ (600 ≤ cap.toNat ∧ cap.toNat ≤ 2400)
    let at' := fun (offset : Nat) (q : Power) => exec (.registerWrite (.management offset) v) s = .next { s with power := q }
    (legal → exec (.cap v) s = .next { s with power := { p with cap := cap } } ∧ at' 0x10 { p with cap := cap }) ∧
    (¬legal → exec (.cap v) s = .next { s with power := { p with caperr := true } } ∧ at' 0x10 { p with caperr := true }) ∧
    exec .caperrClear s = .next { s with power := { p with caperr := false } } ∧
    exec .tripClear s = .next { s with power := { p with trip := false } } ∧
    at' 0x18 { p with caperr := p.caperr && !v.getLsbD 27 } ∧ at' 0x20 { p with trip := p.trip && !v.getLsbD 16 } ∧
    at' 0x30 (if p.mwidx = p.mridx then { p with mbase := v &&& 0xFFFFFFFFFFFFF000#64 } else p) ∧
    at' 0x38 (if (v.toNat % 2 ^ 16 + 2 ^ 16 - p.mridx.toNat) % 2 ^ 16 ≤ 64 then { p with mwidx := v.setWidth 16 } else p) ∧
    exec (.mailboxDoorbell w) s = .next { s with power :=
      if (w.toNat + 2 ^ 16 - p.mridx.toNat) % 2 ^ 16 ≤ 64 then { p with mwidx := w } else p } ∧
    (∀ o, o ∉ [0x10, 0x18, 0x20, 0x30, 0x38] → (o < 0x100000 ∨ 0x130000 ≤ o) → at' o p)) ∧
    (s.readManagement 0).toNat % 2 ^ 16 = 0x940 ∧
    (s.readManagement 0x08).toNat = s.firmware.stage.toNat + 2 ^ 4 * s.firmware.reason.toNat ∧
    (s.readManagement 0x10).toNat = p.cap.toNat ∧ (s.readManagement 0x18).toNat % 2 ^ 12 = p.power.toNat ∧
    ((s.readManagement 0x18).getLsbD 24 = p.capped ∧ (s.readManagement 0x18).getLsbD 25 = p.throt ∧
      (s.readManagement 0x18).getLsbD 26 = p.vinlo ∧ (s.readManagement 0x18).getLsbD 27 = p.caperr ∧
      (s.readManagement 0x18).getLsbD 28 = p.vinhi) ∧
    (s.readManagement 0x20).toNat = p.diet.toNat + 2 ^ 8 * p.inlet.toNat + (if p.trip = true then 2 ^ 16 else 0) ∧
    s.readManagement 0x30 = p.mbase ∧ (s.readManagement 0x38).toNat = p.mwidx.toNat ∧
    (s.readManagement 0x40).toNat = p.mridx.toNat ∧
    (∀ o, o ∉ [0, 0x08, 0x10, 0x18, 0x20, 0x30, 0x38, 0x40] → (o < 0x100000 ∨ 0x130000 ≤ o) → s.readManagement o = 0#64)

/-- R419, R420, R456: the fabric configuration block, at its own offsets and 1 MiB above them in BAR0: FMDEV, FBERR and
SWFAIL; the entries and ports of the bank that is not in service take what is written to their fields and read it back, and
those of the bank in service take nothing. -/
def Clauses.FabricRegisters : Prop :=
  ∀ (s : State) (v : Word) (b : Bool), s.power.on = true →
    let f := s.fabric
    (∀ o, o < 0x30000 → exec (.registerWrite (.management (0x100000 + o)) v) s = exec (.registerWrite (.fabric o) v) s ∧
      s.readManagement (0x100000 + o) = f.readRegister o) ∧
    let write := fun (offset : Nat) => exec (.registerWrite (.fabric offset) v) s
    let bank : Nat := if b then 1 else 0
    (v.getLsbD 1 = true → write 0 = exec .swap s) ∧ (v.getLsbD 1 = false → write 0 = .next s) ∧
    write 8 = .next { s with fabric := { f with fmdev := v.setWidth 13 } } ∧
    write 0x10 = .next { s with fabric := { f with
      swfail := f.swfail && !v.getLsbD 32, fberr := if v.getLsbD 33 = true then 0 else f.fberr } } ∧
    (f.readRegister 0).toNat = (if f.active = true then 1 else 0) ∧ (f.readRegister 8).toNat = f.fmdev.toNat ∧
    (f.readRegister 0x10).toNat = f.fberr.toNat + (if f.swfail = true then 2 ^ 32 else 0) ∧
    ∀ (offset : Nat) (m : Word),
      ((∃ p, p < 16 ∧ offset = 0x100 + 0x80 * bank + 8 * p ∧ m = 0x1F#64) ∨
        (∃ i, i < 8192 ∧ offset = 0x10000 + 0x10000 * bank + 8 * i ∧ m = 0x1FFFFFFFF#64)) →
      (b = f.active → write offset = .next s) ∧
      (b ≠ f.active → ∃ h : Fabric, write offset = .next { s with fabric := h } ∧
        h = { f with bank0 := h.bank0, bank1 := h.bank1 } ∧ h.readRegister offset = v &&& m ∧
        ∀ o, o ≠ offset → h.readRegister o = f.readRegister o)

/-! ## Power and cooling -/

/-- R452, R453: each millisecond the clock falls by one step while the power is over the lower of the cap and 2,400 W, and
rises by one while it is 5 % or more below and no thermal limit holds; it stays within 1,200 and 2,250 MHz; over the cap
at the minimum, which an input out of its range gives too (R451), placement is held until the power falls below the cap. -/
def Clauses.PowerCap : Prop :=
  ∀ (s : State) (watts : Nat), s.power.on = true →
    let p := s.power
    let clock : Nat := if p.vinlo = true ∨ p.vinhi = true then 1200 else p.freq.toNat
    let limit : Nat := if p.cap = 0#12 then 2400 else min 2400 p.cap.toNat
    StepsTo (.powerCapTick watts) s (fun t => ∃ q : Power, t = { s with power := q } ∧
      q.power.toNat = min watts 4095 ∧ q.cap = p.cap ∧ q.throt = p.throt ∧ q.caperr = p.caperr ∧ q.trip = p.trip ∧
      (limit < watts → 1200 < clock → p.half = none → q.freq.toNat = max 1200 (p.freq.toNat - 75) ∧ q.capped = true) ∧
      (limit < watts → p.half = some (true, 1) → q.freq = p.freq) ∧
      (limit < watts → clock ≤ 1200 → q.freq = p.freq ∧ q.capped = true ∧ q.holding = true) ∧
      (watts ≤ limit → 95 * limit < 100 * watts → q.freq = p.freq) ∧
      (100 * watts ≤ 95 * limit → p.throt = false → q.freq.toNat = min 2250 (p.freq.toNat + 75)) ∧
      (watts < limit → q.holding = false) ∧
      (watts ≤ limit → q.holding = false → q.freq.toNat = 2250 → q.capped = false))

/-- R454: from 100 °C the clock falls by one step a millisecond, once for the cap and the limit together, a step up of the
cap's tick in the same millisecond taken back, and THROT reads
1 until the hottest die is below 97 °C; at 110 °C the device powers off without saving and latches TRIP. -/
def Clauses.ThermalLimits : Prop :=
  ∀ (s : State) (degrees : Nat), s.power.on = true →
    let p := s.power
    let hot := 100 ≤ degrees ∨ (p.throt = true ∧ 97 ≤ degrees)
    let off := fun (t : State) => t.power.on = false ∧ t.power.trip = true ∧ t.blocks = [] ∧ t.launches = [] ∧ t.queues = [] ∧
      t.contexts = [] ∧ t.firmware.stage = 0#4
    (degrees < 110 → StepsTo (.thermalTick degrees) s (fun t => ∃ q : Power, t = { s with power := q } ∧
      q.diet.toNat = degrees ∧ q.cap = p.cap ∧ q.trip = p.trip ∧ (q.throt = true ↔ hot) ∧ (¬hot → q.freq = p.freq) ∧
      (hot → 1200 < p.freq.toNat → p.half = none → q.freq.toNat = max 1200 (p.freq.toNat - 75)) ∧
      (hot → p.half = some (false, 1) → q.freq = p.freq) ∧
      (hot → p.half = some (false, 2) → q.freq.toNat = max 1200 (p.freq.toNat - 150)))) ∧
    (110 ≤ degrees → StepsTo (.thermalTick degrees) s off ∧ StepsTo (.thermalTrip degrees) s off) ∧
    (degrees < 110 → exec (.thermalTrip degrees) s = .next s)

/-- R451: an input outside 48 to 54 V sets VINLO or VINHI, while either is set the clock reads the minimum, and 10 ms
after the input is back they are clear; below 44 V and above 57 V the device powers off. -/
def Clauses.InputVoltage : Prop :=
  ∀ (s : State) (mv : Nat), s.power.on = true →
    let p := s.power
    (44000 ≤ mv → mv ≤ 57000 → exec (.inputVoltageChange mv) s = .next { s with power := { p with
      input := mv, vinlo := p.vinlo || decide (mv < 48000), vinhi := p.vinhi || decide (54000 < mv) } }) ∧
    (mv < 44000 ∨ 57000 < mv → StepsTo (.inputVoltageChange mv) s (fun t =>
      t.power.on = false ∧ t.power.trip = p.trip ∧ t.blocks = [] ∧ t.launches = [] ∧ t.contexts = [])) ∧
    (48000 ≤ p.input → p.input ≤ 54000 →
      exec .inputRecoveryTimeout s = .next { s with power := { p with vinlo := false, vinhi := false } }) ∧
    ((p.vinlo = true ∨ p.vinhi = true) → (s.readManagement 0x18).toNat / 2 ^ 12 % 2 ^ 12 = 1200) ∧
    (p.vinlo = false → p.vinhi = false → (s.readManagement 0x18).toNat / 2 ^ 12 % 2 ^ 12 = p.freq.toNat)

/-! ## Firmware -/

/-- R443, R444, R451: after a reset with the rail in its range the first image with a trusted key, a good signature and an
accepted version starts: MR0 to MR3 hold the digests of the ROM and the fuses, the monitor, the policy firmware and the
queue-core code extended from zero, and the device runs; when no image passes, the boot halts with the reason of the last
one. With the rail out of its range the device stays off. SHA-256 is taken from outside the spec (assumption 83); the
model's choices are which digests extend the registers (assumption 84), the order of the sources under the strap and the
reason of the last one (assumption 85), and what survives a reset (assumption 86). -/
def Clauses.Boot : Prop :=
  ∀ (s : State) (images bad rest : List BootImage) (x : BootImage),
    let f := s.firmware
    let trusted := fun (i : BootImage) => ∃ k, k < 4 ∧ f.revoked.getLsbD k = false ∧ f.keys.getD k 0 = i.keyDig
    let passes := fun (i : BootImage) => i.found = true ∧ trusted i ∧ i.sigOk = true ∧ f.minVer ≤ i.secVer
    let fresh := fun (t : State) => t.blocks = [] ∧ t.launches = [] ∧ t.queues = [] ∧ t.contexts = [] ∧ t.tlb = [] ∧
      t.power.cap = 0#12 ∧ t.power.trip = s.power.trip ∧ t.fabric.devid = s.fabric.devid
    let holds := 44000 ≤ s.power.input ∧ s.power.input ≤ 57000
    let tried := if f.strap = true then images.drop 2 ++ images.take 2 else images
    (∀ i ∈ bad, ¬passes i) →
    (holds → passes x → tried = bad ++ x :: rest → StepsTo (.reset images) s (fun t => fresh t ∧ t.power.on = true ∧
      t.firmware.stage = 4#4 ∧ t.firmware.reason = 0#8 ∧ t.firmware.image = x.fwDig ∧ t.firmware.version = x.version ∧
      ∃ rom, t.firmware.mrs = [shaPair 0 rom, shaPair 0 x.monDig, shaPair 0 x.fwDig, shaPair 0 x.qcDig, 0, 0, 0, 0])) ∧
    (holds → ¬passes x → tried = bad ++ [x] → StepsTo (.reset images) s (fun t => fresh t ∧ t.firmware.stage = 15#4 ∧
      t.firmware.mrs = List.replicate 8 0 ∧ (x.found = false → t.firmware.reason = 1) ∧
      (x.found = true → ¬trusted x → t.firmware.reason = 2) ∧
      (x.found = true → trusted x → t.firmware.reason = if x.sigOk = false then 3 else 4))) ∧
    (¬holds → StepsTo (.reset images) s (fun t => fresh t ∧ t.power.on = false ∧ t.firmware.stage = 0#4))

/-- R445: a verified image takes over from the running firmware, MR2 is extended with its digest, and nothing but the
firmware's own state changes; one that is older than the state block, or that does not accept it in time, hands back to
the old bank, whose digest MR2 takes as well. Whether it accepts in time comes with the event, which is the
model's choice (assumption 90). -/
def Clauses.HandOver : Prop :=
  ∀ (s : State) (x : BootImage),
    let f := s.firmware
    let trusted := ∃ k, k < 4 ∧ f.revoked.getLsbD k = false ∧ f.keys.getD k 0 = x.keyDig
    let once := setNth f.mrs 2 (shaPair (f.mrs.getD 2 0) x.fwDig)
    let twice := setNth once 2 (shaPair (once.getD 2 0) f.image)
    (s.serving = true → f.handover = false → f.fencing = none → f.retiring = none → f.copies = [] → x.found = true →
      trusted → x.sigOk = true → f.minVer ≤ x.secVer →
      (x.version < f.version → ∀ a, exec (.firmwareHandover x a) s = .next { s with firmware := { f with mrs := twice } }) ∧
      (f.version ≤ x.version →
        exec (.firmwareHandover x true) s = .next { s with firmware := { f with
          mrs := once, oldImage := f.image, image := x.fwDig, version := x.version, bank := !f.bank } } ∧
        exec (.firmwareHandover x false) s = .next { s with firmware := { f with mrs := once, handover := true } })) ∧
    (x.found = false ∨ ¬trusted ∨ x.sigOk = false ∨ x.secVer < f.minVer →
      ∀ a, exec (.firmwareHandover x a) s = .next s) ∧
    (f.handover = true → exec .handoverTimeout s = .next { s with firmware := { f with
      handover := false, mrs := setNth f.mrs 2 (shaPair (f.mrs.getD 2 0) f.image) } })

/-- R444: the responder answers each request; a signed answer advances the leaf index first, and at 2^20 is the error
without a signature; measurement blocks 1 to 8 carry MR0 to MR7. -/
def Clauses.Attestation : Prop :=
  ∀ (s : State) (sha : Bool) (nonce : List Byte), s.serving = true →
    let f := s.firmware
    let answers := fun (i : Instr) (r : SpdmReply) => exec i s = .next { s with firmware := { f with spdm := some r } }
    answers .getVersion (.version 0x13) ∧ answers .getCapabilities .capabilities ∧
    answers (.negotiateAlgorithms sha) (if sha then .algorithms else .error) ∧
    (∃ d, answers .getDigests (.digests d)) ∧ (∃ c, answers .getCertificate (.certificate c)) ∧
    (f.leaf < 2 ^ 20 → ∃ sig,
      exec (.challenge nonce) s = .next { s with firmware := { f with
        leaf := f.leaf + 1, spdm := some (.challenged nonce f.leaf sig) } } ∧
      exec (.getMeasurements nonce) s = .next { s with firmware := { f with
        leaf := f.leaf + 1, spdm := some (.measured f.mrs nonce f.leaf sig) } }) ∧
    (2 ^ 20 ≤ f.leaf → answers (.challenge nonce) .error ∧ answers (.getMeasurements nonce) .error)

/-! ## The host and the firmware's services -/

/-- R422, R429: a host access is performed at the home of its frame: a load returns the bytes there, a store changes them
and no others; the link trains to 16, 8 or 4 lanes. -/
def Clauses.HostAccesses : Prop :=
  ∀ (s : State) (pa size : Nat) (data : Word),
    (s.serving = true → s.copies = [] → size ∈ [1, 2, 4, 8] → pa % size = 0 → s.frameFail (s.route pa) = none →
      s.heldByHome pa = false → s.mig.state ≠ 2#2 →
      (s.spoiled pa size = false → StepsTo (.hostMemAccess false pa size data) s (fun t =>
        t = { s with host := { s.host with value := BitVec.ofNat 64 (bytesNat ((List.range size).map (fun k => s.home (pa + k)))) } })) ∧
      StepsTo (.hostMemAccess true pa size data) s (fun t =>
        (∀ k, k < size → t.home (pa + k) = data.extractLsb' (8 * k) 8) ∧
        (∀ a, a < pa ∨ pa + size ≤ a → t.home a = s.home a) ∧ t.blocks = s.blocks ∧ t.host = s.host)) ∧
    ∀ lanes ∈ [16, 8, 4], exec (.hostLinkTraining lanes) s = .next { s with host := { s.host with lanes := lanes } }

/-- R423: a whole line stored to a spawn window joins its context's spawn queue as a launch without a queue; a store that
is no whole line, or that finds 256 launches queued, is dropped and counted. -/
def Clauses.Spawns : Prop :=
  ∀ (s : State) (window : Nat) (line : List Word) (w : SpawnWindow) (c : ContextInfo), s.serving = true →
    let ctx := BitVec.ofNat 32 window
    s.windows.find? (fun x => x.ctx == ctx) = some w → s.context? ctx = some c →
    (line.length = 8 → w.queue.length < 256 → StepsTo (.spawn window true line) s (fun t => t.mem = s.mem ∧
      t.windows.find? (fun x => x.ctx == ctx) = some { w with queue := w.queue ++ [s.nextId] } ∧
      ∃ l : Launch, t.launches = s.launches ++ [l] ∧ l.id = s.nextId ∧ l.queue = none ∧ l.ctx = ctx ∧ l.fsrv = c.fsrv ∧
        l.super = c.super ∧ l.started = false ∧ l.record.img = line.getD 0 0 ∧ l.record.hcnt = line.getD 5 0 ∧
        l.record.grid = line.getD 6 0 ∧
        ∀ k, k < 8 → l.record.args[k]? = some (((line.getD (1 + k / 2) 0).extractLsb' (32 * (k % 2)) 32).setWidth 64))) ∧
    ∀ whole, (whole = false ∨ line.length ≠ 8 ∨ 256 ≤ w.queue.length) →
      StepsTo (.spawn window whole line) s (fun t => t.launches = s.launches ∧ t.mem = s.mem ∧
        t.windows.find? (fun x => x.ctx == ctx) = some { w with drops := w.drops + 1 })

/-- R286, R423, R441, R449: a registered queue has the fields of its descriptor and its indexes at 0, and a refused one
gives status 1; a registered context has a spawn window, and a journal where it names one. Each request moves the
mailbox's read index past it. That a refused descriptor gives status 1 is the model's choice (assumption 87). -/
def Clauses.Registrations : Prop :=
  (∀ (s : State) (c : ContextInfo) (desc : Word) (bs : List Byte), s.mayServe = true → s.context? c.ctx = some c →
    s.frontRead c.ctx desc 64 = .ok bs →
    let w := fun (k : Nat) => wordAt bs (8 * k) 8
    let lsize := w 1 % 32
    let refused := desc.toNat % 8 ≠ 0 ∨ lsize < 12 ∨ 24 < lsize ∨ w 0 % 2 ^ lsize ≠ 0 ∨ w 1 / 2 ^ 5 % 8 ≠ 0 ∨
      w 1 / 2 ^ 10 % 64 ≠ 0 ∨ w 1 / 2 ^ 16 % 2 ^ 16 = 0 ∨ w 2 % 8 ≠ 0 ∨ w 3 % 8 ≠ 0 ∨ w 4 % 8 ≠ 0 ∨ w 5 % 8 ≠ 0 ∨
      w 6 / 2 ^ 13 ≠ 0 ∨ w 7 ≠ 0
    let served := fun (t : State) (status : Nat) => t.power.mridx = s.power.mridx + 1 ∧
      t.firmware.results = s.firmware.results ++ [(c.ctx, status)] ∧ t.mem = s.mem ∧ t.launches = s.launches
    (refused → StepsTo (.registerQueue c.ctx desc) s (fun t => served t 1 ∧ t.queues = s.queues)) ∧
    (¬refused → StepsTo (.registerQueue c.ctx desc) s (fun t => served t 0 ∧ ∃ q : Queue, t.queues = s.queues ++ [q] ∧
      q.id = s.nextId ∧ q.ctx = c.ctx ∧ q.ring.toNat = w 0 ∧ q.lsize = lsize ∧ q.prio = w 1 / 2 ^ 8 % 4 ∧
      q.quant = w 1 / 2 ^ 16 % 2 ^ 16 ∧ q.slice = w 1 / 2 ^ 32 ∧ q.widxVa.toNat = w 2 ∧ q.ridxVa.toNat = w 3 ∧
      q.wakeVa.toNat = w 4 ∧ q.errVa.toNat = w 5 ∧ q.fsrv.toNat = w 6 ∧ q.ridx = 0 ∧ q.widx = 0 ∧ q.stopped = false ∧
      q.predictor = []))) ∧
  (∀ (s : State) (c : ContextInfo), s.mayServe = true → s.context? c.ctx = none →
    StepsTo (.registerContext c) s (fun t => t.context? c.ctx = some c ∧ t.contexts = s.contexts ++ [c] ∧
      t.windows = s.windows ++ [⟨c.ctx, [], 0⟩] ∧
      t.journals = s.journals ++ (if c.journal = 0 then [] else [⟨c.ctx, c.journal, [], 0, false, none, c.ring, 0⟩]) ∧
      t.power.mridx = s.power.mridx + 1 ∧ t.firmware.results = s.firmware.results ++ [(c.ctx, 0)] ∧ t.mem = s.mem))

/-- R363: in `t` a pre-emption is requested of the launch `l` of `s`; nothing else of what it has done is lost. -/
def Sys2Proof.Machine.Requested (t : State) (l : Launch) : Prop :=
  ∃ m, t.launch? l.id = some m ∧ m.saving = .requested ∧ m.sliceDue = false ∧ m.next = l.next ∧ m.limit = l.limit ∧
    m.status = l.status ∧ m.header = l.header

/-- R363: a launch that a pre-emption request reaches: it runs, and its image has a save area (R365). -/
def Sys2Proof.Machine.Launch.saveable (l : Launch) : Prop :=
  l.started = true ∧ l.complete = false ∧ l.torn = false ∧ l.saving = .no ∧ l.header.save ≠ 0

/-- R295, R363, R365: a pre-emption request reaches every running launch of its context that has a save area; from a launch
without one it draws a notice alone; a group that waits ends its wait and stops whole. A time slice that counts requests the
same, or waits for a debugger, but not where a queue of a higher priority waits. That a request reaches the whole context,
and that the debugger may keep a slice waiting, is the model's choice (assumption 60). -/
def Clauses.PreemptionRequests : Prop :=
  ∀ (s : State) (l : Launch), s.launch? l.id = some l →
    (∀ m : Launch, s.launch? m.id = some m → m.ctx = l.ctx → m.saveable →
      StepsTo (.preemptionRequest l.id) s (fun t => t.mem = s.mem ∧ Requested t m) ∧
      (l.started = true → l.complete = false → s.sliceCounts l = true →
        let asked := StepsTo (.timeSliceExpiry l.id) s (fun t => t.mem = s.mem ∧ Requested t m)
        (s.anyHalted l.ctx = false ∨ s.outranked l = true → asked) ∧
        (asked ∨ exec (.timeSliceExpiry l.id) s = .next (s.putLaunch { l with sliceDue := true })))) ∧
    (s.sliceCounts l = false → exec (.timeSliceExpiry l.id) s = .next s) ∧
    ((∀ m ∈ s.launches, m.ctx = l.ctx → m.id = l.id) → (s.launches.map Launch.id).Nodup →
      (l.started = true → l.complete = false → l.torn = false → l.saving = .no → l.header.save = 0 →
        exec (.preemptionRequest l.id) s = .next { s with firmware := { s.firmware with
          notices := s.firmware.notices ++ [(l.ctx, 365)] } }) ∧
      ∀ (b : Block) (g : Group) (k : Nat), l.saveable → s.blocks = [b] → b.launch = l.id → b.mode = .normal →
        b.region = none → b.groups[k]? = some g →
        StepsTo (.preemptionRequest l.id) s (fun t => ∃ b', t.blocks = [b'] ∧
          ((∀ w, g.status ≠ .waiting w) → b'.groups[k]? = some g) ∧
          (g.status = .waiting .barrierBlock ∨ g.status = .waiting .barrierCluster ∨ g.status = .waiting .shape →
            b'.groups[k]? = some { g with status := .saved none, active := false })))

/-- R363: when DEADLINE has passed, every group that has not stopped is saved whole between its units, and one record with
cause 0x86 for each block with such a group leaves for the fault server. -/
def Clauses.ForcedSaves : Prop :=
  ∀ (s : State) (l : Launch) (b : Block), s.launch? l.id = some l → l.saving = .requested → s.blocks = [b] →
    b.launch = l.id → b.region = none → b.ended = false → b.hard = false →
    (∀ g ∈ b.groups, g.started = true ∧ g.halt = none ∧ g.pending = none ∧ (g.status = .running ∨ g.status = .ended)) →
    (∃ g ∈ b.groups, g.status = .running) →
    StepsTo (.forcedHardSave l.id) s (fun t => t.mem = s.mem ∧ t.launch? l.id = some { l with saving := .forced } ∧
      (∃ x : FlyingRecord, t.records = s.records ++ [x] ∧ x.server = some l.fsrv ∧ x.launch = l.id ∧ x.record.cause = 0x86 ∧
        x.record.kind = 3 ∧ x.record.ctx = l.ctx ∧ x.record.block = b.lin) ∧
      ∃ b', t.blocks = [b'] ∧ b' = { b with groups := b'.groups, hard := true } ∧
        ∀ (k : Nat) (g : Group), b.groups[k]? = some g →
          b'.groups[k]? = some (if g.status = .running then { g with status := .saved none, active := false } else g))

/-- R359, R363: a block at rest, the last of its cluster, whose pre-emption is requested leaves its core, and its record
keeps, of a group saved whole, everything, with the whole scratchpad and every accumulator unit, and of a group that stopped
at a PHINT the registers that its record names. -/
def Clauses.BlockSaves : Prop :=
  ∀ (s s1 : State) (l : Launch) (b : Block), s.launch? l.id = some l → (l.saving = .requested ∨ l.saving = .forced) →
    s.block? b.id = some b → b.launch = l.id → s.restful b = true → b.pair = none → l.torn = false →
    s.operators.all (fun o => o.blk != b.id) = true → s.savedWith b = [b] →
    (∀ g ∈ b.allGroups, ∀ w, g.status ≠ .waiting w) → (∀ g ∈ b.groups, g.rlabel = none) →
    let base := (s.releaseAt b.core 5).dropReplicas l.id
    let va := l.header.save + 0x400 + BitVec.ofNat 64 (l.savedIndexes.length * saveBytes l.header)
    (base.parkAll l b).scribble b.core l.ctx 40 va (saveBytes l.header) = .ok s1 →
    StepsTo (.blockSave b.id) s (fun t => t.blocks = s.blocks.filter (fun x => x.id != b.id) ∧
      ∃ (m : Launch) (kept : Block), t.launch? l.id = some m ∧ m.saving = l.saving ∧ m.next = l.next ∧ kept ∈ m.savedBlk ∧
        m.savedBlk.length = l.savedBlk.length + 1 ∧ kept.lin = b.lin ∧ kept.groups.length = b.groups.length ∧
        (∀ (k : Nat) (g : Group), b.groups[k]? = some g → ∃ h, kept.groups[k]? = some h ∧ h.pc = g.pc ∧ h.exec = g.exec ∧
          h.flags = g.flags ∧ h.rng = g.rng ∧ h.entries = g.entries ∧ h.frm = g.frm ∧ h.ten = g.ten ∧ h.chk = g.chk ∧
          h.invtol = g.invtol ∧ h.invst = g.invst ∧ h.repidx = g.repidx ∧ h.idz = g.idz ∧ h.stoseed = g.stoseed ∧
          h.opkey = g.opkey ∧ h.cklive = g.cklive ∧ h.fstrm = g.fstrm ∧ h.walk = g.walk ∧ h.status = g.status ∧
          (g.status = .saved none → h.scalars = g.scalars ∧ h.vectors = g.vectors ∧ h.preds = g.preds ∧
            h.brackets = g.brackets) ∧
          ∀ (n : Nat) (r : LiveRecord), g.status = .saved (some n) →
            base.liveRecord b.core l n = .ok r →
            (∀ v x, v < 128 → x < 96 → r.vectors.getLsbD v = true → h.vec v x = g.vec v x) ∧
            (∀ v, 0 < v → v < 61 → r.scalars.getLsbD v = true → h.scalar v = g.scalar v)) ∧
        ((∃ g ∈ b.groups, g.status = .saved none) → kept.scratch = b.scratch ∧ ∀ u m c, u < 32 → u < accUnits l.header.part →
          m < 96 → c < 32 → kept.cell u m c = b.cell u m c))

/-- R363, R365, R366, R367: once every block is saved, or has ended and drained, the header is written, the firmware gets a
notice, and the launch counts as saved, or goes on to its completion when nothing is left; a saved launch that is resumed is
the same launch again. The header's copy has KIND 1, NEXTB, the number of block records and SAVST. -/
def Clauses.SavedImages : Prop :=
  (∀ (s s0 s1 : State) (l : Launch), s.launch? l.id = some l → (l.saving = .requested ∨ l.saving = .forced) → l.torn = false →
    (∀ b ∈ s.blocks, b.launch = l.id → b.ended = true ∧ b.undrained = false) → s.writeIndexes l 0 l.savedIndexes = .ok s0 →
    let noticed := fun (t : State) => t.firmware.notices = s.firmware.notices ++ [(l.ctx, 363)]
    (l.savedBlk ≠ [] → s0.writeHeader l 0 = .ok s1 → StepsTo (.saveComplete l.id) s (fun t => t.mem = s1.mem ∧ noticed t ∧
      ∃ m, t.launch? l.id = some m ∧ m = { l with saving := .saved, code := m.code })) ∧
    (l.savedBlk = [] → l.redo = [] → l.limit ≤ l.next → l.record.maq = false → s0.writeHeader l 1 = .ok s1 →
      StepsTo (.saveComplete l.id) s (fun t => t.mem = s1.mem ∧ noticed t ∧
        ∃ m, t.launch? l.id = some m ∧ m = { l with saving := .no, code := m.code }))) ∧
  (∀ (s : State) (l : Launch), s.launch? l.id = some l → l.saving = .saved → l.torn = false →
    exec (.contextResume l.id) s = .next ((s.putLaunch { l with saving := .no, sliceDue := false }).dropReplicas l.id)) ∧
  (∀ (l : Launch) (savst : Nat), l.header.bytes.length = 768 → savst < 256 →
    l.savedIndexes.length < 2 ^ 32 →
    let bs := l.savedHeader savst
    bs.length = 1024 ∧ wordAt bs 2 1 % 16 = 1 ∧ wordAt bs 0 2 = wordAt l.header.bytes 0 2 ∧
    wordAt bs 0x90 4 = l.ctx.toNat ∧ wordAt bs 0x380 8 = l.nextB % 2 ^ 64 ∧
    wordAt bs 0x388 4 = l.savedIndexes.length ∧ wordAt bs 0x38C 1 = savst)

/-- R363, R366, R369, R441: the pre-empt, resume and discard services act on the launches of a registered context and give
status 0; for any other context they give status 2 and do nothing. A discarded launch is torn down with status 8. Status 2,
and that a request completes when it is passed on, are the model's choices (assumption 87); that it is for the whole context
is its reading (assumption 60). -/
def Clauses.ContextServices : Prop :=
  ∀ (s : State) (ctx : BitVec 32) (l : Launch), s.mayServe = true → s.launch? l.id = some l → l.ctx = ctx →
    (∀ b ∈ s.blocks, b.pair = none) →
    let served := fun (t : State) (status : Nat) => t.power.mridx = s.power.mridx + 1 ∧
      t.firmware.results = s.firmware.results ++ [(ctx, status)]
    let frozen := l.saving = .saved ∧ l.torn = false ∧ l.complete = false
    (s.context? ctx = none → ∀ i ∈ [Instr.preemptService ctx, .resumeService ctx, .discardService ctx],
      StepsTo i s (fun t => served t 2 ∧ t.launches = s.launches ∧ t.blocks = s.blocks ∧ t.mem = s.mem)) ∧
    ((s.context? ctx).isSome = true →
      StepsTo (.preemptService ctx) s (fun t => served t 0 ∧ (l.saveable → Requested t l)) ∧
      StepsTo (.resumeService ctx) s (fun t => served t 0 ∧ (frozen →
        t.launch? l.id = some { l with saving := .no, sliceDue := false })) ∧
      StepsTo (.discardService ctx) s (fun t => served t 0 ∧ (frozen → ∃ m, t.launch? l.id = some m ∧ m.torn = true ∧
        m.savedBlk = [] ∧ m.status = l.abandoned 8)))

/-- R446: a fenced core takes no more blocks; once nothing of it is left a spare of its die takes its place, MR4 is
extended, and the request completes; one for a core that is fenced already completes at once. That the request completes
with status 0 (assumption 87), and which digest extends MR4 (assumption 84), are the model's choices. -/
def Clauses.Fencing : Prop :=
  ∀ (s : State) (core : Nat), core < 4096 →
    (s.mayServe = true → (s.core core).fenced = false → (∀ b ∈ s.blocks, b.core = core → b.ended = true) →
      StepsTo (.fenceCore core) s (fun t => t.firmware.fencing = some (core, []) ∧ t.blocks = s.blocks ∧ t.mem = s.mem ∧
        t.power.mridx = s.power.mridx ∧ ∀ h, t.coreHasRoom h core = false)) ∧
    (s.mayServe = true → (s.core core).fenced = true →
      StepsTo (.fenceCore core) s (fun t => t.power.mridx = s.power.mridx + 1 ∧ t.cores = s.cores ∧
        t.firmware.results = s.firmware.results ++ [(0, 0)])) ∧
    (s.firmware.fencing = some (core, []) → s.serving = true → (∀ b ∈ s.blocks, b.core = core → b.ended = true) → (s.core core).ops = [] →
      (s.core core).queue = [] → s.firmware.sparesUsed (dieOf core) < 16 →
      StepsTo (.fenceCore core) s (fun t => t.firmware.fencing = none ∧ (t.core core).fenced = false ∧
        (t.core core).spare = (s.core core).spare + 1 ∧
        t.firmware.sparesUsed (dieOf core) = s.firmware.sparesUsed (dieOf core) + 1 ∧
        t.power.mridx = s.power.mridx + 1 ∧ t.firmware.results = s.firmware.results ++ [(0, 0)] ∧
        ∃ d, t.firmware.mrs = setNth s.firmware.mrs 4 (shaPair (s.firmware.mrs.getD 4 0) d)))

/-- R421, R447: retiring a channel asks the fault server of every context that uses one of its frames to migrate it, and
then leaves none of them backed, with MR4 extended; retraining a link brings it back with a notice, outside the live set
until a swap. Retirement in two steps and retraining in one (assumption 88), and which digest extends MR4 (assumption 84),
are the model's choices. -/
def Clauses.Retirement : Prop :=
  ∀ (s : State),
    (∀ frames : List Nat, s.mayServe = true → StepsTo (.retirePseudoChannel frames) s (fun t =>
      t = { s with firmware := { s.firmware with
        retiring := some frames
        asks := s.firmware.asks ++ frames.flatMap (fun k =>
          (s.contexts.filter (fun c => s.owns c (65536 * k))).map (fun c => (c.fsrv, c.ctx, k))) } })) ∧
    (∀ frames : List Nat, s.serving = true → s.firmware.retiring = some frames →
      StepsTo (.retirePseudoChannel frames) s (fun t => t.mem = s.mem ∧ t.firmware.retiring = none ∧
        t.power.mridx = s.power.mridx + 1 ∧
        (∀ pa, pa / 2 ^ 16 ∈ frames → backed pa = true → ∃ r, t.frameFail pa = some ⟨r, 0x20, 0x02⟩) ∧
        (∀ pa, pa / 2 ^ 16 ∉ frames → t.frameFail pa = s.frameFail pa) ∧
        ∃ d, t.firmware.mrs = setNth s.firmware.mrs 4 (shaPair (s.firmware.mrs.getD 4 0) d))) ∧
    (∀ port, s.mayServe = true → port < 16 → StepsTo (.retrainLink port) s (fun t =>
      (∀ p, p < 16 → t.fabric.up.getLsbD p = (s.fabric.up.getLsbD p || decide (p = port))) ∧ t.fabric.live = s.fabric.live ∧
      t.power.mridx = s.power.mridx + 1 ∧ ∃ x : FlyingRecord, t.records = s.records ++ [x] ∧
        x.server = some s.fabric.fmdev ∧ x.record.cause = 0xA2 ∧ x.record.arg0 = BitVec.ofNat 64 port ∧ x.record.arg1 = 1))

/-- R406, R448: a domain copy is accepted for 1 to 2^32 bytes of a device of another domain, gives cause 0x28 within the
domain, and ends with 0 or its cause in DONE; a read lands its bytes on LOCAL pages, a write sends them to the remote
device; an RDMA access of another domain reads or writes those pages, and one of the same domain is none. -/
def Clauses.DomainCopies : Prop :=
  (∀ (s : State) (q : CopyRequest) (c : ContextInfo), s.mayServe = true → s.context? q.ctx = some c →
    let near := q.rdev.toNat / 512 = s.fabric.devid.toNat / 512
    (q.len = 0 ∨ 2 ^ 32 < q.len → exec (.domainCopy q) s = .next (s.finishRequest q.ctx 1)) ∧
    (0 < q.len → q.len ≤ 2 ^ 32 → near → ∀ k t, s.frontStore q.ctx q.done 0x28 = .ok (k, t) →
      exec (.domainCopy q) s = .next (t.finishRequest q.ctx 0)) ∧
    (0 < q.len → q.len ≤ 2 ^ 32 → ¬near → StepsTo (.domainCopy q) s (fun t =>
      t.firmware.copies = s.firmware.copies ++ [⟨s.nextId, q⟩] ∧ t.power = s.power ∧ t.mem = s.mem))) ∧
  (∀ (s : State) (c : DomainCopy) (pa : Nat) (v : Byte) (cause : Byte),
    s.firmware.copies.find? (fun x => x.id == c.id) = some c → s.copies = [] → s.journals = [] →
    let gone := fun (s : State) => { s with firmware := { s.firmware with copies := s.firmware.copies.filter (fun x => x.id != c.id) } }
    (s.fabric.selects c.req.rdev = true → c.req.dir = true → c.req.len = 1 → s.localPlace c.req.ctx .store c.req.lva = .ok pa →
      ∀ k t, (gone (s.putHome pa v)).frontStore c.req.ctx c.req.done cause.toNat = .ok (k, t) →
        exec (.domainCopyCompletion c.id cause [v]) s = .next (t.finishRequest c.req.ctx 0)) ∧
    (s.fabric.selects c.req.rdev = true → c.req.dir = false → cause ≠ 0 →
      ∀ k t, (gone s).frontStore c.req.ctx c.req.done cause.toNat = .ok (k, t) →
        exec (.domainCopyCompletion c.id cause []) s = .next (t.finishRequest c.req.ctx 0)) ∧
    (∀ bs, s.fabric.selects c.req.rdev = true → c.req.dir = false → s.takeAt c.req.ctx c.req.lva c.req.len = .ok bs →
      ∀ k t, (gone { s with fabric := { s.fabric with written := s.fabric.written ++ [(c.req.rdev, c.req.rva, bs)] } }).frontStore
          c.req.ctx c.req.done 0 = .ok (k, t) →
        exec (.domainCopyCompletion c.id 0 []) s = .next (t.finishRequest c.req.ctx 0)) ∧
    (s.fabric.selects c.req.rdev = false → ∀ k t, (gone s).frontStore c.req.ctx c.req.done 0x27 = .ok (k, t) →
      exec (.domainCopyCompletion c.id cause []) s = .next (t.finishRequest c.req.ctx 0))) ∧
  (∀ (s : State) (src : BitVec 13) (ctx : BitVec 32) (va : Word) (data : List Byte) (pa : Nat → Nat) (v : Byte),
    (src.toNat / 512 = s.fabric.devid.toNat / 512 → ∀ w, exec (.rdmaRequestReceive w src ctx va data) s = .next s) ∧
    (src.toNat / 512 ≠ s.fabric.devid.toNat / 512 → s.serving = true → s.copies = [] → s.journals = [] →
      (s.localPlace ctx .store va = .ok (pa 0) →
        exec (.rdmaRequestReceive true src ctx va [v]) s = .next (s.putHome (pa 0) v)) ∧
      ((∀ k, k < data.length → s.localPlace ctx .load (va + BitVec.ofNat 64 k) = .ok (pa k) ∧ s.spoiled (pa k) 1 = false) →
        exec (.rdmaRequestReceive false src ctx va data) s = .next { s with fabric := { s.fabric with
          rdma := (List.range data.length).map (fun k => s.home (pa k)) } })))

/-- R449: draining a journal removes its oldest entries; the first step of a replay keeps the entries for it and launches
the context's completed launches again; a later one delivers a journalled store; and where entries were lost one ends the
replay with a notice. -/
def Clauses.Journals : Prop :=
  ∀ (s : State) (j : Journal), s.journals.find? (fun x => x.ctx == j.ctx) = some j →
    (∀ n, StepsTo (.journalDrain j.ctx n) s (fun t => t = { s with journals := t.journals } ∧
      t.journals.find? (fun x => x.ctx == j.ctx) = some { j with entries := j.entries.drop n, stored := j.stored - n })) ∧
    (j.replay = none → s.serving = true → StepsTo (.replay j.ctx) s (fun t => t.mem = s.mem ∧
      t.journals.find? (fun x => x.ctx == j.ctx) = some { j with replay := some j.entries } ∧
      ((s.windows.find? (fun w => w.ctx == j.ctx)).isSome = true → ∀ l ∈ s.launches, l.ctx = j.ctx → l.complete = true →
        l.replay = false → ∃ m ∈ t.launches, m.replay = true ∧ m.record = l.record ∧ m.ctx = j.ctx ∧ m.started = false))) ∧
    (∀ (e : JournalEntry) (rest : List JournalEntry) (pa : Word) (bytes : List (Nat × Byte)), j.replay = some (e :: rest) →
      e.kind = 1 → j.lost = false → pa.toNat < 2 ^ 63 → (∀ x ∈ bytes, x.1 < 2 ^ 56) → (bytes.map Prod.fst).Nodup →
      e.value = pa :: bytes.map (fun x => BitVec.ofNat 64 (x.1 * 256 + x.2.toNat)) → s.mig.state ≠ 2#2 →
      StepsTo (.replay j.ctx) s (fun t =>
        t.journals.find? (fun x => x.ctx == j.ctx) = some { j with replay := some rest } ∧
        (∀ x ∈ bytes, t.home (pa.toNat + x.1) = x.2) ∧
        ∀ a, (∀ x ∈ bytes, a ≠ pa.toNat + x.1) → t.home a = s.home a)) ∧
    ∀ (e : JournalEntry) (rest : List JournalEntry), j.replay = some (e :: rest) → j.lost = true →
      StepsTo (.replay j.ctx) s (fun t => t.mem = s.mem ∧
        t.firmware.notices = s.firmware.notices ++ [(j.ctx, 449)] ∧
        t.journals.find? (fun x => x.ctx == j.ctx) = some { j with replay := none })

/-! ## Packets -/

/-- R407, R415: the packet leaves, or waits at the sender while every plane to its destination has its class stopped. -/
def Sys2Proof.Machine.Leaves (s t : State) (p : Packet) : Prop :=
  t.fabric.outbox = s.fabric.outbox ++ (if s.fabric.stops p = true then [] else [p]) ∧
  t.fabric.blocked = s.fabric.blocked ++ (if s.fabric.stops p = true then [p] else [])

/-- R408, R417: a reply to the packet `p` is formed in `s`: it carries the stream and the number of its request, it is the
newest in the reply cache, and it leaves when a plane leads to the requester. To a request that its home has forwarded
(R404) it carries that home as its source (the model's choice, assumption 115). -/
def Sys2Proof.Machine.Replied (s t : State) (p : Packet) (op : BitVec 8) (cause : Byte) (bytes : List (Nat × Byte)) : Prop :=
  ∃ r : Packet, r.op = op ∧ r.src = p.fwd.getD s.fabric.devid ∧ r.dst = p.src ∧ r.stream = p.stream ∧ r.seq = p.seq ∧
    r.cause = cause ∧ r.bytes = bytes ∧ t.fabric.replies.head? = some r ∧
    (s.fabric.reaches p.src = true → Leaves s t (framed r)) ∧
    (s.fabric.reaches p.src = false → t.fabric.outbox = s.fabric.outbox)

/-- R417: the cached reply `r` to the packet `p` is sent again, and the cache stays. -/
def Sys2Proof.Machine.Resent (s t : State) (p r : Packet) : Prop :=
  t.fabric.replies = s.fabric.replies ∧ (s.fabric.reaches p.src = true → Leaves s t (framed r)) ∧
  (s.fabric.reaches p.src = false → t.fabric.outbox = s.fabric.outbox)

/-- R407, R413: the packet `p` is the next of its stream, with nothing of it behind, and reaches this device well formed,
from its sender; the home holds no request. -/
def Sys2Proof.Machine.Next (s : State) (p : Packet) : Prop :=
  s.serving = true ∧ p.dst = s.fabric.devid ∧ wellSent p = true ∧ p.stream ≠ 0 ∧ p.seq = s.fabric.expects p ∧
  s.fabric.early = [] ∧ p ∉ s.fabric.waiting ∧ p.fwd = none ∧ s.mig.queue = []

/-- R413, R417 to R419, R404: a LOAD or a STORE whose turn it is, with an accepted key, is performed at its home and
answered with DATA or ACK; one with a wrong key gets NACK 0x26; a retransmission is answered from the cache, and a store
that the cache has lost gets NACK 0x46; then its stream waits for the next number, but where the cached answer tells the
sender to come again. A retransmission of a number that the stream has passed is answered the same way, and the stream stays
where it is. One for a frame that another device has taken over goes on to that device, at the frame's address there. -/
def Clauses.Requests : Prop :=
  (∀ (s : State) (p : Packet), Next s p →
    let pa := fun (k : Nat) => p.pa.toNat + k
    let run := fun (q : State → Prop) => StepsTo (.fabricRequestReceive p) s (fun t =>
      t.fabric.expects p = (if p.seq = 0xFFFFFF#24 then 1 else p.seq + 1) ∧ q t)
    let kept := fun (t : State) => ∀ a, t.home a = s.home a
    let sound := ∀ e ∈ p.bytes, s.frameFail (s.route (pa e.1)) = none ∧ s.spoiled (pa e.1) 1 = false
    (p.op = 0x01#8 ∨ p.op = 0x02#8) →
    (s.fabric.admits p = false → run (fun t => kept t ∧ Replied s t p 0x83 0x26 [])) ∧
    (s.fabric.admits p = true → p.retx = true →
      (∀ r, s.cached p = some r → r.op ≠ 0x84#8 → run (fun t => kept t ∧ Resent s t p r)) ∧
      (s.cached p = none → p.op = 0x02#8 → run (fun t => kept t ∧ Replied s t p 0x83 0x46 []))) ∧
    (s.fabric.admits p = true → (p.retx = false ∨ (p.op = 0x01#8 ∧ s.cached p = none)) → s.packetHeld p = false →
      (∀ a, s.away = some a → a.forward = true → a.covers p.pa.toNat = true → peerWindow p.pa.toNat = false →
        run (fun t => kept t ∧ t.fabric.replies = s.fabric.replies ∧ Leaves s t
          (framed { p with dst := a.dev, pa := BitVec.ofNat 48 (a.dst + (p.pa.toNat - a.src)), fwd := some s.fabric.devid }))) ∧
      (sound → s.mig.state ≠ 2#2 → s.away = none → s.copies = [] →
      (p.op = 0x01#8 → run (fun t => kept t ∧ Replied s t p 0x81 0 (p.bytes.map (fun e => (e.1, s.home (pa e.1)))))) ∧
      (p.op = 0x02#8 → (p.bytes.map Prod.fst).Nodup → run (fun t => Replied s t p 0x82 0 [] ∧
        (∀ e ∈ p.bytes, t.home (pa e.1) = e.2) ∧ ∀ a, (∀ e ∈ p.bytes, a ≠ pa e.1) → t.home a = s.home a))))) ∧
  ∀ (s : State) (p : Packet), s.serving = true → p ∉ s.fabric.waiting → p.dst = s.fabric.devid → wellSent p = true →
    p.fwd = none → p.stream ≠ 0 → (p.op = 0x01#8 ∨ p.op = 0x02#8) → p.retx = true → s.fabric.admits p = true →
    let stays := fun (q : State → Prop) => StepsTo (.fabricRequestReceive p) s (fun t =>
      t.fabric.expected = s.fabric.expected ∧ t.mem = s.mem ∧ q t)
    let passed := 0 < p.seq.toNat ∧ p.seq.toNat < (s.fabric.expects p).toNat ∧
      (s.fabric.expects p).toNat ≤ p.seq.toNat + 2 ^ 22
    (∀ r, s.cached p = some r → (passed ∨ (p.seq = s.fabric.expects p ∧ r.op = 0x84#8)) → stays (fun t => Resent s t p r)) ∧
    (passed → s.cached p = none → p.op = 0x02#8 → stays (fun t => Replied s t p 0x83 0x46 []))

/-- R407, R412, R413: a packet for another device is none of this one's, one with a reserved bit set or an unassigned code
is dropped and counted, and one that comes before its predecessors is held. A load that its home has forwarded (R404) is
performed as it comes, in no stream of this device. -/
def Clauses.PacketOrder : Prop :=
  ∀ (s : State) (p : Packet), s.serving = true → p ∉ s.fabric.waiting →
    let receives : List (Instr × BitVec 8) := [(.fabricRequestReceive p, 0x01), (.fabricRequestReceive p, 0x02),
      (.fabricRequestReceive p, 0x05), (.atomicPacketReceive p, 0x03), (.opstoreReceive p, 0x04)]
    ∀ e ∈ receives, p.op = e.2 →
      (p.dst ≠ s.fabric.devid → exec e.1 s = .next s) ∧
      (p.dst = s.fabric.devid → p.reservedOk = false → StepsTo e.1 s (fun t =>
        t = { s with fabric := { s.fabric with fberr := t.fabric.fberr } } ∧
        t.fabric.fberr.toNat = min (s.fabric.fberr.toNat + 1) 0xFFFFFFFF)) ∧
      (p.fwd = none → p.dst = s.fabric.devid → p.reservedOk = true → p.stream ≠ 0 → p.seq ≠ 0 → s.fabric.expects p ≠ 0 →
        (s.fabric.expects p).toNat < p.seq.toNat → p.seq.toNat ≤ (s.fabric.expects p).toNat + 2 ^ 22 →
        (∀ q ∈ s.fabric.early, ¬(q.src = p.src ∧ q.dst = p.dst ∧ q.stream = p.stream ∧ q.seq = p.seq)) →
        exec e.1 s = .next { s with fabric := { s.fabric with early := s.fabric.early ++ [p] } }) ∧
      (p.fwd.isSome = true → p.op = 0x01#8 → p.dst = s.fabric.devid → p.reservedOk = true → s.packetHeld p = false →
        s.mig.queue = [] → s.away = none → s.copies = [] →
        (∀ x ∈ p.bytes, s.frameFail (s.route (p.pa.toNat + x.1)) = none ∧ s.spoiled (p.pa.toNat + x.1) 1 = false) →
        StepsTo e.1 s (fun t => t.fabric.expected = s.fabric.expected ∧
          Replied s t p 0x81 0 (p.bytes.map (fun x => (x.1, s.home (p.pa.toNat + x.1))))))

/-- R409, R411: an atomic unit of one packet is performed once at its home, and its old value is returned in 8 bytes; a
part of a larger unit is held until the others are there. -/
def Clauses.RemoteAtomics : Prop :=
  ∀ (s : State) (p : Packet), Next s p → s.fabric.admits p = true → p.retx = false → p.op = 0x03#8 → s.packetHeld p = false →
    peerWindow p.pa.toNat = false → s.fabric.parts = [] → s.mig.state ≠ 2#2 → s.away = none → s.copies = [] →
    (∀ (lane off : Nat) (opnd new : Word), p.npart = 0 → p.part = 0 → p.entries = [(lane, off, opnd, new)] →
      let k := p.aop.toNat
      let n := (atomicShape k).1
      let v := if k = 14 then (opnd.toNat % 2 ^ 32, opnd.toNat / 2 ^ 32) else (opnd.toNat, new.toNat)
      let old := bytesNat ((List.range n).map (fun j => s.home (p.pa.toNat + off + j)))
      (k ∈ [1, 11, 14, 15] ∨ opnd.toNat < 2 ^ 32) →
      (∀ j, j < n → s.frameFail (p.pa.toNat + off + j) = none ∧ s.spoiled (p.pa.toNat + off + j) 1 = false) →
      StepsTo (.atomicPacketReceive p) s (fun t =>
        Replied s t p 0x81 0 ((List.range 8).map (fun j => (j, BitVec.ofNat 8 (old / 256 ^ j)))) ∧
        (∀ j, j < n → t.home (p.pa.toNat + off + j) = BitVec.ofNat 8 (atomicResult k old v.1 v.2 / 256 ^ j)) ∧
        ∀ a, a < p.pa.toNat + off ∨ p.pa.toNat + off + n ≤ a → t.home a = s.home a)) ∧
    (p.npart ≠ 0 → p.part.toNat ≤ p.npart.toNat → StepsTo (.atomicPacketReceive p) s (fun t => t.mem = s.mem ∧ t.fabric.parts = [p] ∧
      t.fabric.outbox = s.fabric.outbox ∧ t.fabric.replies = s.fabric.replies))

/-- R258, R418: an OPSTORE is served at the slot of the window that its bytes name, judged by its tag and key; where no
window is, it gets NACK 0x25. That a tag of the copy engine counts as one of a group is the model's choice (assumption 76).
-/
def Clauses.RemoteOperatorStores : Prop :=
  ∀ (s : State) (p : Packet), Next s p → s.fabric.admits p = true → p.retx = false → p.op = 0x04#8 →
    ((∃ e ∈ p.bytes, s.remoteWindow (p.pa.toNat + e.1) = none) →
      StepsTo (.opstoreReceive p) s (fun t => t.mem = s.mem ∧ t.cores = s.cores ∧ Replied s t p 0x83 0x25 [])) ∧
    (∀ (o : Operator) (slot : Nat) (off : Nat → Nat), p.bytes ≠ [] →
      (∀ e ∈ p.bytes, s.remoteWindow (p.pa.toNat + e.1) = some (true, o, slot, off e.1)) →
      let q : SlotRequest := { handle := o.handle, slot := slot, bytes := p.bytes.map (fun e => (off e.1, e.2)), tag := p.tag,
                               remote := true, key := p.opkey, ctx := o.ctx + 1, isGroup := decide (p.tag.toNat % 4 < 2) }
      (∀ c, s.storeRequest q = .error c →
        StepsTo (.opstoreReceive p) s (fun t => t.mem = s.mem ∧ t.cores = s.cores ∧ Replied s t p 0x83 c [])) ∧
      ∀ s1, s.storeRequest q = .ok s1 → StepsTo (.opstoreReceive p) s (fun t => t.mem = s1.mem ∧ t.cores = s1.cores ∧
        t.blocks = s1.blocks ∧ Replied s1 t p 0x82 0 []))

/-- R408, R412, R416, R419: a reply with an accepted key ends the request it answers; RETRY has it sent again; a reply
with a wrong key, or that nothing awaits, is dropped. -/
def Clauses.Replies : Prop :=
  ∀ (s : State) (p : Packet), s.serving = true → p.dst = s.fabric.devid → p.reservedOk = true →
    let ends : List (Instr × BitVec 8) := [(.dataReply p, 0x81), (.ackReply p, 0x82), (.nackReply p, 0x83)]
    (∀ e ∈ (Instr.retryReply p, 0x84#8) :: ends, p.op = e.2 → (s.fabric.admits p = false ∨ s.fabric.asked p = none) →
      exec e.1 s = .next s) ∧
    ∀ r : Outstanding, s.fabric.admits p = true → s.fabric.asked p = some r →
      (∀ e ∈ ends, p.op = e.2 → StepsTo e.1 s (fun t => t = { s with fabric := t.fabric } ∧
        ∃ x ∈ t.fabric.requests, x.id = r.id ∧ x.reply = some p ∧ x.retrying = false ∧ x.packet = r.packet)) ∧
      (p.op = 0x84#8 → StepsTo (.retryReply p) s (fun t => t = { s with fabric := { s.fabric with requests := t.fabric.requests } } ∧
        ∃ x ∈ t.fabric.requests, x = { r with retrying := true }))

/-- R351, R398, R408, R417, R421: an invalidation that no old request awaits drops the translations that its words name and
is acknowledged; a record or a notice goes into this device's trap queue, field for field, and is acknowledged once it is
there; a retransmission is answered from the cache, or refused with 0x46. That a record is acknowledged once it is in the
queue, and stays at its sender till then, is the model's choice (assumption 118). -/
def Clauses.ManagementPackets : Prop :=
  ∀ (s : State) (p : Packet), s.serving = true → p.dst = s.fabric.devid → p.reservedOk = true → s.fabric.admits p = true →
    (p.retx = true → ∀ e ∈ [(Instr.inval p, 0xC1#8), (.recordPacket p, 0xC3#8), (.noticePacket p, 0xC4#8)], p.op = e.2 →
      (∀ r, s.cached p = some r → StepsTo e.1 s (fun t => t.mem = s.mem ∧ t.tlb = s.tlb ∧ Resent s t p r)) ∧
      (s.cached p = none → StepsTo e.1 s (fun t => t.mem = s.mem ∧ t.tlb = s.tlb ∧ Replied s t p 0x83 0x46 []))) ∧
    (∀ (b c : Word), p.op = 0xC1#8 → p.retx = false → p ∉ s.fabric.invals → s.away = none →
      p.bytes = packetBytes 0 (natBytes 8 b.toNat ++ natBytes 8 c.toNat) →
      let ctx := BitVec.ofNat 32 (c.toNat / 2 ^ 32)
      s.copies = [] → s.fabric.requests = [] →
      (∀ x ∈ s.blocks, ∀ g ∈ x.allGroups, g.pending = none ∧ g.status ≠ .waiting .replies) → StepsTo (.inval p) s (fun t =>
        t.tlb = s.tlb.filter (fun e => !(decide (e.ctx = ctx) && e.overlaps (b.toNat % 2 ^ 52 / 65536) (c.toNat % 2 ^ 24))) ∧
        Replied s t p 0xC2 0 [])) ∧
    (∀ r : Outstanding, p.op = 0xC2#8 → s.fabric.asked p = some r → StepsTo (.invack p) s (fun t =>
      t = { s with fabric := t.fabric } ∧ ∃ x ∈ t.fabric.requests, x.id = r.id ∧ x.reply = some p)) ∧
    ∀ r : TrapRecord, p.bytes = packetBytes 0 r.bytes → r.kind < 16 → r.gid < 32 → r.block < 2 ^ 64 → p.retx = false →
      ∀ e ∈ [(Instr.recordPacket p, 0xC3#8), (.noticePacket p, 0xC4#8)], p.op = e.2 →
        (s.queueRecord r = none → exec e.1 s = .next s) ∧
        ∀ s1, s.queueRecord r = some s1 → StepsTo e.1 s (fun t => t.mem = s1.mem ∧ Replied s1 t p 0x82 0 [])

/-- R404, R416, R417: a request without a reply is sent again up to seven times, marked as a retransmission where a plane
is live, and then ends with cause 0x27, for a load, or 0x46; one that was told to come again is sent as it was; a cached
reply ages out. -/
def Clauses.Retransmissions : Prop :=
  ∀ (s : State) (r : Outstanding), s.outstanding? r.id = some r → r.sent = true → r.reply = none →
    let again := fun (retx : Bool) (t : State) =>
      (s.fabric.reaches r.packet.dst = false → t.fabric.outbox = s.fabric.outbox) ∧
      (s.fabric.reaches r.packet.dst = true → ∃ q : Packet, Leaves s t q ∧ q = { r.packet with pkey := q.pkey, retx := retx })
    (r.retrying = false → r.attempts < 7 → StepsTo (.retransmitTimeout r.id) s (fun t => t = { s with fabric := t.fabric } ∧
      t.outstanding? r.id = some { r with attempts := r.attempts + 1 } ∧ again true t)) ∧
    (r.retrying = false → 7 ≤ r.attempts → StepsTo (.retransmitTimeout r.id) s (fun t => t = { s with fabric := t.fabric } ∧
      ∃ q : Packet, t.outstanding? r.id = some { r with reply := some q, retrying := false } ∧ q.op = 0x83 ∧
        q.cause = if r.packet.op = 0x01#8 ∨ r.packet.op = 0x05#8 then 0x27 else 0x46)) ∧
    (r.retrying = true → StepsTo (.retryDelayExpiry r.id) s (fun t => t = { s with fabric := t.fabric } ∧
      t.outstanding? r.id = some { r with retrying := false } ∧ again false t)) ∧
    ∀ (src stream seq : Nat), StepsTo (.replyCacheExpiry src stream seq) s (fun t =>
      t = { s with fabric := { s.fabric with replies := t.fabric.replies } } ∧
      ∀ q, q ∈ t.fabric.replies ↔ q ∈ s.fabric.replies ∧ ¬(q.dst.toNat = src ∧ q.stream.toNat = stream ∧ q.seq.toNat = seq))

/-- R415, R421: OFF stops one class of a port until ON, when the packets leave that only this has kept at the sender; a lost
link leaves the live set with one notice due to FMDEV, and a retrained one works again with its notice but stays out of the
live set until a swap. -/
def Clauses.Links : Prop :=
  ∀ (s : State) (port cls : Nat), port < 16 → cls < 4 →
    let f := s.fabric
    let noticed := fun (t : State) (back : Word) => ∃ x : FlyingRecord, t.records = s.records ++ [x] ∧
      x.server = some f.fmdev ∧ x.record.cause = 0xA2 ∧ x.record.kind = 3 ∧ x.record.arg0 = BitVec.ofNat 64 port ∧
      x.record.arg1 = back
    StepsTo (.flowOff port cls) s (fun t => t = { s with fabric := { f with off := t.fabric.off } } ∧
      ∀ e, e ∈ t.fabric.off ↔ e = (port, cls) ∨ e ∈ f.off) ∧
    StepsTo (.flowOn port cls) s (fun t => t = { s with fabric := t.fabric } ∧
      (∀ e, e ∈ t.fabric.off ↔ e ≠ (port, cls) ∧ e ∈ f.off) ∧ t.fabric.blocked = f.blocked.filter t.fabric.stops ∧
      ∀ p ∈ f.blocked, t.fabric.stops p = false → f.reaches p.dst = true →
        ∃ q ∈ t.fabric.outbox, q = { p with pkey := q.pkey }) ∧
    (f.up.getLsbD port = true → StepsTo (.linkLoss port) s (fun t =>
      t = { s with fabric := { f with up := t.fabric.up, live := t.fabric.live, due := f.due ++ [port] } } ∧
      ∀ p, p < 16 → t.fabric.up.getLsbD p = (f.up.getLsbD p && decide (p ≠ port)) ∧
        t.fabric.live.getLsbD p = (f.live.getLsbD p && decide (p ≠ port)))) ∧
    (f.up.getLsbD port = false → exec (.linkLoss port) s = .next s) ∧
    (port ∈ f.due → StepsTo (.linkLossNotice port) s (fun t => t.fabric = { f with due := f.due.erase port } ∧ noticed t 0)) ∧
    (f.up.getLsbD port = false → StepsTo (.linkRetrained port) s (fun t => noticed t 1 ∧ t.fabric.live = f.live ∧
      ∀ p, p < 16 → t.fabric.up.getLsbD p = (f.up.getLsbD p || decide (p = port)))) ∧
    (f.up.getLsbD port = true → exec (.linkRetrained port) s = .next s)

/-- R419 to R421: a swap puts the other bank into service, its enabled ports whose links work form the live set, and the
keys of the old bank count until the grace ends; a bank with two enabled ports on one plane makes it fail and changes
nothing else. -/
def Clauses.BankSwaps : Prop :=
  ∀ s : State,
    let f := s.fabric
    let port := fun (p : Nat) => readCell (f.bank !f.active).ports p
    let clash := ∃ p q, p < q ∧ q < 16 ∧ (port p).getLsbD 4 = true ∧ (port q).getLsbD 4 = true ∧
      (port p).extractLsb' 0 4 = (port q).extractLsb' 0 4
    (clash → exec .swap s = .next { s with fabric := { f with swfail := true } }) ∧
    (¬clash → StepsTo .swap s (fun t =>
      t = { s with fabric := { f with active := !f.active, grace := true, live := t.fabric.live } } ∧
      (∀ p, p < 16 → t.fabric.live.getLsbD p = ((port p).getLsbD 4 && f.up.getLsbD p)) ∧
      ∀ q : Packet, t.fabric.admits q = ((f.bank !f.active).admits q.src q.pkey || (f.bank f.active).admits q.src q.pkey))) ∧
    exec .swapGraceExpiry s = .next { s with fabric := { f with grace := false } } ∧
    (f.grace = false → ∀ q : Packet, f.admits q = (f.bank f.active).admits q.src q.pkey) ∧
    exec .fberrClr s = .next { s with fabric := { f with fberr := 0 } } ∧
    exec .swfailClear s = .next { s with fabric := { f with swfail := false } }

/-- R404: a copy that ends brings every byte of the frame: each of its addresses reads, through the home that now
forwards, as before; a copy that fails leaves the frame where it was, with the cause. Requests that the home held are then
served. -/
def Obligations.Migrations : Prop :=
  ∀ (s : State) (data : List Byte) (cause : Byte), s.mig.state = 1#2 → s.mig.queue = [] → s.mig.sdev = s.fabric.devid →
    s.away = none → s.copies = [] → s.fabric.parts = [] →
    let m := s.mig
    ((∀ a ∈ s.bad, a < m.src ∨ m.src + m.size ≤ a) → StepsTo (.migrationCopyComplete data) s (fun t =>
      t.mig = { m with state := 2 } ∧ t.blocks = s.blocks ∧
      (∀ a, m.src ≤ a → a < m.src + m.size → t.home a = s.home a) ∧
      ∀ a, (a < m.src ∨ m.src + m.size ≤ a) → (a < m.dst ∨ m.dst + m.size ≤ a) → t.home a = s.home a)) ∧
    ((∃ a ∈ s.bad, m.src ≤ a ∧ a < m.src + m.size) →
      exec (.migrationCopyComplete data) s = .next { s with mig := { m with state := 3, cause := 0xA0 } }) ∧
    exec (.migrationCopyFail cause) s = .next { s with mig := { m with state := 3, cause := cause } } ∧
    ∀ p : Packet, p.op = 0x01#8 → (∀ e ∈ p.bytes, s.frameFail (p.pa.toNat + e.1) = none ∧ s.spoiled (p.pa.toNat + e.1) 1 = false) →
      StepsTo (.migrationCopyFail cause) { s with mig := { m with queue := [p] } } (fun t => t.mig.queue = [] ∧ t.mem = s.mem ∧
        Replied s t p 0x81 0 (p.bytes.map (fun e => (e.1, s.home (p.pa.toNat + e.1)))))

/-! ## Redundant pairs -/

/-- R371: `lead` and `trail` are the two blocks of a pair, with the groups numbered `k`. -/
def Sys2Proof.Machine.Paired (s : State) (lead trail : Block) (p : Pair) (k : Nat) (g h : Group) : Prop :=
  s.block? lead.id = some lead ∧ s.block? trail.id = some trail ∧ lead.id ≠ trail.id ∧ lead.pair = some p ∧ p.leading = true ∧
  p.partner = trail.id ∧ (∃ q, trail.pair = some q ∧ q.leading = false ∧ q.partner = lead.id) ∧
  lead.groups[k]? = some g ∧ trail.groups[k]? = some h

/-- R380, R377: the group `x` stands where the checkpoint of `g` stood, in the place of `g`, with the registers that the
checkpoint holds, every other as `g` has it, and the held bytes of `g` whose units had been matched and no others. -/
def Sys2Proof.Machine.RolledBack (x g : Group) (c : Checkpoint) : Prop :=
  x.pc = c.group.pc ∧ x.exec = c.group.exec ∧ x.flags = c.group.flags ∧ x.entries = c.group.entries ∧
  (∀ r l, r < 128 → l < 96 → x.vec r l = if c.vecIn.getLsbD r then c.group.vec r l else g.vec r l) ∧
  (∀ r, r < 61 → readCell x.scalars r = if c.sclIn.getLsbD r then readCell c.group.scalars r else readCell g.scalars r) ∧
  (∀ r, r < 8 → readCell x.preds r = if c.prdIn.getLsbD r then readCell c.group.preds r else readCell g.preds r) ∧
  (∀ k, k < 1536 → readCell x.brackets k =
    if c.brkIn.getLsbD (k / 384) then readCell c.group.brackets k else readCell g.brackets k) ∧
  x.rlabel = c.group.rlabel ∧ x.repidx = c.group.repidx ∧ x.slot = g.slot ∧ x.sigs = [] ∧
  (∀ e ∈ x.holds, ∀ y ∈ e.bytes, ∀ u ∈ g.sigs, u.unit ≠ y.2.2) ∧
  ∀ e ∈ g.holds, ∀ y ∈ e.bytes, (∀ u ∈ g.sigs, u.unit ≠ y.2.2) → ∃ f ∈ x.holds, f.line = e.line ∧ y ∈ f.bytes

/-- R374, R380, R381: two equal signatures match: the leading unit's bytes are released and the trailing copy goes.
Unequal ones roll both groups back to their checkpoint, with the scratchpad bytes and cells that it holds; a second time
the leading group stops where it stands with cause 0x83, with one record, and its partner with it. -/
def Clauses.Signatures : Prop :=
  ∀ (s : State) (lead trail : Block) (p : Pair) (k : Nat) (g h : Group) (a b : Signature) (ar br : List Signature),
    Paired s lead trail p k g h → g.sigs = a :: ar → h.sigs = b :: br → lead.region = none → trail.region = none →
    let both := fun (q : State → Group → Group → Block → Block → Prop) => StepsTo (.signatureCompare lead.id k) s (fun t =>
      t.mem = s.mem ∧ ∃ lead' trail' x y, t.block? lead.id = some lead' ∧ t.block? trail.id = some trail' ∧
        lead'.groups[k]? = some x ∧ trail'.groups[k]? = some y ∧ q t x y lead' trail')
    (a.crc = b.crc → both (fun _ x y _ _ => x = { g with sigs := ar } ∧ y = { h with sigs := br, holds := y.holds } ∧
      (∀ e ∈ y.holds, ∀ z ∈ e.bytes, z.2.2 ≠ b.unit) ∧
      ∀ e ∈ h.holds, ∀ z ∈ e.bytes, z.2.2 ≠ b.unit → ∃ f ∈ y.holds, f.line = e.line ∧ z ∈ f.bytes)) ∧
    ∀ c : Checkpoint, a.crc ≠ b.crc → p.checks.find? (fun x => decide (x.gid = g.gid)) = some c →
      let inRange := fun (o : Nat) => c.scrIn.any (fun r => decide (r.1 ≤ o) && decide (o < r.1 + r.2))
      (p.mismatch[k]? = some 0 → (∀ e ∈ c.scr, inRange e.1 = true) → (c.scr.map Prod.fst).Nodup →
        both (fun _ x y lead' trail' => RolledBack x g c ∧ RolledBack y h c ∧ x.status = .running ∧ y.status = .running ∧
          (∃ q, lead'.pair = some q ∧ q.mismatch[k]? = some 1) ∧
          ∀ o, readCell lead'.scratch o = (if inRange o then readCell c.scr o else readCell lead.scratch o) ∧
            readCell trail'.scratch o = (if inRange o then readCell c.scr o else readCell trail.scratch o))) ∧
      ∀ l : Launch, p.mismatch[k]? = some 1 → g.status ≠ .stopped → s.launch? lead.launch = some l → both (fun t x y _ _ =>
        x = { g with status := .stopped, stop := x.stop, met := none, active := false, remote := [], pending := none } ∧
        y = { h with status := .stopped, stop := none, met := none, active := false, remote := [], pending := none } ∧
        ∃ r, x.stop = some r ∧ r.record.cause = 0x83 ∧ r.record.pc = g.pc ∧
          t.records = s.records ++ [⟨some l.fsrv, lead.launch, r.record, none⟩])

/-- R376, R377, R384: where both groups of a pair have reached the same unit with the same signature, with every earlier
store matched and drained, the leading group performs it alone, both go on to end at an EXIT, with a checkpoint, and at a
CKPT both go past it with a checkpoint that holds the address after it; an armed injection flips its bit in the trailing
group and disarms. -/
def Clauses.MeetingPoints : Prop :=
  ∀ (s : State) (lead trail : Block) (p : Pair) (k : Nat) (g h : Group) (m : Meeting), Paired s lead trail p k g h →
    g.status = .waiting (.partner m) → h.status = .waiting (.partner m) → g.sigs = [] → h.sigs = [] → g.holds = [] →
    lead.mode ≠ .tentative →
    let ready := fun (x : Group) => { x with status := .running, met := some m, active := false }
    (m.kind = 0 → exec (.meetingPoint lead.id k) s = .next (s.changeAt ⟨lead.id, k, false⟩ ready)) ∧
    (m.kind = 3 → exec (.meetingPoint lead.id k) s =
      .next (((s.changeAt ⟨lead.id, k, false⟩ ready).changeAt ⟨trail.id, k, false⟩ ready).checkpointAt lead k)) ∧
    ∀ (l : Launch) (s1 : State) (r : Nat) (v : Word), m.kind = 2 → s.launch? lead.launch = some l → g.cklive = 0xFFF#12 →
      g.stop = none → k < p.mismatch.length → 0 < r → r < 61 → h.carrier = [] →
      let past := fun (x : Group) => { (x.advance 2).age [] with status := .running, active := false }
      ((s.changeAt ⟨lead.id, k, false⟩ past).changeAt ⟨trail.id, k, false⟩ past).scribble lead.core l.ctx 40
        (l.header.ckpta + BitVec.ofNat 64 (lead.lin * saveBytes l.header)) (saveBytes l.header) = .ok s1 →
      let after := fun (f : Group → Group) (redinj : Word) => StepsTo (.meetingPoint lead.id k) s (fun t =>
        t.redinj = redinj ∧ ∃ lead' trail' x y q c, t.block? lead.id = some lead' ∧ t.block? trail.id = some trail' ∧
          lead'.groups[k]? = some x ∧ trail'.groups[k]? = some y ∧ lead'.pair = some q ∧ q.mismatch[k]? = some 0 ∧
          q.checks.head? = some c ∧ c.gid = g.gid ∧ c.group.pc = g.pc + 4 ∧ c.group.scalars = g.scalars ∧
          c.group.vectors = g.vectors ∧ c.scr = lead.scratch ∧ x.pc = g.pc + 4 ∧ x.status = .running ∧
          x.scalars = g.scalars ∧ y.pc = h.pc + 4 ∧ y.status = .running ∧ y.scalars = (f h).scalars ∧ y.vectors = h.vectors)
      (s.redinj.toNat / 2 ^ 8 % 4 = 0 → after (fun x => x) s.redinj) ∧
      (s.redinj.toNat = r + 2 ^ 8 * 2 + 2 ^ 10 * 1 + 2 ^ 32 * l.ctx.toNat → v = h.scalar r ^^^ 2 →
        after (fun x => { x with scalars := writeCell x.scalars r v }) (BitVec.ofNat 64 (r + 2 ^ 10 + 2 ^ 32 * l.ctx.toNat)))

/-! ## Issuing, the checks of a unit, distances and frames -/

/-- R20, R21, R22: a parcel is the two bytes at its address in HBM, the low one first, where no store of its launch has
changed them, and where one has it is those bytes or some that stood there since the launch started; a failing translation
is the fetch's. -/
def Clauses.Fetches : Prop :=
  ∀ (s : State) (b : Block) (va : Word),
    (∀ f, s.translate b.core (s.ctxOf b) (!s.superOf b) .fetch va = .error f → s.fetchParcel b va = .error f) ∧
    ∀ (pa : Nat) (unc mig : Bool), s.translate b.core (s.ctxOf b) (!s.superOf b) .fetch va = .ok (.local pa false unc mig) →
      s.spoiled pa 2 = false → pa % 2 = 0 →
      ((∀ l, s.launch? b.launch = some l → ∀ e ∈ l.code, e.1 ≠ s.route pa / 2) →
        s.fetchParcel b va = .ok (s.home (pa + 1) ++ s.home pa)) ∧
      ∀ l, s.launch? b.launch = some l → ∃ v, s.fetchParcel b va = .ok v ∧
        (v = s.home (pa + 1) ++ s.home pa ∨ ∃ e ∈ l.code, e.1 = s.route pa / 2 ∧ e.2 = v)

/-- R20, R21, R64: a step that issues a group fetches the unit at its PC, and runs the instruction that the decoder reads
there, at the state in which the group's pace is the stall count of the unit and the translation that the fetch used may
be retained, and without what the group has read ahead where the unit orders loads (R237); a fetch that fails, or parcels
that are no instruction, trap. A group that may not issue does nothing, and one that the locality limit of its core keeps
from its load goes to the pending set (R297). -/
def Clauses.Steps : Prop :=
  ∀ (s : State) (r : GRef) (rest : List Move) (b : Block) (g : Group), s.agenda = .issue r :: rest →
    let at' := { s with tick := s.tick + 1, agenda := rest, cur := r }
    at'.current = some (b, g) →
    (g.ready = true → b.ended = false →
      (∀ ps i stall tail, at'.fetchUnit b g.pc = .ok ps → decode ps = .instr i stall tail →
        ¬(at'.mayLoad b.core r = true ∨ genericLoad i ps = false) →
        step s = .next (at'.changeAt r (fun x => { x with active := false }))) ∧
      (∀ ps i stall tail, at'.fetchUnit b g.pc = .ok ps → decode ps = .instr i stall tail →
        (at'.mayLoad b.core r = true ∨ genericLoad i ps = false) →
        step s = exec i (((at'.retain b.core (at'.ctxOf b) g.pc).changeAt r (fun x => { x with pace := stall })).orderAhead i ps)) ∧
      (∀ ps c, at'.fetchUnit b g.pc = .ok ps → decode ps = .illegal c → step s = .next (at'.trap { cause := c })) ∧
      ∀ f va, at'.fetchUnit b g.pc = .error (f, va) →
        step s = .next (at'.trap { cause := f.cause, sec := f.sec, kind := 0, va := va })) ∧
    (g.ready = false → step s = .next at')

/-- R20, R112: a step of another agent is that agent's move; the machine stops nowhere: every step answers a next state. -/
def Obligations.Progress : Prop :=
  (∀ (s : State) (i : Instr) (rest : List Move), s.agenda = .event i :: rest → i.parcels = 0 →
    step s = exec i { s with tick := s.tick + 1, agenda := rest }) ∧
  (∀ (s : State), ∃ t, step s = .next t) ∧
  ∀ (i : Instr) (s : State), (i.parcels = 0 ∨ s.current ≠ none) → ∃ t, exec i s = .next t

/-- R52, R64, R65, R109, R29, R67: before it has any effect a unit stops its group with the first cause that applies: 0x09
for a privileged one outside supervisor mode, 0x04 or 0x07 for one that a compacted region forbids, 0x0C for a vector
register at or above the budget, 0x06 for a read at too short a distance under CHK, and then 0x0A for a lane number of 96
or more. -/
def Clauses.UnitChecks : Prop :=
  ∀ (s : State) (blk : Block) (g : Group) (l : Launch), s.current = some (blk, g) → s.launch? blk.launch = some l →
    blk.mode ≠ .tentative → blk.pair = none → s.superOf blk = false →
    let stops := fun (i : Instr) (c : Byte) => StopsWith i s blk g l (fun r => r.cause = c ∧ r.kind = 1)
    (∀ (c b : BitVec 6) (n : BitVec 12),
      (∀ i ∈ [Instr.eret, .tlbinv c b, .oppark b], stops i 0x09) ∧
      (0x800 ≤ n.toNat → stops (.srr n c) 0x09 ∧ stops (.srw n c) 0x09) ∧
      (g.compacted = true →
        (∀ i ∈ [Instr.cseal b, .cwait b, .mseal b, .mwait b, .opinst c b, .oprem b, .barBlk, .barClu, .wend, .shwait, .rlabel n,
          .ckpt], stops i 0x04) ∧
        (b ≠ 0 → ∀ a d, ∀ e ∈ scalarTable a d b, stops e.1 0x07))) ∧
    ∀ (x : BitVec 1) (b a d : BitVec 7),
      (∀ e ∈ vectorTable x b a d,
        let n := vectorNeed x b a d false
        ((∃ r ∈ n.regs, g.budget ≤ r) → stops e.1 0x0C) ∧
        ((∀ r ∈ n.regs, r < g.budget) → g.chk = true → g.undersized n.reads false = true → stops e.1 0x06)) ∧
      ∀ (d' c : BitVec 6),
        let lane := if x = 1#1 then (g.scalar (b.toNat % 64)).toNat else b.toNat
        96 ≤ lane →
        (Issues s blk g { region := if d' = 0#6 then none else some 0x07, regs := [a.toNat], reads := [a.toNat] } →
          stops (.sgetl x b a d') 0x0A) ∧
        (d.toNat < g.budget → stops (.ssetl x b c d) 0x0A)

/-- R26, R27, R30: the result of a floating-point operation is late at a distance of 0, that of a conversion below 2, and
that of an integer operation never; the distance grows with the stall count of the unit; a read that comes too early
returns, in each beat, the value or one that the register held before. -/
def Clauses.Distances : Prop :=
  (∀ (s : State) (blk : Block) (g : Group) (x : BitVec 1) (b a d : BitVec 7) (i h : BitVec 4), s.current = some (blk, g) →
    s.cur.cmp = false → g.hazards = [] →
    let late := fun (i : Instr) (need : Nat) => GoesTo i s (fun _ _ h =>
      (h.undersized [d.toNat] false = decide (g.pace.toNat < need)) ∧
      ∀ r, r ≠ d.toNat → h.undersized [r] false = false)
    (Issues s blk g (vectorNeed x b a d false) →
      (∀ e ∈ vectorTable x b a d, late e.1 0) ∧ ∀ e ∈ floatTable x b a d, late e.1 1) ∧
    (Issues s blk g (unaryNeed a d) → late (.vcvt i h a d) 2)) ∧
  (∀ (g : Group) (new : List Hazard), (g.age new).hazards =
    ((new.map (fun (h : Hazard) => { h with gone := h.gone + g.pace.toNat })) ++
      g.hazards.map (fun (h : Hazard) => { h with gone := h.gone + 1 + g.pace.toNat })).filter (fun h => decide (h.gone < h.need))) ∧
  ∀ (g : Group) (tick r beat : Nat) (reads : List Nat) (flags : Bool), beat < 3 →
    let seen := g.seen tick reads flags
    (r ∉ reads → ∀ l, l < 96 → seen.vec r l = g.vec r l) ∧
    ((∀ l, l / 32 = beat → seen.vec r l = g.vec r l) ∨
      ∃ h ∈ g.hazards, h.reg = .vector r ∧ ∀ l, l / 32 = beat → seen.vec r l = readCell h.oldLanes l)

/-- R12, R94: what an instruction leaves that completes with a changed group: every other group, every other field of its
block, every other block, every core, queue and launch, and every byte of memory, as they were. -/
def Clauses.Frames : Prop :=
  ∀ (s : State) (blk : Block) (g h : Group), s.current = some (blk, g) → s.cur.cmp = false →
    let t := s.putGroup h
    OnlyBlocks s t ∧ MemoryKept s t ∧
    (∃ b', t.groupAt s.cur = some (b', h) ∧ b' = { blk with groups := b'.groups } ∧
      ∀ j, j ≠ s.cur.grp → b'.groups[j]? = blk.groups[j]?) ∧
    ∀ k, k ≠ s.cur.blk → t.block? k = s.block? k

/-! ## Encodings -/

/-- R42 to R63: words written out from the encodings of the spec, one or more of a family, with the instruction and the
stall count that the decoder reads. -/
def Obligations.DecodedWords : Prop :=
  ∀ e ∈ ([([0x18A0], .vaddI32Compact 3 5, 0), ([0x1503, 0x030A], .vaddI32 0 3 5 5, 1), ([0x1009, 0x00C2], .sadd 3 2 4, 0),
    ([0x1419, 0xFF45], .saddi 0x3FD 5 5, 0), ([0x2203, 0x070C], .vfaddF32 0 7 6 8, 1), ([0x1489, 0x8314], .sgetl 1 3 10 5, 0),
    ([0x04B9, 0x0006], .brp 6 0 0 1, 0), ([0x49F9, 0x0406], .vicmp 0 4 3 2 2, 0), ([0x2721, 0x8388], .ld32 2 7 4 9, 0),
    ([0x5399, 0xC388], .atomCas64 7 4 20, 0), ([0x77B1, 0x0000], .fence 3 5, 0), ([0x17C1, 0x0006], .opinst 6 5, 0),
    ([0x93C9, 0x1534], .tmul 1 20 3 9 4, 0), ([0x53E9, 0x6215], .tcopySt 1 8 21 20, 0), ([0x3BD1, 0x634C], .mbtry 13 12 14, 0),
    ([0x13E1, 0x0185], .shpub 6 5 4, 0), ([0x27F9, 0x72C5], .inv 1 1 1 22 20 2, 0), ([0x03E1, 0xB005], .phint 5, 0)] :
      List (List Parcel × Instr × BitVec 2)),
    decode e.1 = .instr e.2.1 e.2.2 []

/-- R42 to R63: decoding agrees with encoding: for every encoded instruction whose operands its encoding admits, at every
stall count, the decoder reads back the instruction, the stall count of a 32-bit word, and what follows. -/
def Clauses.DecodeEncode : Prop :=
  ∀ (i : Instr) (stall : BitVec 2) (rest : List Parcel), WellFormed i = true → i.parcels ≠ 0 →
    decode (encode i stall ++ rest) = .instr i (if i.parcels = 1 then 0 else stall) rest

/-- R23, R24, R64: the decoder reads an instruction only where one is: a first parcel of 0 is cause 0x03, op7 0x7E cause
0x02, and whatever it reads is well formed, one parcel long when bit 0 of the first parcel is clear and two when it is
set. -/
def Clauses.DecodeSound : Prop :=
  ∀ (p : Parcel) (rest : List Parcel),
    (p = 0 → decode (p :: rest) = .illegal 0x03) ∧
    (p.getLsbD 0 = true → p.extractLsb' 3 7 = 0x7E → rest ≠ [] → decode (p :: rest) = .illegal 0x02) ∧
    ∀ i stall tail, decode (p :: rest) = .instr i stall tail → WellFormed i = true ∧ i.parcels ≠ 0 ∧
      (p.getLsbD 0 = false → i.parcels = 1 ∧ stall = 0 ∧ tail = rest) ∧
      (p.getLsbD 0 = true → i.parcels = 2 ∧ stall = p.extractLsb' 1 2 ∧ tail = rest.drop 1)

/-! ## Reset and the invariants -/

/-- R419, R420, R443, R444, R451 to R455: what a reset leaves. -/
def Clauses.ResetState : Prop :=
  let s := State.reset
  s.redinj = 0 ∧ s.mig.state = 0 ∧ s.mig.cause = 0 ∧ s.mig.desc = 0 ∧ s.fabric.active = false ∧ s.fabric.fmdev = 0 ∧
  s.fabric.fberr = 0 ∧ s.fabric.swfail = false ∧ (∀ b i, (s.fabric.bank b).entry i = 0) ∧
  (∀ b p, readCell (s.fabric.bank b).ports p = 0) ∧ s.firmware.mrs = List.replicate 8 0 ∧ s.firmware.stage = 0 ∧
  s.firmware.reason = 0 ∧ s.power.cap = 0 ∧ s.power.freq = 2250 ∧ s.power.power = 0 ∧ s.power.capped = false ∧
  s.power.throt = false ∧ s.power.vinlo = false ∧ s.power.vinhi = false ∧ s.power.caperr = false ∧ s.power.mbase = 0 ∧
  s.power.mwidx = 0 ∧ s.power.mridx = 0 ∧ Memory.wf s.mem = true

/-- R16, R33, R95, R99, R108: a group of a fresh image: the PC at the entry point, the lanes of its threads, rounded up to
whole quads whose other lanes are helpers, all active; the declared scalars, and the special registers at their reset
values. -/
def Clauses.FreshGroups : Prop :=
  ∀ (l : Launch) (gid slot role roleGid budget : Nat) (active : Bool),
    let g := freshGroup l gid (role, roleGid, budget) slot active
    let n := min 96 (l.header.threads - 96 * gid)
    g.pc = l.header.entry ∧ g.status = .running ∧ g.gid = gid ∧ g.budget = budget ∧ g.entries = [] ∧ g.exec = g.present ∧
    (∀ x, x < 96 → hasLane g.present x = decide (x < min 96 ((n + 3) / 4 * 4))) ∧
    (∀ x, x < 96 → hasLane g.helper x = (hasLane g.present x && decide (n ≤ x))) ∧
    g.frm = 0 ∧ g.ten = 0 ∧ g.chk = false ∧ g.invtol = 0 ∧ g.invst = 0 ∧ g.repidx = 0 ∧ g.idz = false ∧ g.opkey = 0 ∧
    g.cklive = 0xFFF#12 ∧ g.fstrm = 1 ∧
    ∀ k, l.record.args = [] → 0 < k → k < 61 → l.header.sdecl.getLsbD k = true → g.scalar k = l.header.svals.getD k 0

/-- Every step keeps the canonical form of memory: addresses strictly rising, and no entry equal to what an unlisted address
reads as (assumption 3). -/
def Obligations.MemoryForm : Prop :=
  ∀ s t : State, Memory.wf s.mem = true → step s = .next t → Memory.wf t.mem = true

/-- The registers outside the groups hold legal values: REDINJ's reserved bits are 0 (R384), MIGDESC is aligned (R403),
the power cap is 0 or 600 to 2,400 W (R455), the clock is within 1,200 and 2,250 MHz (R452), the leaf index is at most
2^20 (R444), and the host's link has 16, 8 or 4 lanes (R422). -/
def Sys2Proof.Machine.Legal (s : State) : Prop :=
  s.redinj &&& 0x00000000FF800080#64 = 0 ∧ s.mig.desc.toNat % 32 = 0 ∧
  (s.power.cap = 0#12 ∨ (600 ≤ s.power.cap.toNat ∧ s.power.cap.toNat ≤ 2400)) ∧
  1200 ≤ s.power.freq.toNat ∧ s.power.freq.toNat ≤ 2250 ∧
  s.firmware.leaf ≤ 2 ^ 20 ∧ (s.host.lanes = 16 ∨ s.host.lanes = 8 ∨ s.host.lanes = 4)

/-- R384, R403, R422, R444, R452, R455: every step keeps the registers outside the groups legal, whoever moves. -/
def Obligations.LegalRegisters : Prop :=
  Legal State.reset ∧ ∀ s t : State, Legal s → step s = .next t → Legal t

/-! ## The obligations: the clauses above, grouped -/

/-- All of: ScalarArithmetic (R70), ScalarImmediates (R72, R73), ScalarDivision (R70, R71). -/
def Obligations.ScalarArithmetic : Prop :=
  Clauses.ScalarArithmetic ∧ Clauses.ScalarImmediates ∧ Clauses.ScalarDivision

/-- All of: LaneToScalar (R74), ScalarToLane (R74). -/
def Obligations.LaneScalarMoves : Prop :=
  Clauses.LaneToScalar ∧ Clauses.ScalarToLane

/-- All of: LaneIntegers (R42, R144, R147), LaneUnary (R146, R148), LaneAccumulate (R144, R145, R147, R149). -/
def Obligations.LaneIntegers : Prop :=
  Clauses.LaneIntegers ∧ Clauses.LaneUnary ∧ Clauses.LaneAccumulate

/-- All of: LaneFloats (R153, R154, R135), LaneSpecials (R155 to R157), LaneConversions (R158, R159, R128). -/
def Obligations.LaneFloats : Prop :=
  Clauses.LaneFloats ∧ Clauses.LaneSpecials ∧ Clauses.LaneConversions

/-- All of: LanePredicates (R150 to R152), Votes (R167), FlagsAndBrackets (R168, R169). -/
def Obligations.LanePredicates : Prop :=
  Clauses.LanePredicates ∧ Clauses.Votes ∧ Clauses.FlagsAndBrackets

/-- All of: LaneExchanges (R160 to R162), LaneReductions (R163 to R166). -/
def Obligations.LaneExchanges : Prop :=
  Clauses.LaneExchanges ∧ Clauses.LaneReductions

/-- All of: UniformBranches (R79, R19), DivergentBranches (R80, R82, R83, R84), CompactionArrival (R103). -/
def Obligations.Branches : Prop :=
  Clauses.UniformBranches ∧ Clauses.DivergentBranches ∧ Clauses.CompactionArrival

/-- All of: CallsAndIndirect (R86, R87), Returns (R81, R85, R88), Exits (R89, R99). -/
def Obligations.CallsAndReturns : Prop :=
  Clauses.CallsAndIndirect ∧ Clauses.Returns ∧ Clauses.Exits

/-- All of: HintsAndLabels (R90, R91, R92, R360, R362, R377), SleepAndHalt (R91, R92), StrayEnds (R175). -/
def Obligations.HintsAndHalts : Prop :=
  Clauses.HintsAndLabels ∧ Clauses.SleepAndHalt ∧ Clauses.StrayEnds

/-- All of: SpecialReads (R33, R90), SpecialWrites (R33, R90, R127), Clocks (R34). -/
def Obligations.SpecialRegisters : Prop :=
  Clauses.SpecialReads ∧ Clauses.SpecialWrites ∧ Clauses.Clocks

/-- All of: SoftwareTraps (R349, R346, R350, R351), FlagTraps (R347, R348), SupervisorReturn (R353). -/
def Obligations.SoftwareTraps : Prop :=
  Clauses.SoftwareTraps ∧ Clauses.FlagTraps ∧ Clauses.SupervisorReturn

/-- All of: TranslationInvalidation (R397), CacheMaintenance (R227), WriteBacks (R202, R400). -/
def Obligations.CachesAndTranslations : Prop :=
  Clauses.TranslationInvalidation ∧ Clauses.CacheMaintenance ∧ Clauses.WriteBacks

/-- All of: LaneLoads (R210, R217, R235), ScalarAndConstantLoads (R76, R220, R236). -/
def Obligations.Loads : Prop :=
  Clauses.LaneLoads ∧ Clauses.ScalarAndConstantLoads

/-- All of: LaneStores (R218, R213), ScalarStores (R76). -/
def Obligations.Stores : Prop :=
  Clauses.LaneStores ∧ Clauses.ScalarStores

/-- All of: Fences (R228, R242, R435), PathFences (R228). -/
def Obligations.FenceInstructions : Prop :=
  Clauses.Fences ∧ Clauses.PathFences

/-- All of: OperatorInstallation (R248 to R253, R312), OperatorUse (R256, R260, R264, R312), OperatorParking (R370). -/
def Obligations.OperatorInstructions : Prop :=
  Clauses.OperatorInstallation ∧ Clauses.OperatorUse ∧ Clauses.OperatorParking

/-- All of: SequencerSteps (R254, R261, R263, R370), Deliveries (R267, R268), OutletWaits (R266, R265, R212). -/
def Obligations.SequencerSteps : Prop :=
  Clauses.SequencerSteps ∧ Clauses.Deliveries ∧ Clauses.OutletWaits

/-- All of: MatrixQueue (R314, R311, R318, R327), MatrixColumns (R319). -/
def Obligations.MatrixInstructions : Prop :=
  Clauses.MatrixQueue ∧ Clauses.MatrixColumns

/-- All of: MatrixImages (R281, R284, R318, R327), MatrixSteps (R273, R281, R283, R284). -/
def Obligations.MatrixWork : Prop :=
  Clauses.MatrixImages ∧ Clauses.MatrixSteps

/-- All of: Batches (R327, R325, R431, R432), Counters (R328, R431, R432), Walks (R298, R332). -/
def Obligations.BatchesAndWalks : Prop :=
  Clauses.Batches ∧ Clauses.Counters ∧ Clauses.Walks

/-- All of: BarrierObjects (R330), Barriers (R329, R241, R371). -/
def Obligations.BarrierInstructions : Prop :=
  Clauses.BarrierObjects ∧ Clauses.Barriers

/-- All of: CopyMoves (R325, R326, R400, R432), CopyCredits (R325, R328, R330). -/
def Obligations.CopyProgress : Prop :=
  Clauses.CopyMoves ∧ Clauses.CopyCredits

/-- All of: ShapePublication (R306, R333), ShapeQueries (R334), ShapeVerdicts (R305). -/
def Obligations.Shapes : Prop :=
  Clauses.ShapePublication ∧ Clauses.ShapeQueries ∧ Clauses.ShapeVerdicts

/-- All of: Arena (R307, R335), HeldStores (R305, R239). -/
def Obligations.ArenaAndHeldStores : Prop :=
  Clauses.Arena ∧ Clauses.HeldStores

/-- All of: QueueWakes (R287, R289), QueueRecords (R287, R288, R289). -/
def Obligations.QueueTraffic : Prop :=
  Clauses.QueueWakes ∧ Clauses.QueueRecords

/-- All of: LaunchStarts (R290, R291, R357), LaunchCompletions (R292), BlockPlacements (R293, R294, R95, R108). -/
def Obligations.Launches : Prop :=
  Clauses.LaunchStarts ∧ Clauses.LaunchCompletions ∧ Clauses.BlockPlacements

/-- All of: ModifiedLanes (R60, R63, R170), Repeats (R61, R110, R111). -/
def Obligations.ModifiersAndRepeats : Prop :=
  Clauses.ModifiedLanes ∧ Clauses.Repeats

/-- All of: WaitConditions (R296, R311, R327, R328, R330, R398), SleepsAndReplies (R91, R212), Promotions (R112, R296,
R297). -/
def Obligations.Waits : Prop :=
  Clauses.WaitConditions ∧ Clauses.SleepsAndReplies ∧ Clauses.Promotions

/-- All of: RecordDeliveries (R351, R437), Answers (R353), Debugger (R92, R311, R354). -/
def Obligations.FaultServer : Prop :=
  Clauses.RecordDeliveries ∧ Clauses.Answers ∧ Clauses.Debugger

/-- All of: RegisterSteps (R33, R384, R403, R404), ManagementRegisters (R451, R455), FabricRegisters (R419, R420, R456). -/
def Obligations.RegisterWrites : Prop :=
  Clauses.RegisterSteps ∧ Clauses.ManagementRegisters ∧ Clauses.FabricRegisters

/-- All of: PowerCap (R452, R453), ThermalLimits (R454), InputVoltage (R451). -/
def Obligations.PowerControl : Prop :=
  Clauses.PowerCap ∧ Clauses.ThermalLimits ∧ Clauses.InputVoltage

/-- All of: Boot (R443, R444, R451), HandOver (R445), Attestation (R444). -/
def Obligations.FirmwareStart : Prop :=
  Clauses.Boot ∧ Clauses.HandOver ∧ Clauses.Attestation

/-- All of: HostAccesses (R422, R429), Spawns (R423). -/
def Obligations.HostInterface : Prop :=
  Clauses.HostAccesses ∧ Clauses.Spawns

/-- All of: Registrations (R286, R423, R441, R449), ContextServices (R363, R366, R369, R441). -/
def Obligations.HostServices : Prop :=
  Clauses.Registrations ∧ Clauses.ContextServices

/-- All of: PreemptionRequests (R295, R363, R365), ForcedSaves (R363). -/
def Obligations.Preemption : Prop :=
  Clauses.PreemptionRequests ∧ Clauses.ForcedSaves

/-- All of: BlockSaves (R359, R363), SavedImages (R363, R365, R366, R367). -/
def Obligations.SavesAndRestores : Prop :=
  Clauses.BlockSaves ∧ Clauses.SavedImages

/-- All of: Fencing (R446), Retirement (R421, R447). -/
def Obligations.CoreMaintenance : Prop :=
  Clauses.Fencing ∧ Clauses.Retirement

/-- All of: DomainCopies (R406, R448), Journals (R449). -/
def Obligations.FirmwareCopies : Prop :=
  Clauses.DomainCopies ∧ Clauses.Journals

/-- All of: Requests (R413, R417 to R419, R404), PacketOrder (R407, R412, R413). -/
def Obligations.FabricRequests : Prop :=
  Clauses.Requests ∧ Clauses.PacketOrder

/-- All of: RemoteAtomics (R409, R411), RemoteOperatorStores (R258, R418). -/
def Obligations.RemoteUnits : Prop :=
  Clauses.RemoteAtomics ∧ Clauses.RemoteOperatorStores

/-- All of: Replies (R408, R412, R416, R419), ManagementPackets (R351, R398, R408, R417, R421), Retransmissions (R404, R416,
R417). -/
def Obligations.FabricReplies : Prop :=
  Clauses.Replies ∧ Clauses.ManagementPackets ∧ Clauses.Retransmissions

/-- All of: Links (R415, R421), BankSwaps (R419 to R421). -/
def Obligations.LinksAndBanks : Prop :=
  Clauses.Links ∧ Clauses.BankSwaps

/-- All of: Signatures (R374, R380, R381), MeetingPoints (R376, R377, R384). -/
def Obligations.PairedBlocks : Prop :=
  Clauses.Signatures ∧ Clauses.MeetingPoints

/-- All of: Fetches (R20, R21, R22), Steps (R20, R21, R64). -/
def Obligations.StepsRunDecodedInstructions : Prop :=
  Clauses.Fetches ∧ Clauses.Steps

/-- All of: UnitChecks (R52, R64, R65, R109, R29, R67), Distances (R26, R27, R30), Frames (R12, R94). -/
def Obligations.UnitChecks : Prop :=
  Clauses.UnitChecks ∧ Clauses.Distances ∧ Clauses.Frames

/-- All of: DecodeEncode (R42 to R63), DecodeSound (R23, R24, R64). -/
def Obligations.DecodeEncode : Prop :=
  Clauses.DecodeEncode ∧ Clauses.DecodeSound

/-- All of: ResetState (R419, R420, R443, R444, R451 to R455), FreshGroups (R16, R33, R95, R99, R108). -/
def Obligations.ResetAndFreshGroups : Prop :=
  Clauses.ResetState ∧ Clauses.FreshGroups
end

