-- ==== Sys2Proof/Laws/Cells.lean ====
section
/-! SUPPORT. Sparse tables: what a read gives after a write, a run of writes, a filter; copies likewise; and that every
operation keeps the canonical form. -/

set_option Elab.async false

namespace Sys2Proof.Machine

theorem readCell_insertCell {w : Nat} (c : Cells w) (k j : Nat) (v : BitVec w) :
    readCell (insertCell c k v) j = if j = k then v else readCell c j := by
  induction c with
  | nil => simp [insertCell, readCell, eq_comm]
  | cons e rest ih =>
    obtain ⟨i, u⟩ := e
    simp only [insertCell]
    split
    · simp only [readCell, ih]; split <;> split <;> first | rfl | omega
    · split
      · subst_vars; simp only [readCell]; split <;> split <;> first | rfl | omega
      · simp only [readCell]
        by_cases h : k = j
        · simp [h]
        · have : ¬ j = k := fun x => h x.symm
          simp [h, this]

theorem readCell_filter {w : Nat} (c : Cells w) (p : Nat → Bool) (j : Nat) :
    readCell (c.filter (fun e => p e.1)) j = if p j then readCell c j else 0#w := by
  induction c with
  | nil => simp [readCell]
  | cons e rest ih =>
    obtain ⟨i, u⟩ := e
    by_cases hp : p i <;> simp only [List.filter, hp, readCell, ih]
    · by_cases h : i = j
      · subst h; simp [hp]
      · simp [h]
    · by_cases h : i = j
      · subst h; simp [hp]
      · simp [h]

/-- A read after a write of one cell, in any table. -/
theorem readCell_writeCell {w : Nat} (c : Cells w) (k j : Nat) (v : BitVec w) :
    readCell (writeCell c k v) j = if j = k then v else readCell c j := by
  unfold writeCell
  split
  · rw [readCell_filter c (fun i => decide (i ≠ k))]
    by_cases h : j = k <;> simp_all
  · exact readCell_insertCell c k j v

theorem readCell_append {w : Nat} (a b : Cells w) (j : Nat) :
    readCell (a ++ b) j = if (a.any (fun e => e.1 == j)) then readCell a j else readCell b j := by
  induction a with
  | nil => rfl
  | cons e rest ih =>
    obtain ⟨i, u⟩ := e
    simp only [List.cons_append, readCell, List.any_cons]
    by_cases h : i = j
    · simp [h]
    · simp [h, ih]

theorem runCells_any {w : Nat} (lo n j : Nat) (f : Nat → BitVec w) :
    (runCells lo n f).any (fun e => e.1 == j) = (decide (lo ≤ j ∧ j < lo + n) && decide (f j ≠ 0#w)) := by
  induction n generalizing lo with
  | zero => simp only [runCells, List.any_nil]; rw [decide_eq_false (by omega)]; rfl
  | succ n ih =>
    simp only [runCells]
    by_cases hz : f lo = 0#w
    · simp only [hz, if_true, ih]
      by_cases hj : lo = j
      · subst hj; simp [hz]
      · congr 1; apply decide_eq_decide.mpr; omega
    · simp only [hz, if_false, List.any_cons, ih]
      by_cases hj : lo = j
      · subst hj; simp [hz]
      · have : (lo == j) = false := by simp [hj]
        rw [this, Bool.false_or]
        congr 1; apply decide_eq_decide.mpr; omega

theorem readCell_runCells {w : Nat} (lo n j : Nat) (f : Nat → BitVec w) :
    readCell (runCells lo n f) j = if lo ≤ j ∧ j < lo + n then f j else 0#w := by
  induction n generalizing lo with
  | zero => simp only [runCells, readCell]; rw [if_neg (by omega)]
  | succ n ih =>
    simp only [runCells]
    by_cases hz : f lo = 0#w
    · simp only [hz, if_true, ih]
      by_cases hj : lo = j
      · subst hj; simp [hz]
      · by_cases h1 : lo + 1 ≤ j ∧ j < lo + 1 + n
        · rw [if_pos h1, if_pos (by omega)]
        · rw [if_neg h1, if_neg (by omega)]
    · simp only [hz, if_false, readCell, ih]
      by_cases hj : lo = j
      · subst hj; simp
      · rw [if_neg hj]
        by_cases h1 : lo + 1 ≤ j ∧ j < lo + 1 + n
        · rw [if_pos h1, if_pos (by omega)]
        · rw [if_neg h1, if_neg (by omega)]

theorem readCell_absent {w : Nat} (c : Cells w) (j : Nat) (h : c.any (fun e => e.1 == j) = false) : readCell c j = 0#w := by
  induction c with
  | nil => rfl
  | cons e rest ih =>
    obtain ⟨i, u⟩ := e
    simp only [List.any_cons, Bool.or_eq_false_iff, beq_eq_false_iff_ne] at h
    simp only [readCell, h.1, if_false]
    exact ih h.2

/-- A read after a run of cells is written, in any table. -/
theorem readCell_writeRun {w : Nat} (c : Cells w) (lo n j : Nat) (f : Nat → BitVec w) :
    readCell (writeRun c lo n f) j = if lo ≤ j ∧ j < lo + n then f j else readCell c j := by
  unfold writeRun
  rw [readCell_append, readCell_append, runCells_any, readCell_runCells,
    readCell_filter c (fun i => decide (i < lo)), readCell_filter c (fun i => decide (lo + n ≤ i))]
  have ha : ((c.filter (fun e => decide (e.1 < lo))).any (fun e => e.1 == j)) = true → j < lo := by
    intro h
    simp only [List.any_eq_true, List.mem_filter, decide_eq_true_eq, beq_iff_eq] at h
    obtain ⟨e, ⟨_, h1⟩, h2⟩ := h
    omega
  by_cases hin : lo ≤ j ∧ j < lo + n
  · have h0 : ((c.filter (fun e => decide (e.1 < lo))).any (fun e => e.1 == j)) = false := by
      by_contra hc
      have := ha (by simpa using hc)
      omega
    rw [h0]
    simp only [hin, Bool.false_eq_true, if_false]
    by_cases hz : f j = 0#w
    · simp [hz]
      have : ¬ lo + n ≤ j := by omega
      simp [this]
    · simp [hz]
  · simp only [hin, if_false, decide_false, Bool.false_and, Bool.false_eq_true]
    by_cases hlt : j < lo
    · simp only [hlt, decide_true, if_true]
      split
      · rfl
      · next hno =>
        have hb : c.any (fun e => e.1 == j) = false := by
          by_contra hc
          apply hno
          simp only [Bool.not_eq_false, List.any_eq_true, beq_iff_eq] at hc
          obtain ⟨e, he, hej⟩ := hc
          simp only [List.any_eq_true, List.mem_filter, decide_eq_true_eq, beq_iff_eq]
          exact ⟨e, ⟨he, by omega⟩, hej⟩
        rw [readCell_absent c j hb]
        simp only [show ¬ (lo + n ≤ j) by omega, decide_false, Bool.false_eq_true, if_false]
    · have h0 : ((c.filter (fun e => decide (e.1 < lo))).any (fun e => e.1 == j)) = false := by
        by_contra hc
        exact hlt (ha (by simpa using hc))
      rw [h0]
      simp only [Bool.false_eq_true, if_false]
      simp only [show lo + n ≤ j by omega, decide_true, if_true]

/-! ## The canonical form -/

theorem keysRise_mono {α : Type} (c : List (Nat × α)) (lo hi : Nat) (h : lo ≤ hi) (hk : keysRise hi c = true) :
    keysRise lo c = true := by
  cases c with
  | nil => rfl
  | cons e rest =>
    obtain ⟨k, v⟩ := e
    simp only [keysRise, Bool.and_eq_true, decide_eq_true_eq] at hk ⊢
    exact ⟨by omega, hk.2⟩

theorem keysRise_ge {α : Type} (c : List (Nat × α)) (lo : Nat) (hk : keysRise lo c = true) : ∀ e ∈ c, lo ≤ e.1 := by
  induction c generalizing lo with
  | nil => simp
  | cons e rest ih =>
    obtain ⟨k, v⟩ := e
    simp only [keysRise, Bool.and_eq_true, decide_eq_true_eq] at hk
    intro x hx
    rcases List.mem_cons.mp hx with h | h
    · subst h; exact hk.1
    · have := ih (k + 1) hk.2 x h; omega

theorem keysRise_filter {α : Type} (c : List (Nat × α)) (lo : Nat) (p : Nat × α → Bool) (hk : keysRise lo c = true) :
    keysRise lo (c.filter p) = true := by
  induction c generalizing lo with
  | nil => rfl
  | cons e rest ih =>
    obtain ⟨k, v⟩ := e
    simp only [keysRise, Bool.and_eq_true, decide_eq_true_eq] at hk
    simp only [List.filter]
    split
    · simp only [keysRise, Bool.and_eq_true, decide_eq_true_eq]
      exact ⟨hk.1, ih (k + 1) hk.2⟩
    · exact keysRise_mono _ lo (k + 1) (by omega) (ih (k + 1) hk.2)

theorem keysRise_insert {w : Nat} (c : Cells w) (lo k : Nat) (v : BitVec w) (h : lo ≤ k) (hk : keysRise lo c = true) :
    keysRise lo (insertCell c k v) = true := by
  induction c generalizing lo with
  | nil => simp [insertCell, keysRise, h]
  | cons e rest ih =>
    obtain ⟨j, u⟩ := e
    simp only [keysRise, Bool.and_eq_true, decide_eq_true_eq] at hk
    simp only [insertCell]
    split
    · simp only [keysRise, Bool.and_eq_true, decide_eq_true_eq]
      exact ⟨hk.1, ih (j + 1) (by omega) hk.2⟩
    · split
      · subst_vars; simp only [keysRise, Bool.and_eq_true, decide_eq_true_eq]; exact ⟨h, hk.2⟩
      · simp only [keysRise, Bool.and_eq_true, decide_eq_true_eq]
        exact ⟨h, by omega, hk.2⟩

theorem insertCell_nonzero {w : Nat} (c : Cells w) (k : Nat) (v : BitVec w) (hv : v ≠ 0#w)
    (hc : c.all (fun e => decide (e.2 ≠ 0#w)) = true) : (insertCell c k v).all (fun e => decide (e.2 ≠ 0#w)) = true := by
  induction c with
  | nil => simp [insertCell, hv]
  | cons e rest ih =>
    obtain ⟨j, u⟩ := e
    simp only [List.all_cons, Bool.and_eq_true, decide_eq_true_eq] at hc
    simp only [insertCell]
    split
    · simp only [List.all_cons, Bool.and_eq_true, decide_eq_true_eq]; exact ⟨hc.1, ih hc.2⟩
    · split <;> simp only [List.all_cons, Bool.and_eq_true, decide_eq_true_eq]
      · exact ⟨hv, hc.2⟩
      · exact ⟨hv, hc.1, hc.2⟩

/-- A write of one cell keeps the canonical form. -/
theorem writeCell_wf {w : Nat} (c : Cells w) (k : Nat) (v : BitVec w) (h : cellsWf c = true) :
    cellsWf (writeCell c k v) = true := by
  simp only [cellsWf, Bool.and_eq_true] at h ⊢
  unfold writeCell
  split
  · refine ⟨keysRise_filter c 0 _ h.1, ?_⟩
    rw [List.all_eq_true] at h ⊢
    intro x hx
    exact h.2 x (List.mem_filter.mp hx).1
  · next hv => exact ⟨keysRise_insert c 0 k v (Nat.zero_le _) h.1, insertCell_nonzero c k v hv h.2⟩

theorem keysRise_append {α : Type} (a b : List (Nat × α)) (lo mid : Nat) (hlm : lo ≤ mid) (ha : keysRise lo a = true)
    (hm : ∀ e ∈ a, e.1 < mid) (hb : keysRise mid b = true) : keysRise lo (a ++ b) = true := by
  induction a generalizing lo with
  | nil => exact keysRise_mono b lo mid hlm hb
  | cons e rest ih =>
    obtain ⟨k, v⟩ := e
    simp only [keysRise, Bool.and_eq_true, decide_eq_true_eq] at ha
    simp only [List.cons_append, keysRise, Bool.and_eq_true, decide_eq_true_eq]
    have hk := hm (k, v) (by simp)
    exact ⟨ha.1, ih (k + 1) (by simpa using hk) ha.2 (fun x hx => hm x (by simp [hx]))⟩

theorem runCells_rise {w : Nat} (lo n : Nat) (f : Nat → BitVec w) : keysRise lo (runCells lo n f) = true := by
  induction n generalizing lo with
  | zero => rfl
  | succ n ih =>
    simp only [runCells]
    split
    · exact keysRise_mono _ lo (lo + 1) (by omega) (ih (lo + 1))
    · simp only [keysRise, Bool.and_eq_true, decide_eq_true_eq]; exact ⟨le_refl _, ih (lo + 1)⟩

theorem runCells_lt {w : Nat} (lo n : Nat) (f : Nat → BitVec w) : ∀ e ∈ runCells lo n f, e.1 < lo + n ∧ e.2 ≠ 0#w := by
  induction n generalizing lo with
  | zero => simp [runCells]
  | succ n ih =>
    simp only [runCells]
    split
    · intro e he; have := ih (lo + 1) e he; exact ⟨by omega, this.2⟩
    · next hz =>
      intro e he
      rcases List.mem_cons.mp he with h | h
      · subst h; exact ⟨by simp, hz⟩
      · have := ih (lo + 1) e h; exact ⟨by omega, this.2⟩

/-- A table of the same canonical form whose keys start at `mid`. -/
theorem filter_ge_rise {α : Type} (c : List (Nat × α)) (lo mid : Nat) (hk : keysRise lo c = true) :
    keysRise mid (c.filter (fun e => decide (mid ≤ e.1))) = true := by
  induction c generalizing lo with
  | nil => rfl
  | cons e rest ih =>
    obtain ⟨k, v⟩ := e
    simp only [keysRise, Bool.and_eq_true, decide_eq_true_eq] at hk
    simp only [List.filter]
    split
    · next h =>
      simp only [decide_eq_true_eq] at h
      simp only [keysRise, Bool.and_eq_true, decide_eq_true_eq]
      exact ⟨h, keysRise_filter rest (k + 1) _ hk.2⟩
    · exact ih (k + 1) hk.2

/-- A run of writes keeps the canonical form. -/
theorem writeRun_wf {w : Nat} (c : Cells w) (lo n : Nat) (f : Nat → BitVec w) (h : cellsWf c = true) :
    cellsWf (writeRun c lo n f) = true := by
  simp only [cellsWf, Bool.and_eq_true] at h ⊢
  unfold writeRun
  refine ⟨?_, ?_⟩
  · refine keysRise_append _ _ 0 lo (Nat.zero_le _) (keysRise_filter c 0 _ h.1) ?_ ?_
    · intro e he; simpa using (List.mem_filter.mp he).2
    · refine keysRise_append _ _ lo (lo + n) (by omega) (runCells_rise lo n f) ?_ (filter_ge_rise c 0 (lo + n) h.1)
      intro e he; exact (runCells_lt lo n f e he).1
  · have hall := h.2
    rw [List.all_eq_true] at hall ⊢
    intro x hx
    simp only [List.mem_append, List.mem_filter] at hx
    rcases hx with hx | hx | hx
    · exact hall x hx.1
    · simpa using (runCells_lt lo n f x hx).2
    · exact hall x hx.1

/-- Writing bytes keeps the canonical form. -/
theorem writeBytes_wf (m : Cells 8) (a : Nat) (bs : List Byte) (h : cellsWf m = true) : cellsWf (writeBytes m a bs) = true := by
  induction bs generalizing m a with
  | nil => exact h
  | cons b rest ih => exact ih (writeCell m a b) (a + 1) (writeCell_wf m a b h)

/-- Copied bytes written into a table keep the canonical form. -/
theorem mergeCopies_wf (m : Cells 8) (c : Copies) (h : cellsWf m = true) : cellsWf (mergeCopies m c) = true := by
  unfold mergeCopies
  induction c generalizing m with
  | nil => exact h
  | cons e rest ih => exact ih (writeCell m e.1 e.2) (writeCell_wf m e.1 e.2 h)

/-! ## Copies -/

theorem findCopy_putCopy (c : Copies) (k j : Nat) (v : Byte) :
    findCopy (putCopy c k v) j = if j = k then some v else findCopy c j := by
  induction c with
  | nil => simp [putCopy, findCopy, eq_comm]
  | cons e rest ih =>
    obtain ⟨i, u⟩ := e
    simp only [putCopy]
    split
    · simp only [findCopy, ih]; split <;> split <;> first | rfl | omega
    · split
      · subst_vars; simp only [findCopy]; split <;> split <;> first | rfl | omega
      · simp only [findCopy]
        by_cases h : k = j
        · simp [h]
        · have : ¬ j = k := fun x => h x.symm
          simp [h, this]

theorem findCopy_filter (c : Copies) (p : Nat → Bool) (j : Nat) :
    findCopy (c.filter (fun e => p e.1)) j = if p j then findCopy c j else none := by
  induction c with
  | nil => simp [findCopy]
  | cons e rest ih =>
    obtain ⟨i, u⟩ := e
    by_cases hp : p i <;> simp only [List.filter, hp, findCopy, ih]
    · by_cases h : i = j
      · subst h; simp [hp]
      · simp [h]
    · by_cases h : i = j
      · subst h; simp [hp]
      · simp [h]

theorem findCopy_dropCopy (c : Copies) (k j : Nat) :
    findCopy (dropCopy c k) j = if j = k then none else findCopy c j := by
  unfold dropCopy
  rw [findCopy_filter c (fun i => decide (i ≠ k))]
  by_cases h : j = k <;> simp [h]

/-- What a table with kept keys holds. -/
theorem readCell_keepCells {w : Nat} (old new : Cells w) (keys : List Nat) (j : Nat) :
    readCell (keepCells old new keys) j = if j ∈ keys then readCell old j else readCell new j := by
  unfold keepCells
  induction keys generalizing new with
  | nil => simp
  | cons k rest ih =>
    simp only [List.foldl_cons, ih, readCell_writeCell, List.mem_cons]
    by_cases h : j ∈ rest
    · simp [h]
    · by_cases hj : k = j
      · simp [h, hj]
      · simp [h, Ne.symm hj]

/-- Keeping keys keeps the canonical form. -/
theorem keepCells_wf {w : Nat} (old new : Cells w) (keys : List Nat) (h : cellsWf new = true) :
    cellsWf (keepCells old new keys) = true := by
  unfold keepCells
  induction keys generalizing new with
  | nil => exact h
  | cons k rest ih => exact ih _ (writeCell_wf new k _ h)

end Sys2Proof.Machine
end

