-- ==== Sys2Proof/Laws/Fields.lean ====
section
/-! SUPPORT. Fields read back from words built field by field. -/

set_option Elab.async false

namespace Sys2Proof

/-- Dividing away a field of a packed word. -/
theorem pack_div (lo : Nat) (f : BitVec lo) (w k : Nat) (h : lo ≤ k) : pack lo f w / 2 ^ k = w / 2 ^ (k - lo) := by
  obtain ⟨j, rfl⟩ := Nat.exists_eq_add_of_le h
  rw [pack, Nat.pow_add, ← Nat.div_div_eq_div_mul, Nat.add_mul_div_left _ _ (by positivity), Nat.div_eq_of_lt f.isLt,
    Nat.zero_add, Nat.add_sub_cancel_left]

/-- A field above the lowest one. -/
theorem fld_pack_lo (n lo : Nat) (f : BitVec lo) (w k : Nat) (h : lo ≤ k) :
    fld (pack lo f w) k n = fld w (k - lo) n := by rw [fld, pack_div lo f w k h, fld]

/-- The lowest field. -/
theorem fld_pack (n : Nat) (f : BitVec n) (w : Nat) : fld (pack n f w) 0 n = f := by
  apply BitVec.eq_of_toNat_eq
  simp [fld, pack, Nat.mod_eq_of_lt f.isLt]

/-- A selector above the lowest field. -/
theorem sel_pack_lo (n lo : Nat) (f : BitVec lo) (w k : Nat) (h : lo ≤ k) :
    sel (pack lo f w) k n = sel w (k - lo) n := by rw [sel, pack_div lo f w k h, sel]

/-- A selector within the lowest field. -/
theorem sel_pack_in (n m : Nat) (f : BitVec m) (w k : Nat) (h : k + n ≤ m) :
    sel (pack m f w) k n = f.toNat / 2 ^ k % 2 ^ n := by
  obtain ⟨j, rfl⟩ := Nat.exists_eq_add_of_le h
  have e : 2 ^ (k + n + j) * w = 2 ^ k * (2 ^ n * (2 ^ j * w)) := by ring
  rw [sel, pack, e, Nat.add_mul_div_left _ _ (by positivity), Nat.add_mul_mod_self_left]

/-- A selector made of two neighbours. -/
theorem sel_join (k m n w : Nat) : sel w k (m + n) = sel w k m + 2 ^ m * sel w (k + m) n := by
  rw [sel, sel, sel, Nat.pow_add, Nat.pow_add, Nat.mod_mul, Nat.div_div_eq_div_mul]

/-- A selector that differs in a part of its bits. -/
theorem sel_ne (k n d m : Nat) {w v : Nat} (h : sel w (k + d) m ≠ v / 2 ^ d % 2 ^ m) (le : d + m ≤ n := by decide) :
    ¬ sel w k n = v := by
  rintro rfl
  obtain ⟨j, rfl⟩ := Nat.exists_eq_add_of_le le
  refine h ?_
  have e : 2 ^ (d + m + j) = 2 ^ d * (2 ^ m * 2 ^ j) := by ring
  rw [sel, sel, e, Nat.mod_mul_right_div_self, Nat.mod_mul_right_mod, Nat.pow_add, Nat.div_div_eq_div_mul]

/-- A word has at most `m` bits. -/
def Fits (w m : Nat) : Prop := w < 2 ^ m

/-- No field is left. -/
theorem fits_zero : Fits 0 0 := Nat.one_pos

/-- A packed word is as long as its fields. -/
theorem fits_pack {n m : Nat} {f : BitVec n} {w : Nat} (h : Fits w m) : Fits (pack n f w) (n + m) := by
  have hf := f.isLt
  unfold Fits at *
  calc pack n f w < 2 ^ n + 2 ^ n * w := by unfold pack; omega
    _ = 2 ^ n * (w + 1) := by ring
    _ ≤ 2 ^ n * 2 ^ m := Nat.mul_le_mul_left _ h
    _ = 2 ^ (n + m) := (Nat.pow_add 2 n m).symm

/-- Bit 0 of a word whose first field is one bit. -/
theorem pack_mod (f : BitVec 1) (w : Nat) : pack 1 f w % 2 = f.toNat := by
  unfold pack
  have := f.isLt
  omega

/-- Bit 0 of a compact word, whose first field is five bits. -/
theorem pack_even (f : BitVec 5) (w : Nat) (h : f.toNat % 2 = 0) : pack 5 f w % 2 = 0 := by
  unfold pack
  omega

end Sys2Proof
end

