-- ==== Sys2Proof/Laws/State.lean ====
section
/-! SUPPORT. What each update of the state or of a group leaves alone, field by field. -/

set_option Elab.async false

namespace Sys2Proof.Machine

/-! ## State.putBlock: every field but blocks -/

@[simp] theorem State.putBlock_mem (s : State) (b : Block) : (s.putBlock b).mem = s.mem := rfl

@[simp] theorem State.putBlock_bad (s : State) (b : Block) : (s.putBlock b).bad = s.bad := rfl

@[simp] theorem State.putBlock_cores (s : State) (b : Block) : (s.putBlock b).cores = s.cores := rfl

@[simp] theorem State.putBlock_dies (s : State) (b : Block) : (s.putBlock b).dies = s.dies := rfl

@[simp] theorem State.putBlock_copies (s : State) (b : Block) : (s.putBlock b).copies = s.copies := rfl

@[simp] theorem State.putBlock_launches (s : State) (b : Block) : (s.putBlock b).launches = s.launches := rfl

@[simp] theorem State.putBlock_queues (s : State) (b : Block) : (s.putBlock b).queues = s.queues := rfl

@[simp] theorem State.putBlock_windows (s : State) (b : Block) : (s.putBlock b).windows = s.windows := rfl

@[simp] theorem State.putBlock_visits (s : State) (b : Block) : (s.putBlock b).visits = s.visits := rfl

@[simp] theorem State.putBlock_contexts (s : State) (b : Block) : (s.putBlock b).contexts = s.contexts := rfl

@[simp] theorem State.putBlock_tornCtx (s : State) (b : Block) : (s.putBlock b).tornCtx = s.tornCtx := rfl

@[simp] theorem State.putBlock_tornWin (s : State) (b : Block) : (s.putBlock b).tornWin = s.tornWin := rfl

@[simp] theorem State.putBlock_journals (s : State) (b : Block) : (s.putBlock b).journals = s.journals := rfl

@[simp] theorem State.putBlock_tlb (s : State) (b : Block) : (s.putBlock b).tlb = s.tlb := rfl

@[simp] theorem State.putBlock_replicas (s : State) (b : Block) : (s.putBlock b).replicas = s.replicas := rfl

@[simp] theorem State.putBlock_aheads (s : State) (b : Block) : (s.putBlock b).aheads = s.aheads := rfl

@[simp] theorem State.putBlock_earlies (s : State) (b : Block) : (s.putBlock b).earlies = s.earlies := rfl

@[simp] theorem State.putBlock_laters (s : State) (b : Block) : (s.putBlock b).laters = s.laters := rfl

@[simp] theorem State.putBlock_released (s : State) (b : Block) : (s.putBlock b).released = s.released := rfl

@[simp] theorem State.putBlock_relBy (s : State) (b : Block) : (s.putBlock b).relBy = s.relBy := rfl

@[simp] theorem State.putBlock_syncs (s : State) (b : Block) : (s.putBlock b).syncs = s.syncs := rfl

@[simp] theorem State.putBlock_writes (s : State) (b : Block) : (s.putBlock b).writes = s.writes := rfl

@[simp] theorem State.putBlock_records (s : State) (b : Block) : (s.putBlock b).records = s.records := rfl

@[simp] theorem State.putBlock_answers (s : State) (b : Block) : (s.putBlock b).answers = s.answers := rfl

@[simp] theorem State.putBlock_redinj (s : State) (b : Block) : (s.putBlock b).redinj = s.redinj := rfl

@[simp] theorem State.putBlock_mig (s : State) (b : Block) : (s.putBlock b).mig = s.mig := rfl

@[simp] theorem State.putBlock_away (s : State) (b : Block) : (s.putBlock b).away = s.away := rfl

@[simp] theorem State.putBlock_fabric (s : State) (b : Block) : (s.putBlock b).fabric = s.fabric := rfl

@[simp] theorem State.putBlock_host (s : State) (b : Block) : (s.putBlock b).host = s.host := rfl

@[simp] theorem State.putBlock_firmware (s : State) (b : Block) : (s.putBlock b).firmware = s.firmware := rfl

@[simp] theorem State.putBlock_power (s : State) (b : Block) : (s.putBlock b).power = s.power := rfl

@[simp] theorem State.putBlock_cycle (s : State) (b : Block) : (s.putBlock b).cycle = s.cycle := rfl

@[simp] theorem State.putBlock_nstime (s : State) (b : Block) : (s.putBlock b).nstime = s.nstime := rfl

@[simp] theorem State.putBlock_nextId (s : State) (b : Block) : (s.putBlock b).nextId = s.nextId := rfl

@[simp] theorem State.putBlock_cur (s : State) (b : Block) : (s.putBlock b).cur = s.cur := rfl

@[simp] theorem State.putBlock_tick (s : State) (b : Block) : (s.putBlock b).tick = s.tick := rfl

@[simp] theorem State.putBlock_agenda (s : State) (b : Block) : (s.putBlock b).agenda = s.agenda := rfl

/-! ## State.putLaunch: every field but launches -/

@[simp] theorem State.putLaunch_mem (s : State) (l : Launch) : (s.putLaunch l).mem = s.mem := rfl

@[simp] theorem State.putLaunch_bad (s : State) (l : Launch) : (s.putLaunch l).bad = s.bad := rfl

@[simp] theorem State.putLaunch_blocks (s : State) (l : Launch) : (s.putLaunch l).blocks = s.blocks := rfl

@[simp] theorem State.putLaunch_cores (s : State) (l : Launch) : (s.putLaunch l).cores = s.cores := rfl

@[simp] theorem State.putLaunch_dies (s : State) (l : Launch) : (s.putLaunch l).dies = s.dies := rfl

@[simp] theorem State.putLaunch_copies (s : State) (l : Launch) : (s.putLaunch l).copies = s.copies := rfl

@[simp] theorem State.putLaunch_queues (s : State) (l : Launch) : (s.putLaunch l).queues = s.queues := rfl

@[simp] theorem State.putLaunch_windows (s : State) (l : Launch) : (s.putLaunch l).windows = s.windows := rfl

@[simp] theorem State.putLaunch_visits (s : State) (l : Launch) : (s.putLaunch l).visits = s.visits := rfl

@[simp] theorem State.putLaunch_contexts (s : State) (l : Launch) : (s.putLaunch l).contexts = s.contexts := rfl

@[simp] theorem State.putLaunch_tornCtx (s : State) (l : Launch) : (s.putLaunch l).tornCtx = s.tornCtx := rfl

@[simp] theorem State.putLaunch_tornWin (s : State) (l : Launch) : (s.putLaunch l).tornWin = s.tornWin := rfl

@[simp] theorem State.putLaunch_journals (s : State) (l : Launch) : (s.putLaunch l).journals = s.journals := rfl

@[simp] theorem State.putLaunch_tlb (s : State) (l : Launch) : (s.putLaunch l).tlb = s.tlb := rfl

@[simp] theorem State.putLaunch_replicas (s : State) (l : Launch) : (s.putLaunch l).replicas = s.replicas := rfl

@[simp] theorem State.putLaunch_aheads (s : State) (l : Launch) : (s.putLaunch l).aheads = s.aheads := rfl

@[simp] theorem State.putLaunch_earlies (s : State) (l : Launch) : (s.putLaunch l).earlies = s.earlies := rfl

@[simp] theorem State.putLaunch_laters (s : State) (l : Launch) : (s.putLaunch l).laters = s.laters := rfl

@[simp] theorem State.putLaunch_released (s : State) (l : Launch) : (s.putLaunch l).released = s.released := rfl

@[simp] theorem State.putLaunch_relBy (s : State) (l : Launch) : (s.putLaunch l).relBy = s.relBy := rfl

@[simp] theorem State.putLaunch_syncs (s : State) (l : Launch) : (s.putLaunch l).syncs = s.syncs := rfl

@[simp] theorem State.putLaunch_writes (s : State) (l : Launch) : (s.putLaunch l).writes = s.writes := rfl

@[simp] theorem State.putLaunch_records (s : State) (l : Launch) : (s.putLaunch l).records = s.records := rfl

@[simp] theorem State.putLaunch_answers (s : State) (l : Launch) : (s.putLaunch l).answers = s.answers := rfl

@[simp] theorem State.putLaunch_redinj (s : State) (l : Launch) : (s.putLaunch l).redinj = s.redinj := rfl

@[simp] theorem State.putLaunch_mig (s : State) (l : Launch) : (s.putLaunch l).mig = s.mig := rfl

@[simp] theorem State.putLaunch_away (s : State) (l : Launch) : (s.putLaunch l).away = s.away := rfl

@[simp] theorem State.putLaunch_fabric (s : State) (l : Launch) : (s.putLaunch l).fabric = s.fabric := rfl

@[simp] theorem State.putLaunch_host (s : State) (l : Launch) : (s.putLaunch l).host = s.host := rfl

@[simp] theorem State.putLaunch_firmware (s : State) (l : Launch) : (s.putLaunch l).firmware = s.firmware := rfl

@[simp] theorem State.putLaunch_power (s : State) (l : Launch) : (s.putLaunch l).power = s.power := rfl

@[simp] theorem State.putLaunch_cycle (s : State) (l : Launch) : (s.putLaunch l).cycle = s.cycle := rfl

@[simp] theorem State.putLaunch_nstime (s : State) (l : Launch) : (s.putLaunch l).nstime = s.nstime := rfl

@[simp] theorem State.putLaunch_nextId (s : State) (l : Launch) : (s.putLaunch l).nextId = s.nextId := rfl

@[simp] theorem State.putLaunch_cur (s : State) (l : Launch) : (s.putLaunch l).cur = s.cur := rfl

@[simp] theorem State.putLaunch_tick (s : State) (l : Launch) : (s.putLaunch l).tick = s.tick := rfl

@[simp] theorem State.putLaunch_agenda (s : State) (l : Launch) : (s.putLaunch l).agenda = s.agenda := rfl

/-! ## State.putCore: every field but cores -/

@[simp] theorem State.putCore_mem (s : State) (c : Core) : (s.putCore c).mem = s.mem := rfl

@[simp] theorem State.putCore_bad (s : State) (c : Core) : (s.putCore c).bad = s.bad := rfl

@[simp] theorem State.putCore_blocks (s : State) (c : Core) : (s.putCore c).blocks = s.blocks := rfl

@[simp] theorem State.putCore_dies (s : State) (c : Core) : (s.putCore c).dies = s.dies := rfl

@[simp] theorem State.putCore_copies (s : State) (c : Core) : (s.putCore c).copies = s.copies := rfl

@[simp] theorem State.putCore_launches (s : State) (c : Core) : (s.putCore c).launches = s.launches := rfl

@[simp] theorem State.putCore_queues (s : State) (c : Core) : (s.putCore c).queues = s.queues := rfl

@[simp] theorem State.putCore_windows (s : State) (c : Core) : (s.putCore c).windows = s.windows := rfl

@[simp] theorem State.putCore_visits (s : State) (c : Core) : (s.putCore c).visits = s.visits := rfl

@[simp] theorem State.putCore_contexts (s : State) (c : Core) : (s.putCore c).contexts = s.contexts := rfl

@[simp] theorem State.putCore_tornCtx (s : State) (c : Core) : (s.putCore c).tornCtx = s.tornCtx := rfl

@[simp] theorem State.putCore_tornWin (s : State) (c : Core) : (s.putCore c).tornWin = s.tornWin := rfl

@[simp] theorem State.putCore_journals (s : State) (c : Core) : (s.putCore c).journals = s.journals := rfl

@[simp] theorem State.putCore_tlb (s : State) (c : Core) : (s.putCore c).tlb = s.tlb := rfl

@[simp] theorem State.putCore_replicas (s : State) (c : Core) : (s.putCore c).replicas = s.replicas := rfl

@[simp] theorem State.putCore_aheads (s : State) (c : Core) : (s.putCore c).aheads = s.aheads := rfl

@[simp] theorem State.putCore_earlies (s : State) (c : Core) : (s.putCore c).earlies = s.earlies := rfl

@[simp] theorem State.putCore_laters (s : State) (c : Core) : (s.putCore c).laters = s.laters := rfl

@[simp] theorem State.putCore_released (s : State) (c : Core) : (s.putCore c).released = s.released := rfl

@[simp] theorem State.putCore_relBy (s : State) (c : Core) : (s.putCore c).relBy = s.relBy := rfl

@[simp] theorem State.putCore_syncs (s : State) (c : Core) : (s.putCore c).syncs = s.syncs := rfl

@[simp] theorem State.putCore_writes (s : State) (c : Core) : (s.putCore c).writes = s.writes := rfl

@[simp] theorem State.putCore_records (s : State) (c : Core) : (s.putCore c).records = s.records := rfl

@[simp] theorem State.putCore_answers (s : State) (c : Core) : (s.putCore c).answers = s.answers := rfl

@[simp] theorem State.putCore_redinj (s : State) (c : Core) : (s.putCore c).redinj = s.redinj := rfl

@[simp] theorem State.putCore_mig (s : State) (c : Core) : (s.putCore c).mig = s.mig := rfl

@[simp] theorem State.putCore_away (s : State) (c : Core) : (s.putCore c).away = s.away := rfl

@[simp] theorem State.putCore_fabric (s : State) (c : Core) : (s.putCore c).fabric = s.fabric := rfl

@[simp] theorem State.putCore_host (s : State) (c : Core) : (s.putCore c).host = s.host := rfl

@[simp] theorem State.putCore_firmware (s : State) (c : Core) : (s.putCore c).firmware = s.firmware := rfl

@[simp] theorem State.putCore_power (s : State) (c : Core) : (s.putCore c).power = s.power := rfl

@[simp] theorem State.putCore_cycle (s : State) (c : Core) : (s.putCore c).cycle = s.cycle := rfl

@[simp] theorem State.putCore_nstime (s : State) (c : Core) : (s.putCore c).nstime = s.nstime := rfl

@[simp] theorem State.putCore_nextId (s : State) (c : Core) : (s.putCore c).nextId = s.nextId := rfl

@[simp] theorem State.putCore_cur (s : State) (c : Core) : (s.putCore c).cur = s.cur := rfl

@[simp] theorem State.putCore_tick (s : State) (c : Core) : (s.putCore c).tick = s.tick := rfl

@[simp] theorem State.putCore_agenda (s : State) (c : Core) : (s.putCore c).agenda = s.agenda := rfl

/-! ## State.putDie: every field but dies -/

@[simp] theorem State.putDie_mem (s : State) (d : Die) : (s.putDie d).mem = s.mem := rfl

@[simp] theorem State.putDie_bad (s : State) (d : Die) : (s.putDie d).bad = s.bad := rfl

@[simp] theorem State.putDie_blocks (s : State) (d : Die) : (s.putDie d).blocks = s.blocks := rfl

@[simp] theorem State.putDie_cores (s : State) (d : Die) : (s.putDie d).cores = s.cores := rfl

@[simp] theorem State.putDie_copies (s : State) (d : Die) : (s.putDie d).copies = s.copies := rfl

@[simp] theorem State.putDie_launches (s : State) (d : Die) : (s.putDie d).launches = s.launches := rfl

@[simp] theorem State.putDie_queues (s : State) (d : Die) : (s.putDie d).queues = s.queues := rfl

@[simp] theorem State.putDie_windows (s : State) (d : Die) : (s.putDie d).windows = s.windows := rfl

@[simp] theorem State.putDie_visits (s : State) (d : Die) : (s.putDie d).visits = s.visits := rfl

@[simp] theorem State.putDie_contexts (s : State) (d : Die) : (s.putDie d).contexts = s.contexts := rfl

@[simp] theorem State.putDie_tornCtx (s : State) (d : Die) : (s.putDie d).tornCtx = s.tornCtx := rfl

@[simp] theorem State.putDie_tornWin (s : State) (d : Die) : (s.putDie d).tornWin = s.tornWin := rfl

@[simp] theorem State.putDie_journals (s : State) (d : Die) : (s.putDie d).journals = s.journals := rfl

@[simp] theorem State.putDie_tlb (s : State) (d : Die) : (s.putDie d).tlb = s.tlb := rfl

@[simp] theorem State.putDie_replicas (s : State) (d : Die) : (s.putDie d).replicas = s.replicas := rfl

@[simp] theorem State.putDie_aheads (s : State) (d : Die) : (s.putDie d).aheads = s.aheads := rfl

@[simp] theorem State.putDie_earlies (s : State) (d : Die) : (s.putDie d).earlies = s.earlies := rfl

@[simp] theorem State.putDie_laters (s : State) (d : Die) : (s.putDie d).laters = s.laters := rfl

@[simp] theorem State.putDie_released (s : State) (d : Die) : (s.putDie d).released = s.released := rfl

@[simp] theorem State.putDie_relBy (s : State) (d : Die) : (s.putDie d).relBy = s.relBy := rfl

@[simp] theorem State.putDie_syncs (s : State) (d : Die) : (s.putDie d).syncs = s.syncs := rfl

@[simp] theorem State.putDie_writes (s : State) (d : Die) : (s.putDie d).writes = s.writes := rfl

@[simp] theorem State.putDie_records (s : State) (d : Die) : (s.putDie d).records = s.records := rfl

@[simp] theorem State.putDie_answers (s : State) (d : Die) : (s.putDie d).answers = s.answers := rfl

@[simp] theorem State.putDie_redinj (s : State) (d : Die) : (s.putDie d).redinj = s.redinj := rfl

@[simp] theorem State.putDie_mig (s : State) (d : Die) : (s.putDie d).mig = s.mig := rfl

@[simp] theorem State.putDie_away (s : State) (d : Die) : (s.putDie d).away = s.away := rfl

@[simp] theorem State.putDie_fabric (s : State) (d : Die) : (s.putDie d).fabric = s.fabric := rfl

@[simp] theorem State.putDie_host (s : State) (d : Die) : (s.putDie d).host = s.host := rfl

@[simp] theorem State.putDie_firmware (s : State) (d : Die) : (s.putDie d).firmware = s.firmware := rfl

@[simp] theorem State.putDie_power (s : State) (d : Die) : (s.putDie d).power = s.power := rfl

@[simp] theorem State.putDie_cycle (s : State) (d : Die) : (s.putDie d).cycle = s.cycle := rfl

@[simp] theorem State.putDie_nstime (s : State) (d : Die) : (s.putDie d).nstime = s.nstime := rfl

@[simp] theorem State.putDie_nextId (s : State) (d : Die) : (s.putDie d).nextId = s.nextId := rfl

@[simp] theorem State.putDie_cur (s : State) (d : Die) : (s.putDie d).cur = s.cur := rfl

@[simp] theorem State.putDie_tick (s : State) (d : Die) : (s.putDie d).tick = s.tick := rfl

@[simp] theorem State.putDie_agenda (s : State) (d : Die) : (s.putDie d).agenda = s.agenda := rfl

/-! ## State.putQueue: every field but queues -/

@[simp] theorem State.putQueue_mem (s : State) (q : Queue) : (s.putQueue q).mem = s.mem := rfl

@[simp] theorem State.putQueue_bad (s : State) (q : Queue) : (s.putQueue q).bad = s.bad := rfl

@[simp] theorem State.putQueue_blocks (s : State) (q : Queue) : (s.putQueue q).blocks = s.blocks := rfl

@[simp] theorem State.putQueue_cores (s : State) (q : Queue) : (s.putQueue q).cores = s.cores := rfl

@[simp] theorem State.putQueue_dies (s : State) (q : Queue) : (s.putQueue q).dies = s.dies := rfl

@[simp] theorem State.putQueue_copies (s : State) (q : Queue) : (s.putQueue q).copies = s.copies := rfl

@[simp] theorem State.putQueue_launches (s : State) (q : Queue) : (s.putQueue q).launches = s.launches := rfl

@[simp] theorem State.putQueue_windows (s : State) (q : Queue) : (s.putQueue q).windows = s.windows := rfl

@[simp] theorem State.putQueue_visits (s : State) (q : Queue) : (s.putQueue q).visits = s.visits := rfl

@[simp] theorem State.putQueue_contexts (s : State) (q : Queue) : (s.putQueue q).contexts = s.contexts := rfl

@[simp] theorem State.putQueue_tornCtx (s : State) (q : Queue) : (s.putQueue q).tornCtx = s.tornCtx := rfl

@[simp] theorem State.putQueue_tornWin (s : State) (q : Queue) : (s.putQueue q).tornWin = s.tornWin := rfl

@[simp] theorem State.putQueue_journals (s : State) (q : Queue) : (s.putQueue q).journals = s.journals := rfl

@[simp] theorem State.putQueue_tlb (s : State) (q : Queue) : (s.putQueue q).tlb = s.tlb := rfl

@[simp] theorem State.putQueue_replicas (s : State) (q : Queue) : (s.putQueue q).replicas = s.replicas := rfl

@[simp] theorem State.putQueue_aheads (s : State) (q : Queue) : (s.putQueue q).aheads = s.aheads := rfl

@[simp] theorem State.putQueue_earlies (s : State) (q : Queue) : (s.putQueue q).earlies = s.earlies := rfl

@[simp] theorem State.putQueue_laters (s : State) (q : Queue) : (s.putQueue q).laters = s.laters := rfl

@[simp] theorem State.putQueue_released (s : State) (q : Queue) : (s.putQueue q).released = s.released := rfl

@[simp] theorem State.putQueue_relBy (s : State) (q : Queue) : (s.putQueue q).relBy = s.relBy := rfl

@[simp] theorem State.putQueue_syncs (s : State) (q : Queue) : (s.putQueue q).syncs = s.syncs := rfl

@[simp] theorem State.putQueue_writes (s : State) (q : Queue) : (s.putQueue q).writes = s.writes := rfl

@[simp] theorem State.putQueue_records (s : State) (q : Queue) : (s.putQueue q).records = s.records := rfl

@[simp] theorem State.putQueue_answers (s : State) (q : Queue) : (s.putQueue q).answers = s.answers := rfl

@[simp] theorem State.putQueue_redinj (s : State) (q : Queue) : (s.putQueue q).redinj = s.redinj := rfl

@[simp] theorem State.putQueue_mig (s : State) (q : Queue) : (s.putQueue q).mig = s.mig := rfl

@[simp] theorem State.putQueue_away (s : State) (q : Queue) : (s.putQueue q).away = s.away := rfl

@[simp] theorem State.putQueue_fabric (s : State) (q : Queue) : (s.putQueue q).fabric = s.fabric := rfl

@[simp] theorem State.putQueue_host (s : State) (q : Queue) : (s.putQueue q).host = s.host := rfl

@[simp] theorem State.putQueue_firmware (s : State) (q : Queue) : (s.putQueue q).firmware = s.firmware := rfl

@[simp] theorem State.putQueue_power (s : State) (q : Queue) : (s.putQueue q).power = s.power := rfl

@[simp] theorem State.putQueue_cycle (s : State) (q : Queue) : (s.putQueue q).cycle = s.cycle := rfl

@[simp] theorem State.putQueue_nstime (s : State) (q : Queue) : (s.putQueue q).nstime = s.nstime := rfl

@[simp] theorem State.putQueue_nextId (s : State) (q : Queue) : (s.putQueue q).nextId = s.nextId := rfl

@[simp] theorem State.putQueue_cur (s : State) (q : Queue) : (s.putQueue q).cur = s.cur := rfl

@[simp] theorem State.putQueue_tick (s : State) (q : Queue) : (s.putQueue q).tick = s.tick := rfl

@[simp] theorem State.putQueue_agenda (s : State) (q : Queue) : (s.putQueue q).agenda = s.agenda := rfl

/-! ## State.putWindow: every field but windows -/

@[simp] theorem State.putWindow_mem (s : State) (w : SpawnWindow) : (s.putWindow w).mem = s.mem := rfl

@[simp] theorem State.putWindow_bad (s : State) (w : SpawnWindow) : (s.putWindow w).bad = s.bad := rfl

@[simp] theorem State.putWindow_blocks (s : State) (w : SpawnWindow) : (s.putWindow w).blocks = s.blocks := rfl

@[simp] theorem State.putWindow_cores (s : State) (w : SpawnWindow) : (s.putWindow w).cores = s.cores := rfl

@[simp] theorem State.putWindow_dies (s : State) (w : SpawnWindow) : (s.putWindow w).dies = s.dies := rfl

@[simp] theorem State.putWindow_copies (s : State) (w : SpawnWindow) : (s.putWindow w).copies = s.copies := rfl

@[simp] theorem State.putWindow_launches (s : State) (w : SpawnWindow) : (s.putWindow w).launches = s.launches := rfl

@[simp] theorem State.putWindow_queues (s : State) (w : SpawnWindow) : (s.putWindow w).queues = s.queues := rfl

@[simp] theorem State.putWindow_visits (s : State) (w : SpawnWindow) : (s.putWindow w).visits = s.visits := rfl

@[simp] theorem State.putWindow_contexts (s : State) (w : SpawnWindow) : (s.putWindow w).contexts = s.contexts := rfl

@[simp] theorem State.putWindow_tornCtx (s : State) (w : SpawnWindow) : (s.putWindow w).tornCtx = s.tornCtx := rfl

@[simp] theorem State.putWindow_tornWin (s : State) (w : SpawnWindow) : (s.putWindow w).tornWin = s.tornWin := rfl

@[simp] theorem State.putWindow_journals (s : State) (w : SpawnWindow) : (s.putWindow w).journals = s.journals := rfl

@[simp] theorem State.putWindow_tlb (s : State) (w : SpawnWindow) : (s.putWindow w).tlb = s.tlb := rfl

@[simp] theorem State.putWindow_replicas (s : State) (w : SpawnWindow) : (s.putWindow w).replicas = s.replicas := rfl

@[simp] theorem State.putWindow_aheads (s : State) (w : SpawnWindow) : (s.putWindow w).aheads = s.aheads := rfl

@[simp] theorem State.putWindow_earlies (s : State) (w : SpawnWindow) : (s.putWindow w).earlies = s.earlies := rfl

@[simp] theorem State.putWindow_laters (s : State) (w : SpawnWindow) : (s.putWindow w).laters = s.laters := rfl

@[simp] theorem State.putWindow_released (s : State) (w : SpawnWindow) : (s.putWindow w).released = s.released := rfl

@[simp] theorem State.putWindow_relBy (s : State) (w : SpawnWindow) : (s.putWindow w).relBy = s.relBy := rfl

@[simp] theorem State.putWindow_syncs (s : State) (w : SpawnWindow) : (s.putWindow w).syncs = s.syncs := rfl

@[simp] theorem State.putWindow_writes (s : State) (w : SpawnWindow) : (s.putWindow w).writes = s.writes := rfl

@[simp] theorem State.putWindow_records (s : State) (w : SpawnWindow) : (s.putWindow w).records = s.records := rfl

@[simp] theorem State.putWindow_answers (s : State) (w : SpawnWindow) : (s.putWindow w).answers = s.answers := rfl

@[simp] theorem State.putWindow_redinj (s : State) (w : SpawnWindow) : (s.putWindow w).redinj = s.redinj := rfl

@[simp] theorem State.putWindow_mig (s : State) (w : SpawnWindow) : (s.putWindow w).mig = s.mig := rfl

@[simp] theorem State.putWindow_away (s : State) (w : SpawnWindow) : (s.putWindow w).away = s.away := rfl

@[simp] theorem State.putWindow_fabric (s : State) (w : SpawnWindow) : (s.putWindow w).fabric = s.fabric := rfl

@[simp] theorem State.putWindow_host (s : State) (w : SpawnWindow) : (s.putWindow w).host = s.host := rfl

@[simp] theorem State.putWindow_firmware (s : State) (w : SpawnWindow) : (s.putWindow w).firmware = s.firmware := rfl

@[simp] theorem State.putWindow_power (s : State) (w : SpawnWindow) : (s.putWindow w).power = s.power := rfl

@[simp] theorem State.putWindow_cycle (s : State) (w : SpawnWindow) : (s.putWindow w).cycle = s.cycle := rfl

@[simp] theorem State.putWindow_nstime (s : State) (w : SpawnWindow) : (s.putWindow w).nstime = s.nstime := rfl

@[simp] theorem State.putWindow_nextId (s : State) (w : SpawnWindow) : (s.putWindow w).nextId = s.nextId := rfl

@[simp] theorem State.putWindow_cur (s : State) (w : SpawnWindow) : (s.putWindow w).cur = s.cur := rfl

@[simp] theorem State.putWindow_tick (s : State) (w : SpawnWindow) : (s.putWindow w).tick = s.tick := rfl

@[simp] theorem State.putWindow_agenda (s : State) (w : SpawnWindow) : (s.putWindow w).agenda = s.agenda := rfl

/-! ## State.putJournal: every field but journals -/

@[simp] theorem State.putJournal_mem (s : State) (j : Journal) : (s.putJournal j).mem = s.mem := rfl

@[simp] theorem State.putJournal_bad (s : State) (j : Journal) : (s.putJournal j).bad = s.bad := rfl

@[simp] theorem State.putJournal_blocks (s : State) (j : Journal) : (s.putJournal j).blocks = s.blocks := rfl

@[simp] theorem State.putJournal_cores (s : State) (j : Journal) : (s.putJournal j).cores = s.cores := rfl

@[simp] theorem State.putJournal_dies (s : State) (j : Journal) : (s.putJournal j).dies = s.dies := rfl

@[simp] theorem State.putJournal_copies (s : State) (j : Journal) : (s.putJournal j).copies = s.copies := rfl

@[simp] theorem State.putJournal_launches (s : State) (j : Journal) : (s.putJournal j).launches = s.launches := rfl

@[simp] theorem State.putJournal_queues (s : State) (j : Journal) : (s.putJournal j).queues = s.queues := rfl

@[simp] theorem State.putJournal_windows (s : State) (j : Journal) : (s.putJournal j).windows = s.windows := rfl

@[simp] theorem State.putJournal_visits (s : State) (j : Journal) : (s.putJournal j).visits = s.visits := rfl

@[simp] theorem State.putJournal_contexts (s : State) (j : Journal) : (s.putJournal j).contexts = s.contexts := rfl

@[simp] theorem State.putJournal_tornCtx (s : State) (j : Journal) : (s.putJournal j).tornCtx = s.tornCtx := rfl

@[simp] theorem State.putJournal_tornWin (s : State) (j : Journal) : (s.putJournal j).tornWin = s.tornWin := rfl

@[simp] theorem State.putJournal_tlb (s : State) (j : Journal) : (s.putJournal j).tlb = s.tlb := rfl

@[simp] theorem State.putJournal_replicas (s : State) (j : Journal) : (s.putJournal j).replicas = s.replicas := rfl

@[simp] theorem State.putJournal_aheads (s : State) (j : Journal) : (s.putJournal j).aheads = s.aheads := rfl

@[simp] theorem State.putJournal_earlies (s : State) (j : Journal) : (s.putJournal j).earlies = s.earlies := rfl

@[simp] theorem State.putJournal_laters (s : State) (j : Journal) : (s.putJournal j).laters = s.laters := rfl

@[simp] theorem State.putJournal_released (s : State) (j : Journal) : (s.putJournal j).released = s.released := rfl

@[simp] theorem State.putJournal_relBy (s : State) (j : Journal) : (s.putJournal j).relBy = s.relBy := rfl

@[simp] theorem State.putJournal_syncs (s : State) (j : Journal) : (s.putJournal j).syncs = s.syncs := rfl

@[simp] theorem State.putJournal_writes (s : State) (j : Journal) : (s.putJournal j).writes = s.writes := rfl

@[simp] theorem State.putJournal_records (s : State) (j : Journal) : (s.putJournal j).records = s.records := rfl

@[simp] theorem State.putJournal_answers (s : State) (j : Journal) : (s.putJournal j).answers = s.answers := rfl

@[simp] theorem State.putJournal_redinj (s : State) (j : Journal) : (s.putJournal j).redinj = s.redinj := rfl

@[simp] theorem State.putJournal_mig (s : State) (j : Journal) : (s.putJournal j).mig = s.mig := rfl

@[simp] theorem State.putJournal_away (s : State) (j : Journal) : (s.putJournal j).away = s.away := rfl

@[simp] theorem State.putJournal_fabric (s : State) (j : Journal) : (s.putJournal j).fabric = s.fabric := rfl

@[simp] theorem State.putJournal_host (s : State) (j : Journal) : (s.putJournal j).host = s.host := rfl

@[simp] theorem State.putJournal_firmware (s : State) (j : Journal) : (s.putJournal j).firmware = s.firmware := rfl

@[simp] theorem State.putJournal_power (s : State) (j : Journal) : (s.putJournal j).power = s.power := rfl

@[simp] theorem State.putJournal_cycle (s : State) (j : Journal) : (s.putJournal j).cycle = s.cycle := rfl

@[simp] theorem State.putJournal_nstime (s : State) (j : Journal) : (s.putJournal j).nstime = s.nstime := rfl

@[simp] theorem State.putJournal_nextId (s : State) (j : Journal) : (s.putJournal j).nextId = s.nextId := rfl

@[simp] theorem State.putJournal_cur (s : State) (j : Journal) : (s.putJournal j).cur = s.cur := rfl

@[simp] theorem State.putJournal_tick (s : State) (j : Journal) : (s.putJournal j).tick = s.tick := rfl

@[simp] theorem State.putJournal_agenda (s : State) (j : Journal) : (s.putJournal j).agenda = s.agenda := rfl

/-! ## State.post: every field but fabric -/

@[simp] theorem State.post_mem (s : State) (p : Packet) : (s.post p).mem = s.mem := rfl

@[simp] theorem State.post_bad (s : State) (p : Packet) : (s.post p).bad = s.bad := rfl

@[simp] theorem State.post_blocks (s : State) (p : Packet) : (s.post p).blocks = s.blocks := rfl

@[simp] theorem State.post_cores (s : State) (p : Packet) : (s.post p).cores = s.cores := rfl

@[simp] theorem State.post_dies (s : State) (p : Packet) : (s.post p).dies = s.dies := rfl

@[simp] theorem State.post_copies (s : State) (p : Packet) : (s.post p).copies = s.copies := rfl

@[simp] theorem State.post_launches (s : State) (p : Packet) : (s.post p).launches = s.launches := rfl

@[simp] theorem State.post_queues (s : State) (p : Packet) : (s.post p).queues = s.queues := rfl

@[simp] theorem State.post_windows (s : State) (p : Packet) : (s.post p).windows = s.windows := rfl

@[simp] theorem State.post_visits (s : State) (p : Packet) : (s.post p).visits = s.visits := rfl

@[simp] theorem State.post_contexts (s : State) (p : Packet) : (s.post p).contexts = s.contexts := rfl

@[simp] theorem State.post_tornCtx (s : State) (p : Packet) : (s.post p).tornCtx = s.tornCtx := rfl

@[simp] theorem State.post_tornWin (s : State) (p : Packet) : (s.post p).tornWin = s.tornWin := rfl

@[simp] theorem State.post_journals (s : State) (p : Packet) : (s.post p).journals = s.journals := rfl

@[simp] theorem State.post_tlb (s : State) (p : Packet) : (s.post p).tlb = s.tlb := rfl

@[simp] theorem State.post_replicas (s : State) (p : Packet) : (s.post p).replicas = s.replicas := rfl

@[simp] theorem State.post_aheads (s : State) (p : Packet) : (s.post p).aheads = s.aheads := rfl

@[simp] theorem State.post_earlies (s : State) (p : Packet) : (s.post p).earlies = s.earlies := rfl

@[simp] theorem State.post_laters (s : State) (p : Packet) : (s.post p).laters = s.laters := rfl

@[simp] theorem State.post_released (s : State) (p : Packet) : (s.post p).released = s.released := rfl

@[simp] theorem State.post_relBy (s : State) (p : Packet) : (s.post p).relBy = s.relBy := rfl

@[simp] theorem State.post_syncs (s : State) (p : Packet) : (s.post p).syncs = s.syncs := rfl

@[simp] theorem State.post_writes (s : State) (p : Packet) : (s.post p).writes = s.writes := rfl

@[simp] theorem State.post_records (s : State) (p : Packet) : (s.post p).records = s.records := rfl

@[simp] theorem State.post_answers (s : State) (p : Packet) : (s.post p).answers = s.answers := rfl

@[simp] theorem State.post_redinj (s : State) (p : Packet) : (s.post p).redinj = s.redinj := rfl

@[simp] theorem State.post_mig (s : State) (p : Packet) : (s.post p).mig = s.mig := rfl

@[simp] theorem State.post_away (s : State) (p : Packet) : (s.post p).away = s.away := rfl

@[simp] theorem State.post_host (s : State) (p : Packet) : (s.post p).host = s.host := rfl

@[simp] theorem State.post_firmware (s : State) (p : Packet) : (s.post p).firmware = s.firmware := rfl

@[simp] theorem State.post_power (s : State) (p : Packet) : (s.post p).power = s.power := rfl

@[simp] theorem State.post_cycle (s : State) (p : Packet) : (s.post p).cycle = s.cycle := rfl

@[simp] theorem State.post_nstime (s : State) (p : Packet) : (s.post p).nstime = s.nstime := rfl

@[simp] theorem State.post_nextId (s : State) (p : Packet) : (s.post p).nextId = s.nextId := rfl

@[simp] theorem State.post_cur (s : State) (p : Packet) : (s.post p).cur = s.cur := rfl

@[simp] theorem State.post_tick (s : State) (p : Packet) : (s.post p).tick = s.tick := rfl

@[simp] theorem State.post_agenda (s : State) (p : Packet) : (s.post p).agenda = s.agenda := rfl

/-! ## State.send: every field but records -/

@[simp] theorem State.send_mem (s : State) (v : Option (BitVec 13)) (k : Nat) (r : TrapRecord) : (s.send v k r).mem = s.mem := rfl

@[simp] theorem State.send_bad (s : State) (v : Option (BitVec 13)) (k : Nat) (r : TrapRecord) : (s.send v k r).bad = s.bad := rfl

@[simp] theorem State.send_blocks (s : State) (v : Option (BitVec 13)) (k : Nat) (r : TrapRecord) : (s.send v k r).blocks = s.blocks := rfl

@[simp] theorem State.send_cores (s : State) (v : Option (BitVec 13)) (k : Nat) (r : TrapRecord) : (s.send v k r).cores = s.cores := rfl

@[simp] theorem State.send_dies (s : State) (v : Option (BitVec 13)) (k : Nat) (r : TrapRecord) : (s.send v k r).dies = s.dies := rfl

@[simp] theorem State.send_copies (s : State) (v : Option (BitVec 13)) (k : Nat) (r : TrapRecord) : (s.send v k r).copies = s.copies := rfl

@[simp] theorem State.send_launches (s : State) (v : Option (BitVec 13)) (k : Nat) (r : TrapRecord) : (s.send v k r).launches = s.launches := rfl

@[simp] theorem State.send_queues (s : State) (v : Option (BitVec 13)) (k : Nat) (r : TrapRecord) : (s.send v k r).queues = s.queues := rfl

@[simp] theorem State.send_windows (s : State) (v : Option (BitVec 13)) (k : Nat) (r : TrapRecord) : (s.send v k r).windows = s.windows := rfl

@[simp] theorem State.send_visits (s : State) (v : Option (BitVec 13)) (k : Nat) (r : TrapRecord) : (s.send v k r).visits = s.visits := rfl

@[simp] theorem State.send_contexts (s : State) (v : Option (BitVec 13)) (k : Nat) (r : TrapRecord) : (s.send v k r).contexts = s.contexts := rfl

@[simp] theorem State.send_tornCtx (s : State) (v : Option (BitVec 13)) (k : Nat) (r : TrapRecord) : (s.send v k r).tornCtx = s.tornCtx := rfl

@[simp] theorem State.send_tornWin (s : State) (v : Option (BitVec 13)) (k : Nat) (r : TrapRecord) : (s.send v k r).tornWin = s.tornWin := rfl

@[simp] theorem State.send_journals (s : State) (v : Option (BitVec 13)) (k : Nat) (r : TrapRecord) : (s.send v k r).journals = s.journals := rfl

@[simp] theorem State.send_tlb (s : State) (v : Option (BitVec 13)) (k : Nat) (r : TrapRecord) : (s.send v k r).tlb = s.tlb := rfl

@[simp] theorem State.send_replicas (s : State) (v : Option (BitVec 13)) (k : Nat) (r : TrapRecord) : (s.send v k r).replicas = s.replicas := rfl

@[simp] theorem State.send_aheads (s : State) (v : Option (BitVec 13)) (k : Nat) (r : TrapRecord) : (s.send v k r).aheads = s.aheads := rfl

@[simp] theorem State.send_earlies (s : State) (v : Option (BitVec 13)) (k : Nat) (r : TrapRecord) : (s.send v k r).earlies = s.earlies := rfl

@[simp] theorem State.send_laters (s : State) (v : Option (BitVec 13)) (k : Nat) (r : TrapRecord) : (s.send v k r).laters = s.laters := rfl

@[simp] theorem State.send_released (s : State) (v : Option (BitVec 13)) (k : Nat) (r : TrapRecord) : (s.send v k r).released = s.released := rfl

@[simp] theorem State.send_relBy (s : State) (v : Option (BitVec 13)) (k : Nat) (r : TrapRecord) : (s.send v k r).relBy = s.relBy := rfl

@[simp] theorem State.send_syncs (s : State) (v : Option (BitVec 13)) (k : Nat) (r : TrapRecord) : (s.send v k r).syncs = s.syncs := rfl

@[simp] theorem State.send_writes (s : State) (v : Option (BitVec 13)) (k : Nat) (r : TrapRecord) : (s.send v k r).writes = s.writes := rfl

@[simp] theorem State.send_answers (s : State) (v : Option (BitVec 13)) (k : Nat) (r : TrapRecord) : (s.send v k r).answers = s.answers := rfl

@[simp] theorem State.send_redinj (s : State) (v : Option (BitVec 13)) (k : Nat) (r : TrapRecord) : (s.send v k r).redinj = s.redinj := rfl

@[simp] theorem State.send_mig (s : State) (v : Option (BitVec 13)) (k : Nat) (r : TrapRecord) : (s.send v k r).mig = s.mig := rfl

@[simp] theorem State.send_away (s : State) (v : Option (BitVec 13)) (k : Nat) (r : TrapRecord) : (s.send v k r).away = s.away := rfl

@[simp] theorem State.send_fabric (s : State) (v : Option (BitVec 13)) (k : Nat) (r : TrapRecord) : (s.send v k r).fabric = s.fabric := rfl

@[simp] theorem State.send_host (s : State) (v : Option (BitVec 13)) (k : Nat) (r : TrapRecord) : (s.send v k r).host = s.host := rfl

@[simp] theorem State.send_firmware (s : State) (v : Option (BitVec 13)) (k : Nat) (r : TrapRecord) : (s.send v k r).firmware = s.firmware := rfl

@[simp] theorem State.send_power (s : State) (v : Option (BitVec 13)) (k : Nat) (r : TrapRecord) : (s.send v k r).power = s.power := rfl

@[simp] theorem State.send_cycle (s : State) (v : Option (BitVec 13)) (k : Nat) (r : TrapRecord) : (s.send v k r).cycle = s.cycle := rfl

@[simp] theorem State.send_nstime (s : State) (v : Option (BitVec 13)) (k : Nat) (r : TrapRecord) : (s.send v k r).nstime = s.nstime := rfl

@[simp] theorem State.send_nextId (s : State) (v : Option (BitVec 13)) (k : Nat) (r : TrapRecord) : (s.send v k r).nextId = s.nextId := rfl

@[simp] theorem State.send_cur (s : State) (v : Option (BitVec 13)) (k : Nat) (r : TrapRecord) : (s.send v k r).cur = s.cur := rfl

@[simp] theorem State.send_tick (s : State) (v : Option (BitVec 13)) (k : Nat) (r : TrapRecord) : (s.send v k r).tick = s.tick := rfl

@[simp] theorem State.send_agenda (s : State) (v : Option (BitVec 13)) (k : Nat) (r : TrapRecord) : (s.send v k r).agenda = s.agenda := rfl

/-! ## State.putHome: every field but mem, bad, launches, released -/

@[simp] theorem State.putHome_blocks (s : State) (pa : Nat) (v : Byte) : (s.putHome pa v).blocks = s.blocks := rfl

@[simp] theorem State.putHome_cores (s : State) (pa : Nat) (v : Byte) : (s.putHome pa v).cores = s.cores := rfl

@[simp] theorem State.putHome_dies (s : State) (pa : Nat) (v : Byte) : (s.putHome pa v).dies = s.dies := rfl

@[simp] theorem State.putHome_copies (s : State) (pa : Nat) (v : Byte) : (s.putHome pa v).copies = s.copies := rfl

@[simp] theorem State.putHome_queues (s : State) (pa : Nat) (v : Byte) : (s.putHome pa v).queues = s.queues := rfl

@[simp] theorem State.putHome_windows (s : State) (pa : Nat) (v : Byte) : (s.putHome pa v).windows = s.windows := rfl

@[simp] theorem State.putHome_visits (s : State) (pa : Nat) (v : Byte) : (s.putHome pa v).visits = s.visits := rfl

@[simp] theorem State.putHome_contexts (s : State) (pa : Nat) (v : Byte) : (s.putHome pa v).contexts = s.contexts := rfl

@[simp] theorem State.putHome_tornCtx (s : State) (pa : Nat) (v : Byte) : (s.putHome pa v).tornCtx = s.tornCtx := rfl

@[simp] theorem State.putHome_tornWin (s : State) (pa : Nat) (v : Byte) : (s.putHome pa v).tornWin = s.tornWin := rfl

@[simp] theorem State.putHome_journals (s : State) (pa : Nat) (v : Byte) : (s.putHome pa v).journals = s.journals := rfl

@[simp] theorem State.putHome_tlb (s : State) (pa : Nat) (v : Byte) : (s.putHome pa v).tlb = s.tlb := rfl

@[simp] theorem State.putHome_replicas (s : State) (pa : Nat) (v : Byte) : (s.putHome pa v).replicas = s.replicas := rfl

@[simp] theorem State.putHome_aheads (s : State) (pa : Nat) (v : Byte) : (s.putHome pa v).aheads = s.aheads := rfl

@[simp] theorem State.putHome_earlies (s : State) (pa : Nat) (v : Byte) : (s.putHome pa v).earlies = s.earlies := rfl

@[simp] theorem State.putHome_laters (s : State) (pa : Nat) (v : Byte) : (s.putHome pa v).laters = s.laters := rfl

@[simp] theorem State.putHome_relBy (s : State) (pa : Nat) (v : Byte) : (s.putHome pa v).relBy = s.relBy := rfl

@[simp] theorem State.putHome_syncs (s : State) (pa : Nat) (v : Byte) : (s.putHome pa v).syncs = s.syncs := rfl

@[simp] theorem State.putHome_writes (s : State) (pa : Nat) (v : Byte) : (s.putHome pa v).writes = s.writes := rfl

@[simp] theorem State.putHome_records (s : State) (pa : Nat) (v : Byte) : (s.putHome pa v).records = s.records := rfl

@[simp] theorem State.putHome_answers (s : State) (pa : Nat) (v : Byte) : (s.putHome pa v).answers = s.answers := rfl

@[simp] theorem State.putHome_redinj (s : State) (pa : Nat) (v : Byte) : (s.putHome pa v).redinj = s.redinj := rfl

@[simp] theorem State.putHome_mig (s : State) (pa : Nat) (v : Byte) : (s.putHome pa v).mig = s.mig := rfl

@[simp] theorem State.putHome_away (s : State) (pa : Nat) (v : Byte) : (s.putHome pa v).away = s.away := rfl

@[simp] theorem State.putHome_fabric (s : State) (pa : Nat) (v : Byte) : (s.putHome pa v).fabric = s.fabric := rfl

@[simp] theorem State.putHome_host (s : State) (pa : Nat) (v : Byte) : (s.putHome pa v).host = s.host := rfl

@[simp] theorem State.putHome_firmware (s : State) (pa : Nat) (v : Byte) : (s.putHome pa v).firmware = s.firmware := rfl

@[simp] theorem State.putHome_power (s : State) (pa : Nat) (v : Byte) : (s.putHome pa v).power = s.power := rfl

@[simp] theorem State.putHome_cycle (s : State) (pa : Nat) (v : Byte) : (s.putHome pa v).cycle = s.cycle := rfl

@[simp] theorem State.putHome_nstime (s : State) (pa : Nat) (v : Byte) : (s.putHome pa v).nstime = s.nstime := rfl

@[simp] theorem State.putHome_nextId (s : State) (pa : Nat) (v : Byte) : (s.putHome pa v).nextId = s.nextId := rfl

@[simp] theorem State.putHome_cur (s : State) (pa : Nat) (v : Byte) : (s.putHome pa v).cur = s.cur := rfl

@[simp] theorem State.putHome_tick (s : State) (pa : Nat) (v : Byte) : (s.putHome pa v).tick = s.tick := rfl

@[simp] theorem State.putHome_agenda (s : State) (pa : Nat) (v : Byte) : (s.putHome pa v).agenda = s.agenda := rfl

/-! ## State.putAt: every field but blocks -/

@[simp] theorem State.putAt_mem (s : State) (r : GRef) (g : Group) : (s.putAt r g).mem = s.mem := by unfold State.putAt; split <;> rfl

@[simp] theorem State.putAt_bad (s : State) (r : GRef) (g : Group) : (s.putAt r g).bad = s.bad := by unfold State.putAt; split <;> rfl

@[simp] theorem State.putAt_cores (s : State) (r : GRef) (g : Group) : (s.putAt r g).cores = s.cores := by unfold State.putAt; split <;> rfl

@[simp] theorem State.putAt_dies (s : State) (r : GRef) (g : Group) : (s.putAt r g).dies = s.dies := by unfold State.putAt; split <;> rfl

@[simp] theorem State.putAt_copies (s : State) (r : GRef) (g : Group) : (s.putAt r g).copies = s.copies := by unfold State.putAt; split <;> rfl

@[simp] theorem State.putAt_launches (s : State) (r : GRef) (g : Group) : (s.putAt r g).launches = s.launches := by unfold State.putAt; split <;> rfl

@[simp] theorem State.putAt_queues (s : State) (r : GRef) (g : Group) : (s.putAt r g).queues = s.queues := by unfold State.putAt; split <;> rfl

@[simp] theorem State.putAt_windows (s : State) (r : GRef) (g : Group) : (s.putAt r g).windows = s.windows := by unfold State.putAt; split <;> rfl

@[simp] theorem State.putAt_visits (s : State) (r : GRef) (g : Group) : (s.putAt r g).visits = s.visits := by unfold State.putAt; split <;> rfl

@[simp] theorem State.putAt_contexts (s : State) (r : GRef) (g : Group) : (s.putAt r g).contexts = s.contexts := by unfold State.putAt; split <;> rfl

@[simp] theorem State.putAt_tornCtx (s : State) (r : GRef) (g : Group) : (s.putAt r g).tornCtx = s.tornCtx := by unfold State.putAt; split <;> rfl

@[simp] theorem State.putAt_tornWin (s : State) (r : GRef) (g : Group) : (s.putAt r g).tornWin = s.tornWin := by unfold State.putAt; split <;> rfl

@[simp] theorem State.putAt_journals (s : State) (r : GRef) (g : Group) : (s.putAt r g).journals = s.journals := by unfold State.putAt; split <;> rfl

@[simp] theorem State.putAt_tlb (s : State) (r : GRef) (g : Group) : (s.putAt r g).tlb = s.tlb := by unfold State.putAt; split <;> rfl

@[simp] theorem State.putAt_replicas (s : State) (r : GRef) (g : Group) : (s.putAt r g).replicas = s.replicas := by unfold State.putAt; split <;> rfl

@[simp] theorem State.putAt_aheads (s : State) (r : GRef) (g : Group) : (s.putAt r g).aheads = s.aheads := by unfold State.putAt; split <;> rfl

@[simp] theorem State.putAt_earlies (s : State) (r : GRef) (g : Group) : (s.putAt r g).earlies = s.earlies := by unfold State.putAt; split <;> rfl

@[simp] theorem State.putAt_laters (s : State) (r : GRef) (g : Group) : (s.putAt r g).laters = s.laters := by unfold State.putAt; split <;> rfl

@[simp] theorem State.putAt_released (s : State) (r : GRef) (g : Group) : (s.putAt r g).released = s.released := by unfold State.putAt; split <;> rfl

@[simp] theorem State.putAt_relBy (s : State) (r : GRef) (g : Group) : (s.putAt r g).relBy = s.relBy := by unfold State.putAt; split <;> rfl

@[simp] theorem State.putAt_syncs (s : State) (r : GRef) (g : Group) : (s.putAt r g).syncs = s.syncs := by unfold State.putAt; split <;> rfl

@[simp] theorem State.putAt_writes (s : State) (r : GRef) (g : Group) : (s.putAt r g).writes = s.writes := by unfold State.putAt; split <;> rfl

@[simp] theorem State.putAt_records (s : State) (r : GRef) (g : Group) : (s.putAt r g).records = s.records := by unfold State.putAt; split <;> rfl

@[simp] theorem State.putAt_answers (s : State) (r : GRef) (g : Group) : (s.putAt r g).answers = s.answers := by unfold State.putAt; split <;> rfl

@[simp] theorem State.putAt_redinj (s : State) (r : GRef) (g : Group) : (s.putAt r g).redinj = s.redinj := by unfold State.putAt; split <;> rfl

@[simp] theorem State.putAt_mig (s : State) (r : GRef) (g : Group) : (s.putAt r g).mig = s.mig := by unfold State.putAt; split <;> rfl

@[simp] theorem State.putAt_away (s : State) (r : GRef) (g : Group) : (s.putAt r g).away = s.away := by unfold State.putAt; split <;> rfl

@[simp] theorem State.putAt_fabric (s : State) (r : GRef) (g : Group) : (s.putAt r g).fabric = s.fabric := by unfold State.putAt; split <;> rfl

@[simp] theorem State.putAt_host (s : State) (r : GRef) (g : Group) : (s.putAt r g).host = s.host := by unfold State.putAt; split <;> rfl

@[simp] theorem State.putAt_firmware (s : State) (r : GRef) (g : Group) : (s.putAt r g).firmware = s.firmware := by unfold State.putAt; split <;> rfl

@[simp] theorem State.putAt_power (s : State) (r : GRef) (g : Group) : (s.putAt r g).power = s.power := by unfold State.putAt; split <;> rfl

@[simp] theorem State.putAt_cycle (s : State) (r : GRef) (g : Group) : (s.putAt r g).cycle = s.cycle := by unfold State.putAt; split <;> rfl

@[simp] theorem State.putAt_nstime (s : State) (r : GRef) (g : Group) : (s.putAt r g).nstime = s.nstime := by unfold State.putAt; split <;> rfl

@[simp] theorem State.putAt_nextId (s : State) (r : GRef) (g : Group) : (s.putAt r g).nextId = s.nextId := by unfold State.putAt; split <;> rfl

@[simp] theorem State.putAt_cur (s : State) (r : GRef) (g : Group) : (s.putAt r g).cur = s.cur := by unfold State.putAt; split <;> rfl

@[simp] theorem State.putAt_tick (s : State) (r : GRef) (g : Group) : (s.putAt r g).tick = s.tick := by unfold State.putAt; split <;> rfl

@[simp] theorem State.putAt_agenda (s : State) (r : GRef) (g : Group) : (s.putAt r g).agenda = s.agenda := by unfold State.putAt; split <;> rfl

/-! ## State.putGroup: every field but blocks -/

@[simp] theorem State.putGroup_mem (s : State) (g : Group) : (s.putGroup g).mem = s.mem := by simp [State.putGroup]

@[simp] theorem State.putGroup_bad (s : State) (g : Group) : (s.putGroup g).bad = s.bad := by simp [State.putGroup]

@[simp] theorem State.putGroup_cores (s : State) (g : Group) : (s.putGroup g).cores = s.cores := by simp [State.putGroup]

@[simp] theorem State.putGroup_dies (s : State) (g : Group) : (s.putGroup g).dies = s.dies := by simp [State.putGroup]

@[simp] theorem State.putGroup_copies (s : State) (g : Group) : (s.putGroup g).copies = s.copies := by simp [State.putGroup]

@[simp] theorem State.putGroup_launches (s : State) (g : Group) : (s.putGroup g).launches = s.launches := by simp [State.putGroup]

@[simp] theorem State.putGroup_queues (s : State) (g : Group) : (s.putGroup g).queues = s.queues := by simp [State.putGroup]

@[simp] theorem State.putGroup_windows (s : State) (g : Group) : (s.putGroup g).windows = s.windows := by simp [State.putGroup]

@[simp] theorem State.putGroup_visits (s : State) (g : Group) : (s.putGroup g).visits = s.visits := by simp [State.putGroup]

@[simp] theorem State.putGroup_contexts (s : State) (g : Group) : (s.putGroup g).contexts = s.contexts := by simp [State.putGroup]

@[simp] theorem State.putGroup_tornCtx (s : State) (g : Group) : (s.putGroup g).tornCtx = s.tornCtx := by simp [State.putGroup]

@[simp] theorem State.putGroup_tornWin (s : State) (g : Group) : (s.putGroup g).tornWin = s.tornWin := by simp [State.putGroup]

@[simp] theorem State.putGroup_journals (s : State) (g : Group) : (s.putGroup g).journals = s.journals := by simp [State.putGroup]

@[simp] theorem State.putGroup_tlb (s : State) (g : Group) : (s.putGroup g).tlb = s.tlb := by simp [State.putGroup]

@[simp] theorem State.putGroup_replicas (s : State) (g : Group) : (s.putGroup g).replicas = s.replicas := by simp [State.putGroup]

@[simp] theorem State.putGroup_aheads (s : State) (g : Group) : (s.putGroup g).aheads = s.aheads := by simp [State.putGroup]

@[simp] theorem State.putGroup_earlies (s : State) (g : Group) : (s.putGroup g).earlies = s.earlies := by simp [State.putGroup]

@[simp] theorem State.putGroup_laters (s : State) (g : Group) : (s.putGroup g).laters = s.laters := by simp [State.putGroup]

@[simp] theorem State.putGroup_released (s : State) (g : Group) : (s.putGroup g).released = s.released := by simp [State.putGroup]

@[simp] theorem State.putGroup_relBy (s : State) (g : Group) : (s.putGroup g).relBy = s.relBy := by simp [State.putGroup]

@[simp] theorem State.putGroup_syncs (s : State) (g : Group) : (s.putGroup g).syncs = s.syncs := by simp [State.putGroup]

@[simp] theorem State.putGroup_writes (s : State) (g : Group) : (s.putGroup g).writes = s.writes := by simp [State.putGroup]

@[simp] theorem State.putGroup_records (s : State) (g : Group) : (s.putGroup g).records = s.records := by simp [State.putGroup]

@[simp] theorem State.putGroup_answers (s : State) (g : Group) : (s.putGroup g).answers = s.answers := by simp [State.putGroup]

@[simp] theorem State.putGroup_redinj (s : State) (g : Group) : (s.putGroup g).redinj = s.redinj := by simp [State.putGroup]

@[simp] theorem State.putGroup_mig (s : State) (g : Group) : (s.putGroup g).mig = s.mig := by simp [State.putGroup]

@[simp] theorem State.putGroup_away (s : State) (g : Group) : (s.putGroup g).away = s.away := by simp [State.putGroup]

@[simp] theorem State.putGroup_fabric (s : State) (g : Group) : (s.putGroup g).fabric = s.fabric := by simp [State.putGroup]

@[simp] theorem State.putGroup_host (s : State) (g : Group) : (s.putGroup g).host = s.host := by simp [State.putGroup]

@[simp] theorem State.putGroup_firmware (s : State) (g : Group) : (s.putGroup g).firmware = s.firmware := by simp [State.putGroup]

@[simp] theorem State.putGroup_power (s : State) (g : Group) : (s.putGroup g).power = s.power := by simp [State.putGroup]

@[simp] theorem State.putGroup_cycle (s : State) (g : Group) : (s.putGroup g).cycle = s.cycle := by simp [State.putGroup]

@[simp] theorem State.putGroup_nstime (s : State) (g : Group) : (s.putGroup g).nstime = s.nstime := by simp [State.putGroup]

@[simp] theorem State.putGroup_nextId (s : State) (g : Group) : (s.putGroup g).nextId = s.nextId := by simp [State.putGroup]

@[simp] theorem State.putGroup_cur (s : State) (g : Group) : (s.putGroup g).cur = s.cur := by simp [State.putGroup]

@[simp] theorem State.putGroup_tick (s : State) (g : Group) : (s.putGroup g).tick = s.tick := by simp [State.putGroup]

@[simp] theorem State.putGroup_agenda (s : State) (g : Group) : (s.putGroup g).agenda = s.agenda := by simp [State.putGroup]

/-! ## State.changeAt: every field but blocks -/

@[simp] theorem State.changeAt_mem (s : State) (r : GRef) (f : Group → Group) : (s.changeAt r f).mem = s.mem := by unfold State.changeAt; split <;> (try split) <;> rfl

@[simp] theorem State.changeAt_bad (s : State) (r : GRef) (f : Group → Group) : (s.changeAt r f).bad = s.bad := by unfold State.changeAt; split <;> (try split) <;> rfl

@[simp] theorem State.changeAt_cores (s : State) (r : GRef) (f : Group → Group) : (s.changeAt r f).cores = s.cores := by unfold State.changeAt; split <;> (try split) <;> rfl

@[simp] theorem State.changeAt_dies (s : State) (r : GRef) (f : Group → Group) : (s.changeAt r f).dies = s.dies := by unfold State.changeAt; split <;> (try split) <;> rfl

@[simp] theorem State.changeAt_copies (s : State) (r : GRef) (f : Group → Group) : (s.changeAt r f).copies = s.copies := by unfold State.changeAt; split <;> (try split) <;> rfl

@[simp] theorem State.changeAt_launches (s : State) (r : GRef) (f : Group → Group) : (s.changeAt r f).launches = s.launches := by unfold State.changeAt; split <;> (try split) <;> rfl

@[simp] theorem State.changeAt_queues (s : State) (r : GRef) (f : Group → Group) : (s.changeAt r f).queues = s.queues := by unfold State.changeAt; split <;> (try split) <;> rfl

@[simp] theorem State.changeAt_windows (s : State) (r : GRef) (f : Group → Group) : (s.changeAt r f).windows = s.windows := by unfold State.changeAt; split <;> (try split) <;> rfl

@[simp] theorem State.changeAt_visits (s : State) (r : GRef) (f : Group → Group) : (s.changeAt r f).visits = s.visits := by unfold State.changeAt; split <;> (try split) <;> rfl

@[simp] theorem State.changeAt_contexts (s : State) (r : GRef) (f : Group → Group) : (s.changeAt r f).contexts = s.contexts := by unfold State.changeAt; split <;> (try split) <;> rfl

@[simp] theorem State.changeAt_tornCtx (s : State) (r : GRef) (f : Group → Group) : (s.changeAt r f).tornCtx = s.tornCtx := by unfold State.changeAt; split <;> (try split) <;> rfl

@[simp] theorem State.changeAt_tornWin (s : State) (r : GRef) (f : Group → Group) : (s.changeAt r f).tornWin = s.tornWin := by unfold State.changeAt; split <;> (try split) <;> rfl

@[simp] theorem State.changeAt_journals (s : State) (r : GRef) (f : Group → Group) : (s.changeAt r f).journals = s.journals := by unfold State.changeAt; split <;> (try split) <;> rfl

@[simp] theorem State.changeAt_tlb (s : State) (r : GRef) (f : Group → Group) : (s.changeAt r f).tlb = s.tlb := by unfold State.changeAt; split <;> (try split) <;> rfl

@[simp] theorem State.changeAt_replicas (s : State) (r : GRef) (f : Group → Group) : (s.changeAt r f).replicas = s.replicas := by unfold State.changeAt; split <;> (try split) <;> rfl

@[simp] theorem State.changeAt_aheads (s : State) (r : GRef) (f : Group → Group) : (s.changeAt r f).aheads = s.aheads := by unfold State.changeAt; split <;> (try split) <;> rfl

@[simp] theorem State.changeAt_earlies (s : State) (r : GRef) (f : Group → Group) : (s.changeAt r f).earlies = s.earlies := by unfold State.changeAt; split <;> (try split) <;> rfl

@[simp] theorem State.changeAt_laters (s : State) (r : GRef) (f : Group → Group) : (s.changeAt r f).laters = s.laters := by unfold State.changeAt; split <;> (try split) <;> rfl

@[simp] theorem State.changeAt_released (s : State) (r : GRef) (f : Group → Group) : (s.changeAt r f).released = s.released := by unfold State.changeAt; split <;> (try split) <;> rfl

@[simp] theorem State.changeAt_relBy (s : State) (r : GRef) (f : Group → Group) : (s.changeAt r f).relBy = s.relBy := by unfold State.changeAt; split <;> (try split) <;> rfl

@[simp] theorem State.changeAt_syncs (s : State) (r : GRef) (f : Group → Group) : (s.changeAt r f).syncs = s.syncs := by unfold State.changeAt; split <;> (try split) <;> rfl

@[simp] theorem State.changeAt_writes (s : State) (r : GRef) (f : Group → Group) : (s.changeAt r f).writes = s.writes := by unfold State.changeAt; split <;> (try split) <;> rfl

@[simp] theorem State.changeAt_records (s : State) (r : GRef) (f : Group → Group) : (s.changeAt r f).records = s.records := by unfold State.changeAt; split <;> (try split) <;> rfl

@[simp] theorem State.changeAt_answers (s : State) (r : GRef) (f : Group → Group) : (s.changeAt r f).answers = s.answers := by unfold State.changeAt; split <;> (try split) <;> rfl

@[simp] theorem State.changeAt_redinj (s : State) (r : GRef) (f : Group → Group) : (s.changeAt r f).redinj = s.redinj := by unfold State.changeAt; split <;> (try split) <;> rfl

@[simp] theorem State.changeAt_mig (s : State) (r : GRef) (f : Group → Group) : (s.changeAt r f).mig = s.mig := by unfold State.changeAt; split <;> (try split) <;> rfl

@[simp] theorem State.changeAt_away (s : State) (r : GRef) (f : Group → Group) : (s.changeAt r f).away = s.away := by unfold State.changeAt; split <;> (try split) <;> rfl

@[simp] theorem State.changeAt_fabric (s : State) (r : GRef) (f : Group → Group) : (s.changeAt r f).fabric = s.fabric := by unfold State.changeAt; split <;> (try split) <;> rfl

@[simp] theorem State.changeAt_host (s : State) (r : GRef) (f : Group → Group) : (s.changeAt r f).host = s.host := by unfold State.changeAt; split <;> (try split) <;> rfl

@[simp] theorem State.changeAt_firmware (s : State) (r : GRef) (f : Group → Group) : (s.changeAt r f).firmware = s.firmware := by unfold State.changeAt; split <;> (try split) <;> rfl

@[simp] theorem State.changeAt_power (s : State) (r : GRef) (f : Group → Group) : (s.changeAt r f).power = s.power := by unfold State.changeAt; split <;> (try split) <;> rfl

@[simp] theorem State.changeAt_cycle (s : State) (r : GRef) (f : Group → Group) : (s.changeAt r f).cycle = s.cycle := by unfold State.changeAt; split <;> (try split) <;> rfl

@[simp] theorem State.changeAt_nstime (s : State) (r : GRef) (f : Group → Group) : (s.changeAt r f).nstime = s.nstime := by unfold State.changeAt; split <;> (try split) <;> rfl

@[simp] theorem State.changeAt_nextId (s : State) (r : GRef) (f : Group → Group) : (s.changeAt r f).nextId = s.nextId := by unfold State.changeAt; split <;> (try split) <;> rfl

@[simp] theorem State.changeAt_cur (s : State) (r : GRef) (f : Group → Group) : (s.changeAt r f).cur = s.cur := by unfold State.changeAt; split <;> (try split) <;> rfl

@[simp] theorem State.changeAt_tick (s : State) (r : GRef) (f : Group → Group) : (s.changeAt r f).tick = s.tick := by unfold State.changeAt; split <;> (try split) <;> rfl

@[simp] theorem State.changeAt_agenda (s : State) (r : GRef) (f : Group → Group) : (s.changeAt r f).agenda = s.agenda := by unfold State.changeAt; split <;> (try split) <;> rfl

/-! ## State.done: every field but blocks -/

@[simp] theorem State.done_mem (s : State) (g : Group) (new : List Hazard) : (s.done g new).mem = s.mem := by simp [State.done]

@[simp] theorem State.done_bad (s : State) (g : Group) (new : List Hazard) : (s.done g new).bad = s.bad := by simp [State.done]

@[simp] theorem State.done_cores (s : State) (g : Group) (new : List Hazard) : (s.done g new).cores = s.cores := by simp [State.done]

@[simp] theorem State.done_dies (s : State) (g : Group) (new : List Hazard) : (s.done g new).dies = s.dies := by simp [State.done]

@[simp] theorem State.done_copies (s : State) (g : Group) (new : List Hazard) : (s.done g new).copies = s.copies := by simp [State.done]

@[simp] theorem State.done_launches (s : State) (g : Group) (new : List Hazard) : (s.done g new).launches = s.launches := by simp [State.done]

@[simp] theorem State.done_queues (s : State) (g : Group) (new : List Hazard) : (s.done g new).queues = s.queues := by simp [State.done]

@[simp] theorem State.done_windows (s : State) (g : Group) (new : List Hazard) : (s.done g new).windows = s.windows := by simp [State.done]

@[simp] theorem State.done_visits (s : State) (g : Group) (new : List Hazard) : (s.done g new).visits = s.visits := by simp [State.done]

@[simp] theorem State.done_contexts (s : State) (g : Group) (new : List Hazard) : (s.done g new).contexts = s.contexts := by simp [State.done]

@[simp] theorem State.done_tornCtx (s : State) (g : Group) (new : List Hazard) : (s.done g new).tornCtx = s.tornCtx := by simp [State.done]

@[simp] theorem State.done_tornWin (s : State) (g : Group) (new : List Hazard) : (s.done g new).tornWin = s.tornWin := by simp [State.done]

@[simp] theorem State.done_journals (s : State) (g : Group) (new : List Hazard) : (s.done g new).journals = s.journals := by simp [State.done]

@[simp] theorem State.done_tlb (s : State) (g : Group) (new : List Hazard) : (s.done g new).tlb = s.tlb := by simp [State.done]

@[simp] theorem State.done_replicas (s : State) (g : Group) (new : List Hazard) : (s.done g new).replicas = s.replicas := by simp [State.done]

@[simp] theorem State.done_aheads (s : State) (g : Group) (new : List Hazard) : (s.done g new).aheads = s.aheads := by simp [State.done]

@[simp] theorem State.done_earlies (s : State) (g : Group) (new : List Hazard) : (s.done g new).earlies = s.earlies := by simp [State.done]

@[simp] theorem State.done_laters (s : State) (g : Group) (new : List Hazard) : (s.done g new).laters = s.laters := by simp [State.done]

@[simp] theorem State.done_released (s : State) (g : Group) (new : List Hazard) : (s.done g new).released = s.released := by simp [State.done]

@[simp] theorem State.done_relBy (s : State) (g : Group) (new : List Hazard) : (s.done g new).relBy = s.relBy := by simp [State.done]

@[simp] theorem State.done_syncs (s : State) (g : Group) (new : List Hazard) : (s.done g new).syncs = s.syncs := by simp [State.done]

@[simp] theorem State.done_writes (s : State) (g : Group) (new : List Hazard) : (s.done g new).writes = s.writes := by simp [State.done]

@[simp] theorem State.done_records (s : State) (g : Group) (new : List Hazard) : (s.done g new).records = s.records := by simp [State.done]

@[simp] theorem State.done_answers (s : State) (g : Group) (new : List Hazard) : (s.done g new).answers = s.answers := by simp [State.done]

@[simp] theorem State.done_redinj (s : State) (g : Group) (new : List Hazard) : (s.done g new).redinj = s.redinj := by simp [State.done]

@[simp] theorem State.done_mig (s : State) (g : Group) (new : List Hazard) : (s.done g new).mig = s.mig := by simp [State.done]

@[simp] theorem State.done_away (s : State) (g : Group) (new : List Hazard) : (s.done g new).away = s.away := by simp [State.done]

@[simp] theorem State.done_fabric (s : State) (g : Group) (new : List Hazard) : (s.done g new).fabric = s.fabric := by simp [State.done]

@[simp] theorem State.done_host (s : State) (g : Group) (new : List Hazard) : (s.done g new).host = s.host := by simp [State.done]

@[simp] theorem State.done_firmware (s : State) (g : Group) (new : List Hazard) : (s.done g new).firmware = s.firmware := by simp [State.done]

@[simp] theorem State.done_power (s : State) (g : Group) (new : List Hazard) : (s.done g new).power = s.power := by simp [State.done]

@[simp] theorem State.done_cycle (s : State) (g : Group) (new : List Hazard) : (s.done g new).cycle = s.cycle := by simp [State.done]

@[simp] theorem State.done_nstime (s : State) (g : Group) (new : List Hazard) : (s.done g new).nstime = s.nstime := by simp [State.done]

@[simp] theorem State.done_nextId (s : State) (g : Group) (new : List Hazard) : (s.done g new).nextId = s.nextId := by simp [State.done]

@[simp] theorem State.done_cur (s : State) (g : Group) (new : List Hazard) : (s.done g new).cur = s.cur := by simp [State.done]

@[simp] theorem State.done_tick (s : State) (g : Group) (new : List Hazard) : (s.done g new).tick = s.tick := by simp [State.done]

@[simp] theorem State.done_agenda (s : State) (g : Group) (new : List Hazard) : (s.done g new).agenda = s.agenda := by simp [State.done]

/-! ## Group.advance: every field but pc -/

@[simp] theorem Group.advance_scalars (g : Group) (n : Nat) : (g.advance n).scalars = g.scalars := rfl

@[simp] theorem Group.advance_exec (g : Group) (n : Nat) : (g.advance n).exec = g.exec := rfl

@[simp] theorem Group.advance_present (g : Group) (n : Nat) : (g.advance n).present = g.present := rfl

@[simp] theorem Group.advance_helper (g : Group) (n : Nat) : (g.advance n).helper = g.helper := rfl

@[simp] theorem Group.advance_vectors (g : Group) (n : Nat) : (g.advance n).vectors = g.vectors := rfl

@[simp] theorem Group.advance_preds (g : Group) (n : Nat) : (g.advance n).preds = g.preds := rfl

@[simp] theorem Group.advance_flags (g : Group) (n : Nat) : (g.advance n).flags = g.flags := rfl

@[simp] theorem Group.advance_brackets (g : Group) (n : Nat) : (g.advance n).brackets = g.brackets := rfl

@[simp] theorem Group.advance_rng (g : Group) (n : Nat) : (g.advance n).rng = g.rng := rfl

@[simp] theorem Group.advance_frm (g : Group) (n : Nat) : (g.advance n).frm = g.frm := rfl

@[simp] theorem Group.advance_ten (g : Group) (n : Nat) : (g.advance n).ten = g.ten := rfl

@[simp] theorem Group.advance_chk (g : Group) (n : Nat) : (g.advance n).chk = g.chk := rfl

@[simp] theorem Group.advance_invtol (g : Group) (n : Nat) : (g.advance n).invtol = g.invtol := rfl

@[simp] theorem Group.advance_invst (g : Group) (n : Nat) : (g.advance n).invst = g.invst := rfl

@[simp] theorem Group.advance_repidx (g : Group) (n : Nat) : (g.advance n).repidx = g.repidx := rfl

@[simp] theorem Group.advance_idz (g : Group) (n : Nat) : (g.advance n).idz = g.idz := rfl

@[simp] theorem Group.advance_stoseed (g : Group) (n : Nat) : (g.advance n).stoseed = g.stoseed := rfl

@[simp] theorem Group.advance_opkey (g : Group) (n : Nat) : (g.advance n).opkey = g.opkey := rfl

@[simp] theorem Group.advance_cklive (g : Group) (n : Nat) : (g.advance n).cklive = g.cklive := rfl

@[simp] theorem Group.advance_fstrm (g : Group) (n : Nat) : (g.advance n).fstrm = g.fstrm := rfl

@[simp] theorem Group.advance_sepc (g : Group) (n : Nat) : (g.advance n).sepc = g.sepc := rfl

@[simp] theorem Group.advance_gid (g : Group) (n : Nat) : (g.advance n).gid = g.gid := rfl

@[simp] theorem Group.advance_role (g : Group) (n : Nat) : (g.advance n).role = g.role := rfl

@[simp] theorem Group.advance_roleGid (g : Group) (n : Nat) : (g.advance n).roleGid = g.roleGid := rfl

@[simp] theorem Group.advance_budget (g : Group) (n : Nat) : (g.advance n).budget = g.budget := rfl

@[simp] theorem Group.advance_slot (g : Group) (n : Nat) : (g.advance n).slot = g.slot := rfl

@[simp] theorem Group.advance_entries (g : Group) (n : Nat) : (g.advance n).entries = g.entries := rfl

@[simp] theorem Group.advance_hazards (g : Group) (n : Nat) : (g.advance n).hazards = g.hazards := rfl

@[simp] theorem Group.advance_copies (g : Group) (n : Nat) : (g.advance n).copies = g.copies := rfl

@[simp] theorem Group.advance_copySeal (g : Group) (n : Nat) : (g.advance n).copySeal = g.copySeal := rfl

@[simp] theorem Group.advance_matrix (g : Group) (n : Nat) : (g.advance n).matrix = g.matrix := rfl

@[simp] theorem Group.advance_matSeal (g : Group) (n : Nat) : (g.advance n).matSeal = g.matSeal := rfl

@[simp] theorem Group.advance_walk (g : Group) (n : Nat) : (g.advance n).walk = g.walk := rfl

@[simp] theorem Group.advance_rlabel (g : Group) (n : Nat) : (g.advance n).rlabel = g.rlabel := rfl

@[simp] theorem Group.advance_redo (g : Group) (n : Nat) : (g.advance n).redo = g.redo := rfl

@[simp] theorem Group.advance_arrivedB (g : Group) (n : Nat) : (g.advance n).arrivedB = g.arrivedB := rfl

@[simp] theorem Group.advance_arrivedC (g : Group) (n : Nat) : (g.advance n).arrivedC = g.arrivedC := rfl

@[simp] theorem Group.advance_status (g : Group) (n : Nat) : (g.advance n).status = g.status := rfl

@[simp] theorem Group.advance_halt (g : Group) (n : Nat) : (g.advance n).halt = g.halt := rfl

@[simp] theorem Group.advance_stop (g : Group) (n : Nat) : (g.advance n).stop = g.stop := rfl

@[simp] theorem Group.advance_active (g : Group) (n : Nat) : (g.advance n).active = g.active := rfl

@[simp] theorem Group.advance_readyAt (g : Group) (n : Nat) : (g.advance n).readyAt = g.readyAt := rfl

@[simp] theorem Group.advance_pending (g : Group) (n : Nat) : (g.advance n).pending = g.pending := rfl

@[simp] theorem Group.advance_holds (g : Group) (n : Nat) : (g.advance n).holds = g.holds := rfl

@[simp] theorem Group.advance_sigs (g : Group) (n : Nat) : (g.advance n).sigs = g.sigs := rfl

@[simp] theorem Group.advance_met (g : Group) (n : Nat) : (g.advance n).met = g.met := rfl

@[simp] theorem Group.advance_carrier (g : Group) (n : Nat) : (g.advance n).carrier = g.carrier := rfl

@[simp] theorem Group.advance_started (g : Group) (n : Nat) : (g.advance n).started = g.started := rfl

@[simp] theorem Group.advance_pace (g : Group) (n : Nat) : (g.advance n).pace = g.pace := rfl

@[simp] theorem Group.advance_aim (g : Group) (n : Nat) : (g.advance n).aim = g.aim := rfl

@[simp] theorem Group.advance_remote (g : Group) (n : Nat) : (g.advance n).remote = g.remote := rfl

/-! ## Group.setScalar: every field but scalars, exec -/

@[simp] theorem Group.setScalar_pc (g : Group) (n : Nat) (v : Word) : (g.setScalar n v).pc = g.pc := by unfold Group.setScalar; (repeat' split) <;> rfl

@[simp] theorem Group.setScalar_present (g : Group) (n : Nat) (v : Word) : (g.setScalar n v).present = g.present := by unfold Group.setScalar; (repeat' split) <;> rfl

@[simp] theorem Group.setScalar_helper (g : Group) (n : Nat) (v : Word) : (g.setScalar n v).helper = g.helper := by unfold Group.setScalar; (repeat' split) <;> rfl

@[simp] theorem Group.setScalar_vectors (g : Group) (n : Nat) (v : Word) : (g.setScalar n v).vectors = g.vectors := by unfold Group.setScalar; (repeat' split) <;> rfl

@[simp] theorem Group.setScalar_preds (g : Group) (n : Nat) (v : Word) : (g.setScalar n v).preds = g.preds := by unfold Group.setScalar; (repeat' split) <;> rfl

@[simp] theorem Group.setScalar_flags (g : Group) (n : Nat) (v : Word) : (g.setScalar n v).flags = g.flags := by unfold Group.setScalar; (repeat' split) <;> rfl

@[simp] theorem Group.setScalar_brackets (g : Group) (n : Nat) (v : Word) : (g.setScalar n v).brackets = g.brackets := by unfold Group.setScalar; (repeat' split) <;> rfl

@[simp] theorem Group.setScalar_rng (g : Group) (n : Nat) (v : Word) : (g.setScalar n v).rng = g.rng := by unfold Group.setScalar; (repeat' split) <;> rfl

@[simp] theorem Group.setScalar_frm (g : Group) (n : Nat) (v : Word) : (g.setScalar n v).frm = g.frm := by unfold Group.setScalar; (repeat' split) <;> rfl

@[simp] theorem Group.setScalar_ten (g : Group) (n : Nat) (v : Word) : (g.setScalar n v).ten = g.ten := by unfold Group.setScalar; (repeat' split) <;> rfl

@[simp] theorem Group.setScalar_chk (g : Group) (n : Nat) (v : Word) : (g.setScalar n v).chk = g.chk := by unfold Group.setScalar; (repeat' split) <;> rfl

@[simp] theorem Group.setScalar_invtol (g : Group) (n : Nat) (v : Word) : (g.setScalar n v).invtol = g.invtol := by unfold Group.setScalar; (repeat' split) <;> rfl

@[simp] theorem Group.setScalar_invst (g : Group) (n : Nat) (v : Word) : (g.setScalar n v).invst = g.invst := by unfold Group.setScalar; (repeat' split) <;> rfl

@[simp] theorem Group.setScalar_repidx (g : Group) (n : Nat) (v : Word) : (g.setScalar n v).repidx = g.repidx := by unfold Group.setScalar; (repeat' split) <;> rfl

@[simp] theorem Group.setScalar_idz (g : Group) (n : Nat) (v : Word) : (g.setScalar n v).idz = g.idz := by unfold Group.setScalar; (repeat' split) <;> rfl

@[simp] theorem Group.setScalar_stoseed (g : Group) (n : Nat) (v : Word) : (g.setScalar n v).stoseed = g.stoseed := by unfold Group.setScalar; (repeat' split) <;> rfl

@[simp] theorem Group.setScalar_opkey (g : Group) (n : Nat) (v : Word) : (g.setScalar n v).opkey = g.opkey := by unfold Group.setScalar; (repeat' split) <;> rfl

@[simp] theorem Group.setScalar_cklive (g : Group) (n : Nat) (v : Word) : (g.setScalar n v).cklive = g.cklive := by unfold Group.setScalar; (repeat' split) <;> rfl

@[simp] theorem Group.setScalar_fstrm (g : Group) (n : Nat) (v : Word) : (g.setScalar n v).fstrm = g.fstrm := by unfold Group.setScalar; (repeat' split) <;> rfl

@[simp] theorem Group.setScalar_sepc (g : Group) (n : Nat) (v : Word) : (g.setScalar n v).sepc = g.sepc := by unfold Group.setScalar; (repeat' split) <;> rfl

@[simp] theorem Group.setScalar_gid (g : Group) (n : Nat) (v : Word) : (g.setScalar n v).gid = g.gid := by unfold Group.setScalar; (repeat' split) <;> rfl

@[simp] theorem Group.setScalar_role (g : Group) (n : Nat) (v : Word) : (g.setScalar n v).role = g.role := by unfold Group.setScalar; (repeat' split) <;> rfl

@[simp] theorem Group.setScalar_roleGid (g : Group) (n : Nat) (v : Word) : (g.setScalar n v).roleGid = g.roleGid := by unfold Group.setScalar; (repeat' split) <;> rfl

@[simp] theorem Group.setScalar_budget (g : Group) (n : Nat) (v : Word) : (g.setScalar n v).budget = g.budget := by unfold Group.setScalar; (repeat' split) <;> rfl

@[simp] theorem Group.setScalar_slot (g : Group) (n : Nat) (v : Word) : (g.setScalar n v).slot = g.slot := by unfold Group.setScalar; (repeat' split) <;> rfl

@[simp] theorem Group.setScalar_entries (g : Group) (n : Nat) (v : Word) : (g.setScalar n v).entries = g.entries := by unfold Group.setScalar; (repeat' split) <;> rfl

@[simp] theorem Group.setScalar_hazards (g : Group) (n : Nat) (v : Word) : (g.setScalar n v).hazards = g.hazards := by unfold Group.setScalar; (repeat' split) <;> rfl

@[simp] theorem Group.setScalar_copies (g : Group) (n : Nat) (v : Word) : (g.setScalar n v).copies = g.copies := by unfold Group.setScalar; (repeat' split) <;> rfl

@[simp] theorem Group.setScalar_copySeal (g : Group) (n : Nat) (v : Word) : (g.setScalar n v).copySeal = g.copySeal := by unfold Group.setScalar; (repeat' split) <;> rfl

@[simp] theorem Group.setScalar_matrix (g : Group) (n : Nat) (v : Word) : (g.setScalar n v).matrix = g.matrix := by unfold Group.setScalar; (repeat' split) <;> rfl

@[simp] theorem Group.setScalar_matSeal (g : Group) (n : Nat) (v : Word) : (g.setScalar n v).matSeal = g.matSeal := by unfold Group.setScalar; (repeat' split) <;> rfl

@[simp] theorem Group.setScalar_walk (g : Group) (n : Nat) (v : Word) : (g.setScalar n v).walk = g.walk := by unfold Group.setScalar; (repeat' split) <;> rfl

@[simp] theorem Group.setScalar_rlabel (g : Group) (n : Nat) (v : Word) : (g.setScalar n v).rlabel = g.rlabel := by unfold Group.setScalar; (repeat' split) <;> rfl

@[simp] theorem Group.setScalar_redo (g : Group) (n : Nat) (v : Word) : (g.setScalar n v).redo = g.redo := by unfold Group.setScalar; (repeat' split) <;> rfl

@[simp] theorem Group.setScalar_arrivedB (g : Group) (n : Nat) (v : Word) : (g.setScalar n v).arrivedB = g.arrivedB := by unfold Group.setScalar; (repeat' split) <;> rfl

@[simp] theorem Group.setScalar_arrivedC (g : Group) (n : Nat) (v : Word) : (g.setScalar n v).arrivedC = g.arrivedC := by unfold Group.setScalar; (repeat' split) <;> rfl

@[simp] theorem Group.setScalar_status (g : Group) (n : Nat) (v : Word) : (g.setScalar n v).status = g.status := by unfold Group.setScalar; (repeat' split) <;> rfl

@[simp] theorem Group.setScalar_halt (g : Group) (n : Nat) (v : Word) : (g.setScalar n v).halt = g.halt := by unfold Group.setScalar; (repeat' split) <;> rfl

@[simp] theorem Group.setScalar_stop (g : Group) (n : Nat) (v : Word) : (g.setScalar n v).stop = g.stop := by unfold Group.setScalar; (repeat' split) <;> rfl

@[simp] theorem Group.setScalar_active (g : Group) (n : Nat) (v : Word) : (g.setScalar n v).active = g.active := by unfold Group.setScalar; (repeat' split) <;> rfl

@[simp] theorem Group.setScalar_readyAt (g : Group) (n : Nat) (v : Word) : (g.setScalar n v).readyAt = g.readyAt := by unfold Group.setScalar; (repeat' split) <;> rfl

@[simp] theorem Group.setScalar_pending (g : Group) (n : Nat) (v : Word) : (g.setScalar n v).pending = g.pending := by unfold Group.setScalar; (repeat' split) <;> rfl

@[simp] theorem Group.setScalar_holds (g : Group) (n : Nat) (v : Word) : (g.setScalar n v).holds = g.holds := by unfold Group.setScalar; (repeat' split) <;> rfl

@[simp] theorem Group.setScalar_sigs (g : Group) (n : Nat) (v : Word) : (g.setScalar n v).sigs = g.sigs := by unfold Group.setScalar; (repeat' split) <;> rfl

@[simp] theorem Group.setScalar_met (g : Group) (n : Nat) (v : Word) : (g.setScalar n v).met = g.met := by unfold Group.setScalar; (repeat' split) <;> rfl

@[simp] theorem Group.setScalar_carrier (g : Group) (n : Nat) (v : Word) : (g.setScalar n v).carrier = g.carrier := by unfold Group.setScalar; (repeat' split) <;> rfl

@[simp] theorem Group.setScalar_started (g : Group) (n : Nat) (v : Word) : (g.setScalar n v).started = g.started := by unfold Group.setScalar; (repeat' split) <;> rfl

@[simp] theorem Group.setScalar_pace (g : Group) (n : Nat) (v : Word) : (g.setScalar n v).pace = g.pace := by unfold Group.setScalar; (repeat' split) <;> rfl

@[simp] theorem Group.setScalar_aim (g : Group) (n : Nat) (v : Word) : (g.setScalar n v).aim = g.aim := by unfold Group.setScalar; (repeat' split) <;> rfl

@[simp] theorem Group.setScalar_remote (g : Group) (n : Nat) (v : Word) : (g.setScalar n v).remote = g.remote := by unfold Group.setScalar; (repeat' split) <;> rfl

/-! ## Group.setVec: every field but vectors, hazards -/

@[simp] theorem Group.setVec_pc (g : Group) (r : Nat) (m : Mask) (f : Nat → LaneWord) (x : Bool) : (g.setVec r m f x).pc = g.pc := rfl

@[simp] theorem Group.setVec_scalars (g : Group) (r : Nat) (m : Mask) (f : Nat → LaneWord) (x : Bool) : (g.setVec r m f x).scalars = g.scalars := rfl

@[simp] theorem Group.setVec_exec (g : Group) (r : Nat) (m : Mask) (f : Nat → LaneWord) (x : Bool) : (g.setVec r m f x).exec = g.exec := rfl

@[simp] theorem Group.setVec_present (g : Group) (r : Nat) (m : Mask) (f : Nat → LaneWord) (x : Bool) : (g.setVec r m f x).present = g.present := rfl

@[simp] theorem Group.setVec_helper (g : Group) (r : Nat) (m : Mask) (f : Nat → LaneWord) (x : Bool) : (g.setVec r m f x).helper = g.helper := rfl

@[simp] theorem Group.setVec_preds (g : Group) (r : Nat) (m : Mask) (f : Nat → LaneWord) (x : Bool) : (g.setVec r m f x).preds = g.preds := rfl

@[simp] theorem Group.setVec_flags (g : Group) (r : Nat) (m : Mask) (f : Nat → LaneWord) (x : Bool) : (g.setVec r m f x).flags = g.flags := rfl

@[simp] theorem Group.setVec_brackets (g : Group) (r : Nat) (m : Mask) (f : Nat → LaneWord) (x : Bool) : (g.setVec r m f x).brackets = g.brackets := rfl

@[simp] theorem Group.setVec_rng (g : Group) (r : Nat) (m : Mask) (f : Nat → LaneWord) (x : Bool) : (g.setVec r m f x).rng = g.rng := rfl

@[simp] theorem Group.setVec_frm (g : Group) (r : Nat) (m : Mask) (f : Nat → LaneWord) (x : Bool) : (g.setVec r m f x).frm = g.frm := rfl

@[simp] theorem Group.setVec_ten (g : Group) (r : Nat) (m : Mask) (f : Nat → LaneWord) (x : Bool) : (g.setVec r m f x).ten = g.ten := rfl

@[simp] theorem Group.setVec_chk (g : Group) (r : Nat) (m : Mask) (f : Nat → LaneWord) (x : Bool) : (g.setVec r m f x).chk = g.chk := rfl

@[simp] theorem Group.setVec_invtol (g : Group) (r : Nat) (m : Mask) (f : Nat → LaneWord) (x : Bool) : (g.setVec r m f x).invtol = g.invtol := rfl

@[simp] theorem Group.setVec_invst (g : Group) (r : Nat) (m : Mask) (f : Nat → LaneWord) (x : Bool) : (g.setVec r m f x).invst = g.invst := rfl

@[simp] theorem Group.setVec_repidx (g : Group) (r : Nat) (m : Mask) (f : Nat → LaneWord) (x : Bool) : (g.setVec r m f x).repidx = g.repidx := rfl

@[simp] theorem Group.setVec_idz (g : Group) (r : Nat) (m : Mask) (f : Nat → LaneWord) (x : Bool) : (g.setVec r m f x).idz = g.idz := rfl

@[simp] theorem Group.setVec_stoseed (g : Group) (r : Nat) (m : Mask) (f : Nat → LaneWord) (x : Bool) : (g.setVec r m f x).stoseed = g.stoseed := rfl

@[simp] theorem Group.setVec_opkey (g : Group) (r : Nat) (m : Mask) (f : Nat → LaneWord) (x : Bool) : (g.setVec r m f x).opkey = g.opkey := rfl

@[simp] theorem Group.setVec_cklive (g : Group) (r : Nat) (m : Mask) (f : Nat → LaneWord) (x : Bool) : (g.setVec r m f x).cklive = g.cklive := rfl

@[simp] theorem Group.setVec_fstrm (g : Group) (r : Nat) (m : Mask) (f : Nat → LaneWord) (x : Bool) : (g.setVec r m f x).fstrm = g.fstrm := rfl

@[simp] theorem Group.setVec_sepc (g : Group) (r : Nat) (m : Mask) (f : Nat → LaneWord) (x : Bool) : (g.setVec r m f x).sepc = g.sepc := rfl

@[simp] theorem Group.setVec_gid (g : Group) (r : Nat) (m : Mask) (f : Nat → LaneWord) (x : Bool) : (g.setVec r m f x).gid = g.gid := rfl

@[simp] theorem Group.setVec_role (g : Group) (r : Nat) (m : Mask) (f : Nat → LaneWord) (x : Bool) : (g.setVec r m f x).role = g.role := rfl

@[simp] theorem Group.setVec_roleGid (g : Group) (r : Nat) (m : Mask) (f : Nat → LaneWord) (x : Bool) : (g.setVec r m f x).roleGid = g.roleGid := rfl

@[simp] theorem Group.setVec_budget (g : Group) (r : Nat) (m : Mask) (f : Nat → LaneWord) (x : Bool) : (g.setVec r m f x).budget = g.budget := rfl

@[simp] theorem Group.setVec_slot (g : Group) (r : Nat) (m : Mask) (f : Nat → LaneWord) (x : Bool) : (g.setVec r m f x).slot = g.slot := rfl

@[simp] theorem Group.setVec_entries (g : Group) (r : Nat) (m : Mask) (f : Nat → LaneWord) (x : Bool) : (g.setVec r m f x).entries = g.entries := rfl

@[simp] theorem Group.setVec_copies (g : Group) (r : Nat) (m : Mask) (f : Nat → LaneWord) (x : Bool) : (g.setVec r m f x).copies = g.copies := rfl

@[simp] theorem Group.setVec_copySeal (g : Group) (r : Nat) (m : Mask) (f : Nat → LaneWord) (x : Bool) : (g.setVec r m f x).copySeal = g.copySeal := rfl

@[simp] theorem Group.setVec_matrix (g : Group) (r : Nat) (m : Mask) (f : Nat → LaneWord) (x : Bool) : (g.setVec r m f x).matrix = g.matrix := rfl

@[simp] theorem Group.setVec_matSeal (g : Group) (r : Nat) (m : Mask) (f : Nat → LaneWord) (x : Bool) : (g.setVec r m f x).matSeal = g.matSeal := rfl

@[simp] theorem Group.setVec_walk (g : Group) (r : Nat) (m : Mask) (f : Nat → LaneWord) (x : Bool) : (g.setVec r m f x).walk = g.walk := rfl

@[simp] theorem Group.setVec_rlabel (g : Group) (r : Nat) (m : Mask) (f : Nat → LaneWord) (x : Bool) : (g.setVec r m f x).rlabel = g.rlabel := rfl

@[simp] theorem Group.setVec_redo (g : Group) (r : Nat) (m : Mask) (f : Nat → LaneWord) (x : Bool) : (g.setVec r m f x).redo = g.redo := rfl

@[simp] theorem Group.setVec_arrivedB (g : Group) (r : Nat) (m : Mask) (f : Nat → LaneWord) (x : Bool) : (g.setVec r m f x).arrivedB = g.arrivedB := rfl

@[simp] theorem Group.setVec_arrivedC (g : Group) (r : Nat) (m : Mask) (f : Nat → LaneWord) (x : Bool) : (g.setVec r m f x).arrivedC = g.arrivedC := rfl

@[simp] theorem Group.setVec_status (g : Group) (r : Nat) (m : Mask) (f : Nat → LaneWord) (x : Bool) : (g.setVec r m f x).status = g.status := rfl

@[simp] theorem Group.setVec_halt (g : Group) (r : Nat) (m : Mask) (f : Nat → LaneWord) (x : Bool) : (g.setVec r m f x).halt = g.halt := rfl

@[simp] theorem Group.setVec_stop (g : Group) (r : Nat) (m : Mask) (f : Nat → LaneWord) (x : Bool) : (g.setVec r m f x).stop = g.stop := rfl

@[simp] theorem Group.setVec_active (g : Group) (r : Nat) (m : Mask) (f : Nat → LaneWord) (x : Bool) : (g.setVec r m f x).active = g.active := rfl

@[simp] theorem Group.setVec_readyAt (g : Group) (r : Nat) (m : Mask) (f : Nat → LaneWord) (x : Bool) : (g.setVec r m f x).readyAt = g.readyAt := rfl

@[simp] theorem Group.setVec_pending (g : Group) (r : Nat) (m : Mask) (f : Nat → LaneWord) (x : Bool) : (g.setVec r m f x).pending = g.pending := rfl

@[simp] theorem Group.setVec_holds (g : Group) (r : Nat) (m : Mask) (f : Nat → LaneWord) (x : Bool) : (g.setVec r m f x).holds = g.holds := rfl

@[simp] theorem Group.setVec_sigs (g : Group) (r : Nat) (m : Mask) (f : Nat → LaneWord) (x : Bool) : (g.setVec r m f x).sigs = g.sigs := rfl

@[simp] theorem Group.setVec_met (g : Group) (r : Nat) (m : Mask) (f : Nat → LaneWord) (x : Bool) : (g.setVec r m f x).met = g.met := rfl

@[simp] theorem Group.setVec_carrier (g : Group) (r : Nat) (m : Mask) (f : Nat → LaneWord) (x : Bool) : (g.setVec r m f x).carrier = g.carrier := rfl

@[simp] theorem Group.setVec_started (g : Group) (r : Nat) (m : Mask) (f : Nat → LaneWord) (x : Bool) : (g.setVec r m f x).started = g.started := rfl

@[simp] theorem Group.setVec_pace (g : Group) (r : Nat) (m : Mask) (f : Nat → LaneWord) (x : Bool) : (g.setVec r m f x).pace = g.pace := rfl

@[simp] theorem Group.setVec_aim (g : Group) (r : Nat) (m : Mask) (f : Nat → LaneWord) (x : Bool) : (g.setVec r m f x).aim = g.aim := rfl

@[simp] theorem Group.setVec_remote (g : Group) (r : Nat) (m : Mask) (f : Nat → LaneWord) (x : Bool) : (g.setVec r m f x).remote = g.remote := rfl

/-! ## Group.setBracket: every field but brackets -/

@[simp] theorem Group.setBracket_pc (g : Group) (k w : Nat) (m : Mask) (f : Nat → LaneWord) : (g.setBracket k w m f).pc = g.pc := rfl

@[simp] theorem Group.setBracket_scalars (g : Group) (k w : Nat) (m : Mask) (f : Nat → LaneWord) : (g.setBracket k w m f).scalars = g.scalars := rfl

@[simp] theorem Group.setBracket_exec (g : Group) (k w : Nat) (m : Mask) (f : Nat → LaneWord) : (g.setBracket k w m f).exec = g.exec := rfl

@[simp] theorem Group.setBracket_present (g : Group) (k w : Nat) (m : Mask) (f : Nat → LaneWord) : (g.setBracket k w m f).present = g.present := rfl

@[simp] theorem Group.setBracket_helper (g : Group) (k w : Nat) (m : Mask) (f : Nat → LaneWord) : (g.setBracket k w m f).helper = g.helper := rfl

@[simp] theorem Group.setBracket_vectors (g : Group) (k w : Nat) (m : Mask) (f : Nat → LaneWord) : (g.setBracket k w m f).vectors = g.vectors := rfl

@[simp] theorem Group.setBracket_preds (g : Group) (k w : Nat) (m : Mask) (f : Nat → LaneWord) : (g.setBracket k w m f).preds = g.preds := rfl

@[simp] theorem Group.setBracket_flags (g : Group) (k w : Nat) (m : Mask) (f : Nat → LaneWord) : (g.setBracket k w m f).flags = g.flags := rfl

@[simp] theorem Group.setBracket_rng (g : Group) (k w : Nat) (m : Mask) (f : Nat → LaneWord) : (g.setBracket k w m f).rng = g.rng := rfl

@[simp] theorem Group.setBracket_frm (g : Group) (k w : Nat) (m : Mask) (f : Nat → LaneWord) : (g.setBracket k w m f).frm = g.frm := rfl

@[simp] theorem Group.setBracket_ten (g : Group) (k w : Nat) (m : Mask) (f : Nat → LaneWord) : (g.setBracket k w m f).ten = g.ten := rfl

@[simp] theorem Group.setBracket_chk (g : Group) (k w : Nat) (m : Mask) (f : Nat → LaneWord) : (g.setBracket k w m f).chk = g.chk := rfl

@[simp] theorem Group.setBracket_invtol (g : Group) (k w : Nat) (m : Mask) (f : Nat → LaneWord) : (g.setBracket k w m f).invtol = g.invtol := rfl

@[simp] theorem Group.setBracket_invst (g : Group) (k w : Nat) (m : Mask) (f : Nat → LaneWord) : (g.setBracket k w m f).invst = g.invst := rfl

@[simp] theorem Group.setBracket_repidx (g : Group) (k w : Nat) (m : Mask) (f : Nat → LaneWord) : (g.setBracket k w m f).repidx = g.repidx := rfl

@[simp] theorem Group.setBracket_idz (g : Group) (k w : Nat) (m : Mask) (f : Nat → LaneWord) : (g.setBracket k w m f).idz = g.idz := rfl

@[simp] theorem Group.setBracket_stoseed (g : Group) (k w : Nat) (m : Mask) (f : Nat → LaneWord) : (g.setBracket k w m f).stoseed = g.stoseed := rfl

@[simp] theorem Group.setBracket_opkey (g : Group) (k w : Nat) (m : Mask) (f : Nat → LaneWord) : (g.setBracket k w m f).opkey = g.opkey := rfl

@[simp] theorem Group.setBracket_cklive (g : Group) (k w : Nat) (m : Mask) (f : Nat → LaneWord) : (g.setBracket k w m f).cklive = g.cklive := rfl

@[simp] theorem Group.setBracket_fstrm (g : Group) (k w : Nat) (m : Mask) (f : Nat → LaneWord) : (g.setBracket k w m f).fstrm = g.fstrm := rfl

@[simp] theorem Group.setBracket_sepc (g : Group) (k w : Nat) (m : Mask) (f : Nat → LaneWord) : (g.setBracket k w m f).sepc = g.sepc := rfl

@[simp] theorem Group.setBracket_gid (g : Group) (k w : Nat) (m : Mask) (f : Nat → LaneWord) : (g.setBracket k w m f).gid = g.gid := rfl

@[simp] theorem Group.setBracket_role (g : Group) (k w : Nat) (m : Mask) (f : Nat → LaneWord) : (g.setBracket k w m f).role = g.role := rfl

@[simp] theorem Group.setBracket_roleGid (g : Group) (k w : Nat) (m : Mask) (f : Nat → LaneWord) : (g.setBracket k w m f).roleGid = g.roleGid := rfl

@[simp] theorem Group.setBracket_budget (g : Group) (k w : Nat) (m : Mask) (f : Nat → LaneWord) : (g.setBracket k w m f).budget = g.budget := rfl

@[simp] theorem Group.setBracket_slot (g : Group) (k w : Nat) (m : Mask) (f : Nat → LaneWord) : (g.setBracket k w m f).slot = g.slot := rfl

@[simp] theorem Group.setBracket_entries (g : Group) (k w : Nat) (m : Mask) (f : Nat → LaneWord) : (g.setBracket k w m f).entries = g.entries := rfl

@[simp] theorem Group.setBracket_hazards (g : Group) (k w : Nat) (m : Mask) (f : Nat → LaneWord) : (g.setBracket k w m f).hazards = g.hazards := rfl

@[simp] theorem Group.setBracket_copies (g : Group) (k w : Nat) (m : Mask) (f : Nat → LaneWord) : (g.setBracket k w m f).copies = g.copies := rfl

@[simp] theorem Group.setBracket_copySeal (g : Group) (k w : Nat) (m : Mask) (f : Nat → LaneWord) : (g.setBracket k w m f).copySeal = g.copySeal := rfl

@[simp] theorem Group.setBracket_matrix (g : Group) (k w : Nat) (m : Mask) (f : Nat → LaneWord) : (g.setBracket k w m f).matrix = g.matrix := rfl

@[simp] theorem Group.setBracket_matSeal (g : Group) (k w : Nat) (m : Mask) (f : Nat → LaneWord) : (g.setBracket k w m f).matSeal = g.matSeal := rfl

@[simp] theorem Group.setBracket_walk (g : Group) (k w : Nat) (m : Mask) (f : Nat → LaneWord) : (g.setBracket k w m f).walk = g.walk := rfl

@[simp] theorem Group.setBracket_rlabel (g : Group) (k w : Nat) (m : Mask) (f : Nat → LaneWord) : (g.setBracket k w m f).rlabel = g.rlabel := rfl

@[simp] theorem Group.setBracket_redo (g : Group) (k w : Nat) (m : Mask) (f : Nat → LaneWord) : (g.setBracket k w m f).redo = g.redo := rfl

@[simp] theorem Group.setBracket_arrivedB (g : Group) (k w : Nat) (m : Mask) (f : Nat → LaneWord) : (g.setBracket k w m f).arrivedB = g.arrivedB := rfl

@[simp] theorem Group.setBracket_arrivedC (g : Group) (k w : Nat) (m : Mask) (f : Nat → LaneWord) : (g.setBracket k w m f).arrivedC = g.arrivedC := rfl

@[simp] theorem Group.setBracket_status (g : Group) (k w : Nat) (m : Mask) (f : Nat → LaneWord) : (g.setBracket k w m f).status = g.status := rfl

@[simp] theorem Group.setBracket_halt (g : Group) (k w : Nat) (m : Mask) (f : Nat → LaneWord) : (g.setBracket k w m f).halt = g.halt := rfl

@[simp] theorem Group.setBracket_stop (g : Group) (k w : Nat) (m : Mask) (f : Nat → LaneWord) : (g.setBracket k w m f).stop = g.stop := rfl

@[simp] theorem Group.setBracket_active (g : Group) (k w : Nat) (m : Mask) (f : Nat → LaneWord) : (g.setBracket k w m f).active = g.active := rfl

@[simp] theorem Group.setBracket_readyAt (g : Group) (k w : Nat) (m : Mask) (f : Nat → LaneWord) : (g.setBracket k w m f).readyAt = g.readyAt := rfl

@[simp] theorem Group.setBracket_pending (g : Group) (k w : Nat) (m : Mask) (f : Nat → LaneWord) : (g.setBracket k w m f).pending = g.pending := rfl

@[simp] theorem Group.setBracket_holds (g : Group) (k w : Nat) (m : Mask) (f : Nat → LaneWord) : (g.setBracket k w m f).holds = g.holds := rfl

@[simp] theorem Group.setBracket_sigs (g : Group) (k w : Nat) (m : Mask) (f : Nat → LaneWord) : (g.setBracket k w m f).sigs = g.sigs := rfl

@[simp] theorem Group.setBracket_met (g : Group) (k w : Nat) (m : Mask) (f : Nat → LaneWord) : (g.setBracket k w m f).met = g.met := rfl

@[simp] theorem Group.setBracket_carrier (g : Group) (k w : Nat) (m : Mask) (f : Nat → LaneWord) : (g.setBracket k w m f).carrier = g.carrier := rfl

@[simp] theorem Group.setBracket_started (g : Group) (k w : Nat) (m : Mask) (f : Nat → LaneWord) : (g.setBracket k w m f).started = g.started := rfl

@[simp] theorem Group.setBracket_pace (g : Group) (k w : Nat) (m : Mask) (f : Nat → LaneWord) : (g.setBracket k w m f).pace = g.pace := rfl

@[simp] theorem Group.setBracket_aim (g : Group) (k w : Nat) (m : Mask) (f : Nat → LaneWord) : (g.setBracket k w m f).aim = g.aim := rfl

@[simp] theorem Group.setBracket_remote (g : Group) (k w : Nat) (m : Mask) (f : Nat → LaneWord) : (g.setBracket k w m f).remote = g.remote := rfl

/-! ## Group.setPred: every field but preds -/

@[simp] theorem Group.setPred_pc (g : Group) (p : Nat) (m : Mask) (f : Nat → Bool) : (g.setPred p m f).pc = g.pc := by unfold Group.setPred; split <;> rfl

@[simp] theorem Group.setPred_scalars (g : Group) (p : Nat) (m : Mask) (f : Nat → Bool) : (g.setPred p m f).scalars = g.scalars := by unfold Group.setPred; split <;> rfl

@[simp] theorem Group.setPred_exec (g : Group) (p : Nat) (m : Mask) (f : Nat → Bool) : (g.setPred p m f).exec = g.exec := by unfold Group.setPred; split <;> rfl

@[simp] theorem Group.setPred_present (g : Group) (p : Nat) (m : Mask) (f : Nat → Bool) : (g.setPred p m f).present = g.present := by unfold Group.setPred; split <;> rfl

@[simp] theorem Group.setPred_helper (g : Group) (p : Nat) (m : Mask) (f : Nat → Bool) : (g.setPred p m f).helper = g.helper := by unfold Group.setPred; split <;> rfl

@[simp] theorem Group.setPred_vectors (g : Group) (p : Nat) (m : Mask) (f : Nat → Bool) : (g.setPred p m f).vectors = g.vectors := by unfold Group.setPred; split <;> rfl

@[simp] theorem Group.setPred_flags (g : Group) (p : Nat) (m : Mask) (f : Nat → Bool) : (g.setPred p m f).flags = g.flags := by unfold Group.setPred; split <;> rfl

@[simp] theorem Group.setPred_brackets (g : Group) (p : Nat) (m : Mask) (f : Nat → Bool) : (g.setPred p m f).brackets = g.brackets := by unfold Group.setPred; split <;> rfl

@[simp] theorem Group.setPred_rng (g : Group) (p : Nat) (m : Mask) (f : Nat → Bool) : (g.setPred p m f).rng = g.rng := by unfold Group.setPred; split <;> rfl

@[simp] theorem Group.setPred_frm (g : Group) (p : Nat) (m : Mask) (f : Nat → Bool) : (g.setPred p m f).frm = g.frm := by unfold Group.setPred; split <;> rfl

@[simp] theorem Group.setPred_ten (g : Group) (p : Nat) (m : Mask) (f : Nat → Bool) : (g.setPred p m f).ten = g.ten := by unfold Group.setPred; split <;> rfl

@[simp] theorem Group.setPred_chk (g : Group) (p : Nat) (m : Mask) (f : Nat → Bool) : (g.setPred p m f).chk = g.chk := by unfold Group.setPred; split <;> rfl

@[simp] theorem Group.setPred_invtol (g : Group) (p : Nat) (m : Mask) (f : Nat → Bool) : (g.setPred p m f).invtol = g.invtol := by unfold Group.setPred; split <;> rfl

@[simp] theorem Group.setPred_invst (g : Group) (p : Nat) (m : Mask) (f : Nat → Bool) : (g.setPred p m f).invst = g.invst := by unfold Group.setPred; split <;> rfl

@[simp] theorem Group.setPred_repidx (g : Group) (p : Nat) (m : Mask) (f : Nat → Bool) : (g.setPred p m f).repidx = g.repidx := by unfold Group.setPred; split <;> rfl

@[simp] theorem Group.setPred_idz (g : Group) (p : Nat) (m : Mask) (f : Nat → Bool) : (g.setPred p m f).idz = g.idz := by unfold Group.setPred; split <;> rfl

@[simp] theorem Group.setPred_stoseed (g : Group) (p : Nat) (m : Mask) (f : Nat → Bool) : (g.setPred p m f).stoseed = g.stoseed := by unfold Group.setPred; split <;> rfl

@[simp] theorem Group.setPred_opkey (g : Group) (p : Nat) (m : Mask) (f : Nat → Bool) : (g.setPred p m f).opkey = g.opkey := by unfold Group.setPred; split <;> rfl

@[simp] theorem Group.setPred_cklive (g : Group) (p : Nat) (m : Mask) (f : Nat → Bool) : (g.setPred p m f).cklive = g.cklive := by unfold Group.setPred; split <;> rfl

@[simp] theorem Group.setPred_fstrm (g : Group) (p : Nat) (m : Mask) (f : Nat → Bool) : (g.setPred p m f).fstrm = g.fstrm := by unfold Group.setPred; split <;> rfl

@[simp] theorem Group.setPred_sepc (g : Group) (p : Nat) (m : Mask) (f : Nat → Bool) : (g.setPred p m f).sepc = g.sepc := by unfold Group.setPred; split <;> rfl

@[simp] theorem Group.setPred_gid (g : Group) (p : Nat) (m : Mask) (f : Nat → Bool) : (g.setPred p m f).gid = g.gid := by unfold Group.setPred; split <;> rfl

@[simp] theorem Group.setPred_role (g : Group) (p : Nat) (m : Mask) (f : Nat → Bool) : (g.setPred p m f).role = g.role := by unfold Group.setPred; split <;> rfl

@[simp] theorem Group.setPred_roleGid (g : Group) (p : Nat) (m : Mask) (f : Nat → Bool) : (g.setPred p m f).roleGid = g.roleGid := by unfold Group.setPred; split <;> rfl

@[simp] theorem Group.setPred_budget (g : Group) (p : Nat) (m : Mask) (f : Nat → Bool) : (g.setPred p m f).budget = g.budget := by unfold Group.setPred; split <;> rfl

@[simp] theorem Group.setPred_slot (g : Group) (p : Nat) (m : Mask) (f : Nat → Bool) : (g.setPred p m f).slot = g.slot := by unfold Group.setPred; split <;> rfl

@[simp] theorem Group.setPred_entries (g : Group) (p : Nat) (m : Mask) (f : Nat → Bool) : (g.setPred p m f).entries = g.entries := by unfold Group.setPred; split <;> rfl

@[simp] theorem Group.setPred_hazards (g : Group) (p : Nat) (m : Mask) (f : Nat → Bool) : (g.setPred p m f).hazards = g.hazards := by unfold Group.setPred; split <;> rfl

@[simp] theorem Group.setPred_copies (g : Group) (p : Nat) (m : Mask) (f : Nat → Bool) : (g.setPred p m f).copies = g.copies := by unfold Group.setPred; split <;> rfl

@[simp] theorem Group.setPred_copySeal (g : Group) (p : Nat) (m : Mask) (f : Nat → Bool) : (g.setPred p m f).copySeal = g.copySeal := by unfold Group.setPred; split <;> rfl

@[simp] theorem Group.setPred_matrix (g : Group) (p : Nat) (m : Mask) (f : Nat → Bool) : (g.setPred p m f).matrix = g.matrix := by unfold Group.setPred; split <;> rfl

@[simp] theorem Group.setPred_matSeal (g : Group) (p : Nat) (m : Mask) (f : Nat → Bool) : (g.setPred p m f).matSeal = g.matSeal := by unfold Group.setPred; split <;> rfl

@[simp] theorem Group.setPred_walk (g : Group) (p : Nat) (m : Mask) (f : Nat → Bool) : (g.setPred p m f).walk = g.walk := by unfold Group.setPred; split <;> rfl

@[simp] theorem Group.setPred_rlabel (g : Group) (p : Nat) (m : Mask) (f : Nat → Bool) : (g.setPred p m f).rlabel = g.rlabel := by unfold Group.setPred; split <;> rfl

@[simp] theorem Group.setPred_redo (g : Group) (p : Nat) (m : Mask) (f : Nat → Bool) : (g.setPred p m f).redo = g.redo := by unfold Group.setPred; split <;> rfl

@[simp] theorem Group.setPred_arrivedB (g : Group) (p : Nat) (m : Mask) (f : Nat → Bool) : (g.setPred p m f).arrivedB = g.arrivedB := by unfold Group.setPred; split <;> rfl

@[simp] theorem Group.setPred_arrivedC (g : Group) (p : Nat) (m : Mask) (f : Nat → Bool) : (g.setPred p m f).arrivedC = g.arrivedC := by unfold Group.setPred; split <;> rfl

@[simp] theorem Group.setPred_status (g : Group) (p : Nat) (m : Mask) (f : Nat → Bool) : (g.setPred p m f).status = g.status := by unfold Group.setPred; split <;> rfl

@[simp] theorem Group.setPred_halt (g : Group) (p : Nat) (m : Mask) (f : Nat → Bool) : (g.setPred p m f).halt = g.halt := by unfold Group.setPred; split <;> rfl

@[simp] theorem Group.setPred_stop (g : Group) (p : Nat) (m : Mask) (f : Nat → Bool) : (g.setPred p m f).stop = g.stop := by unfold Group.setPred; split <;> rfl

@[simp] theorem Group.setPred_active (g : Group) (p : Nat) (m : Mask) (f : Nat → Bool) : (g.setPred p m f).active = g.active := by unfold Group.setPred; split <;> rfl

@[simp] theorem Group.setPred_readyAt (g : Group) (p : Nat) (m : Mask) (f : Nat → Bool) : (g.setPred p m f).readyAt = g.readyAt := by unfold Group.setPred; split <;> rfl

@[simp] theorem Group.setPred_pending (g : Group) (p : Nat) (m : Mask) (f : Nat → Bool) : (g.setPred p m f).pending = g.pending := by unfold Group.setPred; split <;> rfl

@[simp] theorem Group.setPred_holds (g : Group) (p : Nat) (m : Mask) (f : Nat → Bool) : (g.setPred p m f).holds = g.holds := by unfold Group.setPred; split <;> rfl

@[simp] theorem Group.setPred_sigs (g : Group) (p : Nat) (m : Mask) (f : Nat → Bool) : (g.setPred p m f).sigs = g.sigs := by unfold Group.setPred; split <;> rfl

@[simp] theorem Group.setPred_met (g : Group) (p : Nat) (m : Mask) (f : Nat → Bool) : (g.setPred p m f).met = g.met := by unfold Group.setPred; split <;> rfl

@[simp] theorem Group.setPred_carrier (g : Group) (p : Nat) (m : Mask) (f : Nat → Bool) : (g.setPred p m f).carrier = g.carrier := by unfold Group.setPred; split <;> rfl

@[simp] theorem Group.setPred_started (g : Group) (p : Nat) (m : Mask) (f : Nat → Bool) : (g.setPred p m f).started = g.started := by unfold Group.setPred; split <;> rfl

@[simp] theorem Group.setPred_pace (g : Group) (p : Nat) (m : Mask) (f : Nat → Bool) : (g.setPred p m f).pace = g.pace := by unfold Group.setPred; split <;> rfl

@[simp] theorem Group.setPred_aim (g : Group) (p : Nat) (m : Mask) (f : Nat → Bool) : (g.setPred p m f).aim = g.aim := by unfold Group.setPred; split <;> rfl

@[simp] theorem Group.setPred_remote (g : Group) (p : Nat) (m : Mask) (f : Nat → Bool) : (g.setPred p m f).remote = g.remote := by unfold Group.setPred; split <;> rfl

/-! ## Group.raise: every field but flags, hazards -/

@[simp] theorem Group.raise_pc (g : Group) (m : Mask) (f : Nat → LaneFlags) (x : Bool) : (g.raise m f x).pc = g.pc := rfl

@[simp] theorem Group.raise_scalars (g : Group) (m : Mask) (f : Nat → LaneFlags) (x : Bool) : (g.raise m f x).scalars = g.scalars := rfl

@[simp] theorem Group.raise_exec (g : Group) (m : Mask) (f : Nat → LaneFlags) (x : Bool) : (g.raise m f x).exec = g.exec := rfl

@[simp] theorem Group.raise_present (g : Group) (m : Mask) (f : Nat → LaneFlags) (x : Bool) : (g.raise m f x).present = g.present := rfl

@[simp] theorem Group.raise_helper (g : Group) (m : Mask) (f : Nat → LaneFlags) (x : Bool) : (g.raise m f x).helper = g.helper := rfl

@[simp] theorem Group.raise_vectors (g : Group) (m : Mask) (f : Nat → LaneFlags) (x : Bool) : (g.raise m f x).vectors = g.vectors := rfl

@[simp] theorem Group.raise_preds (g : Group) (m : Mask) (f : Nat → LaneFlags) (x : Bool) : (g.raise m f x).preds = g.preds := rfl

@[simp] theorem Group.raise_brackets (g : Group) (m : Mask) (f : Nat → LaneFlags) (x : Bool) : (g.raise m f x).brackets = g.brackets := rfl

@[simp] theorem Group.raise_rng (g : Group) (m : Mask) (f : Nat → LaneFlags) (x : Bool) : (g.raise m f x).rng = g.rng := rfl

@[simp] theorem Group.raise_frm (g : Group) (m : Mask) (f : Nat → LaneFlags) (x : Bool) : (g.raise m f x).frm = g.frm := rfl

@[simp] theorem Group.raise_ten (g : Group) (m : Mask) (f : Nat → LaneFlags) (x : Bool) : (g.raise m f x).ten = g.ten := rfl

@[simp] theorem Group.raise_chk (g : Group) (m : Mask) (f : Nat → LaneFlags) (x : Bool) : (g.raise m f x).chk = g.chk := rfl

@[simp] theorem Group.raise_invtol (g : Group) (m : Mask) (f : Nat → LaneFlags) (x : Bool) : (g.raise m f x).invtol = g.invtol := rfl

@[simp] theorem Group.raise_invst (g : Group) (m : Mask) (f : Nat → LaneFlags) (x : Bool) : (g.raise m f x).invst = g.invst := rfl

@[simp] theorem Group.raise_repidx (g : Group) (m : Mask) (f : Nat → LaneFlags) (x : Bool) : (g.raise m f x).repidx = g.repidx := rfl

@[simp] theorem Group.raise_idz (g : Group) (m : Mask) (f : Nat → LaneFlags) (x : Bool) : (g.raise m f x).idz = g.idz := rfl

@[simp] theorem Group.raise_stoseed (g : Group) (m : Mask) (f : Nat → LaneFlags) (x : Bool) : (g.raise m f x).stoseed = g.stoseed := rfl

@[simp] theorem Group.raise_opkey (g : Group) (m : Mask) (f : Nat → LaneFlags) (x : Bool) : (g.raise m f x).opkey = g.opkey := rfl

@[simp] theorem Group.raise_cklive (g : Group) (m : Mask) (f : Nat → LaneFlags) (x : Bool) : (g.raise m f x).cklive = g.cklive := rfl

@[simp] theorem Group.raise_fstrm (g : Group) (m : Mask) (f : Nat → LaneFlags) (x : Bool) : (g.raise m f x).fstrm = g.fstrm := rfl

@[simp] theorem Group.raise_sepc (g : Group) (m : Mask) (f : Nat → LaneFlags) (x : Bool) : (g.raise m f x).sepc = g.sepc := rfl

@[simp] theorem Group.raise_gid (g : Group) (m : Mask) (f : Nat → LaneFlags) (x : Bool) : (g.raise m f x).gid = g.gid := rfl

@[simp] theorem Group.raise_role (g : Group) (m : Mask) (f : Nat → LaneFlags) (x : Bool) : (g.raise m f x).role = g.role := rfl

@[simp] theorem Group.raise_roleGid (g : Group) (m : Mask) (f : Nat → LaneFlags) (x : Bool) : (g.raise m f x).roleGid = g.roleGid := rfl

@[simp] theorem Group.raise_budget (g : Group) (m : Mask) (f : Nat → LaneFlags) (x : Bool) : (g.raise m f x).budget = g.budget := rfl

@[simp] theorem Group.raise_slot (g : Group) (m : Mask) (f : Nat → LaneFlags) (x : Bool) : (g.raise m f x).slot = g.slot := rfl

@[simp] theorem Group.raise_entries (g : Group) (m : Mask) (f : Nat → LaneFlags) (x : Bool) : (g.raise m f x).entries = g.entries := rfl

@[simp] theorem Group.raise_copies (g : Group) (m : Mask) (f : Nat → LaneFlags) (x : Bool) : (g.raise m f x).copies = g.copies := rfl

@[simp] theorem Group.raise_copySeal (g : Group) (m : Mask) (f : Nat → LaneFlags) (x : Bool) : (g.raise m f x).copySeal = g.copySeal := rfl

@[simp] theorem Group.raise_matrix (g : Group) (m : Mask) (f : Nat → LaneFlags) (x : Bool) : (g.raise m f x).matrix = g.matrix := rfl

@[simp] theorem Group.raise_matSeal (g : Group) (m : Mask) (f : Nat → LaneFlags) (x : Bool) : (g.raise m f x).matSeal = g.matSeal := rfl

@[simp] theorem Group.raise_walk (g : Group) (m : Mask) (f : Nat → LaneFlags) (x : Bool) : (g.raise m f x).walk = g.walk := rfl

@[simp] theorem Group.raise_rlabel (g : Group) (m : Mask) (f : Nat → LaneFlags) (x : Bool) : (g.raise m f x).rlabel = g.rlabel := rfl

@[simp] theorem Group.raise_redo (g : Group) (m : Mask) (f : Nat → LaneFlags) (x : Bool) : (g.raise m f x).redo = g.redo := rfl

@[simp] theorem Group.raise_arrivedB (g : Group) (m : Mask) (f : Nat → LaneFlags) (x : Bool) : (g.raise m f x).arrivedB = g.arrivedB := rfl

@[simp] theorem Group.raise_arrivedC (g : Group) (m : Mask) (f : Nat → LaneFlags) (x : Bool) : (g.raise m f x).arrivedC = g.arrivedC := rfl

@[simp] theorem Group.raise_status (g : Group) (m : Mask) (f : Nat → LaneFlags) (x : Bool) : (g.raise m f x).status = g.status := rfl

@[simp] theorem Group.raise_halt (g : Group) (m : Mask) (f : Nat → LaneFlags) (x : Bool) : (g.raise m f x).halt = g.halt := rfl

@[simp] theorem Group.raise_stop (g : Group) (m : Mask) (f : Nat → LaneFlags) (x : Bool) : (g.raise m f x).stop = g.stop := rfl

@[simp] theorem Group.raise_active (g : Group) (m : Mask) (f : Nat → LaneFlags) (x : Bool) : (g.raise m f x).active = g.active := rfl

@[simp] theorem Group.raise_readyAt (g : Group) (m : Mask) (f : Nat → LaneFlags) (x : Bool) : (g.raise m f x).readyAt = g.readyAt := rfl

@[simp] theorem Group.raise_pending (g : Group) (m : Mask) (f : Nat → LaneFlags) (x : Bool) : (g.raise m f x).pending = g.pending := rfl

@[simp] theorem Group.raise_holds (g : Group) (m : Mask) (f : Nat → LaneFlags) (x : Bool) : (g.raise m f x).holds = g.holds := rfl

@[simp] theorem Group.raise_sigs (g : Group) (m : Mask) (f : Nat → LaneFlags) (x : Bool) : (g.raise m f x).sigs = g.sigs := rfl

@[simp] theorem Group.raise_met (g : Group) (m : Mask) (f : Nat → LaneFlags) (x : Bool) : (g.raise m f x).met = g.met := rfl

@[simp] theorem Group.raise_carrier (g : Group) (m : Mask) (f : Nat → LaneFlags) (x : Bool) : (g.raise m f x).carrier = g.carrier := rfl

@[simp] theorem Group.raise_started (g : Group) (m : Mask) (f : Nat → LaneFlags) (x : Bool) : (g.raise m f x).started = g.started := rfl

@[simp] theorem Group.raise_pace (g : Group) (m : Mask) (f : Nat → LaneFlags) (x : Bool) : (g.raise m f x).pace = g.pace := rfl

@[simp] theorem Group.raise_aim (g : Group) (m : Mask) (f : Nat → LaneFlags) (x : Bool) : (g.raise m f x).aim = g.aim := rfl

@[simp] theorem Group.raise_remote (g : Group) (m : Mask) (f : Nat → LaneFlags) (x : Bool) : (g.raise m f x).remote = g.remote := rfl

/-! ## Group.clearFlags: every field but flags, hazards -/

@[simp] theorem Group.clearFlags_pc (g : Group) (m : Mask) (f : Nat → LaneFlags) : (g.clearFlags m f).pc = g.pc := rfl

@[simp] theorem Group.clearFlags_scalars (g : Group) (m : Mask) (f : Nat → LaneFlags) : (g.clearFlags m f).scalars = g.scalars := rfl

@[simp] theorem Group.clearFlags_exec (g : Group) (m : Mask) (f : Nat → LaneFlags) : (g.clearFlags m f).exec = g.exec := rfl

@[simp] theorem Group.clearFlags_present (g : Group) (m : Mask) (f : Nat → LaneFlags) : (g.clearFlags m f).present = g.present := rfl

@[simp] theorem Group.clearFlags_helper (g : Group) (m : Mask) (f : Nat → LaneFlags) : (g.clearFlags m f).helper = g.helper := rfl

@[simp] theorem Group.clearFlags_vectors (g : Group) (m : Mask) (f : Nat → LaneFlags) : (g.clearFlags m f).vectors = g.vectors := rfl

@[simp] theorem Group.clearFlags_preds (g : Group) (m : Mask) (f : Nat → LaneFlags) : (g.clearFlags m f).preds = g.preds := rfl

@[simp] theorem Group.clearFlags_brackets (g : Group) (m : Mask) (f : Nat → LaneFlags) : (g.clearFlags m f).brackets = g.brackets := rfl

@[simp] theorem Group.clearFlags_rng (g : Group) (m : Mask) (f : Nat → LaneFlags) : (g.clearFlags m f).rng = g.rng := rfl

@[simp] theorem Group.clearFlags_frm (g : Group) (m : Mask) (f : Nat → LaneFlags) : (g.clearFlags m f).frm = g.frm := rfl

@[simp] theorem Group.clearFlags_ten (g : Group) (m : Mask) (f : Nat → LaneFlags) : (g.clearFlags m f).ten = g.ten := rfl

@[simp] theorem Group.clearFlags_chk (g : Group) (m : Mask) (f : Nat → LaneFlags) : (g.clearFlags m f).chk = g.chk := rfl

@[simp] theorem Group.clearFlags_invtol (g : Group) (m : Mask) (f : Nat → LaneFlags) : (g.clearFlags m f).invtol = g.invtol := rfl

@[simp] theorem Group.clearFlags_invst (g : Group) (m : Mask) (f : Nat → LaneFlags) : (g.clearFlags m f).invst = g.invst := rfl

@[simp] theorem Group.clearFlags_repidx (g : Group) (m : Mask) (f : Nat → LaneFlags) : (g.clearFlags m f).repidx = g.repidx := rfl

@[simp] theorem Group.clearFlags_idz (g : Group) (m : Mask) (f : Nat → LaneFlags) : (g.clearFlags m f).idz = g.idz := rfl

@[simp] theorem Group.clearFlags_stoseed (g : Group) (m : Mask) (f : Nat → LaneFlags) : (g.clearFlags m f).stoseed = g.stoseed := rfl

@[simp] theorem Group.clearFlags_opkey (g : Group) (m : Mask) (f : Nat → LaneFlags) : (g.clearFlags m f).opkey = g.opkey := rfl

@[simp] theorem Group.clearFlags_cklive (g : Group) (m : Mask) (f : Nat → LaneFlags) : (g.clearFlags m f).cklive = g.cklive := rfl

@[simp] theorem Group.clearFlags_fstrm (g : Group) (m : Mask) (f : Nat → LaneFlags) : (g.clearFlags m f).fstrm = g.fstrm := rfl

@[simp] theorem Group.clearFlags_sepc (g : Group) (m : Mask) (f : Nat → LaneFlags) : (g.clearFlags m f).sepc = g.sepc := rfl

@[simp] theorem Group.clearFlags_gid (g : Group) (m : Mask) (f : Nat → LaneFlags) : (g.clearFlags m f).gid = g.gid := rfl

@[simp] theorem Group.clearFlags_role (g : Group) (m : Mask) (f : Nat → LaneFlags) : (g.clearFlags m f).role = g.role := rfl

@[simp] theorem Group.clearFlags_roleGid (g : Group) (m : Mask) (f : Nat → LaneFlags) : (g.clearFlags m f).roleGid = g.roleGid := rfl

@[simp] theorem Group.clearFlags_budget (g : Group) (m : Mask) (f : Nat → LaneFlags) : (g.clearFlags m f).budget = g.budget := rfl

@[simp] theorem Group.clearFlags_slot (g : Group) (m : Mask) (f : Nat → LaneFlags) : (g.clearFlags m f).slot = g.slot := rfl

@[simp] theorem Group.clearFlags_entries (g : Group) (m : Mask) (f : Nat → LaneFlags) : (g.clearFlags m f).entries = g.entries := rfl

@[simp] theorem Group.clearFlags_copies (g : Group) (m : Mask) (f : Nat → LaneFlags) : (g.clearFlags m f).copies = g.copies := rfl

@[simp] theorem Group.clearFlags_copySeal (g : Group) (m : Mask) (f : Nat → LaneFlags) : (g.clearFlags m f).copySeal = g.copySeal := rfl

@[simp] theorem Group.clearFlags_matrix (g : Group) (m : Mask) (f : Nat → LaneFlags) : (g.clearFlags m f).matrix = g.matrix := rfl

@[simp] theorem Group.clearFlags_matSeal (g : Group) (m : Mask) (f : Nat → LaneFlags) : (g.clearFlags m f).matSeal = g.matSeal := rfl

@[simp] theorem Group.clearFlags_walk (g : Group) (m : Mask) (f : Nat → LaneFlags) : (g.clearFlags m f).walk = g.walk := rfl

@[simp] theorem Group.clearFlags_rlabel (g : Group) (m : Mask) (f : Nat → LaneFlags) : (g.clearFlags m f).rlabel = g.rlabel := rfl

@[simp] theorem Group.clearFlags_redo (g : Group) (m : Mask) (f : Nat → LaneFlags) : (g.clearFlags m f).redo = g.redo := rfl

@[simp] theorem Group.clearFlags_arrivedB (g : Group) (m : Mask) (f : Nat → LaneFlags) : (g.clearFlags m f).arrivedB = g.arrivedB := rfl

@[simp] theorem Group.clearFlags_arrivedC (g : Group) (m : Mask) (f : Nat → LaneFlags) : (g.clearFlags m f).arrivedC = g.arrivedC := rfl

@[simp] theorem Group.clearFlags_status (g : Group) (m : Mask) (f : Nat → LaneFlags) : (g.clearFlags m f).status = g.status := rfl

@[simp] theorem Group.clearFlags_halt (g : Group) (m : Mask) (f : Nat → LaneFlags) : (g.clearFlags m f).halt = g.halt := rfl

@[simp] theorem Group.clearFlags_stop (g : Group) (m : Mask) (f : Nat → LaneFlags) : (g.clearFlags m f).stop = g.stop := rfl

@[simp] theorem Group.clearFlags_active (g : Group) (m : Mask) (f : Nat → LaneFlags) : (g.clearFlags m f).active = g.active := rfl

@[simp] theorem Group.clearFlags_readyAt (g : Group) (m : Mask) (f : Nat → LaneFlags) : (g.clearFlags m f).readyAt = g.readyAt := rfl

@[simp] theorem Group.clearFlags_pending (g : Group) (m : Mask) (f : Nat → LaneFlags) : (g.clearFlags m f).pending = g.pending := rfl

@[simp] theorem Group.clearFlags_holds (g : Group) (m : Mask) (f : Nat → LaneFlags) : (g.clearFlags m f).holds = g.holds := rfl

@[simp] theorem Group.clearFlags_sigs (g : Group) (m : Mask) (f : Nat → LaneFlags) : (g.clearFlags m f).sigs = g.sigs := rfl

@[simp] theorem Group.clearFlags_met (g : Group) (m : Mask) (f : Nat → LaneFlags) : (g.clearFlags m f).met = g.met := rfl

@[simp] theorem Group.clearFlags_carrier (g : Group) (m : Mask) (f : Nat → LaneFlags) : (g.clearFlags m f).carrier = g.carrier := rfl

@[simp] theorem Group.clearFlags_started (g : Group) (m : Mask) (f : Nat → LaneFlags) : (g.clearFlags m f).started = g.started := rfl

@[simp] theorem Group.clearFlags_pace (g : Group) (m : Mask) (f : Nat → LaneFlags) : (g.clearFlags m f).pace = g.pace := rfl

@[simp] theorem Group.clearFlags_aim (g : Group) (m : Mask) (f : Nat → LaneFlags) : (g.clearFlags m f).aim = g.aim := rfl

@[simp] theorem Group.clearFlags_remote (g : Group) (m : Mask) (f : Nat → LaneFlags) : (g.clearFlags m f).remote = g.remote := rfl

/-! ## Group.age: every field but hazards, redo, remote -/

@[simp] theorem Group.age_pc (g : Group) (new : List Hazard) : (g.age new).pc = g.pc := rfl

@[simp] theorem Group.age_scalars (g : Group) (new : List Hazard) : (g.age new).scalars = g.scalars := rfl

@[simp] theorem Group.age_exec (g : Group) (new : List Hazard) : (g.age new).exec = g.exec := rfl

@[simp] theorem Group.age_present (g : Group) (new : List Hazard) : (g.age new).present = g.present := rfl

@[simp] theorem Group.age_helper (g : Group) (new : List Hazard) : (g.age new).helper = g.helper := rfl

@[simp] theorem Group.age_vectors (g : Group) (new : List Hazard) : (g.age new).vectors = g.vectors := rfl

@[simp] theorem Group.age_preds (g : Group) (new : List Hazard) : (g.age new).preds = g.preds := rfl

@[simp] theorem Group.age_flags (g : Group) (new : List Hazard) : (g.age new).flags = g.flags := rfl

@[simp] theorem Group.age_brackets (g : Group) (new : List Hazard) : (g.age new).brackets = g.brackets := rfl

@[simp] theorem Group.age_rng (g : Group) (new : List Hazard) : (g.age new).rng = g.rng := rfl

@[simp] theorem Group.age_frm (g : Group) (new : List Hazard) : (g.age new).frm = g.frm := rfl

@[simp] theorem Group.age_ten (g : Group) (new : List Hazard) : (g.age new).ten = g.ten := rfl

@[simp] theorem Group.age_chk (g : Group) (new : List Hazard) : (g.age new).chk = g.chk := rfl

@[simp] theorem Group.age_invtol (g : Group) (new : List Hazard) : (g.age new).invtol = g.invtol := rfl

@[simp] theorem Group.age_invst (g : Group) (new : List Hazard) : (g.age new).invst = g.invst := rfl

@[simp] theorem Group.age_repidx (g : Group) (new : List Hazard) : (g.age new).repidx = g.repidx := rfl

@[simp] theorem Group.age_idz (g : Group) (new : List Hazard) : (g.age new).idz = g.idz := rfl

@[simp] theorem Group.age_stoseed (g : Group) (new : List Hazard) : (g.age new).stoseed = g.stoseed := rfl

@[simp] theorem Group.age_opkey (g : Group) (new : List Hazard) : (g.age new).opkey = g.opkey := rfl

@[simp] theorem Group.age_cklive (g : Group) (new : List Hazard) : (g.age new).cklive = g.cklive := rfl

@[simp] theorem Group.age_fstrm (g : Group) (new : List Hazard) : (g.age new).fstrm = g.fstrm := rfl

@[simp] theorem Group.age_sepc (g : Group) (new : List Hazard) : (g.age new).sepc = g.sepc := rfl

@[simp] theorem Group.age_gid (g : Group) (new : List Hazard) : (g.age new).gid = g.gid := rfl

@[simp] theorem Group.age_role (g : Group) (new : List Hazard) : (g.age new).role = g.role := rfl

@[simp] theorem Group.age_roleGid (g : Group) (new : List Hazard) : (g.age new).roleGid = g.roleGid := rfl

@[simp] theorem Group.age_budget (g : Group) (new : List Hazard) : (g.age new).budget = g.budget := rfl

@[simp] theorem Group.age_slot (g : Group) (new : List Hazard) : (g.age new).slot = g.slot := rfl

@[simp] theorem Group.age_entries (g : Group) (new : List Hazard) : (g.age new).entries = g.entries := rfl

@[simp] theorem Group.age_copies (g : Group) (new : List Hazard) : (g.age new).copies = g.copies := rfl

@[simp] theorem Group.age_copySeal (g : Group) (new : List Hazard) : (g.age new).copySeal = g.copySeal := rfl

@[simp] theorem Group.age_matrix (g : Group) (new : List Hazard) : (g.age new).matrix = g.matrix := rfl

@[simp] theorem Group.age_matSeal (g : Group) (new : List Hazard) : (g.age new).matSeal = g.matSeal := rfl

@[simp] theorem Group.age_walk (g : Group) (new : List Hazard) : (g.age new).walk = g.walk := rfl

@[simp] theorem Group.age_rlabel (g : Group) (new : List Hazard) : (g.age new).rlabel = g.rlabel := rfl

@[simp] theorem Group.age_arrivedB (g : Group) (new : List Hazard) : (g.age new).arrivedB = g.arrivedB := rfl

@[simp] theorem Group.age_arrivedC (g : Group) (new : List Hazard) : (g.age new).arrivedC = g.arrivedC := rfl

@[simp] theorem Group.age_status (g : Group) (new : List Hazard) : (g.age new).status = g.status := rfl

@[simp] theorem Group.age_halt (g : Group) (new : List Hazard) : (g.age new).halt = g.halt := rfl

@[simp] theorem Group.age_stop (g : Group) (new : List Hazard) : (g.age new).stop = g.stop := rfl

@[simp] theorem Group.age_active (g : Group) (new : List Hazard) : (g.age new).active = g.active := rfl

@[simp] theorem Group.age_readyAt (g : Group) (new : List Hazard) : (g.age new).readyAt = g.readyAt := rfl

@[simp] theorem Group.age_pending (g : Group) (new : List Hazard) : (g.age new).pending = g.pending := rfl

@[simp] theorem Group.age_holds (g : Group) (new : List Hazard) : (g.age new).holds = g.holds := rfl

@[simp] theorem Group.age_sigs (g : Group) (new : List Hazard) : (g.age new).sigs = g.sigs := rfl

@[simp] theorem Group.age_met (g : Group) (new : List Hazard) : (g.age new).met = g.met := rfl

@[simp] theorem Group.age_carrier (g : Group) (new : List Hazard) : (g.age new).carrier = g.carrier := rfl

@[simp] theorem Group.age_started (g : Group) (new : List Hazard) : (g.age new).started = g.started := rfl

@[simp] theorem Group.age_pace (g : Group) (new : List Hazard) : (g.age new).pace = g.pace := rfl

@[simp] theorem Group.age_aim (g : Group) (new : List Hazard) : (g.age new).aim = g.aim := rfl

/-! ## Group.sealHolds: every field but holds -/

@[simp] theorem Group.sealHolds_pc (g : Group) : (g.sealHolds).pc = g.pc := rfl

@[simp] theorem Group.sealHolds_scalars (g : Group) : (g.sealHolds).scalars = g.scalars := rfl

@[simp] theorem Group.sealHolds_exec (g : Group) : (g.sealHolds).exec = g.exec := rfl

@[simp] theorem Group.sealHolds_present (g : Group) : (g.sealHolds).present = g.present := rfl

@[simp] theorem Group.sealHolds_helper (g : Group) : (g.sealHolds).helper = g.helper := rfl

@[simp] theorem Group.sealHolds_vectors (g : Group) : (g.sealHolds).vectors = g.vectors := rfl

@[simp] theorem Group.sealHolds_preds (g : Group) : (g.sealHolds).preds = g.preds := rfl

@[simp] theorem Group.sealHolds_flags (g : Group) : (g.sealHolds).flags = g.flags := rfl

@[simp] theorem Group.sealHolds_brackets (g : Group) : (g.sealHolds).brackets = g.brackets := rfl

@[simp] theorem Group.sealHolds_rng (g : Group) : (g.sealHolds).rng = g.rng := rfl

@[simp] theorem Group.sealHolds_frm (g : Group) : (g.sealHolds).frm = g.frm := rfl

@[simp] theorem Group.sealHolds_ten (g : Group) : (g.sealHolds).ten = g.ten := rfl

@[simp] theorem Group.sealHolds_chk (g : Group) : (g.sealHolds).chk = g.chk := rfl

@[simp] theorem Group.sealHolds_invtol (g : Group) : (g.sealHolds).invtol = g.invtol := rfl

@[simp] theorem Group.sealHolds_invst (g : Group) : (g.sealHolds).invst = g.invst := rfl

@[simp] theorem Group.sealHolds_repidx (g : Group) : (g.sealHolds).repidx = g.repidx := rfl

@[simp] theorem Group.sealHolds_idz (g : Group) : (g.sealHolds).idz = g.idz := rfl

@[simp] theorem Group.sealHolds_stoseed (g : Group) : (g.sealHolds).stoseed = g.stoseed := rfl

@[simp] theorem Group.sealHolds_opkey (g : Group) : (g.sealHolds).opkey = g.opkey := rfl

@[simp] theorem Group.sealHolds_cklive (g : Group) : (g.sealHolds).cklive = g.cklive := rfl

@[simp] theorem Group.sealHolds_fstrm (g : Group) : (g.sealHolds).fstrm = g.fstrm := rfl

@[simp] theorem Group.sealHolds_sepc (g : Group) : (g.sealHolds).sepc = g.sepc := rfl

@[simp] theorem Group.sealHolds_gid (g : Group) : (g.sealHolds).gid = g.gid := rfl

@[simp] theorem Group.sealHolds_role (g : Group) : (g.sealHolds).role = g.role := rfl

@[simp] theorem Group.sealHolds_roleGid (g : Group) : (g.sealHolds).roleGid = g.roleGid := rfl

@[simp] theorem Group.sealHolds_budget (g : Group) : (g.sealHolds).budget = g.budget := rfl

@[simp] theorem Group.sealHolds_slot (g : Group) : (g.sealHolds).slot = g.slot := rfl

@[simp] theorem Group.sealHolds_entries (g : Group) : (g.sealHolds).entries = g.entries := rfl

@[simp] theorem Group.sealHolds_hazards (g : Group) : (g.sealHolds).hazards = g.hazards := rfl

@[simp] theorem Group.sealHolds_copies (g : Group) : (g.sealHolds).copies = g.copies := rfl

@[simp] theorem Group.sealHolds_copySeal (g : Group) : (g.sealHolds).copySeal = g.copySeal := rfl

@[simp] theorem Group.sealHolds_matrix (g : Group) : (g.sealHolds).matrix = g.matrix := rfl

@[simp] theorem Group.sealHolds_matSeal (g : Group) : (g.sealHolds).matSeal = g.matSeal := rfl

@[simp] theorem Group.sealHolds_walk (g : Group) : (g.sealHolds).walk = g.walk := rfl

@[simp] theorem Group.sealHolds_rlabel (g : Group) : (g.sealHolds).rlabel = g.rlabel := rfl

@[simp] theorem Group.sealHolds_redo (g : Group) : (g.sealHolds).redo = g.redo := rfl

@[simp] theorem Group.sealHolds_arrivedB (g : Group) : (g.sealHolds).arrivedB = g.arrivedB := rfl

@[simp] theorem Group.sealHolds_arrivedC (g : Group) : (g.sealHolds).arrivedC = g.arrivedC := rfl

@[simp] theorem Group.sealHolds_status (g : Group) : (g.sealHolds).status = g.status := rfl

@[simp] theorem Group.sealHolds_halt (g : Group) : (g.sealHolds).halt = g.halt := rfl

@[simp] theorem Group.sealHolds_stop (g : Group) : (g.sealHolds).stop = g.stop := rfl

@[simp] theorem Group.sealHolds_active (g : Group) : (g.sealHolds).active = g.active := rfl

@[simp] theorem Group.sealHolds_readyAt (g : Group) : (g.sealHolds).readyAt = g.readyAt := rfl

@[simp] theorem Group.sealHolds_pending (g : Group) : (g.sealHolds).pending = g.pending := rfl

@[simp] theorem Group.sealHolds_sigs (g : Group) : (g.sealHolds).sigs = g.sigs := rfl

@[simp] theorem Group.sealHolds_met (g : Group) : (g.sealHolds).met = g.met := rfl

@[simp] theorem Group.sealHolds_carrier (g : Group) : (g.sealHolds).carrier = g.carrier := rfl

@[simp] theorem Group.sealHolds_started (g : Group) : (g.sealHolds).started = g.started := rfl

@[simp] theorem Group.sealHolds_pace (g : Group) : (g.sealHolds).pace = g.pace := rfl

@[simp] theorem Group.sealHolds_aim (g : Group) : (g.sealHolds).aim = g.aim := rfl

@[simp] theorem Group.sealHolds_remote (g : Group) : (g.sealHolds).remote = g.remote := rfl

/-! ## Group.seed: every field but stoseed, rng -/

@[simp] theorem Group.seed_pc (g : Group) (v : Word) : (g.seed v).pc = g.pc := rfl

@[simp] theorem Group.seed_scalars (g : Group) (v : Word) : (g.seed v).scalars = g.scalars := rfl

@[simp] theorem Group.seed_exec (g : Group) (v : Word) : (g.seed v).exec = g.exec := rfl

@[simp] theorem Group.seed_present (g : Group) (v : Word) : (g.seed v).present = g.present := rfl

@[simp] theorem Group.seed_helper (g : Group) (v : Word) : (g.seed v).helper = g.helper := rfl

@[simp] theorem Group.seed_vectors (g : Group) (v : Word) : (g.seed v).vectors = g.vectors := rfl

@[simp] theorem Group.seed_preds (g : Group) (v : Word) : (g.seed v).preds = g.preds := rfl

@[simp] theorem Group.seed_flags (g : Group) (v : Word) : (g.seed v).flags = g.flags := rfl

@[simp] theorem Group.seed_brackets (g : Group) (v : Word) : (g.seed v).brackets = g.brackets := rfl

@[simp] theorem Group.seed_frm (g : Group) (v : Word) : (g.seed v).frm = g.frm := rfl

@[simp] theorem Group.seed_ten (g : Group) (v : Word) : (g.seed v).ten = g.ten := rfl

@[simp] theorem Group.seed_chk (g : Group) (v : Word) : (g.seed v).chk = g.chk := rfl

@[simp] theorem Group.seed_invtol (g : Group) (v : Word) : (g.seed v).invtol = g.invtol := rfl

@[simp] theorem Group.seed_invst (g : Group) (v : Word) : (g.seed v).invst = g.invst := rfl

@[simp] theorem Group.seed_repidx (g : Group) (v : Word) : (g.seed v).repidx = g.repidx := rfl

@[simp] theorem Group.seed_idz (g : Group) (v : Word) : (g.seed v).idz = g.idz := rfl

@[simp] theorem Group.seed_opkey (g : Group) (v : Word) : (g.seed v).opkey = g.opkey := rfl

@[simp] theorem Group.seed_cklive (g : Group) (v : Word) : (g.seed v).cklive = g.cklive := rfl

@[simp] theorem Group.seed_fstrm (g : Group) (v : Word) : (g.seed v).fstrm = g.fstrm := rfl

@[simp] theorem Group.seed_sepc (g : Group) (v : Word) : (g.seed v).sepc = g.sepc := rfl

@[simp] theorem Group.seed_gid (g : Group) (v : Word) : (g.seed v).gid = g.gid := rfl

@[simp] theorem Group.seed_role (g : Group) (v : Word) : (g.seed v).role = g.role := rfl

@[simp] theorem Group.seed_roleGid (g : Group) (v : Word) : (g.seed v).roleGid = g.roleGid := rfl

@[simp] theorem Group.seed_budget (g : Group) (v : Word) : (g.seed v).budget = g.budget := rfl

@[simp] theorem Group.seed_slot (g : Group) (v : Word) : (g.seed v).slot = g.slot := rfl

@[simp] theorem Group.seed_entries (g : Group) (v : Word) : (g.seed v).entries = g.entries := rfl

@[simp] theorem Group.seed_hazards (g : Group) (v : Word) : (g.seed v).hazards = g.hazards := rfl

@[simp] theorem Group.seed_copies (g : Group) (v : Word) : (g.seed v).copies = g.copies := rfl

@[simp] theorem Group.seed_copySeal (g : Group) (v : Word) : (g.seed v).copySeal = g.copySeal := rfl

@[simp] theorem Group.seed_matrix (g : Group) (v : Word) : (g.seed v).matrix = g.matrix := rfl

@[simp] theorem Group.seed_matSeal (g : Group) (v : Word) : (g.seed v).matSeal = g.matSeal := rfl

@[simp] theorem Group.seed_walk (g : Group) (v : Word) : (g.seed v).walk = g.walk := rfl

@[simp] theorem Group.seed_rlabel (g : Group) (v : Word) : (g.seed v).rlabel = g.rlabel := rfl

@[simp] theorem Group.seed_redo (g : Group) (v : Word) : (g.seed v).redo = g.redo := rfl

@[simp] theorem Group.seed_arrivedB (g : Group) (v : Word) : (g.seed v).arrivedB = g.arrivedB := rfl

@[simp] theorem Group.seed_arrivedC (g : Group) (v : Word) : (g.seed v).arrivedC = g.arrivedC := rfl

@[simp] theorem Group.seed_status (g : Group) (v : Word) : (g.seed v).status = g.status := rfl

@[simp] theorem Group.seed_halt (g : Group) (v : Word) : (g.seed v).halt = g.halt := rfl

@[simp] theorem Group.seed_stop (g : Group) (v : Word) : (g.seed v).stop = g.stop := rfl

@[simp] theorem Group.seed_active (g : Group) (v : Word) : (g.seed v).active = g.active := rfl

@[simp] theorem Group.seed_readyAt (g : Group) (v : Word) : (g.seed v).readyAt = g.readyAt := rfl

@[simp] theorem Group.seed_pending (g : Group) (v : Word) : (g.seed v).pending = g.pending := rfl

@[simp] theorem Group.seed_holds (g : Group) (v : Word) : (g.seed v).holds = g.holds := rfl

@[simp] theorem Group.seed_sigs (g : Group) (v : Word) : (g.seed v).sigs = g.sigs := rfl

@[simp] theorem Group.seed_met (g : Group) (v : Word) : (g.seed v).met = g.met := rfl

@[simp] theorem Group.seed_carrier (g : Group) (v : Word) : (g.seed v).carrier = g.carrier := rfl

@[simp] theorem Group.seed_started (g : Group) (v : Word) : (g.seed v).started = g.started := rfl

@[simp] theorem Group.seed_pace (g : Group) (v : Word) : (g.seed v).pace = g.pace := rfl

@[simp] theorem Group.seed_aim (g : Group) (v : Word) : (g.seed v).aim = g.aim := rfl

@[simp] theorem Group.seed_remote (g : Group) (v : Word) : (g.seed v).remote = g.remote := rfl

end Sys2Proof.Machine
end

