-- ==== Sys2Proof/Laws/Registers.lean ====
section
/-! SUPPORT. Reading a register of a group after a write: masks, scalars, vector registers, predicates and flags. -/

set_option Elab.async false

namespace Sys2Proof.Machine

/-! ## Masks -/

/-- The number whose bits a mask is made of. -/
theorem mask_sum (f : Nat → Bool) (n acc : Nat) :
    (List.range n).foldr (fun l acc => (if f l then 2 ^ l else 0) + acc) acc =
      (List.range n).foldr (fun l acc => (if f l then 2 ^ l else 0) + acc) 0 + acc := by
  induction n generalizing acc with
  | zero => simp
  | succ n ih =>
    simp only [List.range_succ, List.foldr_append, List.foldr_cons, List.foldr_nil]
    rw [ih ((if f n then 2 ^ n else 0) + acc), ih ((if f n then 2 ^ n else 0) + 0)]
    omega

theorem mask_bits (f : Nat → Bool) (n : Nat) :
    (List.range n).foldr (fun l acc => (if f l then 2 ^ l else 0) + acc) 0 < 2 ^ n ∧
    ∀ i, ((List.range n).foldr (fun l acc => (if f l then 2 ^ l else 0) + acc) 0).testBit i = (decide (i < n) && f i) := by
  induction n with
  | zero => simp
  | succ n ih =>
    have e : (List.range (n + 1)).foldr (fun l acc => (if f l then 2 ^ l else 0) + acc) 0 =
        (if f n then 2 ^ n else 0) + (List.range n).foldr (fun l acc => (if f l then 2 ^ l else 0) + acc) 0 := by
      simp only [List.range_succ, List.foldr_append, List.foldr_cons, List.foldr_nil]
      rw [mask_sum]; omega
    rw [e]
    generalize (List.range n).foldr (fun l acc => (if f l then 2 ^ l else 0) + acc) 0 = m at ih
    obtain ⟨hlt, hb⟩ := ih
    by_cases hf : f n
    · simp only [hf, if_true]
      refine ⟨by rw [Nat.pow_succ]; omega, fun i => ?_⟩
      rcases Nat.lt_trichotomy i n with h | h | h
      · rw [Nat.testBit_two_pow_add_gt h, hb]; simp [h, Nat.lt_succ_of_lt h]
      · subst h; rw [Nat.testBit_two_pow_add_eq, hb]; simp [hf]
      · rw [Nat.testBit_lt_two_pow]
        · simp; omega
        · calc 2 ^ n + m < 2 ^ (n + 1) := by rw [Nat.pow_succ]; omega
            _ ≤ 2 ^ i := Nat.pow_le_pow_right (by omega) h
    · have hz : (if f n = true then 2 ^ n else 0) = 0 := by simp [hf]
      rw [hz, Nat.zero_add]
      refine ⟨by rw [Nat.pow_succ]; omega, fun i => ?_⟩
      rw [hb]
      by_cases hi : i = n
      · subst hi; simp [hf]
      · simp [show (i < n + 1) = (i < n) by rw [eq_iff_iff]; omega]

/-- R97: a mask holds the lanes below 96 that it is made of. -/
@[simp] theorem hasLane_maskOf (f : Nat → Bool) (l : Nat) : hasLane (maskOf f) l = (decide (l < 96) && f l) := by
  unfold hasLane maskOf
  rw [BitVec.getLsbD_ofNat, (mask_bits f 96).2]
  simp

@[simp] theorem hasLane_and (a b : Mask) (l : Nat) : hasLane (a &&& b) l = (hasLane a l && hasLane b l) := by simp [hasLane]

@[simp] theorem hasLane_or (a b : Mask) (l : Nat) : hasLane (a ||| b) l = (hasLane a l || hasLane b l) := by simp [hasLane]

theorem hasLane_not (a : Mask) (l : Nat) (h : l < 96) : hasLane (~~~a) l = !hasLane a l := by simp [hasLane, h]

theorem hasLane_ge (a : Mask) (l : Nat) (h : 96 ≤ l) : hasLane a l = false := by
  simpa [hasLane] using BitVec.getLsbD_of_ge a l h

/-! ## Scalars (R13, R14) -/

/-- R14: s0 reads as zero. -/
@[simp] theorem scalar_zero (g : Group) : g.scalar 0 = 0 := rfl

/-- R14: a write of s0 changes nothing. -/
@[simp] theorem setScalar_zero (g : Group) (v : Word) : g.setScalar 0 v = g := rfl

/-- A scalar below s61 holds what was written. -/
theorem scalar_setScalar (g : Group) (n : Nat) (v : Word) (h0 : 0 < n) (h : n < 61) : (g.setScalar n v).scalar n = v := by
  have h0' : n ≠ 0 := by omega
  simp [Group.setScalar, Group.scalar, h0', h, readCell_writeCell]

/-- A write of a scalar below s61 leaves every other scalar alone. -/
theorem scalar_setScalar_other (g : Group) (n m : Nat) (v : Word) (h : n < 61) (hm : m ≠ n) :
    (g.setScalar n v).scalar m = g.scalar m := by
  unfold Group.setScalar
  split
  · rfl
  · simp [Group.scalar, Group.compacted, readCell_writeCell, hm]

/-- R13: a write of the activity mask leaves the scalars below s61 alone. -/
theorem scalar_setScalar_mask (g : Group) (n m : Nat) (v : Word) (h : 61 ≤ n) (hm : m < 61) :
    (g.setScalar n v).scalar m = g.scalar m := by
  have h0 : n ≠ 0 := by omega
  have h1 : ¬ n < 61 := by omega
  simp [Group.setScalar, Group.scalar, h0, h1, hm]

/-! ## Vector registers (R45) -/

/-- A vector register after a write. -/
theorem vec_setVec (g : Group) (r q l : Nat) (m : Mask) (f : Nat → LaneWord) (x : Bool) (h : l < 96) :
    (g.setVec r m f x).vec q l = if q = r ∧ hasLane m l = true then f l else g.vec q l := by
  unfold Group.vec Group.setVec
  simp only [readCell_writeRun]
  by_cases hq : q = r
  · subst hq
    simp [show q * 96 ≤ q * 96 + l ∧ q * 96 + l < q * 96 + 96 by omega]
  · have : ¬ (r * 96 ≤ q * 96 + l ∧ q * 96 + l < r * 96 + 96) := by omega
    simp [this, hq]

/-! ## Predicates and flags (R135, R138) -/

/-- R138: p0 is not written. -/
@[simp] theorem setPred_zero (g : Group) (m : Mask) (f : Nat → Bool) : g.setPred 0 m f = g := rfl

/-- A predicate after a write. -/
theorem pnum_setPred (g : Group) (p n l : Nat) (m : Mask) (f : Nat → Bool) (hp : p ≠ 0) (hl : l < 96) :
    (g.setPred p m f).pnum n l = if n = p ∧ p ≤ 7 ∧ hasLane m l = true then f l else g.pnum n l := by
  unfold Group.setPred Group.pnum
  simp only [hp, if_false]
  by_cases hn : n = p
  · subst hn
    by_cases h7 : n ≤ 7 <;> by_cases hm : hasLane m l <;>
      simp [hp, h7, hm, readCell_writeCell, hasLane_not m l hl, hl]
  · simp only [hn, false_and, if_false, readCell_writeCell]

/-- R135: a flag after a rise. -/
theorem flag_raise (g : Group) (m : Mask) (f : Nat → LaneFlags) (x : Bool) (k l : Nat) (hk : k < 6) (hl : l < 96) :
    hasLane (readCell (g.raise m f x).flags (8 + k)) l =
      (hasLane (readCell g.flags (8 + k)) l || (hasLane m l && !hasLane g.helper l && (f l).getLsbD k)) := by
  have hr : (g.raise m f x).flags = writeRun g.flags 8 6 (fun n =>
      readCell g.flags n ||| maskOf (fun l => hasLane m l && !hasLane g.helper l && (f l).getLsbD (n - 8))) := rfl
  rw [hr, readCell_writeRun, if_pos (by omega)]
  simp [hl]

end Sys2Proof.Machine
end

