-- ==== Sys2Proof/Laws/Groups.lean ====
section
/-! SUPPORT. The operations that every instruction goes through: finding the executing group and putting it back, the checks
of a unit (R64), and taking a trap. -/

set_option Elab.async false

namespace Sys2Proof.Machine

/-! ## Putting a block and a group back -/

/-- A block put back is the one found. -/
theorem block?_putBlock (s : State) (b c : Block) (h : s.block? b.id = some c) : (s.putBlock b).block? b.id = some b := by
  unfold State.block? State.putBlock at *
  generalize s.blocks = bs at *
  induction bs with
  | nil => simp at h
  | cons x rest ih =>
    by_cases hx : x.id = b.id
    · simp [hx]
    · have h' : rest.find? (fun y => y.id == b.id) = some c := by simpa [List.find?_cons, hx] using h
      simpa [List.find?_cons, hx] using ih h'

/-- The other blocks stay. -/
theorem block?_putBlock_other (s : State) (b : Block) (k : Nat) (h : k ≠ b.id) : (s.putBlock b).block? k = s.block? k := by
  unfold State.block? State.putBlock
  simp only
  generalize s.blocks = bs
  induction bs with
  | nil => rfl
  | cons x rest ih =>
    by_cases hx : x.id = b.id
    · have hb : (b.id == k) = false := by simpa using fun e => h e.symm
      have hk : (x.id == k) = false := by simpa [hx] using fun e : b.id = k => h e.symm
      rw [List.map_cons, if_pos hx, List.find?_cons, List.find?_cons, hb, hk]
      exact ih
    · rw [List.map_cons, if_neg hx, List.find?_cons, List.find?_cons]
      by_cases hk : (x.id == k) = true
      · rw [hk]
      · rw [Bool.not_eq_true] at hk; rw [hk]; exact ih

theorem block?_id (s : State) (k : Nat) (b : Block) (h : s.block? k = some b) : b.id = k := by
  simpa using List.find?_some h

theorem setNth_get {α : Type} (xs : List α) (k : Nat) (x y : α) (h : xs[k]? = some y) : (setNth xs k x)[k]? = some x := by
  induction xs generalizing k with
  | nil => simp at h
  | cons z rest ih =>
    cases k with
    | zero => rfl
    | succ k => simpa [setNth] using ih k (by simpa using h)

theorem setNth_get_other {α : Type} (xs : List α) (k j : Nat) (x : α) (h : j ≠ k) : (setNth xs k x)[j]? = xs[j]? := by
  induction xs generalizing k j with
  | nil => rfl
  | cons z rest ih =>
    cases k with
    | zero =>
      cases j with
      | zero => exact absurd rfl h
      | succ j => rfl
    | succ k =>
      cases j with
      | zero => rfl
      | succ j => simpa [setNth] using ih k j (by omega)

/-- What `current` answers outside a compacted region. -/
theorem current_plain (s : State) (b : Block) (g : Group) (hc : s.cur.cmp = false) :
    s.current = some (b, g) ↔ s.block? s.cur.blk = some b ∧ b.groups[s.cur.grp]? = some g := by
  unfold State.current Block.view Block.rawGroup
  cases hb : s.block? s.cur.blk with
  | none => simp
  | some c =>
    simp only [hc, Bool.false_eq_true, if_false, Option.some.injEq]
    cases hg : c.groups[s.cur.grp]? with
    | none => simp; intro e; subst e; simp [hg]
    | some x =>
      simp only [Option.some.injEq, Prod.mk.injEq]
      constructor
      · rintro ⟨rfl, rfl⟩; exact ⟨rfl, hg⟩
      · rintro ⟨rfl, h⟩; exact ⟨rfl, Option.some.inj (hg.symm.trans h)⟩

/-- The executing group after it has been put back, outside a compacted region. -/
theorem current_putGroup (s : State) (b : Block) (g x : Group) (hc : s.cur.cmp = false) (h : s.current = some (b, g)) :
    (s.putGroup x).current = some ({ b with groups := setNth b.groups s.cur.grp x }, x) := by
  obtain ⟨hb, hg⟩ := (current_plain s b g hc).mp h
  have hid := block?_id s _ b hb
  have e : s.putGroup x = s.putBlock { b with groups := setNth b.groups s.cur.grp x } := by
    simp [State.putGroup, State.putAt, hb, Block.putView, Block.putRaw, hc]
  rw [current_plain _ _ _ (by simpa using hc)]
  have hb' : s.block? ({ b with groups := setNth b.groups s.cur.grp x } : Block).id = some b := by
    simp only [hid]; exact hb
  refine ⟨?_, ?_⟩
  · have := block?_putBlock s { b with groups := setNth b.groups s.cur.grp x } b hb'
    simpa [e, hid] using this
  · simpa using setNth_get b.groups s.cur.grp x g hg

/-! ## The checks of a unit (R64) -/

/-- A unit whose checks pass performs its effect. -/
theorem onGroup_performs (s : State) (n : Need) (f : Block → Group → Group → State) (b : Block) (g : Group)
    (hc : s.current = some (b, g)) (hn : unitCause s b g n = none) :
    onGroup s n f = .next (f b g (g.seen s.tick n.reads n.flags)) := by
  simp only [onGroup, hc, hn]

/-- A unit that fails a check takes the trap of its first cause. -/
theorem onGroup_traps (s : State) (n : Need) (f : Block → Group → Group → State) (b : Block) (g : Group) (c : Byte)
    (hc : s.current = some (b, g)) (hn : unitCause s b g n = some c) :
    onGroup s n f = .next (s.trap { cause := c }) := by
  simp only [onGroup, hc, hn]

/-- Everything a unit can do: it has no group to run in, it traps, or it performs its effect. -/
theorem onGroup_next (s t : State) (n : Need) (f : Block → Group → Group → State) (h : onGroup s n f = .next t) :
    ∃ b g, s.current = some (b, g) ∧
      ((∃ c, unitCause s b g n = some c ∧ t = s.trap { cause := c }) ∨
       (unitCause s b g n = none ∧ t = f b g (g.seen s.tick n.reads n.flags))) := by
  unfold onGroup at h
  split at h
  · cases h
  · next b g hc =>
    refine ⟨b, g, hc, ?_⟩
    split at h
    · next c hn => exact .inl ⟨c, hn, by simpa using h.symm⟩
    · next hn => exact .inr ⟨hn, by simpa using h.symm⟩

/-- R64: the causes that a unit's checks can raise. -/
theorem unitCause_cases (s : State) (b : Block) (g : Group) (n : Need) (c : Byte) (h : unitCause s b g n = some c) :
    (c = 0x09 ∧ n.priv = true ∧ s.superOf b = false) ∨ (n.region = some c ∧ g.compacted = true) ∨ c = 0x0C ∨
    (c = 0x06 ∧ g.chk = true) := by
  unfold unitCause at h
  split at h
  · next hp => simp only [Bool.and_eq_true, Bool.not_eq_true'] at hp; exact .inl ⟨by simpa using h.symm, hp.1, hp.2⟩
  · split at h
    · next hr => simp only [Bool.and_eq_true] at hr; exact .inr (.inl ⟨h, hr.1⟩)
    · split at h
      · exact .inr (.inr (.inl (by simpa using h.symm)))
      · split at h
        · next hd => simp only [Bool.and_eq_true] at hd; exact .inr (.inr (.inr ⟨by simpa using h.symm, hd.1⟩))
        · cases h

/-- A unit without operands to check runs. -/
theorem unitCause_empty (s : State) (b : Block) (g : Group) : unitCause s b g {} = none := by
  simp only [unitCause]
  have : g.undersized [] false = false := by
    unfold Group.undersized
    rw [List.any_eq_false]
    intro h _
    cases h.reg <;> simp
  simp [this]

/-- R26, R27: a unit that completes changes nothing but the blocks. -/
theorem done_mem (s : State) (g : Group) (new : List Hazard) : (s.done g new).mem = s.mem := by simp

/-- A scalar result, everything it can do: it traps, or it writes the scalar and advances. -/
theorem age_scalar (g : Group) (new : List Hazard) (n : Nat) : (g.age new).scalar n = g.scalar n := rfl

theorem age_vec (g : Group) (new : List Hazard) (r l : Nat) : (g.age new).vec r l = g.vec r l := rfl

theorem age_pnum (g : Group) (new : List Hazard) (n l : Nat) : (g.age new).pnum n l = g.pnum n l := rfl

/-! ## Taking a trap (R345, R346) -/

theorem nsTime_mem (s : State) : s.nsTime.2.mem = s.mem := rfl

theorem stopGroup_mem (s : State) (r : GRef) (b : Block) (g : Group) (c : Cond) (d : Bool) :
    (s.stopGroup r b g c d).mem = s.mem := by
  unfold State.stopGroup
  simp only
  split <;> simp [State.nsTime]

theorem report_mem (s : State) (launch core : Nat) (c : Cond) : (s.report launch core c).mem = s.mem := by
  unfold State.report
  split <;> simp [State.nsTime]

theorem reportUnraised_mem (s : State) (b : Block) : (s.reportUnraised b).mem = s.mem := by
  have all : ∀ (cs : List (Byte × Word)) (s : State), (cs.foldl (fun (s : State) (c : Byte × Word) =>
      s.report b.launch b.core { cause := c.1, va := c.2 }) s).mem = s.mem := by
    intro cs
    induction cs with
    | nil => exact fun s => rfl
    | cons c cs ih => exact fun s => (ih _).trans (report_mem s _ _ _)
  unfold State.reportUnraised
  simp only
  split <;> split
  all_goals first | exact all _ s | rfl

theorem dropOperators_mem (s : State) (b : Block) : (s.dropOperators b).mem = s.mem := by
  unfold State.dropOperators
  simp only
  split <;> simp

theorem endOne_mem (s : State) (k : Nat) : (s.endOne k).mem = s.mem := by
  unfold State.endOne
  split
  · rfl
  · split
    · rfl
    · simp only [dropOperators_mem, reportUnraised_mem]
      split <;> simp

theorem endFatal_mem (s : State) (k : Nat) : (s.endFatal k).mem = s.mem := by
  unfold State.endFatal
  split
  · rfl
  · split <;> simp [endOne_mem]

theorem endSupervisor_mem (s : State) (b : Block) (g : Group) (c : Cond) : (s.endSupervisor b g c).mem = s.mem := by
  unfold State.endSupervisor State.reportFirmware
  simp [endFatal_mem, State.nsTime]

/-- A trap leaves memory alone. -/
theorem trap_mem (s : State) (c : Cond) : (s.trap c).mem = s.mem := by
  unfold State.trap
  split
  · rfl
  · split
    · simp [State.holdStop]
    · split
      · split
        · unfold State.meetBoth; split <;> simp [State.meetStop]
        · simp [State.meetStop]
      · split
        · split
          · simp
          · exact endSupervisor_mem s _ _ c
        · exact stopGroup_mem s _ _ _ c false

/-- A group that waits leaves memory alone. -/
theorem wait_mem (s : State) (w : Wait) : (s.wait w).mem = s.mem := by simp [State.wait]

/-! ## The shared runs of the families -/

/-- R67, R70: everything a scalar result can do: cause 0x07 inside a compacted region, or the write and the advance. -/
theorem scalarWrite_next (s t : State) (d : BitVec 6) (f : Group → Word) (h : scalarWrite d f s = .next t) :
    ∃ b g, s.current = some (b, g) ∧
      ((g.compacted = true ∧ d ≠ 0#6 ∧ t = s.trap { cause := 0x07 }) ∨
       ((g.compacted = false ∨ d = 0#6) ∧ t = s.done ((g.setScalar d.toNat (f g)).advance 2))) := by
  obtain ⟨b, g, hc, ⟨c, hn, ht⟩ | ⟨hn, ht⟩⟩ := onGroup_next s t _ _ h
  all_goals
    have hu : g.undersized [] false = false := by
      unfold Group.undersized
      rw [List.any_eq_false]
      intro h _
      cases h.reg <;> simp
    refine ⟨b, g, hc, ?_⟩
  · by_cases hd : d = 0#6 <;> by_cases hg : g.compacted <;> simp [scalarNeed, unitCause, hd, hg, hu] at hn
    exact .inl ⟨hg, hd, by rw [ht, ← hn]; rfl⟩
  · refine .inr ⟨?_, ht⟩
    by_cases hd : d = 0#6 <;> by_cases hg : g.compacted <;> simp [scalarNeed, unitCause, hd, hg, hu] at hn ⊢

/-- Everything a lane form can do: a trap of R64, or its effect on the executing group. -/
theorem runLane_next (s t : State) (f : LaneForm) (m : ModAlu) (len : Nat) (h : runLane f m len s = .next t) :
    ∃ b g, s.current = some (b, g) ∧
      ((∃ c, unitCause s b g f.need = some c ∧ t = s.trap { cause := c }) ∨
       (unitCause s b g f.need = none ∧
         t = s.done ((g.applyForm (g.seen s.tick f.need.reads f.need.flags) f m).advance len) (g.lateResults f))) :=
  onGroup_next s t _ _ h

/-- A lane form leaves memory alone. -/
theorem runLane_mem (s t : State) (f : LaneForm) (m : ModAlu) (len : Nat) (h : runLane f m len s = .next t) : t.mem = s.mem := by
  obtain ⟨b, g, _, ⟨c, _, ht⟩ | ⟨_, ht⟩⟩ := runLane_next s t f m len h
  · rw [ht, trap_mem]
  · rw [ht]; simp

end Sys2Proof.Machine
end

