-- ==== Sys2Proof/Laws/Memory.lean ====
section
/-! SUPPORT. Memory as the rest of the model sees it: reading a byte after a write to home, and the canonical form under
every operation that changes memory. -/

set_option Elab.async false

namespace Sys2Proof.Machine

/-! ## Read after write -/

/-- A byte of home after one byte has been written. -/
theorem putHome_home (s : State) (pa a : Nat) (v : Byte) :
    (s.putHome pa v).home a = if s.route a = s.route pa then v else s.home a :=
  readCell_writeCell s.mem (s.route pa) (s.route a) v

/-- A byte's place does not change with a write. -/
theorem putHome_route (s : State) (pa a : Nat) (v : Byte) : (s.putHome pa v).route a = s.route a := rfl

/-- A byte of home after one byte of HBM has changed. -/
theorem putByte_home (s : State) (pa a : Nat) (v : Byte) :
    (s.putByte pa v).home a = if s.route a = s.route pa then v else s.home a :=
  readCell_writeCell s.mem (s.route pa) (s.route a) v

theorem putByte_route (s : State) (pa a : Nat) (v : Byte) : (s.putByte pa v).route a = s.route a := rfl

theorem putBytes_route (s : State) (pa a : Nat) (bs : List Byte) : (s.putBytes pa bs).route a = s.route a := by
  induction bs generalizing s pa with
  | nil => rfl
  | cons b rest ih => exact (ih (s.putByte pa b) (pa + 1)).trans (putByte_route s pa a b)

theorem putHomeBytes_route (s : State) (pa a : Nat) (bs : List Byte) : (s.putHomeBytes pa bs).route a = s.route a :=
  putBytes_route s pa a bs

theorem putBytes_home_other (s : State) (pa a : Nat) (bs : List Byte)
    (h : ∀ k, k < bs.length → s.route a ≠ s.route (pa + k)) : (s.putBytes pa bs).home a = s.home a := by
  induction bs generalizing s pa with
  | nil => rfl
  | cons b rest ih =>
    have h0 : s.route a ≠ s.route pa := h 0 (by simp)
    have := ih (s.putByte pa b) (pa + 1) (fun k hk => by
      have := h (k + 1) (by simpa using hk)
      simpa [putByte_route, Nat.add_assoc, Nat.add_comm 1 k] using this)
    simpa [State.putBytes, putByte_home, h0] using this

/-- A byte of home outside the bytes written. -/
theorem putHomeBytes_home_other (s : State) (pa a : Nat) (bs : List Byte)
    (h : ∀ k, k < bs.length → s.route a ≠ s.route (pa + k)) : (s.putHomeBytes pa bs).home a = s.home a :=
  putBytes_home_other s pa a bs h

theorem putBytes_home (s : State) (pa k : Nat) (bs : List Byte) (hk : k < bs.length)
    (hd : ∀ i j, i < bs.length → j < bs.length → s.route (pa + i) = s.route (pa + j) → i = j) :
    (s.putBytes pa bs).home (pa + k) = bs.getD k 0 := by
  induction bs generalizing s pa k with
  | nil => simp at hk
  | cons b rest ih =>
    cases k with
    | zero =>
      have := putBytes_home_other (s.putByte pa b) (pa + 1) pa rest (fun j hj he => by
        have := hd 0 (j + 1) (by simp) (by simpa using hj) (by simpa [putByte_route, Nat.add_assoc, Nat.add_comm 1 j] using he)
        omega)
      simpa [State.putBytes, putByte_home] using this
    | succ k =>
      have := ih (s.putByte pa b) (pa + 1) k (by simpa using hk) (fun i j hi hj he => by
        have := hd (i + 1) (j + 1) (by simpa using hi) (by simpa using hj)
          (by simpa [putByte_route, Nat.add_assoc, Nat.add_comm 1] using he)
        omega)
      simpa [State.putBytes, Nat.add_assoc, Nat.add_comm 1 k] using this

/-- A byte of home among the bytes written, where no two of them have one place. -/
theorem putHomeBytes_home (s : State) (pa k : Nat) (bs : List Byte) (hk : k < bs.length)
    (hd : ∀ i j, i < bs.length → j < bs.length → s.route (pa + i) = s.route (pa + j) → i = j) :
    (s.putHomeBytes pa bs).home (pa + k) = bs.getD k 0 := putBytes_home s pa k bs hk hd

/-! ## The canonical form -/

/-- Reset memory lists nothing. -/
theorem reset_memory_wf : Memory.wf State.reset.mem = true := rfl

/-- A byte written at home keeps the canonical form. -/
theorem putHome_wf (s : State) (pa : Nat) (v : Byte) (h : Memory.wf s.mem = true) :
    Memory.wf (s.putHome pa v).mem = true := writeCell_wf s.mem (s.route pa) v h

theorem putBytes_wf (s : State) (pa : Nat) (bs : List Byte) (h : Memory.wf s.mem = true) :
    Memory.wf (s.putBytes pa bs).mem = true := by
  induction bs generalizing s pa with
  | nil => exact h
  | cons b rest ih => exact ih (s.putByte pa b) (pa + 1) (writeCell_wf s.mem (s.route pa) b h)

/-- Bytes written at home keep the canonical form. -/
theorem putHomeBytes_wf (s : State) (pa : Nat) (bs : List Byte) (h : Memory.wf s.mem = true) :
    Memory.wf (s.putHomeBytes pa bs).mem = true := putBytes_wf s pa bs h

/-- Marked bytes written at home keep the canonical form. -/
theorem putHomeCells_wf (s : State) (pa : Nat) (bs : List (Nat × Byte)) (h : Memory.wf s.mem = true) :
    Memory.wf (s.putHomeCells pa bs).mem = true := by
  change Memory.wf (bs.foldl (fun (s : State) (e : Nat × Byte) => s.putByte (pa + e.1) e.2) s).mem = true
  induction bs generalizing s with
  | nil => exact h
  | cons e rest ih => exact ih (s.putByte (pa + e.1) e.2) (writeCell_wf s.mem (s.route (pa + e.1)) e.2 h)

/-- An area whose layout is not architectural keeps the canonical form. -/
theorem scribble_wf (s t : State) (core : Nat) (ctx : BitVec 32) (pages : Nat) (va : Word) (n : Nat)
    (h : Memory.wf s.mem = true) (hs : s.scribble core ctx pages va n = .ok t) : Memory.wf t.mem = true := by
  induction pages generalizing s va n with
  | zero => simp only [State.scribble, Except.ok.injEq] at hs; exact hs ▸ h
  | succ pages ih =>
    simp only [State.scribble] at hs
    split at hs
    · simp only [Except.ok.injEq] at hs; exact hs ▸ h
    · split at hs
      · cases hs
      · next p _ =>
        refine ih _ _ _ ?_ hs
        split
        · exact writeRun_wf s.mem _ _ _ h
        · exact h

theorem keysRise_map_shift (c : Cells 8) (src dst lo : Nat) (hk : keysRise lo c = true) (h : ∀ e ∈ c, src ≤ e.1)
    (hlo : src ≤ lo) : keysRise (lo - src + dst) (c.map (fun e => (e.1 - src + dst, e.2))) = true := by
  induction c generalizing lo with
  | nil => rfl
  | cons e rest ih =>
    obtain ⟨k, v⟩ := e
    simp only [keysRise, Bool.and_eq_true, decide_eq_true_eq, List.map_cons] at hk ⊢
    have hs : src ≤ k := h (k, v) (by simp)
    refine ⟨by omega, ?_⟩
    have := ih (k + 1) hk.2 (fun e he => h e (by simp [he])) (by omega)
    rwa [show k + 1 - src + dst = k - src + dst + 1 by omega] at this

/-- Replacing a range by cells of that range keeps the canonical form. -/
theorem replaceRange_wf (c new : Cells 8) (a n : Nat) (h : cellsWf c = true) (hr : keysRise a new = true)
    (hn : ∀ e ∈ new, e.1 < a + n ∧ e.2 ≠ 0#8) : cellsWf (replaceRange c a n new) = true := by
  simp only [cellsWf, Bool.and_eq_true] at h ⊢
  unfold replaceRange
  refine ⟨?_, ?_⟩
  · refine keysRise_append _ _ 0 a (Nat.zero_le _) (keysRise_filter c 0 _ h.1) ?_ ?_
    · intro e he; simpa using (List.mem_filter.mp he).2
    · exact keysRise_append _ _ a (a + n) (by omega) hr (fun e he => (hn e he).1) (filter_ge_rise c 0 (a + n) h.1)
  · have hall := h.2
    rw [List.all_eq_true] at hall ⊢
    intro x hx
    simp only [List.mem_append, List.mem_filter] at hx
    rcases hx with hx | hx | hx
    · exact hall x hx.1
    · simpa using (hn x hx).2
    · exact hall x hx.1

theorem cellsOf_rise (a : Nat) (bs : List Byte) (k : Nat) :
    keysRise (a + k) (((bs.zipIdx k).filter (fun e => decide (e.1 ≠ 0))).map (fun e => (a + e.2, e.1))) = true := by
  induction bs generalizing k with
  | nil => rfl
  | cons b rest ih =>
    simp only [List.zipIdx_cons, List.filter]
    split
    · simp only [List.map_cons, keysRise, Bool.and_eq_true, decide_eq_true_eq]
      exact ⟨le_refl _, ih (k + 1)⟩
    · exact keysRise_mono _ (a + k) (a + (k + 1)) (by omega) (ih (k + 1))

/-- The cells that a migration brings lie in the destination frame, in rising order, and none is 0. -/
theorem migrated_cells (s : State) (data : List Byte) (h : Memory.wf s.mem = true) :
    keysRise s.mig.dst (s.migrated data) = true ∧
    ∀ e ∈ s.migrated data, e.1 < s.mig.dst + s.mig.size ∧ e.2 ≠ 0#8 := by
  simp only [Memory.wf, cellsWf, Bool.and_eq_true] at h
  unfold State.migrated
  simp only
  split
  · refine ⟨?_, ?_⟩
    · have hf : keysRise s.mig.src (s.mem.filter (fun e => decide (s.mig.src ≤ e.1) && decide (e.1 < s.mig.src + s.mig.size))) = true := by
        have h1 := filter_ge_rise s.mem 0 s.mig.src h.1
        have h2 := keysRise_filter _ s.mig.src (fun e => decide (e.1 < s.mig.src + s.mig.size)) h1
        simpa [List.filter_filter, Bool.and_comm] using h2
      have := keysRise_map_shift _ s.mig.src s.mig.dst s.mig.src hf
        (fun e he => by simpa using (Bool.and_eq_true _ _ |>.mp (List.mem_filter.mp he).2).1) (le_refl _)
      simpa using this
    · intro e he
      obtain ⟨x, hx, rfl⟩ := List.mem_map.mp he
      have hm := List.mem_filter.mp hx
      have hall := List.all_eq_true.mp h.2 x hm.1
      have hc := hm.2
      simp only [Bool.and_eq_true, decide_eq_true_eq] at hc
      exact ⟨by simp only; omega, by simpa using hall⟩
  · refine ⟨cellsOf_rise s.mig.dst (data.take s.mig.size) 0, ?_⟩
    intro e he
    obtain ⟨x, hx, rfl⟩ := List.mem_map.mp he
    have hm := List.mem_filter.mp hx
    have hi := List.mem_zipIdx hm.1
    have hl : (data.take s.mig.size).length ≤ s.mig.size := by simp
    exact ⟨by simp only; omega, by simpa using hm.2⟩

/-- A migration that lands keeps the canonical form. -/
theorem landFrame_wf (s : State) (data : List Byte) (h : Memory.wf s.mem = true) :
    Memory.wf (s.landFrame (s.migrated data)).mem = true :=
  replaceRange_wf s.mem _ _ _ h (migrated_cells s data h).1 (migrated_cells s data h).2

end Sys2Proof.Machine
end

