-- ==== Sys2Proof/Laws/PerInstr.lean ====
section
/-! SUPPORT. For each instruction: the decoders read the word that the encoder gives it as that instruction. -/

set_option Elab.async false

set_option linter.unusedSimpArgs false

namespace Sys2Proof.Laws.Encoding

/-- The raw decoders read an instruction's word as the instruction, and the word fits its parcels; a step without an
encoding has no word. -/
def Statement (i : Instr) : Prop :=
  ∀ s : BitVec 2,
    (i.parcels = 1 → decodeCompactRaw (i.word s) = some i ∧ i.word s < 2 ^ 16 ∧ i.word s % 2 = 0) ∧
    (i.parcels = 2 → decodeWordRaw (i.word s) = some i ∧ i.word s < 2 ^ 32 ∧ i.word s % 2 = 1 ∧
      sel (i.word s) 3 7 ≠ 0x7E ∧ fld (i.word s) 1 2 = s) ∧
    i.parcels < 3

/-- A step without an encoding. -/
theorem of_none {i : Instr} (h : i.parcels = 0) : Statement i :=
  fun _ => ⟨fun k => by omega, fun k => by omega, by omega⟩

/-- A compact instruction. -/
theorem of_compact {i : Instr} (h : i.parcels = 1)
    (k : ∀ s, decodeCompactRaw (i.word s) = some i ∧ i.word s < 2 ^ 16 ∧ i.word s % 2 = 0) : Statement i :=
  fun s => ⟨fun _ => k s, fun j => by omega, by omega⟩

/-- An instruction of one word. -/
theorem of_word {i : Instr} (h : i.parcels = 2)
    (k : ∀ s, decodeWordRaw (i.word s) = some i ∧ i.word s < 2 ^ 32 ∧ i.word s % 2 = 1 ∧
      sel (i.word s) 3 7 ≠ 0x7E ∧ fld (i.word s) 1 2 = s) : Statement i :=
  fun s => ⟨fun j => by omega, fun _ => k s, by omega⟩

/-! The word decoder by op7. -/

theorem raw01 {w : Nat} (h : sel w 3 7 = 0x01) : decodeWordRaw w = decodeOp01 w := by
  rw [decodeWordRaw, h]; rfl

theorem raw02 {w : Nat} (h : sel w 3 7 = 0x02) : decodeWordRaw w = decodeOp02 w := by
  rw [decodeWordRaw, h]; rfl

theorem raw03 {w : Nat} (h : sel w 3 7 = 0x03) : decodeWordRaw w = some (.saddi (fld w 22 10) (fld w 16 6) (fld w 10 6)) := by
  rw [decodeWordRaw, h]; rfl

theorem raw04 {w : Nat} (h : sel w 3 7 = 0x04) : decodeWordRaw w = some (.sandi (fld w 22 10) (fld w 16 6) (fld w 10 6)) := by
  rw [decodeWordRaw, h]; rfl

theorem raw05 {w : Nat} (h : sel w 3 7 = 0x05) : decodeWordRaw w = some (.sori (fld w 22 10) (fld w 16 6) (fld w 10 6)) := by
  rw [decodeWordRaw, h]; rfl

theorem raw06 {w : Nat} (h : sel w 3 7 = 0x06) : decodeWordRaw w = some (.sxori (fld w 22 10) (fld w 16 6) (fld w 10 6)) := by
  rw [decodeWordRaw, h]; rfl

theorem raw07 {w : Nat} (h : sel w 3 7 = 0x07) : decodeWordRaw w = decodeOp07 w := by
  rw [decodeWordRaw, h]; rfl

theorem raw08 {w : Nat} (h : sel w 3 7 = 0x08) : decodeWordRaw w = decodeOp08 w := by
  rw [decodeWordRaw, h]; rfl

theorem raw09 {w : Nat} (h : sel w 3 7 = 0x09) : decodeWordRaw w = decodeOp09 w := by
  rw [decodeWordRaw, h]; rfl

theorem raw0A {w : Nat} (h : sel w 3 7 = 0x0A) : decodeWordRaw w = some (.sli (fld w 16 16) (fld w 10 6)) := by
  rw [decodeWordRaw, h]; rfl

theorem raw0B {w : Nat} (h : sel w 3 7 = 0x0B) : decodeWordRaw w = some (.slh16 (fld w 16 16) (fld w 10 6)) := by
  rw [decodeWordRaw, h]; rfl

theorem raw0C {w : Nat} (h : sel w 3 7 = 0x0C) : decodeWordRaw w = some (.slh32 (fld w 16 16) (fld w 10 6)) := by
  rw [decodeWordRaw, h]; rfl

theorem raw0D {w : Nat} (h : sel w 3 7 = 0x0D) : decodeWordRaw w = some (.slh48 (fld w 16 16) (fld w 10 6)) := by
  rw [decodeWordRaw, h]; rfl

theorem raw0E {w : Nat} (h : sel w 3 7 = 0x0E) : decodeWordRaw w = some (.sld (fld w 24 8) (fld w 22 2) (fld w 16 6) (fld w 10 6)) := by
  rw [decodeWordRaw, h]; rfl

theorem raw0F {w : Nat} (h : sel w 3 7 = 0x0F) : decodeWordRaw w = some (.sst (fld w 24 8) (fld w 22 2) (fld w 16 6) (fld w 10 6)) := by
  rw [decodeWordRaw, h]; rfl

theorem raw10 {w : Nat} (h : sel w 3 7 = 0x10) : decodeWordRaw w = some (.sldc (fld w 24 8) (fld w 22 2) (fld w 16 6) (fld w 10 6)) := by
  rw [decodeWordRaw, h]; rfl

theorem raw11 {w : Nat} (h : sel w 3 7 = 0x11) : decodeWordRaw w = decodeOp11 w := by
  rw [decodeWordRaw, h]; rfl

theorem raw12 {w : Nat} (h : sel w 3 7 = 0x12) : decodeWordRaw w = decodeOp12 w := by
  rw [decodeWordRaw, h]; rfl

theorem raw13 {w : Nat} (h : sel w 3 7 = 0x13) : decodeWordRaw w = decodeOp13 w := by
  rw [decodeWordRaw, h]; rfl

theorem raw14 {w : Nat} (h : sel w 3 7 = 0x14) : decodeWordRaw w = some (.brz (fld w 16 16) (fld w 10 6)) := by
  rw [decodeWordRaw, h]; rfl

theorem raw15 {w : Nat} (h : sel w 3 7 = 0x15) : decodeWordRaw w = some (.brnz (fld w 16 16) (fld w 10 6)) := by
  rw [decodeWordRaw, h]; rfl

theorem raw16 {w : Nat} (h : sel w 3 7 = 0x16) : decodeWordRaw w = some (.loop (fld w 16 16) (fld w 10 6)) := by
  rw [decodeWordRaw, h]; rfl

theorem raw17 {w : Nat} (h : sel w 3 7 = 0x17) : decodeWordRaw w = decodeOp17 w := by
  rw [decodeWordRaw, h]; rfl

theorem raw18 {w : Nat} (h : sel w 3 7 = 0x18) : decodeWordRaw w = decodeOp18 w := by
  rw [decodeWordRaw, h]; rfl

theorem raw19 {w : Nat} (h : sel w 3 7 = 0x19) : decodeWordRaw w = decodeOp19 w := by
  rw [decodeWordRaw, h]; rfl

theorem raw1A {w : Nat} (h : sel w 3 7 = 0x1A) : decodeWordRaw w = decodeOp1A w := by
  rw [decodeWordRaw, h]; rfl

theorem raw1B {w : Nat} (h : sel w 3 7 = 0x1B) : decodeWordRaw w = decodeOp1B w := by
  rw [decodeWordRaw, h]; rfl

theorem raw1C {w : Nat} (h : sel w 3 7 = 0x1C) : decodeWordRaw w = decodeOp1C w := by
  rw [decodeWordRaw, h]; rfl

theorem raw1D {w : Nat} (h : sel w 3 7 = 0x1D) : decodeWordRaw w = decodeOp1D w := by
  rw [decodeWordRaw, h]; rfl

theorem raw1E {w : Nat} (h : sel w 3 7 = 0x1E) : decodeWordRaw w = decodeOp1E w := by
  rw [decodeWordRaw, h]; rfl

theorem raw1F {w : Nat} (h : sel w 3 7 = 0x1F) : decodeWordRaw w = decodeOp1F w := by
  rw [decodeWordRaw, h]; rfl

theorem raw20 {w : Nat} (h : sel w 3 7 = 0x20) : decodeWordRaw w = some (.vaddI32 (fld w 31 1) (fld w 24 7) (fld w 17 7) (fld w 10 7)) := by
  rw [decodeWordRaw, h]; rfl

theorem raw21 {w : Nat} (h : sel w 3 7 = 0x21) : decodeWordRaw w = some (.vsubI32 (fld w 31 1) (fld w 24 7) (fld w 17 7) (fld w 10 7)) := by
  rw [decodeWordRaw, h]; rfl

theorem raw22 {w : Nat} (h : sel w 3 7 = 0x22) : decodeWordRaw w = some (.vmulI32 (fld w 31 1) (fld w 24 7) (fld w 17 7) (fld w 10 7)) := by
  rw [decodeWordRaw, h]; rfl

theorem raw23 {w : Nat} (h : sel w 3 7 = 0x23) : decodeWordRaw w = some (.vmulh (fld w 31 1) (fld w 24 7) (fld w 17 7) (fld w 10 7)) := by
  rw [decodeWordRaw, h]; rfl

theorem raw24 {w : Nat} (h : sel w 3 7 = 0x24) : decodeWordRaw w = some (.vmulhz (fld w 31 1) (fld w 24 7) (fld w 17 7) (fld w 10 7)) := by
  rw [decodeWordRaw, h]; rfl

theorem raw25 {w : Nat} (h : sel w 3 7 = 0x25) : decodeWordRaw w = some (.vmadI32 (fld w 31 1) (fld w 24 7) (fld w 17 7) (fld w 10 7)) := by
  rw [decodeWordRaw, h]; rfl

theorem raw26 {w : Nat} (h : sel w 3 7 = 0x26) : decodeWordRaw w = some (.vand (fld w 31 1) (fld w 24 7) (fld w 17 7) (fld w 10 7)) := by
  rw [decodeWordRaw, h]; rfl

theorem raw27 {w : Nat} (h : sel w 3 7 = 0x27) : decodeWordRaw w = some (.vor (fld w 31 1) (fld w 24 7) (fld w 17 7) (fld w 10 7)) := by
  rw [decodeWordRaw, h]; rfl

theorem raw28 {w : Nat} (h : sel w 3 7 = 0x28) : decodeWordRaw w = some (.vxor (fld w 31 1) (fld w 24 7) (fld w 17 7) (fld w 10 7)) := by
  rw [decodeWordRaw, h]; rfl

theorem raw29 {w : Nat} (h : sel w 3 7 = 0x29) : decodeWordRaw w = some (.vshl (fld w 31 1) (fld w 24 7) (fld w 17 7) (fld w 10 7)) := by
  rw [decodeWordRaw, h]; rfl

theorem raw2A {w : Nat} (h : sel w 3 7 = 0x2A) : decodeWordRaw w = some (.vshr (fld w 31 1) (fld w 24 7) (fld w 17 7) (fld w 10 7)) := by
  rw [decodeWordRaw, h]; rfl

theorem raw2B {w : Nat} (h : sel w 3 7 = 0x2B) : decodeWordRaw w = some (.vsra (fld w 31 1) (fld w 24 7) (fld w 17 7) (fld w 10 7)) := by
  rw [decodeWordRaw, h]; rfl

theorem raw2C {w : Nat} (h : sel w 3 7 = 0x2C) : decodeWordRaw w = some (.vminI32 (fld w 31 1) (fld w 24 7) (fld w 17 7) (fld w 10 7)) := by
  rw [decodeWordRaw, h]; rfl

theorem raw2D {w : Nat} (h : sel w 3 7 = 0x2D) : decodeWordRaw w = some (.vmaxI32 (fld w 31 1) (fld w 24 7) (fld w 17 7) (fld w 10 7)) := by
  rw [decodeWordRaw, h]; rfl

theorem raw2E {w : Nat} (h : sel w 3 7 = 0x2E) : decodeWordRaw w = some (.vminZ32 (fld w 31 1) (fld w 24 7) (fld w 17 7) (fld w 10 7)) := by
  rw [decodeWordRaw, h]; rfl

theorem raw2F {w : Nat} (h : sel w 3 7 = 0x2F) : decodeWordRaw w = some (.vmaxZ32 (fld w 31 1) (fld w 24 7) (fld w 17 7) (fld w 10 7)) := by
  rw [decodeWordRaw, h]; rfl

theorem raw30 {w : Nat} (h : sel w 3 7 = 0x30) : decodeWordRaw w = some (.vabsd (fld w 31 1) (fld w 24 7) (fld w 17 7) (fld w 10 7)) := by
  rw [decodeWordRaw, h]; rfl

theorem raw31 {w : Nat} (h : sel w 3 7 = 0x31) : decodeWordRaw w = decodeOp31 w := by
  rw [decodeWordRaw, h]; rfl

theorem raw32 {w : Nat} (h : sel w 3 7 = 0x32) : decodeWordRaw w = some (.vbfeI32 (fld w 31 1) (fld w 24 7) (fld w 17 7) (fld w 10 7)) := by
  rw [decodeWordRaw, h]; rfl

theorem raw33 {w : Nat} (h : sel w 3 7 = 0x33) : decodeWordRaw w = some (.vbfeZ32 (fld w 31 1) (fld w 24 7) (fld w 17 7) (fld w 10 7)) := by
  rw [decodeWordRaw, h]; rfl

theorem raw34 {w : Nat} (h : sel w 3 7 = 0x34) : decodeWordRaw w = some (.vbfi (fld w 31 1) (fld w 24 7) (fld w 17 7) (fld w 10 7)) := by
  rw [decodeWordRaw, h]; rfl

theorem raw35 {w : Nat} (h : sel w 3 7 = 0x35) : decodeWordRaw w = decodeOp35 w := by
  rw [decodeWordRaw, h]; rfl

theorem raw36 {w : Nat} (h : sel w 3 7 = 0x36) : decodeWordRaw w = some (.vdot4I8 (fld w 31 1) (fld w 24 7) (fld w 17 7) (fld w 10 7)) := by
  rw [decodeWordRaw, h]; rfl

theorem raw37 {w : Nat} (h : sel w 3 7 = 0x37) : decodeWordRaw w = some (.vdot4Z8 (fld w 31 1) (fld w 24 7) (fld w 17 7) (fld w 10 7)) := by
  rw [decodeWordRaw, h]; rfl

theorem raw38 {w : Nat} (h : sel w 3 7 = 0x38) : decodeWordRaw w = some (.vaddi (fld w 24 8) (fld w 17 7) (fld w 10 7)) := by
  rw [decodeWordRaw, h]; rfl

theorem raw39 {w : Nat} (h : sel w 3 7 = 0x39) : decodeWordRaw w = decodeOp39 w := by
  rw [decodeWordRaw, h]; rfl

theorem raw3A {w : Nat} (h : sel w 3 7 = 0x3A) : decodeWordRaw w = decodeOp3A w := by
  rw [decodeWordRaw, h]; rfl

theorem raw3B {w : Nat} (h : sel w 3 7 = 0x3B) : decodeWordRaw w = decodeOp3B w := by
  rw [decodeWordRaw, h]; rfl

theorem raw3C {w : Nat} (h : sel w 3 7 = 0x3C) : decodeWordRaw w = some (.vandi (fld w 24 8) (fld w 17 7) (fld w 10 7)) := by
  rw [decodeWordRaw, h]; rfl

theorem raw3D {w : Nat} (h : sel w 3 7 = 0x3D) : decodeWordRaw w = some (.vli (fld w 17 15) (fld w 10 7)) := by
  rw [decodeWordRaw, h]; rfl

theorem raw3E {w : Nat} (h : sel w 3 7 = 0x3E) : decodeWordRaw w = decodeOp3E w := by
  rw [decodeWordRaw, h]; rfl

theorem raw3F {w : Nat} (h : sel w 3 7 = 0x3F) : decodeWordRaw w = some (.vicmp (fld w 31 1) (fld w 24 7) (fld w 17 7) (fld w 13 4) (fld w 10 3)) := by
  rw [decodeWordRaw, h]; rfl

theorem raw40 {w : Nat} (h : sel w 3 7 = 0x40) : decodeWordRaw w = some (.vfaddF32 (fld w 31 1) (fld w 24 7) (fld w 17 7) (fld w 10 7)) := by
  rw [decodeWordRaw, h]; rfl

theorem raw41 {w : Nat} (h : sel w 3 7 = 0x41) : decodeWordRaw w = some (.vfsubF32 (fld w 31 1) (fld w 24 7) (fld w 17 7) (fld w 10 7)) := by
  rw [decodeWordRaw, h]; rfl

theorem raw42 {w : Nat} (h : sel w 3 7 = 0x42) : decodeWordRaw w = some (.vfmulF32 (fld w 31 1) (fld w 24 7) (fld w 17 7) (fld w 10 7)) := by
  rw [decodeWordRaw, h]; rfl

theorem raw43 {w : Nat} (h : sel w 3 7 = 0x43) : decodeWordRaw w = some (.vfmaF32 (fld w 31 1) (fld w 24 7) (fld w 17 7) (fld w 10 7)) := by
  rw [decodeWordRaw, h]; rfl

theorem raw44 {w : Nat} (h : sel w 3 7 = 0x44) : decodeWordRaw w = some (.vfminF32 (fld w 31 1) (fld w 24 7) (fld w 17 7) (fld w 10 7)) := by
  rw [decodeWordRaw, h]; rfl

theorem raw45 {w : Nat} (h : sel w 3 7 = 0x45) : decodeWordRaw w = some (.vfmaxF32 (fld w 31 1) (fld w 24 7) (fld w 17 7) (fld w 10 7)) := by
  rw [decodeWordRaw, h]; rfl

theorem raw46 {w : Nat} (h : sel w 3 7 = 0x46) : decodeWordRaw w = some (.vfaddH2 (fld w 31 1) (fld w 24 7) (fld w 17 7) (fld w 10 7)) := by
  rw [decodeWordRaw, h]; rfl

theorem raw47 {w : Nat} (h : sel w 3 7 = 0x47) : decodeWordRaw w = some (.vfsubH2 (fld w 31 1) (fld w 24 7) (fld w 17 7) (fld w 10 7)) := by
  rw [decodeWordRaw, h]; rfl

theorem raw48 {w : Nat} (h : sel w 3 7 = 0x48) : decodeWordRaw w = some (.vfmulH2 (fld w 31 1) (fld w 24 7) (fld w 17 7) (fld w 10 7)) := by
  rw [decodeWordRaw, h]; rfl

theorem raw49 {w : Nat} (h : sel w 3 7 = 0x49) : decodeWordRaw w = some (.vfmaH2 (fld w 31 1) (fld w 24 7) (fld w 17 7) (fld w 10 7)) := by
  rw [decodeWordRaw, h]; rfl

theorem raw4A {w : Nat} (h : sel w 3 7 = 0x4A) : decodeWordRaw w = some (.vfminH2 (fld w 31 1) (fld w 24 7) (fld w 17 7) (fld w 10 7)) := by
  rw [decodeWordRaw, h]; rfl

theorem raw4B {w : Nat} (h : sel w 3 7 = 0x4B) : decodeWordRaw w = some (.vfmaxH2 (fld w 31 1) (fld w 24 7) (fld w 17 7) (fld w 10 7)) := by
  rw [decodeWordRaw, h]; rfl

theorem raw4C {w : Nat} (h : sel w 3 7 = 0x4C) : decodeWordRaw w = some (.vfaddB2 (fld w 31 1) (fld w 24 7) (fld w 17 7) (fld w 10 7)) := by
  rw [decodeWordRaw, h]; rfl

theorem raw4D {w : Nat} (h : sel w 3 7 = 0x4D) : decodeWordRaw w = some (.vfsubB2 (fld w 31 1) (fld w 24 7) (fld w 17 7) (fld w 10 7)) := by
  rw [decodeWordRaw, h]; rfl

theorem raw4E {w : Nat} (h : sel w 3 7 = 0x4E) : decodeWordRaw w = some (.vfmulB2 (fld w 31 1) (fld w 24 7) (fld w 17 7) (fld w 10 7)) := by
  rw [decodeWordRaw, h]; rfl

theorem raw4F {w : Nat} (h : sel w 3 7 = 0x4F) : decodeWordRaw w = some (.vfmaB2 (fld w 31 1) (fld w 24 7) (fld w 17 7) (fld w 10 7)) := by
  rw [decodeWordRaw, h]; rfl

theorem raw50 {w : Nat} (h : sel w 3 7 = 0x50) : decodeWordRaw w = some (.vfminB2 (fld w 31 1) (fld w 24 7) (fld w 17 7) (fld w 10 7)) := by
  rw [decodeWordRaw, h]; rfl

theorem raw51 {w : Nat} (h : sel w 3 7 = 0x51) : decodeWordRaw w = some (.vfmaxB2 (fld w 31 1) (fld w 24 7) (fld w 17 7) (fld w 10 7)) := by
  rw [decodeWordRaw, h]; rfl

theorem raw52 {w : Nat} (h : sel w 3 7 = 0x52) : decodeWordRaw w = decodeOp52 w := by
  rw [decodeWordRaw, h]; rfl

theorem raw53 {w : Nat} (h : sel w 3 7 = 0x53) : decodeWordRaw w = some (.vfcmp (fld w 31 1) (fld w 24 7) (fld w 17 7) (fld w 13 4) (fld w 10 3)) := by
  rw [decodeWordRaw, h]; rfl

theorem raw54 {w : Nat} (h : sel w 3 7 = 0x54) : decodeWordRaw w = some (.vcvt (fld w 28 4) (fld w 24 4) (fld w 17 7) (fld w 10 7)) := by
  rw [decodeWordRaw, h]; rfl

theorem raw55 {w : Nat} (h : sel w 3 7 = 0x55) : decodeWordRaw w = decodeOp55 w := by
  rw [decodeWordRaw, h]; rfl

theorem raw56 {w : Nat} (h : sel w 3 7 = 0x56) : decodeWordRaw w = decodeOp56 w := by
  rw [decodeWordRaw, h]; rfl

theorem raw57 {w : Nat} (h : sel w 3 7 = 0x57) : decodeWordRaw w = some (.vshflIdx (fld w 31 1) (fld w 24 7) (fld w 17 7) (fld w 10 7)) := by
  rw [decodeWordRaw, h]; rfl

theorem raw58 {w : Nat} (h : sel w 3 7 = 0x58) : decodeWordRaw w = some (.vshflUp (fld w 31 1) (fld w 24 7) (fld w 17 7) (fld w 10 7)) := by
  rw [decodeWordRaw, h]; rfl

theorem raw59 {w : Nat} (h : sel w 3 7 = 0x59) : decodeWordRaw w = some (.vshflDn (fld w 31 1) (fld w 24 7) (fld w 17 7) (fld w 10 7)) := by
  rw [decodeWordRaw, h]; rfl

theorem raw5A {w : Nat} (h : sel w 3 7 = 0x5A) : decodeWordRaw w = some (.vshflXor (fld w 31 1) (fld w 24 7) (fld w 17 7) (fld w 10 7)) := by
  rw [decodeWordRaw, h]; rfl

theorem raw5B {w : Nat} (h : sel w 3 7 = 0x5B) : decodeWordRaw w = decodeOp5B w := by
  rw [decodeWordRaw, h]; rfl

theorem raw5C {w : Nat} (h : sel w 3 7 = 0x5C) : decodeWordRaw w = decodeOp5C w := by
  rw [decodeWordRaw, h]; rfl

theorem raw5D {w : Nat} (h : sel w 3 7 = 0x5D) : decodeWordRaw w = decodeOp5D w := by
  rw [decodeWordRaw, h]; rfl

theorem raw5E {w : Nat} (h : sel w 3 7 = 0x5E) : decodeWordRaw w = decodeOp5E w := by
  rw [decodeWordRaw, h]; rfl

theorem raw5F {w : Nat} (h : sel w 3 7 = 0x5F) : decodeWordRaw w = decodeOp5F w := by
  rw [decodeWordRaw, h]; rfl

theorem raw60 {w : Nat} (h : sel w 3 7 = 0x60) : decodeWordRaw w = some (.ldS8 (fld w 30 2) (fld w 23 7) (fld w 17 6) (fld w 10 7)) := by
  rw [decodeWordRaw, h]; rfl

theorem raw61 {w : Nat} (h : sel w 3 7 = 0x61) : decodeWordRaw w = some (.ldZ8 (fld w 30 2) (fld w 23 7) (fld w 17 6) (fld w 10 7)) := by
  rw [decodeWordRaw, h]; rfl

theorem raw62 {w : Nat} (h : sel w 3 7 = 0x62) : decodeWordRaw w = some (.ldS16 (fld w 30 2) (fld w 23 7) (fld w 17 6) (fld w 10 7)) := by
  rw [decodeWordRaw, h]; rfl

theorem raw63 {w : Nat} (h : sel w 3 7 = 0x63) : decodeWordRaw w = some (.ldZ16 (fld w 30 2) (fld w 23 7) (fld w 17 6) (fld w 10 7)) := by
  rw [decodeWordRaw, h]; rfl

theorem raw64 {w : Nat} (h : sel w 3 7 = 0x64) : decodeWordRaw w = some (.ld32 (fld w 30 2) (fld w 23 7) (fld w 17 6) (fld w 10 7)) := by
  rw [decodeWordRaw, h]; rfl

theorem raw65 {w : Nat} (h : sel w 3 7 = 0x65) : decodeWordRaw w = some (.ld64 (fld w 30 2) (fld w 23 7) (fld w 17 6) (fld w 10 7)) := by
  rw [decodeWordRaw, h]; rfl

theorem raw66 {w : Nat} (h : sel w 3 7 = 0x66) : decodeWordRaw w = some (.ld128 (fld w 30 2) (fld w 23 7) (fld w 17 6) (fld w 10 7)) := by
  rw [decodeWordRaw, h]; rfl

theorem raw67 {w : Nat} (h : sel w 3 7 = 0x67) : decodeWordRaw w = some (.st8 (fld w 30 2) (fld w 23 7) (fld w 17 6) (fld w 10 7)) := by
  rw [decodeWordRaw, h]; rfl

theorem raw68 {w : Nat} (h : sel w 3 7 = 0x68) : decodeWordRaw w = some (.st16 (fld w 30 2) (fld w 23 7) (fld w 17 6) (fld w 10 7)) := by
  rw [decodeWordRaw, h]; rfl

theorem raw69 {w : Nat} (h : sel w 3 7 = 0x69) : decodeWordRaw w = some (.st32 (fld w 30 2) (fld w 23 7) (fld w 17 6) (fld w 10 7)) := by
  rw [decodeWordRaw, h]; rfl

theorem raw6A {w : Nat} (h : sel w 3 7 = 0x6A) : decodeWordRaw w = some (.st64 (fld w 30 2) (fld w 23 7) (fld w 17 6) (fld w 10 7)) := by
  rw [decodeWordRaw, h]; rfl

theorem raw6B {w : Nat} (h : sel w 3 7 = 0x6B) : decodeWordRaw w = some (.st128 (fld w 30 2) (fld w 23 7) (fld w 17 6) (fld w 10 7)) := by
  rw [decodeWordRaw, h]; rfl

theorem raw6C {w : Nat} (h : sel w 3 7 = 0x6C) : decodeWordRaw w = some (.lds (fld w 30 2) (fld w 24 6) (fld w 17 7) (fld w 10 7)) := by
  rw [decodeWordRaw, h]; rfl

theorem raw6D {w : Nat} (h : sel w 3 7 = 0x6D) : decodeWordRaw w = some (.sts (fld w 30 2) (fld w 24 6) (fld w 17 7) (fld w 10 7)) := by
  rw [decodeWordRaw, h]; rfl

theorem raw6E {w : Nat} (h : sel w 3 7 = 0x6E) : decodeWordRaw w = some (.ldc (fld w 30 2) (fld w 23 7) (fld w 17 6) (fld w 10 7)) := by
  rw [decodeWordRaw, h]; rfl

theorem raw6F {w : Nat} (h : sel w 3 7 = 0x6F) : decodeWordRaw w = some (.ldsmp (fld w 30 2) (fld w 23 7) (fld w 17 6) (fld w 10 7)) := by
  rw [decodeWordRaw, h]; rfl

theorem raw70 {w : Nat} (h : sel w 3 7 = 0x70) : decodeWordRaw w = decodeOp70 w := by
  rw [decodeWordRaw, h]; rfl

theorem raw71 {w : Nat} (h : sel w 3 7 = 0x71) : decodeWordRaw w = decodeOp71 w := by
  rw [decodeWordRaw, h]; rfl

theorem raw72 {w : Nat} (h : sel w 3 7 = 0x72) : decodeWordRaw w = decodeOp72 w := by
  rw [decodeWordRaw, h]; rfl

theorem raw73 {w : Nat} (h : sel w 3 7 = 0x73) : decodeWordRaw w = decodeOp73 w := by
  rw [decodeWordRaw, h]; rfl

theorem raw74 {w : Nat} (h : sel w 3 7 = 0x74) : decodeWordRaw w = decodeOp74 w := by
  rw [decodeWordRaw, h]; rfl

theorem raw75 {w : Nat} (h : sel w 3 7 = 0x75) : decodeWordRaw w = decodeOp75 w := by
  rw [decodeWordRaw, h]; rfl

theorem raw76 {w : Nat} (h : sel w 3 7 = 0x76) : decodeWordRaw w = decodeOp76 w := by
  rw [decodeWordRaw, h]; rfl

theorem raw77 {w : Nat} (h : sel w 3 7 = 0x77) : decodeWordRaw w = decodeOp77 w := by
  rw [decodeWordRaw, h]; rfl

theorem raw78 {w : Nat} (h : sel w 3 7 = 0x78) : decodeWordRaw w = decodeOp78 w := by
  rw [decodeWordRaw, h]; rfl

theorem raw79 {w : Nat} (h : sel w 3 7 = 0x79) : decodeWordRaw w = decodeOp79 w := by
  rw [decodeWordRaw, h]; rfl

theorem raw7A {w : Nat} (h : sel w 3 7 = 0x7A) : decodeWordRaw w = decodeOp7A w := by
  rw [decodeWordRaw, h]; rfl

theorem raw7B {w : Nat} (h : sel w 3 7 = 0x7B) : decodeWordRaw w = decodeOp7B w := by
  rw [decodeWordRaw, h]; rfl

theorem raw7C {w : Nat} (h : sel w 3 7 = 0x7C) : decodeWordRaw w = decodeOp7C w := by
  rw [decodeWordRaw, h]; rfl

theorem raw7D {w : Nat} (h : sel w 3 7 = 0x7D) : decodeWordRaw w = decodeOp7D w := by
  rw [decodeWordRaw, h]; rfl

theorem raw7F {w : Nat} (h : sel w 3 7 = 0x7F) : decodeWordRaw w = decodeOp7F w := by
  rw [decodeWordRaw, h]; rfl

theorem vaddI32Compact (b : BitVec 5) (d : BitVec 6) : Statement (.vaddI32Compact b d) :=
  of_compact rfl (fun s => by
    rw [show Instr.word (.vaddI32Compact b d) s = pack 5 (0#5) (pack 6 d (pack 5 b 0)) from rfl]
    generalize hw : pack 5 (0#5) (pack 6 d (pack 5 b 0)) = w
    have hop : sel w 1 4 = 0 := by subst hw; simp (disch := decide) only [sel_pack_in, Nat.reduceSub, BitVec.toNat_ofNat]; rfl
    refine ⟨?_, ?_, ?_⟩
    · rw [decodeCompactRaw, hop, ← hw]
      simp (disch := decide) only [fld_pack_lo, fld_pack, Nat.reduceSub]
    · exact hw ▸ (fits_pack (n := 5) (m := 11) (fits_pack (n := 6) (m := 5) (fits_pack (n := 5) (m := 0) fits_zero)) : Fits _ 16)
    · exact hw ▸ pack_even _ _ rfl)

theorem vsubI32Compact (b : BitVec 5) (d : BitVec 6) : Statement (.vsubI32Compact b d) :=
  of_compact rfl (fun s => by
    rw [show Instr.word (.vsubI32Compact b d) s = pack 5 (2#5) (pack 6 d (pack 5 b 0)) from rfl]
    generalize hw : pack 5 (2#5) (pack 6 d (pack 5 b 0)) = w
    have hop : sel w 1 4 = 1 := by subst hw; simp (disch := decide) only [sel_pack_in, Nat.reduceSub, BitVec.toNat_ofNat]; rfl
    refine ⟨?_, ?_, ?_⟩
    · rw [decodeCompactRaw, hop, ← hw]
      simp (disch := decide) only [fld_pack_lo, fld_pack, Nat.reduceSub]
    · exact hw ▸ (fits_pack (n := 5) (m := 11) (fits_pack (n := 6) (m := 5) (fits_pack (n := 5) (m := 0) fits_zero)) : Fits _ 16)
    · exact hw ▸ pack_even _ _ rfl)

theorem vmulI32Compact (b : BitVec 5) (d : BitVec 6) : Statement (.vmulI32Compact b d) :=
  of_compact rfl (fun s => by
    rw [show Instr.word (.vmulI32Compact b d) s = pack 5 (4#5) (pack 6 d (pack 5 b 0)) from rfl]
    generalize hw : pack 5 (4#5) (pack 6 d (pack 5 b 0)) = w
    have hop : sel w 1 4 = 2 := by subst hw; simp (disch := decide) only [sel_pack_in, Nat.reduceSub, BitVec.toNat_ofNat]; rfl
    refine ⟨?_, ?_, ?_⟩
    · rw [decodeCompactRaw, hop, ← hw]
      simp (disch := decide) only [fld_pack_lo, fld_pack, Nat.reduceSub]
    · exact hw ▸ (fits_pack (n := 5) (m := 11) (fits_pack (n := 6) (m := 5) (fits_pack (n := 5) (m := 0) fits_zero)) : Fits _ 16)
    · exact hw ▸ pack_even _ _ rfl)

theorem vandCompact (b : BitVec 5) (d : BitVec 6) : Statement (.vandCompact b d) :=
  of_compact rfl (fun s => by
    rw [show Instr.word (.vandCompact b d) s = pack 5 (6#5) (pack 6 d (pack 5 b 0)) from rfl]
    generalize hw : pack 5 (6#5) (pack 6 d (pack 5 b 0)) = w
    have hop : sel w 1 4 = 3 := by subst hw; simp (disch := decide) only [sel_pack_in, Nat.reduceSub, BitVec.toNat_ofNat]; rfl
    refine ⟨?_, ?_, ?_⟩
    · rw [decodeCompactRaw, hop, ← hw]
      simp (disch := decide) only [fld_pack_lo, fld_pack, Nat.reduceSub]
    · exact hw ▸ (fits_pack (n := 5) (m := 11) (fits_pack (n := 6) (m := 5) (fits_pack (n := 5) (m := 0) fits_zero)) : Fits _ 16)
    · exact hw ▸ pack_even _ _ rfl)

theorem vorCompact (b : BitVec 5) (d : BitVec 6) : Statement (.vorCompact b d) :=
  of_compact rfl (fun s => by
    rw [show Instr.word (.vorCompact b d) s = pack 5 (8#5) (pack 6 d (pack 5 b 0)) from rfl]
    generalize hw : pack 5 (8#5) (pack 6 d (pack 5 b 0)) = w
    have hop : sel w 1 4 = 4 := by subst hw; simp (disch := decide) only [sel_pack_in, Nat.reduceSub, BitVec.toNat_ofNat]; rfl
    refine ⟨?_, ?_, ?_⟩
    · rw [decodeCompactRaw, hop, ← hw]
      simp (disch := decide) only [fld_pack_lo, fld_pack, Nat.reduceSub]
    · exact hw ▸ (fits_pack (n := 5) (m := 11) (fits_pack (n := 6) (m := 5) (fits_pack (n := 5) (m := 0) fits_zero)) : Fits _ 16)
    · exact hw ▸ pack_even _ _ rfl)

theorem vxorCompact (b : BitVec 5) (d : BitVec 6) : Statement (.vxorCompact b d) :=
  of_compact rfl (fun s => by
    rw [show Instr.word (.vxorCompact b d) s = pack 5 (10#5) (pack 6 d (pack 5 b 0)) from rfl]
    generalize hw : pack 5 (10#5) (pack 6 d (pack 5 b 0)) = w
    have hop : sel w 1 4 = 5 := by subst hw; simp (disch := decide) only [sel_pack_in, Nat.reduceSub, BitVec.toNat_ofNat]; rfl
    refine ⟨?_, ?_, ?_⟩
    · rw [decodeCompactRaw, hop, ← hw]
      simp (disch := decide) only [fld_pack_lo, fld_pack, Nat.reduceSub]
    · exact hw ▸ (fits_pack (n := 5) (m := 11) (fits_pack (n := 6) (m := 5) (fits_pack (n := 5) (m := 0) fits_zero)) : Fits _ 16)
    · exact hw ▸ pack_even _ _ rfl)

theorem vshlCompact (b : BitVec 5) (d : BitVec 6) : Statement (.vshlCompact b d) :=
  of_compact rfl (fun s => by
    rw [show Instr.word (.vshlCompact b d) s = pack 5 (12#5) (pack 6 d (pack 5 b 0)) from rfl]
    generalize hw : pack 5 (12#5) (pack 6 d (pack 5 b 0)) = w
    have hop : sel w 1 4 = 6 := by subst hw; simp (disch := decide) only [sel_pack_in, Nat.reduceSub, BitVec.toNat_ofNat]; rfl
    refine ⟨?_, ?_, ?_⟩
    · rw [decodeCompactRaw, hop, ← hw]
      simp (disch := decide) only [fld_pack_lo, fld_pack, Nat.reduceSub]
    · exact hw ▸ (fits_pack (n := 5) (m := 11) (fits_pack (n := 6) (m := 5) (fits_pack (n := 5) (m := 0) fits_zero)) : Fits _ 16)
    · exact hw ▸ pack_even _ _ rfl)

theorem vshrCompact (b : BitVec 5) (d : BitVec 6) : Statement (.vshrCompact b d) :=
  of_compact rfl (fun s => by
    rw [show Instr.word (.vshrCompact b d) s = pack 5 (14#5) (pack 6 d (pack 5 b 0)) from rfl]
    generalize hw : pack 5 (14#5) (pack 6 d (pack 5 b 0)) = w
    have hop : sel w 1 4 = 7 := by subst hw; simp (disch := decide) only [sel_pack_in, Nat.reduceSub, BitVec.toNat_ofNat]; rfl
    refine ⟨?_, ?_, ?_⟩
    · rw [decodeCompactRaw, hop, ← hw]
      simp (disch := decide) only [fld_pack_lo, fld_pack, Nat.reduceSub]
    · exact hw ▸ (fits_pack (n := 5) (m := 11) (fits_pack (n := 6) (m := 5) (fits_pack (n := 5) (m := 0) fits_zero)) : Fits _ 16)
    · exact hw ▸ pack_even _ _ rfl)

theorem vsraCompact (b : BitVec 5) (d : BitVec 6) : Statement (.vsraCompact b d) :=
  of_compact rfl (fun s => by
    rw [show Instr.word (.vsraCompact b d) s = pack 5 (16#5) (pack 6 d (pack 5 b 0)) from rfl]
    generalize hw : pack 5 (16#5) (pack 6 d (pack 5 b 0)) = w
    have hop : sel w 1 4 = 8 := by subst hw; simp (disch := decide) only [sel_pack_in, Nat.reduceSub, BitVec.toNat_ofNat]; rfl
    refine ⟨?_, ?_, ?_⟩
    · rw [decodeCompactRaw, hop, ← hw]
      simp (disch := decide) only [fld_pack_lo, fld_pack, Nat.reduceSub]
    · exact hw ▸ (fits_pack (n := 5) (m := 11) (fits_pack (n := 6) (m := 5) (fits_pack (n := 5) (m := 0) fits_zero)) : Fits _ 16)
    · exact hw ▸ pack_even _ _ rfl)

theorem vmovCompact (b : BitVec 5) (d : BitVec 6) : Statement (.vmovCompact b d) :=
  of_compact rfl (fun s => by
    rw [show Instr.word (.vmovCompact b d) s = pack 5 (18#5) (pack 6 d (pack 5 b 0)) from rfl]
    generalize hw : pack 5 (18#5) (pack 6 d (pack 5 b 0)) = w
    have hop : sel w 1 4 = 9 := by subst hw; simp (disch := decide) only [sel_pack_in, Nat.reduceSub, BitVec.toNat_ofNat]; rfl
    refine ⟨?_, ?_, ?_⟩
    · rw [decodeCompactRaw, hop, ← hw]
      simp (disch := decide) only [fld_pack_lo, fld_pack, Nat.reduceSub]
    · exact hw ▸ (fits_pack (n := 5) (m := 11) (fits_pack (n := 6) (m := 5) (fits_pack (n := 5) (m := 0) fits_zero)) : Fits _ 16)
    · exact hw ▸ pack_even _ _ rfl)

theorem vminI32Compact (b : BitVec 5) (d : BitVec 6) : Statement (.vminI32Compact b d) :=
  of_compact rfl (fun s => by
    rw [show Instr.word (.vminI32Compact b d) s = pack 5 (20#5) (pack 6 d (pack 5 b 0)) from rfl]
    generalize hw : pack 5 (20#5) (pack 6 d (pack 5 b 0)) = w
    have hop : sel w 1 4 = 10 := by subst hw; simp (disch := decide) only [sel_pack_in, Nat.reduceSub, BitVec.toNat_ofNat]; rfl
    refine ⟨?_, ?_, ?_⟩
    · rw [decodeCompactRaw, hop, ← hw]
      simp (disch := decide) only [fld_pack_lo, fld_pack, Nat.reduceSub]
    · exact hw ▸ (fits_pack (n := 5) (m := 11) (fits_pack (n := 6) (m := 5) (fits_pack (n := 5) (m := 0) fits_zero)) : Fits _ 16)
    · exact hw ▸ pack_even _ _ rfl)

theorem vmaxI32Compact (b : BitVec 5) (d : BitVec 6) : Statement (.vmaxI32Compact b d) :=
  of_compact rfl (fun s => by
    rw [show Instr.word (.vmaxI32Compact b d) s = pack 5 (22#5) (pack 6 d (pack 5 b 0)) from rfl]
    generalize hw : pack 5 (22#5) (pack 6 d (pack 5 b 0)) = w
    have hop : sel w 1 4 = 11 := by subst hw; simp (disch := decide) only [sel_pack_in, Nat.reduceSub, BitVec.toNat_ofNat]; rfl
    refine ⟨?_, ?_, ?_⟩
    · rw [decodeCompactRaw, hop, ← hw]
      simp (disch := decide) only [fld_pack_lo, fld_pack, Nat.reduceSub]
    · exact hw ▸ (fits_pack (n := 5) (m := 11) (fits_pack (n := 6) (m := 5) (fits_pack (n := 5) (m := 0) fits_zero)) : Fits _ 16)
    · exact hw ▸ pack_even _ _ rfl)

theorem vfaddF32Compact (b : BitVec 5) (d : BitVec 6) : Statement (.vfaddF32Compact b d) :=
  of_compact rfl (fun s => by
    rw [show Instr.word (.vfaddF32Compact b d) s = pack 5 (24#5) (pack 6 d (pack 5 b 0)) from rfl]
    generalize hw : pack 5 (24#5) (pack 6 d (pack 5 b 0)) = w
    have hop : sel w 1 4 = 12 := by subst hw; simp (disch := decide) only [sel_pack_in, Nat.reduceSub, BitVec.toNat_ofNat]; rfl
    refine ⟨?_, ?_, ?_⟩
    · rw [decodeCompactRaw, hop, ← hw]
      simp (disch := decide) only [fld_pack_lo, fld_pack, Nat.reduceSub]
    · exact hw ▸ (fits_pack (n := 5) (m := 11) (fits_pack (n := 6) (m := 5) (fits_pack (n := 5) (m := 0) fits_zero)) : Fits _ 16)
    · exact hw ▸ pack_even _ _ rfl)

theorem vfsubF32Compact (b : BitVec 5) (d : BitVec 6) : Statement (.vfsubF32Compact b d) :=
  of_compact rfl (fun s => by
    rw [show Instr.word (.vfsubF32Compact b d) s = pack 5 (26#5) (pack 6 d (pack 5 b 0)) from rfl]
    generalize hw : pack 5 (26#5) (pack 6 d (pack 5 b 0)) = w
    have hop : sel w 1 4 = 13 := by subst hw; simp (disch := decide) only [sel_pack_in, Nat.reduceSub, BitVec.toNat_ofNat]; rfl
    refine ⟨?_, ?_, ?_⟩
    · rw [decodeCompactRaw, hop, ← hw]
      simp (disch := decide) only [fld_pack_lo, fld_pack, Nat.reduceSub]
    · exact hw ▸ (fits_pack (n := 5) (m := 11) (fits_pack (n := 6) (m := 5) (fits_pack (n := 5) (m := 0) fits_zero)) : Fits _ 16)
    · exact hw ▸ pack_even _ _ rfl)

theorem vfmulF32Compact (b : BitVec 5) (d : BitVec 6) : Statement (.vfmulF32Compact b d) :=
  of_compact rfl (fun s => by
    rw [show Instr.word (.vfmulF32Compact b d) s = pack 5 (28#5) (pack 6 d (pack 5 b 0)) from rfl]
    generalize hw : pack 5 (28#5) (pack 6 d (pack 5 b 0)) = w
    have hop : sel w 1 4 = 14 := by subst hw; simp (disch := decide) only [sel_pack_in, Nat.reduceSub, BitVec.toNat_ofNat]; rfl
    refine ⟨?_, ?_, ?_⟩
    · rw [decodeCompactRaw, hop, ← hw]
      simp (disch := decide) only [fld_pack_lo, fld_pack, Nat.reduceSub]
    · exact hw ▸ (fits_pack (n := 5) (m := 11) (fits_pack (n := 6) (m := 5) (fits_pack (n := 5) (m := 0) fits_zero)) : Fits _ 16)
    · exact hw ▸ pack_even _ _ rfl)

theorem vfmaxF32Compact (b : BitVec 5) (d : BitVec 6) : Statement (.vfmaxF32Compact b d) :=
  of_compact rfl (fun s => by
    rw [show Instr.word (.vfmaxF32Compact b d) s = pack 5 (30#5) (pack 6 d (pack 5 b 0)) from rfl]
    generalize hw : pack 5 (30#5) (pack 6 d (pack 5 b 0)) = w
    have hop : sel w 1 4 = 15 := by subst hw; simp (disch := decide) only [sel_pack_in, Nat.reduceSub, BitVec.toNat_ofNat]; rfl
    refine ⟨?_, ?_, ?_⟩
    · rw [decodeCompactRaw, hop, ← hw]
      simp (disch := decide) only [fld_pack_lo, fld_pack, Nat.reduceSub]
    · exact hw ▸ (fits_pack (n := 5) (m := 11) (fits_pack (n := 6) (m := 5) (fits_pack (n := 5) (m := 0) fits_zero)) : Fits _ 16)
    · exact hw ▸ pack_even _ _ rfl)

theorem sadd (b : BitVec 6) (a : BitVec 6) (d : BitVec 6) : Statement (.sadd b a d) :=
  of_word rfl (fun s => by
    rw [show Instr.word (.sadd b a d) s = pack 1 (1#1) (pack 2 s (pack 7 (1#7) (pack 6 d (pack 6 a (pack 6 b (pack 4 (0#4) 0)))))) from rfl]
    generalize hw : pack 1 (1#1) (pack 2 s (pack 7 (1#7) (pack 6 d (pack 6 a (pack 6 b (pack 4 (0#4) 0)))))) = w
    have hop : sel w 3 7 = 1 := by subst hw; simp (disch := decide) only [sel_pack_lo, sel_pack_in, Nat.reduceSub, BitVec.toNat_ofNat]; try rfl
    have hk0 : sel w 28 4 = 0 := by subst hw; simp (disch := decide) only [sel_pack_lo, sel_pack_in, Nat.reduceSub, BitVec.toNat_ofNat]; try rfl
    refine ⟨?_, hw ▸ (fits_pack (n := 1) (m := 31) (fits_pack (n := 2) (m := 29) (fits_pack (n := 7) (m := 22) (fits_pack (n := 6) (m := 16) (fits_pack (n := 6) (m := 10) (fits_pack (n := 6) (m := 4) (fits_pack (n := 4) (m := 0) fits_zero)))))) : Fits _ 32), hw ▸ pack_mod _ _, by rw [hop]; decide, ?_⟩
    · rw [raw01 hop]
      simp only [decodeOp01, hk0, reduceIte, Nat.reduceEqDiff, OfNat.ofNat_ne_zero, OfNat.zero_ne_ofNat, OfNat.ofNat_ne_one, OfNat.one_ne_ofNat, zero_ne_one, one_ne_zero, true_and, false_and, and_true, and_false]
      subst hw
      simp (disch := decide) only [fld_pack_lo, fld_pack, Nat.reduceSub]
    · subst hw
      simp (disch := decide) only [fld_pack_lo, fld_pack, Nat.reduceSub])

theorem ssub (b : BitVec 6) (a : BitVec 6) (d : BitVec 6) : Statement (.ssub b a d) :=
  of_word rfl (fun s => by
    rw [show Instr.word (.ssub b a d) s = pack 1 (1#1) (pack 2 s (pack 7 (1#7) (pack 6 d (pack 6 a (pack 6 b (pack 4 (1#4) 0)))))) from rfl]
    generalize hw : pack 1 (1#1) (pack 2 s (pack 7 (1#7) (pack 6 d (pack 6 a (pack 6 b (pack 4 (1#4) 0)))))) = w
    have hop : sel w 3 7 = 1 := by subst hw; simp (disch := decide) only [sel_pack_lo, sel_pack_in, Nat.reduceSub, BitVec.toNat_ofNat]; try rfl
    have hk0 : sel w 28 4 = 1 := by subst hw; simp (disch := decide) only [sel_pack_lo, sel_pack_in, Nat.reduceSub, BitVec.toNat_ofNat]; try rfl
    refine ⟨?_, hw ▸ (fits_pack (n := 1) (m := 31) (fits_pack (n := 2) (m := 29) (fits_pack (n := 7) (m := 22) (fits_pack (n := 6) (m := 16) (fits_pack (n := 6) (m := 10) (fits_pack (n := 6) (m := 4) (fits_pack (n := 4) (m := 0) fits_zero)))))) : Fits _ 32), hw ▸ pack_mod _ _, by rw [hop]; decide, ?_⟩
    · rw [raw01 hop]
      simp only [decodeOp01, hk0, reduceIte, Nat.reduceEqDiff, OfNat.ofNat_ne_zero, OfNat.zero_ne_ofNat, OfNat.ofNat_ne_one, OfNat.one_ne_ofNat, zero_ne_one, one_ne_zero, true_and, false_and, and_true, and_false]
      subst hw
      simp (disch := decide) only [fld_pack_lo, fld_pack, Nat.reduceSub]
    · subst hw
      simp (disch := decide) only [fld_pack_lo, fld_pack, Nat.reduceSub])

theorem smul (b : BitVec 6) (a : BitVec 6) (d : BitVec 6) : Statement (.smul b a d) :=
  of_word rfl (fun s => by
    rw [show Instr.word (.smul b a d) s = pack 1 (1#1) (pack 2 s (pack 7 (1#7) (pack 6 d (pack 6 a (pack 6 b (pack 4 (2#4) 0)))))) from rfl]
    generalize hw : pack 1 (1#1) (pack 2 s (pack 7 (1#7) (pack 6 d (pack 6 a (pack 6 b (pack 4 (2#4) 0)))))) = w
    have hop : sel w 3 7 = 1 := by subst hw; simp (disch := decide) only [sel_pack_lo, sel_pack_in, Nat.reduceSub, BitVec.toNat_ofNat]; try rfl
    have hk0 : sel w 28 4 = 2 := by subst hw; simp (disch := decide) only [sel_pack_lo, sel_pack_in, Nat.reduceSub, BitVec.toNat_ofNat]; try rfl
    refine ⟨?_, hw ▸ (fits_pack (n := 1) (m := 31) (fits_pack (n := 2) (m := 29) (fits_pack (n := 7) (m := 22) (fits_pack (n := 6) (m := 16) (fits_pack (n := 6) (m := 10) (fits_pack (n := 6) (m := 4) (fits_pack (n := 4) (m := 0) fits_zero)))))) : Fits _ 32), hw ▸ pack_mod _ _, by rw [hop]; decide, ?_⟩
    · rw [raw01 hop]
      simp only [decodeOp01, hk0, reduceIte, Nat.reduceEqDiff, OfNat.ofNat_ne_zero, OfNat.zero_ne_ofNat, OfNat.ofNat_ne_one, OfNat.one_ne_ofNat, zero_ne_one, one_ne_zero, true_and, false_and, and_true, and_false]
      subst hw
      simp (disch := decide) only [fld_pack_lo, fld_pack, Nat.reduceSub]
    · subst hw
      simp (disch := decide) only [fld_pack_lo, fld_pack, Nat.reduceSub])

theorem smulh (b : BitVec 6) (a : BitVec 6) (d : BitVec 6) : Statement (.smulh b a d) :=
  of_word rfl (fun s => by
    rw [show Instr.word (.smulh b a d) s = pack 1 (1#1) (pack 2 s (pack 7 (1#7) (pack 6 d (pack 6 a (pack 6 b (pack 4 (3#4) 0)))))) from rfl]
    generalize hw : pack 1 (1#1) (pack 2 s (pack 7 (1#7) (pack 6 d (pack 6 a (pack 6 b (pack 4 (3#4) 0)))))) = w
    have hop : sel w 3 7 = 1 := by subst hw; simp (disch := decide) only [sel_pack_lo, sel_pack_in, Nat.reduceSub, BitVec.toNat_ofNat]; try rfl
    have hk0 : sel w 28 4 = 3 := by subst hw; simp (disch := decide) only [sel_pack_lo, sel_pack_in, Nat.reduceSub, BitVec.toNat_ofNat]; try rfl
    refine ⟨?_, hw ▸ (fits_pack (n := 1) (m := 31) (fits_pack (n := 2) (m := 29) (fits_pack (n := 7) (m := 22) (fits_pack (n := 6) (m := 16) (fits_pack (n := 6) (m := 10) (fits_pack (n := 6) (m := 4) (fits_pack (n := 4) (m := 0) fits_zero)))))) : Fits _ 32), hw ▸ pack_mod _ _, by rw [hop]; decide, ?_⟩
    · rw [raw01 hop]
      simp only [decodeOp01, hk0, reduceIte, Nat.reduceEqDiff, OfNat.ofNat_ne_zero, OfNat.zero_ne_ofNat, OfNat.ofNat_ne_one, OfNat.one_ne_ofNat, zero_ne_one, one_ne_zero, true_and, false_and, and_true, and_false]
      subst hw
      simp (disch := decide) only [fld_pack_lo, fld_pack, Nat.reduceSub]
    · subst hw
      simp (disch := decide) only [fld_pack_lo, fld_pack, Nat.reduceSub])

theorem smulhz (b : BitVec 6) (a : BitVec 6) (d : BitVec 6) : Statement (.smulhz b a d) :=
  of_word rfl (fun s => by
    rw [show Instr.word (.smulhz b a d) s = pack 1 (1#1) (pack 2 s (pack 7 (1#7) (pack 6 d (pack 6 a (pack 6 b (pack 4 (4#4) 0)))))) from rfl]
    generalize hw : pack 1 (1#1) (pack 2 s (pack 7 (1#7) (pack 6 d (pack 6 a (pack 6 b (pack 4 (4#4) 0)))))) = w
    have hop : sel w 3 7 = 1 := by subst hw; simp (disch := decide) only [sel_pack_lo, sel_pack_in, Nat.reduceSub, BitVec.toNat_ofNat]; try rfl
    have hk0 : sel w 28 4 = 4 := by subst hw; simp (disch := decide) only [sel_pack_lo, sel_pack_in, Nat.reduceSub, BitVec.toNat_ofNat]; try rfl
    refine ⟨?_, hw ▸ (fits_pack (n := 1) (m := 31) (fits_pack (n := 2) (m := 29) (fits_pack (n := 7) (m := 22) (fits_pack (n := 6) (m := 16) (fits_pack (n := 6) (m := 10) (fits_pack (n := 6) (m := 4) (fits_pack (n := 4) (m := 0) fits_zero)))))) : Fits _ 32), hw ▸ pack_mod _ _, by rw [hop]; decide, ?_⟩
    · rw [raw01 hop]
      simp only [decodeOp01, hk0, reduceIte, Nat.reduceEqDiff, OfNat.ofNat_ne_zero, OfNat.zero_ne_ofNat, OfNat.ofNat_ne_one, OfNat.one_ne_ofNat, zero_ne_one, one_ne_zero, true_and, false_and, and_true, and_false]
      subst hw
      simp (disch := decide) only [fld_pack_lo, fld_pack, Nat.reduceSub]
    · subst hw
      simp (disch := decide) only [fld_pack_lo, fld_pack, Nat.reduceSub])

theorem sdiv (b : BitVec 6) (a : BitVec 6) (d : BitVec 6) : Statement (.sdiv b a d) :=
  of_word rfl (fun s => by
    rw [show Instr.word (.sdiv b a d) s = pack 1 (1#1) (pack 2 s (pack 7 (1#7) (pack 6 d (pack 6 a (pack 6 b (pack 4 (5#4) 0)))))) from rfl]
    generalize hw : pack 1 (1#1) (pack 2 s (pack 7 (1#7) (pack 6 d (pack 6 a (pack 6 b (pack 4 (5#4) 0)))))) = w
    have hop : sel w 3 7 = 1 := by subst hw; simp (disch := decide) only [sel_pack_lo, sel_pack_in, Nat.reduceSub, BitVec.toNat_ofNat]; try rfl
    have hk0 : sel w 28 4 = 5 := by subst hw; simp (disch := decide) only [sel_pack_lo, sel_pack_in, Nat.reduceSub, BitVec.toNat_ofNat]; try rfl
    refine ⟨?_, hw ▸ (fits_pack (n := 1) (m := 31) (fits_pack (n := 2) (m := 29) (fits_pack (n := 7) (m := 22) (fits_pack (n := 6) (m := 16) (fits_pack (n := 6) (m := 10) (fits_pack (n := 6) (m := 4) (fits_pack (n := 4) (m := 0) fits_zero)))))) : Fits _ 32), hw ▸ pack_mod _ _, by rw [hop]; decide, ?_⟩
    · rw [raw01 hop]
      simp only [decodeOp01, hk0, reduceIte, Nat.reduceEqDiff, OfNat.ofNat_ne_zero, OfNat.zero_ne_ofNat, OfNat.ofNat_ne_one, OfNat.one_ne_ofNat, zero_ne_one, one_ne_zero, true_and, false_and, and_true, and_false]
      subst hw
      simp (disch := decide) only [fld_pack_lo, fld_pack, Nat.reduceSub]
    · subst hw
      simp (disch := decide) only [fld_pack_lo, fld_pack, Nat.reduceSub])

theorem sdivz (b : BitVec 6) (a : BitVec 6) (d : BitVec 6) : Statement (.sdivz b a d) :=
  of_word rfl (fun s => by
    rw [show Instr.word (.sdivz b a d) s = pack 1 (1#1) (pack 2 s (pack 7 (1#7) (pack 6 d (pack 6 a (pack 6 b (pack 4 (6#4) 0)))))) from rfl]
    generalize hw : pack 1 (1#1) (pack 2 s (pack 7 (1#7) (pack 6 d (pack 6 a (pack 6 b (pack 4 (6#4) 0)))))) = w
    have hop : sel w 3 7 = 1 := by subst hw; simp (disch := decide) only [sel_pack_lo, sel_pack_in, Nat.reduceSub, BitVec.toNat_ofNat]; try rfl
    have hk0 : sel w 28 4 = 6 := by subst hw; simp (disch := decide) only [sel_pack_lo, sel_pack_in, Nat.reduceSub, BitVec.toNat_ofNat]; try rfl
    refine ⟨?_, hw ▸ (fits_pack (n := 1) (m := 31) (fits_pack (n := 2) (m := 29) (fits_pack (n := 7) (m := 22) (fits_pack (n := 6) (m := 16) (fits_pack (n := 6) (m := 10) (fits_pack (n := 6) (m := 4) (fits_pack (n := 4) (m := 0) fits_zero)))))) : Fits _ 32), hw ▸ pack_mod _ _, by rw [hop]; decide, ?_⟩
    · rw [raw01 hop]
      simp only [decodeOp01, hk0, reduceIte, Nat.reduceEqDiff, OfNat.ofNat_ne_zero, OfNat.zero_ne_ofNat, OfNat.ofNat_ne_one, OfNat.one_ne_ofNat, zero_ne_one, one_ne_zero, true_and, false_and, and_true, and_false]
      subst hw
      simp (disch := decide) only [fld_pack_lo, fld_pack, Nat.reduceSub]
    · subst hw
      simp (disch := decide) only [fld_pack_lo, fld_pack, Nat.reduceSub])

theorem srem (b : BitVec 6) (a : BitVec 6) (d : BitVec 6) : Statement (.srem b a d) :=
  of_word rfl (fun s => by
    rw [show Instr.word (.srem b a d) s = pack 1 (1#1) (pack 2 s (pack 7 (1#7) (pack 6 d (pack 6 a (pack 6 b (pack 4 (7#4) 0)))))) from rfl]
    generalize hw : pack 1 (1#1) (pack 2 s (pack 7 (1#7) (pack 6 d (pack 6 a (pack 6 b (pack 4 (7#4) 0)))))) = w
    have hop : sel w 3 7 = 1 := by subst hw; simp (disch := decide) only [sel_pack_lo, sel_pack_in, Nat.reduceSub, BitVec.toNat_ofNat]; try rfl
    have hk0 : sel w 28 4 = 7 := by subst hw; simp (disch := decide) only [sel_pack_lo, sel_pack_in, Nat.reduceSub, BitVec.toNat_ofNat]; try rfl
    refine ⟨?_, hw ▸ (fits_pack (n := 1) (m := 31) (fits_pack (n := 2) (m := 29) (fits_pack (n := 7) (m := 22) (fits_pack (n := 6) (m := 16) (fits_pack (n := 6) (m := 10) (fits_pack (n := 6) (m := 4) (fits_pack (n := 4) (m := 0) fits_zero)))))) : Fits _ 32), hw ▸ pack_mod _ _, by rw [hop]; decide, ?_⟩
    · rw [raw01 hop]
      simp only [decodeOp01, hk0, reduceIte, Nat.reduceEqDiff, OfNat.ofNat_ne_zero, OfNat.zero_ne_ofNat, OfNat.ofNat_ne_one, OfNat.one_ne_ofNat, zero_ne_one, one_ne_zero, true_and, false_and, and_true, and_false]
      subst hw
      simp (disch := decide) only [fld_pack_lo, fld_pack, Nat.reduceSub]
    · subst hw
      simp (disch := decide) only [fld_pack_lo, fld_pack, Nat.reduceSub])

theorem sremz (b : BitVec 6) (a : BitVec 6) (d : BitVec 6) : Statement (.sremz b a d) :=
  of_word rfl (fun s => by
    rw [show Instr.word (.sremz b a d) s = pack 1 (1#1) (pack 2 s (pack 7 (1#7) (pack 6 d (pack 6 a (pack 6 b (pack 4 (8#4) 0)))))) from rfl]
    generalize hw : pack 1 (1#1) (pack 2 s (pack 7 (1#7) (pack 6 d (pack 6 a (pack 6 b (pack 4 (8#4) 0)))))) = w
    have hop : sel w 3 7 = 1 := by subst hw; simp (disch := decide) only [sel_pack_lo, sel_pack_in, Nat.reduceSub, BitVec.toNat_ofNat]; try rfl
    have hk0 : sel w 28 4 = 8 := by subst hw; simp (disch := decide) only [sel_pack_lo, sel_pack_in, Nat.reduceSub, BitVec.toNat_ofNat]; try rfl
    refine ⟨?_, hw ▸ (fits_pack (n := 1) (m := 31) (fits_pack (n := 2) (m := 29) (fits_pack (n := 7) (m := 22) (fits_pack (n := 6) (m := 16) (fits_pack (n := 6) (m := 10) (fits_pack (n := 6) (m := 4) (fits_pack (n := 4) (m := 0) fits_zero)))))) : Fits _ 32), hw ▸ pack_mod _ _, by rw [hop]; decide, ?_⟩
    · rw [raw01 hop]
      simp only [decodeOp01, hk0, reduceIte, Nat.reduceEqDiff, OfNat.ofNat_ne_zero, OfNat.zero_ne_ofNat, OfNat.ofNat_ne_one, OfNat.one_ne_ofNat, zero_ne_one, one_ne_zero, true_and, false_and, and_true, and_false]
      subst hw
      simp (disch := decide) only [fld_pack_lo, fld_pack, Nat.reduceSub]
    · subst hw
      simp (disch := decide) only [fld_pack_lo, fld_pack, Nat.reduceSub])

theorem sand (b : BitVec 6) (a : BitVec 6) (d : BitVec 6) : Statement (.sand b a d) :=
  of_word rfl (fun s => by
    rw [show Instr.word (.sand b a d) s = pack 1 (1#1) (pack 2 s (pack 7 (1#7) (pack 6 d (pack 6 a (pack 6 b (pack 4 (9#4) 0)))))) from rfl]
    generalize hw : pack 1 (1#1) (pack 2 s (pack 7 (1#7) (pack 6 d (pack 6 a (pack 6 b (pack 4 (9#4) 0)))))) = w
    have hop : sel w 3 7 = 1 := by subst hw; simp (disch := decide) only [sel_pack_lo, sel_pack_in, Nat.reduceSub, BitVec.toNat_ofNat]; try rfl
    have hk0 : sel w 28 4 = 9 := by subst hw; simp (disch := decide) only [sel_pack_lo, sel_pack_in, Nat.reduceSub, BitVec.toNat_ofNat]; try rfl
    refine ⟨?_, hw ▸ (fits_pack (n := 1) (m := 31) (fits_pack (n := 2) (m := 29) (fits_pack (n := 7) (m := 22) (fits_pack (n := 6) (m := 16) (fits_pack (n := 6) (m := 10) (fits_pack (n := 6) (m := 4) (fits_pack (n := 4) (m := 0) fits_zero)))))) : Fits _ 32), hw ▸ pack_mod _ _, by rw [hop]; decide, ?_⟩
    · rw [raw01 hop]
      simp only [decodeOp01, hk0, reduceIte, Nat.reduceEqDiff, OfNat.ofNat_ne_zero, OfNat.zero_ne_ofNat, OfNat.ofNat_ne_one, OfNat.one_ne_ofNat, zero_ne_one, one_ne_zero, true_and, false_and, and_true, and_false]
      subst hw
      simp (disch := decide) only [fld_pack_lo, fld_pack, Nat.reduceSub]
    · subst hw
      simp (disch := decide) only [fld_pack_lo, fld_pack, Nat.reduceSub])

theorem sor (b : BitVec 6) (a : BitVec 6) (d : BitVec 6) : Statement (.sor b a d) :=
  of_word rfl (fun s => by
    rw [show Instr.word (.sor b a d) s = pack 1 (1#1) (pack 2 s (pack 7 (1#7) (pack 6 d (pack 6 a (pack 6 b (pack 4 (10#4) 0)))))) from rfl]
    generalize hw : pack 1 (1#1) (pack 2 s (pack 7 (1#7) (pack 6 d (pack 6 a (pack 6 b (pack 4 (10#4) 0)))))) = w
    have hop : sel w 3 7 = 1 := by subst hw; simp (disch := decide) only [sel_pack_lo, sel_pack_in, Nat.reduceSub, BitVec.toNat_ofNat]; try rfl
    have hk0 : sel w 28 4 = 10 := by subst hw; simp (disch := decide) only [sel_pack_lo, sel_pack_in, Nat.reduceSub, BitVec.toNat_ofNat]; try rfl
    refine ⟨?_, hw ▸ (fits_pack (n := 1) (m := 31) (fits_pack (n := 2) (m := 29) (fits_pack (n := 7) (m := 22) (fits_pack (n := 6) (m := 16) (fits_pack (n := 6) (m := 10) (fits_pack (n := 6) (m := 4) (fits_pack (n := 4) (m := 0) fits_zero)))))) : Fits _ 32), hw ▸ pack_mod _ _, by rw [hop]; decide, ?_⟩
    · rw [raw01 hop]
      simp only [decodeOp01, hk0, reduceIte, Nat.reduceEqDiff, OfNat.ofNat_ne_zero, OfNat.zero_ne_ofNat, OfNat.ofNat_ne_one, OfNat.one_ne_ofNat, zero_ne_one, one_ne_zero, true_and, false_and, and_true, and_false]
      subst hw
      simp (disch := decide) only [fld_pack_lo, fld_pack, Nat.reduceSub]
    · subst hw
      simp (disch := decide) only [fld_pack_lo, fld_pack, Nat.reduceSub])

theorem sxor (b : BitVec 6) (a : BitVec 6) (d : BitVec 6) : Statement (.sxor b a d) :=
  of_word rfl (fun s => by
    rw [show Instr.word (.sxor b a d) s = pack 1 (1#1) (pack 2 s (pack 7 (1#7) (pack 6 d (pack 6 a (pack 6 b (pack 4 (11#4) 0)))))) from rfl]
    generalize hw : pack 1 (1#1) (pack 2 s (pack 7 (1#7) (pack 6 d (pack 6 a (pack 6 b (pack 4 (11#4) 0)))))) = w
    have hop : sel w 3 7 = 1 := by subst hw; simp (disch := decide) only [sel_pack_lo, sel_pack_in, Nat.reduceSub, BitVec.toNat_ofNat]; try rfl
    have hk0 : sel w 28 4 = 11 := by subst hw; simp (disch := decide) only [sel_pack_lo, sel_pack_in, Nat.reduceSub, BitVec.toNat_ofNat]; try rfl
    refine ⟨?_, hw ▸ (fits_pack (n := 1) (m := 31) (fits_pack (n := 2) (m := 29) (fits_pack (n := 7) (m := 22) (fits_pack (n := 6) (m := 16) (fits_pack (n := 6) (m := 10) (fits_pack (n := 6) (m := 4) (fits_pack (n := 4) (m := 0) fits_zero)))))) : Fits _ 32), hw ▸ pack_mod _ _, by rw [hop]; decide, ?_⟩
    · rw [raw01 hop]
      simp only [decodeOp01, hk0, reduceIte, Nat.reduceEqDiff, OfNat.ofNat_ne_zero, OfNat.zero_ne_ofNat, OfNat.ofNat_ne_one, OfNat.one_ne_ofNat, zero_ne_one, one_ne_zero, true_and, false_and, and_true, and_false]
      subst hw
      simp (disch := decide) only [fld_pack_lo, fld_pack, Nat.reduceSub]
    · subst hw
      simp (disch := decide) only [fld_pack_lo, fld_pack, Nat.reduceSub])

theorem sshl (b : BitVec 6) (a : BitVec 6) (d : BitVec 6) : Statement (.sshl b a d) :=
  of_word rfl (fun s => by
    rw [show Instr.word (.sshl b a d) s = pack 1 (1#1) (pack 2 s (pack 7 (1#7) (pack 6 d (pack 6 a (pack 6 b (pack 4 (12#4) 0)))))) from rfl]
    generalize hw : pack 1 (1#1) (pack 2 s (pack 7 (1#7) (pack 6 d (pack 6 a (pack 6 b (pack 4 (12#4) 0)))))) = w
    have hop : sel w 3 7 = 1 := by subst hw; simp (disch := decide) only [sel_pack_lo, sel_pack_in, Nat.reduceSub, BitVec.toNat_ofNat]; try rfl
    have hk0 : sel w 28 4 = 12 := by subst hw; simp (disch := decide) only [sel_pack_lo, sel_pack_in, Nat.reduceSub, BitVec.toNat_ofNat]; try rfl
    refine ⟨?_, hw ▸ (fits_pack (n := 1) (m := 31) (fits_pack (n := 2) (m := 29) (fits_pack (n := 7) (m := 22) (fits_pack (n := 6) (m := 16) (fits_pack (n := 6) (m := 10) (fits_pack (n := 6) (m := 4) (fits_pack (n := 4) (m := 0) fits_zero)))))) : Fits _ 32), hw ▸ pack_mod _ _, by rw [hop]; decide, ?_⟩
    · rw [raw01 hop]
      simp only [decodeOp01, hk0, reduceIte, Nat.reduceEqDiff, OfNat.ofNat_ne_zero, OfNat.zero_ne_ofNat, OfNat.ofNat_ne_one, OfNat.one_ne_ofNat, zero_ne_one, one_ne_zero, true_and, false_and, and_true, and_false]
      subst hw
      simp (disch := decide) only [fld_pack_lo, fld_pack, Nat.reduceSub]
    · subst hw
      simp (disch := decide) only [fld_pack_lo, fld_pack, Nat.reduceSub])

theorem sshr (b : BitVec 6) (a : BitVec 6) (d : BitVec 6) : Statement (.sshr b a d) :=
  of_word rfl (fun s => by
    rw [show Instr.word (.sshr b a d) s = pack 1 (1#1) (pack 2 s (pack 7 (1#7) (pack 6 d (pack 6 a (pack 6 b (pack 4 (13#4) 0)))))) from rfl]
    generalize hw : pack 1 (1#1) (pack 2 s (pack 7 (1#7) (pack 6 d (pack 6 a (pack 6 b (pack 4 (13#4) 0)))))) = w
    have hop : sel w 3 7 = 1 := by subst hw; simp (disch := decide) only [sel_pack_lo, sel_pack_in, Nat.reduceSub, BitVec.toNat_ofNat]; try rfl
    have hk0 : sel w 28 4 = 13 := by subst hw; simp (disch := decide) only [sel_pack_lo, sel_pack_in, Nat.reduceSub, BitVec.toNat_ofNat]; try rfl
    refine ⟨?_, hw ▸ (fits_pack (n := 1) (m := 31) (fits_pack (n := 2) (m := 29) (fits_pack (n := 7) (m := 22) (fits_pack (n := 6) (m := 16) (fits_pack (n := 6) (m := 10) (fits_pack (n := 6) (m := 4) (fits_pack (n := 4) (m := 0) fits_zero)))))) : Fits _ 32), hw ▸ pack_mod _ _, by rw [hop]; decide, ?_⟩
    · rw [raw01 hop]
      simp only [decodeOp01, hk0, reduceIte, Nat.reduceEqDiff, OfNat.ofNat_ne_zero, OfNat.zero_ne_ofNat, OfNat.ofNat_ne_one, OfNat.one_ne_ofNat, zero_ne_one, one_ne_zero, true_and, false_and, and_true, and_false]
      subst hw
      simp (disch := decide) only [fld_pack_lo, fld_pack, Nat.reduceSub]
    · subst hw
      simp (disch := decide) only [fld_pack_lo, fld_pack, Nat.reduceSub])

theorem ssra (b : BitVec 6) (a : BitVec 6) (d : BitVec 6) : Statement (.ssra b a d) :=
  of_word rfl (fun s => by
    rw [show Instr.word (.ssra b a d) s = pack 1 (1#1) (pack 2 s (pack 7 (1#7) (pack 6 d (pack 6 a (pack 6 b (pack 4 (14#4) 0)))))) from rfl]
    generalize hw : pack 1 (1#1) (pack 2 s (pack 7 (1#7) (pack 6 d (pack 6 a (pack 6 b (pack 4 (14#4) 0)))))) = w
    have hop : sel w 3 7 = 1 := by subst hw; simp (disch := decide) only [sel_pack_lo, sel_pack_in, Nat.reduceSub, BitVec.toNat_ofNat]; try rfl
    have hk0 : sel w 28 4 = 14 := by subst hw; simp (disch := decide) only [sel_pack_lo, sel_pack_in, Nat.reduceSub, BitVec.toNat_ofNat]; try rfl
    refine ⟨?_, hw ▸ (fits_pack (n := 1) (m := 31) (fits_pack (n := 2) (m := 29) (fits_pack (n := 7) (m := 22) (fits_pack (n := 6) (m := 16) (fits_pack (n := 6) (m := 10) (fits_pack (n := 6) (m := 4) (fits_pack (n := 4) (m := 0) fits_zero)))))) : Fits _ 32), hw ▸ pack_mod _ _, by rw [hop]; decide, ?_⟩
    · rw [raw01 hop]
      simp only [decodeOp01, hk0, reduceIte, Nat.reduceEqDiff, OfNat.ofNat_ne_zero, OfNat.zero_ne_ofNat, OfNat.ofNat_ne_one, OfNat.one_ne_ofNat, zero_ne_one, one_ne_zero, true_and, false_and, and_true, and_false]
      subst hw
      simp (disch := decide) only [fld_pack_lo, fld_pack, Nat.reduceSub]
    · subst hw
      simp (disch := decide) only [fld_pack_lo, fld_pack, Nat.reduceSub])

theorem smin (b : BitVec 6) (a : BitVec 6) (d : BitVec 6) : Statement (.smin b a d) :=
  of_word rfl (fun s => by
    rw [show Instr.word (.smin b a d) s = pack 1 (1#1) (pack 2 s (pack 7 (2#7) (pack 6 d (pack 6 a (pack 6 b (pack 4 (0#4) 0)))))) from rfl]
    generalize hw : pack 1 (1#1) (pack 2 s (pack 7 (2#7) (pack 6 d (pack 6 a (pack 6 b (pack 4 (0#4) 0)))))) = w
    have hop : sel w 3 7 = 2 := by subst hw; simp (disch := decide) only [sel_pack_lo, sel_pack_in, Nat.reduceSub, BitVec.toNat_ofNat]; try rfl
    have hk0 : sel w 28 4 = 0 := by subst hw; simp (disch := decide) only [sel_pack_lo, sel_pack_in, Nat.reduceSub, BitVec.toNat_ofNat]; try rfl
    refine ⟨?_, hw ▸ (fits_pack (n := 1) (m := 31) (fits_pack (n := 2) (m := 29) (fits_pack (n := 7) (m := 22) (fits_pack (n := 6) (m := 16) (fits_pack (n := 6) (m := 10) (fits_pack (n := 6) (m := 4) (fits_pack (n := 4) (m := 0) fits_zero)))))) : Fits _ 32), hw ▸ pack_mod _ _, by rw [hop]; decide, ?_⟩
    · rw [raw02 hop]
      simp only [decodeOp02, hk0, reduceIte, Nat.reduceEqDiff, OfNat.ofNat_ne_zero, OfNat.zero_ne_ofNat, OfNat.ofNat_ne_one, OfNat.one_ne_ofNat, zero_ne_one, one_ne_zero, true_and, false_and, and_true, and_false]
      subst hw
      simp (disch := decide) only [fld_pack_lo, fld_pack, Nat.reduceSub]
    · subst hw
      simp (disch := decide) only [fld_pack_lo, fld_pack, Nat.reduceSub])

theorem smax (b : BitVec 6) (a : BitVec 6) (d : BitVec 6) : Statement (.smax b a d) :=
  of_word rfl (fun s => by
    rw [show Instr.word (.smax b a d) s = pack 1 (1#1) (pack 2 s (pack 7 (2#7) (pack 6 d (pack 6 a (pack 6 b (pack 4 (1#4) 0)))))) from rfl]
    generalize hw : pack 1 (1#1) (pack 2 s (pack 7 (2#7) (pack 6 d (pack 6 a (pack 6 b (pack 4 (1#4) 0)))))) = w
    have hop : sel w 3 7 = 2 := by subst hw; simp (disch := decide) only [sel_pack_lo, sel_pack_in, Nat.reduceSub, BitVec.toNat_ofNat]; try rfl
    have hk0 : sel w 28 4 = 1 := by subst hw; simp (disch := decide) only [sel_pack_lo, sel_pack_in, Nat.reduceSub, BitVec.toNat_ofNat]; try rfl
    refine ⟨?_, hw ▸ (fits_pack (n := 1) (m := 31) (fits_pack (n := 2) (m := 29) (fits_pack (n := 7) (m := 22) (fits_pack (n := 6) (m := 16) (fits_pack (n := 6) (m := 10) (fits_pack (n := 6) (m := 4) (fits_pack (n := 4) (m := 0) fits_zero)))))) : Fits _ 32), hw ▸ pack_mod _ _, by rw [hop]; decide, ?_⟩
    · rw [raw02 hop]
      simp only [decodeOp02, hk0, reduceIte, Nat.reduceEqDiff, OfNat.ofNat_ne_zero, OfNat.zero_ne_ofNat, OfNat.ofNat_ne_one, OfNat.one_ne_ofNat, zero_ne_one, one_ne_zero, true_and, false_and, and_true, and_false]
      subst hw
      simp (disch := decide) only [fld_pack_lo, fld_pack, Nat.reduceSub]
    · subst hw
      simp (disch := decide) only [fld_pack_lo, fld_pack, Nat.reduceSub])

theorem sminz (b : BitVec 6) (a : BitVec 6) (d : BitVec 6) : Statement (.sminz b a d) :=
  of_word rfl (fun s => by
    rw [show Instr.word (.sminz b a d) s = pack 1 (1#1) (pack 2 s (pack 7 (2#7) (pack 6 d (pack 6 a (pack 6 b (pack 4 (2#4) 0)))))) from rfl]
    generalize hw : pack 1 (1#1) (pack 2 s (pack 7 (2#7) (pack 6 d (pack 6 a (pack 6 b (pack 4 (2#4) 0)))))) = w
    have hop : sel w 3 7 = 2 := by subst hw; simp (disch := decide) only [sel_pack_lo, sel_pack_in, Nat.reduceSub, BitVec.toNat_ofNat]; try rfl
    have hk0 : sel w 28 4 = 2 := by subst hw; simp (disch := decide) only [sel_pack_lo, sel_pack_in, Nat.reduceSub, BitVec.toNat_ofNat]; try rfl
    refine ⟨?_, hw ▸ (fits_pack (n := 1) (m := 31) (fits_pack (n := 2) (m := 29) (fits_pack (n := 7) (m := 22) (fits_pack (n := 6) (m := 16) (fits_pack (n := 6) (m := 10) (fits_pack (n := 6) (m := 4) (fits_pack (n := 4) (m := 0) fits_zero)))))) : Fits _ 32), hw ▸ pack_mod _ _, by rw [hop]; decide, ?_⟩
    · rw [raw02 hop]
      simp only [decodeOp02, hk0, reduceIte, Nat.reduceEqDiff, OfNat.ofNat_ne_zero, OfNat.zero_ne_ofNat, OfNat.ofNat_ne_one, OfNat.one_ne_ofNat, zero_ne_one, one_ne_zero, true_and, false_and, and_true, and_false]
      subst hw
      simp (disch := decide) only [fld_pack_lo, fld_pack, Nat.reduceSub]
    · subst hw
      simp (disch := decide) only [fld_pack_lo, fld_pack, Nat.reduceSub])

theorem smaxz (b : BitVec 6) (a : BitVec 6) (d : BitVec 6) : Statement (.smaxz b a d) :=
  of_word rfl (fun s => by
    rw [show Instr.word (.smaxz b a d) s = pack 1 (1#1) (pack 2 s (pack 7 (2#7) (pack 6 d (pack 6 a (pack 6 b (pack 4 (3#4) 0)))))) from rfl]
    generalize hw : pack 1 (1#1) (pack 2 s (pack 7 (2#7) (pack 6 d (pack 6 a (pack 6 b (pack 4 (3#4) 0)))))) = w
    have hop : sel w 3 7 = 2 := by subst hw; simp (disch := decide) only [sel_pack_lo, sel_pack_in, Nat.reduceSub, BitVec.toNat_ofNat]; try rfl
    have hk0 : sel w 28 4 = 3 := by subst hw; simp (disch := decide) only [sel_pack_lo, sel_pack_in, Nat.reduceSub, BitVec.toNat_ofNat]; try rfl
    refine ⟨?_, hw ▸ (fits_pack (n := 1) (m := 31) (fits_pack (n := 2) (m := 29) (fits_pack (n := 7) (m := 22) (fits_pack (n := 6) (m := 16) (fits_pack (n := 6) (m := 10) (fits_pack (n := 6) (m := 4) (fits_pack (n := 4) (m := 0) fits_zero)))))) : Fits _ 32), hw ▸ pack_mod _ _, by rw [hop]; decide, ?_⟩
    · rw [raw02 hop]
      simp only [decodeOp02, hk0, reduceIte, Nat.reduceEqDiff, OfNat.ofNat_ne_zero, OfNat.zero_ne_ofNat, OfNat.ofNat_ne_one, OfNat.one_ne_ofNat, zero_ne_one, one_ne_zero, true_and, false_and, and_true, and_false]
      subst hw
      simp (disch := decide) only [fld_pack_lo, fld_pack, Nat.reduceSub]
    · subst hw
      simp (disch := decide) only [fld_pack_lo, fld_pack, Nat.reduceSub])

theorem sseq (b : BitVec 6) (a : BitVec 6) (d : BitVec 6) : Statement (.sseq b a d) :=
  of_word rfl (fun s => by
    rw [show Instr.word (.sseq b a d) s = pack 1 (1#1) (pack 2 s (pack 7 (2#7) (pack 6 d (pack 6 a (pack 6 b (pack 4 (4#4) 0)))))) from rfl]
    generalize hw : pack 1 (1#1) (pack 2 s (pack 7 (2#7) (pack 6 d (pack 6 a (pack 6 b (pack 4 (4#4) 0)))))) = w
    have hop : sel w 3 7 = 2 := by subst hw; simp (disch := decide) only [sel_pack_lo, sel_pack_in, Nat.reduceSub, BitVec.toNat_ofNat]; try rfl
    have hk0 : sel w 28 4 = 4 := by subst hw; simp (disch := decide) only [sel_pack_lo, sel_pack_in, Nat.reduceSub, BitVec.toNat_ofNat]; try rfl
    refine ⟨?_, hw ▸ (fits_pack (n := 1) (m := 31) (fits_pack (n := 2) (m := 29) (fits_pack (n := 7) (m := 22) (fits_pack (n := 6) (m := 16) (fits_pack (n := 6) (m := 10) (fits_pack (n := 6) (m := 4) (fits_pack (n := 4) (m := 0) fits_zero)))))) : Fits _ 32), hw ▸ pack_mod _ _, by rw [hop]; decide, ?_⟩
    · rw [raw02 hop]
      simp only [decodeOp02, hk0, reduceIte, Nat.reduceEqDiff, OfNat.ofNat_ne_zero, OfNat.zero_ne_ofNat, OfNat.ofNat_ne_one, OfNat.one_ne_ofNat, zero_ne_one, one_ne_zero, true_and, false_and, and_true, and_false]
      subst hw
      simp (disch := decide) only [fld_pack_lo, fld_pack, Nat.reduceSub]
    · subst hw
      simp (disch := decide) only [fld_pack_lo, fld_pack, Nat.reduceSub])

theorem ssne (b : BitVec 6) (a : BitVec 6) (d : BitVec 6) : Statement (.ssne b a d) :=
  of_word rfl (fun s => by
    rw [show Instr.word (.ssne b a d) s = pack 1 (1#1) (pack 2 s (pack 7 (2#7) (pack 6 d (pack 6 a (pack 6 b (pack 4 (5#4) 0)))))) from rfl]
    generalize hw : pack 1 (1#1) (pack 2 s (pack 7 (2#7) (pack 6 d (pack 6 a (pack 6 b (pack 4 (5#4) 0)))))) = w
    have hop : sel w 3 7 = 2 := by subst hw; simp (disch := decide) only [sel_pack_lo, sel_pack_in, Nat.reduceSub, BitVec.toNat_ofNat]; try rfl
    have hk0 : sel w 28 4 = 5 := by subst hw; simp (disch := decide) only [sel_pack_lo, sel_pack_in, Nat.reduceSub, BitVec.toNat_ofNat]; try rfl
    refine ⟨?_, hw ▸ (fits_pack (n := 1) (m := 31) (fits_pack (n := 2) (m := 29) (fits_pack (n := 7) (m := 22) (fits_pack (n := 6) (m := 16) (fits_pack (n := 6) (m := 10) (fits_pack (n := 6) (m := 4) (fits_pack (n := 4) (m := 0) fits_zero)))))) : Fits _ 32), hw ▸ pack_mod _ _, by rw [hop]; decide, ?_⟩
    · rw [raw02 hop]
      simp only [decodeOp02, hk0, reduceIte, Nat.reduceEqDiff, OfNat.ofNat_ne_zero, OfNat.zero_ne_ofNat, OfNat.ofNat_ne_one, OfNat.one_ne_ofNat, zero_ne_one, one_ne_zero, true_and, false_and, and_true, and_false]
      subst hw
      simp (disch := decide) only [fld_pack_lo, fld_pack, Nat.reduceSub]
    · subst hw
      simp (disch := decide) only [fld_pack_lo, fld_pack, Nat.reduceSub])

theorem sslt (b : BitVec 6) (a : BitVec 6) (d : BitVec 6) : Statement (.sslt b a d) :=
  of_word rfl (fun s => by
    rw [show Instr.word (.sslt b a d) s = pack 1 (1#1) (pack 2 s (pack 7 (2#7) (pack 6 d (pack 6 a (pack 6 b (pack 4 (6#4) 0)))))) from rfl]
    generalize hw : pack 1 (1#1) (pack 2 s (pack 7 (2#7) (pack 6 d (pack 6 a (pack 6 b (pack 4 (6#4) 0)))))) = w
    have hop : sel w 3 7 = 2 := by subst hw; simp (disch := decide) only [sel_pack_lo, sel_pack_in, Nat.reduceSub, BitVec.toNat_ofNat]; try rfl
    have hk0 : sel w 28 4 = 6 := by subst hw; simp (disch := decide) only [sel_pack_lo, sel_pack_in, Nat.reduceSub, BitVec.toNat_ofNat]; try rfl
    refine ⟨?_, hw ▸ (fits_pack (n := 1) (m := 31) (fits_pack (n := 2) (m := 29) (fits_pack (n := 7) (m := 22) (fits_pack (n := 6) (m := 16) (fits_pack (n := 6) (m := 10) (fits_pack (n := 6) (m := 4) (fits_pack (n := 4) (m := 0) fits_zero)))))) : Fits _ 32), hw ▸ pack_mod _ _, by rw [hop]; decide, ?_⟩
    · rw [raw02 hop]
      simp only [decodeOp02, hk0, reduceIte, Nat.reduceEqDiff, OfNat.ofNat_ne_zero, OfNat.zero_ne_ofNat, OfNat.ofNat_ne_one, OfNat.one_ne_ofNat, zero_ne_one, one_ne_zero, true_and, false_and, and_true, and_false]
      subst hw
      simp (disch := decide) only [fld_pack_lo, fld_pack, Nat.reduceSub]
    · subst hw
      simp (disch := decide) only [fld_pack_lo, fld_pack, Nat.reduceSub])

theorem ssltz (b : BitVec 6) (a : BitVec 6) (d : BitVec 6) : Statement (.ssltz b a d) :=
  of_word rfl (fun s => by
    rw [show Instr.word (.ssltz b a d) s = pack 1 (1#1) (pack 2 s (pack 7 (2#7) (pack 6 d (pack 6 a (pack 6 b (pack 4 (7#4) 0)))))) from rfl]
    generalize hw : pack 1 (1#1) (pack 2 s (pack 7 (2#7) (pack 6 d (pack 6 a (pack 6 b (pack 4 (7#4) 0)))))) = w
    have hop : sel w 3 7 = 2 := by subst hw; simp (disch := decide) only [sel_pack_lo, sel_pack_in, Nat.reduceSub, BitVec.toNat_ofNat]; try rfl
    have hk0 : sel w 28 4 = 7 := by subst hw; simp (disch := decide) only [sel_pack_lo, sel_pack_in, Nat.reduceSub, BitVec.toNat_ofNat]; try rfl
    refine ⟨?_, hw ▸ (fits_pack (n := 1) (m := 31) (fits_pack (n := 2) (m := 29) (fits_pack (n := 7) (m := 22) (fits_pack (n := 6) (m := 16) (fits_pack (n := 6) (m := 10) (fits_pack (n := 6) (m := 4) (fits_pack (n := 4) (m := 0) fits_zero)))))) : Fits _ 32), hw ▸ pack_mod _ _, by rw [hop]; decide, ?_⟩
    · rw [raw02 hop]
      simp only [decodeOp02, hk0, reduceIte, Nat.reduceEqDiff, OfNat.ofNat_ne_zero, OfNat.zero_ne_ofNat, OfNat.ofNat_ne_one, OfNat.one_ne_ofNat, zero_ne_one, one_ne_zero, true_and, false_and, and_true, and_false]
      subst hw
      simp (disch := decide) only [fld_pack_lo, fld_pack, Nat.reduceSub]
    · subst hw
      simp (disch := decide) only [fld_pack_lo, fld_pack, Nat.reduceSub])

theorem ssle (b : BitVec 6) (a : BitVec 6) (d : BitVec 6) : Statement (.ssle b a d) :=
  of_word rfl (fun s => by
    rw [show Instr.word (.ssle b a d) s = pack 1 (1#1) (pack 2 s (pack 7 (2#7) (pack 6 d (pack 6 a (pack 6 b (pack 4 (8#4) 0)))))) from rfl]
    generalize hw : pack 1 (1#1) (pack 2 s (pack 7 (2#7) (pack 6 d (pack 6 a (pack 6 b (pack 4 (8#4) 0)))))) = w
    have hop : sel w 3 7 = 2 := by subst hw; simp (disch := decide) only [sel_pack_lo, sel_pack_in, Nat.reduceSub, BitVec.toNat_ofNat]; try rfl
    have hk0 : sel w 28 4 = 8 := by subst hw; simp (disch := decide) only [sel_pack_lo, sel_pack_in, Nat.reduceSub, BitVec.toNat_ofNat]; try rfl
    refine ⟨?_, hw ▸ (fits_pack (n := 1) (m := 31) (fits_pack (n := 2) (m := 29) (fits_pack (n := 7) (m := 22) (fits_pack (n := 6) (m := 16) (fits_pack (n := 6) (m := 10) (fits_pack (n := 6) (m := 4) (fits_pack (n := 4) (m := 0) fits_zero)))))) : Fits _ 32), hw ▸ pack_mod _ _, by rw [hop]; decide, ?_⟩
    · rw [raw02 hop]
      simp only [decodeOp02, hk0, reduceIte, Nat.reduceEqDiff, OfNat.ofNat_ne_zero, OfNat.zero_ne_ofNat, OfNat.ofNat_ne_one, OfNat.one_ne_ofNat, zero_ne_one, one_ne_zero, true_and, false_and, and_true, and_false]
      subst hw
      simp (disch := decide) only [fld_pack_lo, fld_pack, Nat.reduceSub]
    · subst hw
      simp (disch := decide) only [fld_pack_lo, fld_pack, Nat.reduceSub])

theorem sslez (b : BitVec 6) (a : BitVec 6) (d : BitVec 6) : Statement (.sslez b a d) :=
  of_word rfl (fun s => by
    rw [show Instr.word (.sslez b a d) s = pack 1 (1#1) (pack 2 s (pack 7 (2#7) (pack 6 d (pack 6 a (pack 6 b (pack 4 (9#4) 0)))))) from rfl]
    generalize hw : pack 1 (1#1) (pack 2 s (pack 7 (2#7) (pack 6 d (pack 6 a (pack 6 b (pack 4 (9#4) 0)))))) = w
    have hop : sel w 3 7 = 2 := by subst hw; simp (disch := decide) only [sel_pack_lo, sel_pack_in, Nat.reduceSub, BitVec.toNat_ofNat]; try rfl
    have hk0 : sel w 28 4 = 9 := by subst hw; simp (disch := decide) only [sel_pack_lo, sel_pack_in, Nat.reduceSub, BitVec.toNat_ofNat]; try rfl
    refine ⟨?_, hw ▸ (fits_pack (n := 1) (m := 31) (fits_pack (n := 2) (m := 29) (fits_pack (n := 7) (m := 22) (fits_pack (n := 6) (m := 16) (fits_pack (n := 6) (m := 10) (fits_pack (n := 6) (m := 4) (fits_pack (n := 4) (m := 0) fits_zero)))))) : Fits _ 32), hw ▸ pack_mod _ _, by rw [hop]; decide, ?_⟩
    · rw [raw02 hop]
      simp only [decodeOp02, hk0, reduceIte, Nat.reduceEqDiff, OfNat.ofNat_ne_zero, OfNat.zero_ne_ofNat, OfNat.ofNat_ne_one, OfNat.one_ne_ofNat, zero_ne_one, one_ne_zero, true_and, false_and, and_true, and_false]
      subst hw
      simp (disch := decide) only [fld_pack_lo, fld_pack, Nat.reduceSub]
    · subst hw
      simp (disch := decide) only [fld_pack_lo, fld_pack, Nat.reduceSub])

theorem smov (a : BitVec 6) (d : BitVec 6) : Statement (.smov a d) :=
  of_word rfl (fun s => by
    rw [show Instr.word (.smov a d) s = pack 1 (1#1) (pack 2 s (pack 7 (2#7) (pack 6 d (pack 6 a (pack 10 (640#10) 0))))) from rfl]
    generalize hw : pack 1 (1#1) (pack 2 s (pack 7 (2#7) (pack 6 d (pack 6 a (pack 10 (640#10) 0))))) = w
    have hop : sel w 3 7 = 2 := by subst hw; simp (disch := decide) only [sel_pack_lo, sel_pack_in, Nat.reduceSub, BitVec.toNat_ofNat]; try rfl
    have hk0 : sel w 28 4 = 10 := by subst hw; simp (disch := decide) only [sel_pack_lo, sel_pack_in, Nat.reduceSub, BitVec.toNat_ofNat]; try rfl
    have hk1 : sel w 22 10 = 640 := by subst hw; simp (disch := decide) only [sel_pack_lo, sel_pack_in, Nat.reduceSub, BitVec.toNat_ofNat]; try rfl
    refine ⟨?_, hw ▸ (fits_pack (n := 1) (m := 31) (fits_pack (n := 2) (m := 29) (fits_pack (n := 7) (m := 22) (fits_pack (n := 6) (m := 16) (fits_pack (n := 6) (m := 10) (fits_pack (n := 10) (m := 0) fits_zero))))) : Fits _ 32), hw ▸ pack_mod _ _, by rw [hop]; decide, ?_⟩
    · rw [raw02 hop]
      simp only [decodeOp02, hk0, hk1, reduceIte, Nat.reduceEqDiff, OfNat.ofNat_ne_zero, OfNat.zero_ne_ofNat, OfNat.ofNat_ne_one, OfNat.one_ne_ofNat, zero_ne_one, one_ne_zero, true_and, false_and, and_true, and_false]
      subst hw
      simp (disch := decide) only [fld_pack_lo, fld_pack, Nat.reduceSub]
    · subst hw
      simp (disch := decide) only [fld_pack_lo, fld_pack, Nat.reduceSub])

theorem saddi (imm : BitVec 10) (a : BitVec 6) (d : BitVec 6) : Statement (.saddi imm a d) :=
  of_word rfl (fun s => by
    rw [show Instr.word (.saddi imm a d) s = pack 1 (1#1) (pack 2 s (pack 7 (3#7) (pack 6 d (pack 6 a (pack 10 imm 0))))) from rfl]
    generalize hw : pack 1 (1#1) (pack 2 s (pack 7 (3#7) (pack 6 d (pack 6 a (pack 10 imm 0))))) = w
    have hop : sel w 3 7 = 3 := by subst hw; simp (disch := decide) only [sel_pack_lo, sel_pack_in, Nat.reduceSub, BitVec.toNat_ofNat]; try rfl
    refine ⟨?_, hw ▸ (fits_pack (n := 1) (m := 31) (fits_pack (n := 2) (m := 29) (fits_pack (n := 7) (m := 22) (fits_pack (n := 6) (m := 16) (fits_pack (n := 6) (m := 10) (fits_pack (n := 10) (m := 0) fits_zero))))) : Fits _ 32), hw ▸ pack_mod _ _, by rw [hop]; decide, ?_⟩
    · rw [raw03 hop, ← hw]
      simp (disch := decide) only [fld_pack_lo, fld_pack, Nat.reduceSub]
    · subst hw
      simp (disch := decide) only [fld_pack_lo, fld_pack, Nat.reduceSub])

theorem sandi (imm : BitVec 10) (a : BitVec 6) (d : BitVec 6) : Statement (.sandi imm a d) :=
  of_word rfl (fun s => by
    rw [show Instr.word (.sandi imm a d) s = pack 1 (1#1) (pack 2 s (pack 7 (4#7) (pack 6 d (pack 6 a (pack 10 imm 0))))) from rfl]
    generalize hw : pack 1 (1#1) (pack 2 s (pack 7 (4#7) (pack 6 d (pack 6 a (pack 10 imm 0))))) = w
    have hop : sel w 3 7 = 4 := by subst hw; simp (disch := decide) only [sel_pack_lo, sel_pack_in, Nat.reduceSub, BitVec.toNat_ofNat]; try rfl
    refine ⟨?_, hw ▸ (fits_pack (n := 1) (m := 31) (fits_pack (n := 2) (m := 29) (fits_pack (n := 7) (m := 22) (fits_pack (n := 6) (m := 16) (fits_pack (n := 6) (m := 10) (fits_pack (n := 10) (m := 0) fits_zero))))) : Fits _ 32), hw ▸ pack_mod _ _, by rw [hop]; decide, ?_⟩
    · rw [raw04 hop, ← hw]
      simp (disch := decide) only [fld_pack_lo, fld_pack, Nat.reduceSub]
    · subst hw
      simp (disch := decide) only [fld_pack_lo, fld_pack, Nat.reduceSub])

theorem sori (imm : BitVec 10) (a : BitVec 6) (d : BitVec 6) : Statement (.sori imm a d) :=
  of_word rfl (fun s => by
    rw [show Instr.word (.sori imm a d) s = pack 1 (1#1) (pack 2 s (pack 7 (5#7) (pack 6 d (pack 6 a (pack 10 imm 0))))) from rfl]
    generalize hw : pack 1 (1#1) (pack 2 s (pack 7 (5#7) (pack 6 d (pack 6 a (pack 10 imm 0))))) = w
    have hop : sel w 3 7 = 5 := by subst hw; simp (disch := decide) only [sel_pack_lo, sel_pack_in, Nat.reduceSub, BitVec.toNat_ofNat]; try rfl
    refine ⟨?_, hw ▸ (fits_pack (n := 1) (m := 31) (fits_pack (n := 2) (m := 29) (fits_pack (n := 7) (m := 22) (fits_pack (n := 6) (m := 16) (fits_pack (n := 6) (m := 10) (fits_pack (n := 10) (m := 0) fits_zero))))) : Fits _ 32), hw ▸ pack_mod _ _, by rw [hop]; decide, ?_⟩
    · rw [raw05 hop, ← hw]
      simp (disch := decide) only [fld_pack_lo, fld_pack, Nat.reduceSub]
    · subst hw
      simp (disch := decide) only [fld_pack_lo, fld_pack, Nat.reduceSub])

theorem sxori (imm : BitVec 10) (a : BitVec 6) (d : BitVec 6) : Statement (.sxori imm a d) :=
  of_word rfl (fun s => by
    rw [show Instr.word (.sxori imm a d) s = pack 1 (1#1) (pack 2 s (pack 7 (6#7) (pack 6 d (pack 6 a (pack 10 imm 0))))) from rfl]
    generalize hw : pack 1 (1#1) (pack 2 s (pack 7 (6#7) (pack 6 d (pack 6 a (pack 10 imm 0))))) = w
    have hop : sel w 3 7 = 6 := by subst hw; simp (disch := decide) only [sel_pack_lo, sel_pack_in, Nat.reduceSub, BitVec.toNat_ofNat]; try rfl
    refine ⟨?_, hw ▸ (fits_pack (n := 1) (m := 31) (fits_pack (n := 2) (m := 29) (fits_pack (n := 7) (m := 22) (fits_pack (n := 6) (m := 16) (fits_pack (n := 6) (m := 10) (fits_pack (n := 10) (m := 0) fits_zero))))) : Fits _ 32), hw ▸ pack_mod _ _, by rw [hop]; decide, ?_⟩
    · rw [raw06 hop, ← hw]
      simp (disch := decide) only [fld_pack_lo, fld_pack, Nat.reduceSub]
    · subst hw
      simp (disch := decide) only [fld_pack_lo, fld_pack, Nat.reduceSub])

theorem sshli (imm : BitVec 6) (a : BitVec 6) (d : BitVec 6) : Statement (.sshli imm a d) :=
  of_word rfl (fun s => by
    rw [show Instr.word (.sshli imm a d) s = pack 1 (1#1) (pack 2 s (pack 7 (7#7) (pack 6 d (pack 6 a (pack 6 imm (pack 4 (0#4) 0)))))) from rfl]
    generalize hw : pack 1 (1#1) (pack 2 s (pack 7 (7#7) (pack 6 d (pack 6 a (pack 6 imm (pack 4 (0#4) 0)))))) = w
    have hop : sel w 3 7 = 7 := by subst hw; simp (disch := decide) only [sel_pack_lo, sel_pack_in, Nat.reduceSub, BitVec.toNat_ofNat]; try rfl
    have hk0 : sel w 28 4 = 0 := by subst hw; simp (disch := decide) only [sel_pack_lo, sel_pack_in, Nat.reduceSub, BitVec.toNat_ofNat]; try rfl
    refine ⟨?_, hw ▸ (fits_pack (n := 1) (m := 31) (fits_pack (n := 2) (m := 29) (fits_pack (n := 7) (m := 22) (fits_pack (n := 6) (m := 16) (fits_pack (n := 6) (m := 10) (fits_pack (n := 6) (m := 4) (fits_pack (n := 4) (m := 0) fits_zero)))))) : Fits _ 32), hw ▸ pack_mod _ _, by rw [hop]; decide, ?_⟩
    · rw [raw07 hop]
      simp only [decodeOp07, hk0, reduceIte, Nat.reduceEqDiff, OfNat.ofNat_ne_zero, OfNat.zero_ne_ofNat, OfNat.ofNat_ne_one, OfNat.one_ne_ofNat, zero_ne_one, one_ne_zero, true_and, false_and, and_true, and_false]
      subst hw
      simp (disch := decide) only [fld_pack_lo, fld_pack, Nat.reduceSub]
    · subst hw
      simp (disch := decide) only [fld_pack_lo, fld_pack, Nat.reduceSub])

theorem sshri (imm : BitVec 6) (a : BitVec 6) (d : BitVec 6) : Statement (.sshri imm a d) :=
  of_word rfl (fun s => by
    rw [show Instr.word (.sshri imm a d) s = pack 1 (1#1) (pack 2 s (pack 7 (8#7) (pack 6 d (pack 6 a (pack 6 imm (pack 4 (0#4) 0)))))) from rfl]
    generalize hw : pack 1 (1#1) (pack 2 s (pack 7 (8#7) (pack 6 d (pack 6 a (pack 6 imm (pack 4 (0#4) 0)))))) = w
    have hop : sel w 3 7 = 8 := by subst hw; simp (disch := decide) only [sel_pack_lo, sel_pack_in, Nat.reduceSub, BitVec.toNat_ofNat]; try rfl
    have hk0 : sel w 28 4 = 0 := by subst hw; simp (disch := decide) only [sel_pack_lo, sel_pack_in, Nat.reduceSub, BitVec.toNat_ofNat]; try rfl
    refine ⟨?_, hw ▸ (fits_pack (n := 1) (m := 31) (fits_pack (n := 2) (m := 29) (fits_pack (n := 7) (m := 22) (fits_pack (n := 6) (m := 16) (fits_pack (n := 6) (m := 10) (fits_pack (n := 6) (m := 4) (fits_pack (n := 4) (m := 0) fits_zero)))))) : Fits _ 32), hw ▸ pack_mod _ _, by rw [hop]; decide, ?_⟩
    · rw [raw08 hop]
      simp only [decodeOp08, hk0, reduceIte, Nat.reduceEqDiff, OfNat.ofNat_ne_zero, OfNat.zero_ne_ofNat, OfNat.ofNat_ne_one, OfNat.one_ne_ofNat, zero_ne_one, one_ne_zero, true_and, false_and, and_true, and_false]
      subst hw
      simp (disch := decide) only [fld_pack_lo, fld_pack, Nat.reduceSub]
    · subst hw
      simp (disch := decide) only [fld_pack_lo, fld_pack, Nat.reduceSub])

theorem ssrai (imm : BitVec 6) (a : BitVec 6) (d : BitVec 6) : Statement (.ssrai imm a d) :=
  of_word rfl (fun s => by
    rw [show Instr.word (.ssrai imm a d) s = pack 1 (1#1) (pack 2 s (pack 7 (9#7) (pack 6 d (pack 6 a (pack 6 imm (pack 4 (0#4) 0)))))) from rfl]
    generalize hw : pack 1 (1#1) (pack 2 s (pack 7 (9#7) (pack 6 d (pack 6 a (pack 6 imm (pack 4 (0#4) 0)))))) = w
    have hop : sel w 3 7 = 9 := by subst hw; simp (disch := decide) only [sel_pack_lo, sel_pack_in, Nat.reduceSub, BitVec.toNat_ofNat]; try rfl
    have hk0 : sel w 28 4 = 0 := by subst hw; simp (disch := decide) only [sel_pack_lo, sel_pack_in, Nat.reduceSub, BitVec.toNat_ofNat]; try rfl
    refine ⟨?_, hw ▸ (fits_pack (n := 1) (m := 31) (fits_pack (n := 2) (m := 29) (fits_pack (n := 7) (m := 22) (fits_pack (n := 6) (m := 16) (fits_pack (n := 6) (m := 10) (fits_pack (n := 6) (m := 4) (fits_pack (n := 4) (m := 0) fits_zero)))))) : Fits _ 32), hw ▸ pack_mod _ _, by rw [hop]; decide, ?_⟩
    · rw [raw09 hop]
      simp only [decodeOp09, hk0, reduceIte, Nat.reduceEqDiff, OfNat.ofNat_ne_zero, OfNat.zero_ne_ofNat, OfNat.ofNat_ne_one, OfNat.one_ne_ofNat, zero_ne_one, one_ne_zero, true_and, false_and, and_true, and_false]
      subst hw
      simp (disch := decide) only [fld_pack_lo, fld_pack, Nat.reduceSub]
    · subst hw
      simp (disch := decide) only [fld_pack_lo, fld_pack, Nat.reduceSub])

theorem sli (imm : BitVec 16) (d : BitVec 6) : Statement (.sli imm d) :=
  of_word rfl (fun s => by
    rw [show Instr.word (.sli imm d) s = pack 1 (1#1) (pack 2 s (pack 7 (10#7) (pack 6 d (pack 16 imm 0)))) from rfl]
    generalize hw : pack 1 (1#1) (pack 2 s (pack 7 (10#7) (pack 6 d (pack 16 imm 0)))) = w
    have hop : sel w 3 7 = 10 := by subst hw; simp (disch := decide) only [sel_pack_lo, sel_pack_in, Nat.reduceSub, BitVec.toNat_ofNat]; try rfl
    refine ⟨?_, hw ▸ (fits_pack (n := 1) (m := 31) (fits_pack (n := 2) (m := 29) (fits_pack (n := 7) (m := 22) (fits_pack (n := 6) (m := 16) (fits_pack (n := 16) (m := 0) fits_zero)))) : Fits _ 32), hw ▸ pack_mod _ _, by rw [hop]; decide, ?_⟩
    · rw [raw0A hop, ← hw]
      simp (disch := decide) only [fld_pack_lo, fld_pack, Nat.reduceSub]
    · subst hw
      simp (disch := decide) only [fld_pack_lo, fld_pack, Nat.reduceSub])

theorem slh16 (imm : BitVec 16) (d : BitVec 6) : Statement (.slh16 imm d) :=
  of_word rfl (fun s => by
    rw [show Instr.word (.slh16 imm d) s = pack 1 (1#1) (pack 2 s (pack 7 (11#7) (pack 6 d (pack 16 imm 0)))) from rfl]
    generalize hw : pack 1 (1#1) (pack 2 s (pack 7 (11#7) (pack 6 d (pack 16 imm 0)))) = w
    have hop : sel w 3 7 = 11 := by subst hw; simp (disch := decide) only [sel_pack_lo, sel_pack_in, Nat.reduceSub, BitVec.toNat_ofNat]; try rfl
    refine ⟨?_, hw ▸ (fits_pack (n := 1) (m := 31) (fits_pack (n := 2) (m := 29) (fits_pack (n := 7) (m := 22) (fits_pack (n := 6) (m := 16) (fits_pack (n := 16) (m := 0) fits_zero)))) : Fits _ 32), hw ▸ pack_mod _ _, by rw [hop]; decide, ?_⟩
    · rw [raw0B hop, ← hw]
      simp (disch := decide) only [fld_pack_lo, fld_pack, Nat.reduceSub]
    · subst hw
      simp (disch := decide) only [fld_pack_lo, fld_pack, Nat.reduceSub])

theorem slh32 (imm : BitVec 16) (d : BitVec 6) : Statement (.slh32 imm d) :=
  of_word rfl (fun s => by
    rw [show Instr.word (.slh32 imm d) s = pack 1 (1#1) (pack 2 s (pack 7 (12#7) (pack 6 d (pack 16 imm 0)))) from rfl]
    generalize hw : pack 1 (1#1) (pack 2 s (pack 7 (12#7) (pack 6 d (pack 16 imm 0)))) = w
    have hop : sel w 3 7 = 12 := by subst hw; simp (disch := decide) only [sel_pack_lo, sel_pack_in, Nat.reduceSub, BitVec.toNat_ofNat]; try rfl
    refine ⟨?_, hw ▸ (fits_pack (n := 1) (m := 31) (fits_pack (n := 2) (m := 29) (fits_pack (n := 7) (m := 22) (fits_pack (n := 6) (m := 16) (fits_pack (n := 16) (m := 0) fits_zero)))) : Fits _ 32), hw ▸ pack_mod _ _, by rw [hop]; decide, ?_⟩
    · rw [raw0C hop, ← hw]
      simp (disch := decide) only [fld_pack_lo, fld_pack, Nat.reduceSub]
    · subst hw
      simp (disch := decide) only [fld_pack_lo, fld_pack, Nat.reduceSub])

theorem slh48 (imm : BitVec 16) (d : BitVec 6) : Statement (.slh48 imm d) :=
  of_word rfl (fun s => by
    rw [show Instr.word (.slh48 imm d) s = pack 1 (1#1) (pack 2 s (pack 7 (13#7) (pack 6 d (pack 16 imm 0)))) from rfl]
    generalize hw : pack 1 (1#1) (pack 2 s (pack 7 (13#7) (pack 6 d (pack 16 imm 0)))) = w
    have hop : sel w 3 7 = 13 := by subst hw; simp (disch := decide) only [sel_pack_lo, sel_pack_in, Nat.reduceSub, BitVec.toNat_ofNat]; try rfl
    refine ⟨?_, hw ▸ (fits_pack (n := 1) (m := 31) (fits_pack (n := 2) (m := 29) (fits_pack (n := 7) (m := 22) (fits_pack (n := 6) (m := 16) (fits_pack (n := 16) (m := 0) fits_zero)))) : Fits _ 32), hw ▸ pack_mod _ _, by rw [hop]; decide, ?_⟩
    · rw [raw0D hop, ← hw]
      simp (disch := decide) only [fld_pack_lo, fld_pack, Nat.reduceSub]
    · subst hw
      simp (disch := decide) only [fld_pack_lo, fld_pack, Nat.reduceSub])

theorem sld (imm : BitVec 8) (z : BitVec 2) (b : BitVec 6) (d : BitVec 6) : Statement (.sld imm z b d) :=
  of_word rfl (fun s => by
    rw [show Instr.word (.sld imm z b d) s = pack 1 (1#1) (pack 2 s (pack 7 (14#7) (pack 6 d (pack 6 b (pack 2 z (pack 8 imm 0)))))) from rfl]
    generalize hw : pack 1 (1#1) (pack 2 s (pack 7 (14#7) (pack 6 d (pack 6 b (pack 2 z (pack 8 imm 0)))))) = w
    have hop : sel w 3 7 = 14 := by subst hw; simp (disch := decide) only [sel_pack_lo, sel_pack_in, Nat.reduceSub, BitVec.toNat_ofNat]; try rfl
    refine ⟨?_, hw ▸ (fits_pack (n := 1) (m := 31) (fits_pack (n := 2) (m := 29) (fits_pack (n := 7) (m := 22) (fits_pack (n := 6) (m := 16) (fits_pack (n := 6) (m := 10) (fits_pack (n := 2) (m := 8) (fits_pack (n := 8) (m := 0) fits_zero)))))) : Fits _ 32), hw ▸ pack_mod _ _, by rw [hop]; decide, ?_⟩
    · rw [raw0E hop, ← hw]
      simp (disch := decide) only [fld_pack_lo, fld_pack, Nat.reduceSub]
    · subst hw
      simp (disch := decide) only [fld_pack_lo, fld_pack, Nat.reduceSub])

theorem sst (imm : BitVec 8) (z : BitVec 2) (b : BitVec 6) (d : BitVec 6) : Statement (.sst imm z b d) :=
  of_word rfl (fun s => by
    rw [show Instr.word (.sst imm z b d) s = pack 1 (1#1) (pack 2 s (pack 7 (15#7) (pack 6 d (pack 6 b (pack 2 z (pack 8 imm 0)))))) from rfl]
    generalize hw : pack 1 (1#1) (pack 2 s (pack 7 (15#7) (pack 6 d (pack 6 b (pack 2 z (pack 8 imm 0)))))) = w
    have hop : sel w 3 7 = 15 := by subst hw; simp (disch := decide) only [sel_pack_lo, sel_pack_in, Nat.reduceSub, BitVec.toNat_ofNat]; try rfl
    refine ⟨?_, hw ▸ (fits_pack (n := 1) (m := 31) (fits_pack (n := 2) (m := 29) (fits_pack (n := 7) (m := 22) (fits_pack (n := 6) (m := 16) (fits_pack (n := 6) (m := 10) (fits_pack (n := 2) (m := 8) (fits_pack (n := 8) (m := 0) fits_zero)))))) : Fits _ 32), hw ▸ pack_mod _ _, by rw [hop]; decide, ?_⟩
    · rw [raw0F hop, ← hw]
      simp (disch := decide) only [fld_pack_lo, fld_pack, Nat.reduceSub]
    · subst hw
      simp (disch := decide) only [fld_pack_lo, fld_pack, Nat.reduceSub])

theorem sldc (imm : BitVec 8) (z : BitVec 2) (b : BitVec 6) (d : BitVec 6) : Statement (.sldc imm z b d) :=
  of_word rfl (fun s => by
    rw [show Instr.word (.sldc imm z b d) s = pack 1 (1#1) (pack 2 s (pack 7 (16#7) (pack 6 d (pack 6 b (pack 2 z (pack 8 imm 0)))))) from rfl]
    generalize hw : pack 1 (1#1) (pack 2 s (pack 7 (16#7) (pack 6 d (pack 6 b (pack 2 z (pack 8 imm 0)))))) = w
    have hop : sel w 3 7 = 16 := by subst hw; simp (disch := decide) only [sel_pack_lo, sel_pack_in, Nat.reduceSub, BitVec.toNat_ofNat]; try rfl
    refine ⟨?_, hw ▸ (fits_pack (n := 1) (m := 31) (fits_pack (n := 2) (m := 29) (fits_pack (n := 7) (m := 22) (fits_pack (n := 6) (m := 16) (fits_pack (n := 6) (m := 10) (fits_pack (n := 2) (m := 8) (fits_pack (n := 8) (m := 0) fits_zero)))))) : Fits _ 32), hw ▸ pack_mod _ _, by rw [hop]; decide, ?_⟩
    · rw [raw10 hop, ← hw]
      simp (disch := decide) only [fld_pack_lo, fld_pack, Nat.reduceSub]
    · subst hw
      simp (disch := decide) only [fld_pack_lo, fld_pack, Nat.reduceSub])

theorem sgetl (x : BitVec 1) (l : BitVec 7) (a : BitVec 7) (d : BitVec 6) : Statement (.sgetl x l a d) :=
  of_word rfl (fun s => by
    rw [show Instr.word (.sgetl x l a d) s = pack 1 (1#1) (pack 2 s (pack 7 (17#7) (pack 6 d (pack 1 (0#1) (pack 7 a (pack 7 l (pack 1 x 0))))))) from rfl]
    generalize hw : pack 1 (1#1) (pack 2 s (pack 7 (17#7) (pack 6 d (pack 1 (0#1) (pack 7 a (pack 7 l (pack 1 x 0))))))) = w
    have hop : sel w 3 7 = 17 := by subst hw; simp (disch := decide) only [sel_pack_lo, sel_pack_in, Nat.reduceSub, BitVec.toNat_ofNat]; try rfl
    have hk0 : sel w 16 1 = 0 := by subst hw; simp (disch := decide) only [sel_pack_lo, sel_pack_in, Nat.reduceSub, BitVec.toNat_ofNat]; try rfl
    refine ⟨?_, hw ▸ (fits_pack (n := 1) (m := 31) (fits_pack (n := 2) (m := 29) (fits_pack (n := 7) (m := 22) (fits_pack (n := 6) (m := 16) (fits_pack (n := 1) (m := 15) (fits_pack (n := 7) (m := 8) (fits_pack (n := 7) (m := 1) (fits_pack (n := 1) (m := 0) fits_zero))))))) : Fits _ 32), hw ▸ pack_mod _ _, by rw [hop]; decide, ?_⟩
    · rw [raw11 hop]
      simp only [decodeOp11, hk0, reduceIte, Nat.reduceEqDiff, OfNat.ofNat_ne_zero, OfNat.zero_ne_ofNat, OfNat.ofNat_ne_one, OfNat.one_ne_ofNat, zero_ne_one, one_ne_zero, true_and, false_and, and_true, and_false]
      subst hw
      simp (disch := decide) only [fld_pack_lo, fld_pack, Nat.reduceSub]
    · subst hw
      simp (disch := decide) only [fld_pack_lo, fld_pack, Nat.reduceSub])

theorem ssetl (x : BitVec 1) (l : BitVec 7) (a : BitVec 6) (d : BitVec 7) : Statement (.ssetl x l a d) :=
  of_word rfl (fun s => by
    rw [show Instr.word (.ssetl x l a d) s = pack 1 (1#1) (pack 2 s (pack 7 (18#7) (pack 7 d (pack 6 a (pack 1 (0#1) (pack 7 l (pack 1 x 0))))))) from rfl]
    generalize hw : pack 1 (1#1) (pack 2 s (pack 7 (18#7) (pack 7 d (pack 6 a (pack 1 (0#1) (pack 7 l (pack 1 x 0))))))) = w
    have hop : sel w 3 7 = 18 := by subst hw; simp (disch := decide) only [sel_pack_lo, sel_pack_in, Nat.reduceSub, BitVec.toNat_ofNat]; try rfl
    have hk0 : sel w 23 1 = 0 := by subst hw; simp (disch := decide) only [sel_pack_lo, sel_pack_in, Nat.reduceSub, BitVec.toNat_ofNat]; try rfl
    refine ⟨?_, hw ▸ (fits_pack (n := 1) (m := 31) (fits_pack (n := 2) (m := 29) (fits_pack (n := 7) (m := 22) (fits_pack (n := 7) (m := 15) (fits_pack (n := 6) (m := 9) (fits_pack (n := 1) (m := 8) (fits_pack (n := 7) (m := 1) (fits_pack (n := 1) (m := 0) fits_zero))))))) : Fits _ 32), hw ▸ pack_mod _ _, by rw [hop]; decide, ?_⟩
    · rw [raw12 hop]
      simp only [decodeOp12, hk0, reduceIte, Nat.reduceEqDiff, OfNat.ofNat_ne_zero, OfNat.zero_ne_ofNat, OfNat.ofNat_ne_one, OfNat.one_ne_ofNat, zero_ne_one, one_ne_zero, true_and, false_and, and_true, and_false]
      subst hw
      simp (disch := decide) only [fld_pack_lo, fld_pack, Nat.reduceSub]
    · subst hw
      simp (disch := decide) only [fld_pack_lo, fld_pack, Nat.reduceSub])

theorem jmp (o : BitVec 16) : Statement (.jmp o) :=
  of_word rfl (fun s => by
    rw [show Instr.word (.jmp o) s = pack 1 (1#1) (pack 2 s (pack 13 (19#13) (pack 16 o 0))) from rfl]
    generalize hw : pack 1 (1#1) (pack 2 s (pack 13 (19#13) (pack 16 o 0))) = w
    have hop : sel w 3 7 = 19 := by subst hw; simp (disch := decide) only [sel_pack_lo, sel_pack_in, Nat.reduceSub, BitVec.toNat_ofNat]; try rfl
    have hk0 : sel w 10 6 = 0 := by subst hw; simp (disch := decide) only [sel_pack_lo, sel_pack_in, Nat.reduceSub, BitVec.toNat_ofNat]; try rfl
    refine ⟨?_, hw ▸ (fits_pack (n := 1) (m := 31) (fits_pack (n := 2) (m := 29) (fits_pack (n := 13) (m := 16) (fits_pack (n := 16) (m := 0) fits_zero))) : Fits _ 32), hw ▸ pack_mod _ _, by rw [hop]; decide, ?_⟩
    · rw [raw13 hop]
      simp only [decodeOp13, hk0, reduceIte, Nat.reduceEqDiff, OfNat.ofNat_ne_zero, OfNat.zero_ne_ofNat, OfNat.ofNat_ne_one, OfNat.one_ne_ofNat, zero_ne_one, one_ne_zero, true_and, false_and, and_true, and_false]
      subst hw
      simp (disch := decide) only [fld_pack_lo, fld_pack, Nat.reduceSub]
    · subst hw
      simp (disch := decide) only [fld_pack_lo, fld_pack, Nat.reduceSub])

theorem brz (o : BitVec 16) (r : BitVec 6) : Statement (.brz o r) :=
  of_word rfl (fun s => by
    rw [show Instr.word (.brz o r) s = pack 1 (1#1) (pack 2 s (pack 7 (20#7) (pack 6 r (pack 16 o 0)))) from rfl]
    generalize hw : pack 1 (1#1) (pack 2 s (pack 7 (20#7) (pack 6 r (pack 16 o 0)))) = w
    have hop : sel w 3 7 = 20 := by subst hw; simp (disch := decide) only [sel_pack_lo, sel_pack_in, Nat.reduceSub, BitVec.toNat_ofNat]; try rfl
    refine ⟨?_, hw ▸ (fits_pack (n := 1) (m := 31) (fits_pack (n := 2) (m := 29) (fits_pack (n := 7) (m := 22) (fits_pack (n := 6) (m := 16) (fits_pack (n := 16) (m := 0) fits_zero)))) : Fits _ 32), hw ▸ pack_mod _ _, by rw [hop]; decide, ?_⟩
    · rw [raw14 hop, ← hw]
      simp (disch := decide) only [fld_pack_lo, fld_pack, Nat.reduceSub]
    · subst hw
      simp (disch := decide) only [fld_pack_lo, fld_pack, Nat.reduceSub])

theorem brnz (o : BitVec 16) (r : BitVec 6) : Statement (.brnz o r) :=
  of_word rfl (fun s => by
    rw [show Instr.word (.brnz o r) s = pack 1 (1#1) (pack 2 s (pack 7 (21#7) (pack 6 r (pack 16 o 0)))) from rfl]
    generalize hw : pack 1 (1#1) (pack 2 s (pack 7 (21#7) (pack 6 r (pack 16 o 0)))) = w
    have hop : sel w 3 7 = 21 := by subst hw; simp (disch := decide) only [sel_pack_lo, sel_pack_in, Nat.reduceSub, BitVec.toNat_ofNat]; try rfl
    refine ⟨?_, hw ▸ (fits_pack (n := 1) (m := 31) (fits_pack (n := 2) (m := 29) (fits_pack (n := 7) (m := 22) (fits_pack (n := 6) (m := 16) (fits_pack (n := 16) (m := 0) fits_zero)))) : Fits _ 32), hw ▸ pack_mod _ _, by rw [hop]; decide, ?_⟩
    · rw [raw15 hop, ← hw]
      simp (disch := decide) only [fld_pack_lo, fld_pack, Nat.reduceSub]
    · subst hw
      simp (disch := decide) only [fld_pack_lo, fld_pack, Nat.reduceSub])

theorem loop (o : BitVec 16) (r : BitVec 6) : Statement (.loop o r) :=
  of_word rfl (fun s => by
    rw [show Instr.word (.loop o r) s = pack 1 (1#1) (pack 2 s (pack 7 (22#7) (pack 6 r (pack 16 o 0)))) from rfl]
    generalize hw : pack 1 (1#1) (pack 2 s (pack 7 (22#7) (pack 6 r (pack 16 o 0)))) = w
    have hop : sel w 3 7 = 22 := by subst hw; simp (disch := decide) only [sel_pack_lo, sel_pack_in, Nat.reduceSub, BitVec.toNat_ofNat]; try rfl
    refine ⟨?_, hw ▸ (fits_pack (n := 1) (m := 31) (fits_pack (n := 2) (m := 29) (fits_pack (n := 7) (m := 22) (fits_pack (n := 6) (m := 16) (fits_pack (n := 16) (m := 0) fits_zero)))) : Fits _ 32), hw ▸ pack_mod _ _, by rw [hop]; decide, ?_⟩
    · rw [raw16 hop, ← hw]
      simp (disch := decide) only [fld_pack_lo, fld_pack, Nat.reduceSub]
    · subst hw
      simp (disch := decide) only [fld_pack_lo, fld_pack, Nat.reduceSub])

theorem brp (o : BitVec 16) (c : BitVec 1) (n : BitVec 1) (p : BitVec 3) : Statement (.brp o c n p) :=
  of_word rfl (fun s => by
    rw [show Instr.word (.brp o c n p) s = pack 1 (1#1) (pack 2 s (pack 7 (23#7) (pack 3 p (pack 1 n (pack 1 c (pack 1 (0#1) (pack 16 o 0))))))) from rfl]
    generalize hw : pack 1 (1#1) (pack 2 s (pack 7 (23#7) (pack 3 p (pack 1 n (pack 1 c (pack 1 (0#1) (pack 16 o 0))))))) = w
    have hop : sel w 3 7 = 23 := by subst hw; simp (disch := decide) only [sel_pack_lo, sel_pack_in, Nat.reduceSub, BitVec.toNat_ofNat]; try rfl
    have hk0 : sel w 15 1 = 0 := by subst hw; simp (disch := decide) only [sel_pack_lo, sel_pack_in, Nat.reduceSub, BitVec.toNat_ofNat]; try rfl
    refine ⟨?_, hw ▸ (fits_pack (n := 1) (m := 31) (fits_pack (n := 2) (m := 29) (fits_pack (n := 7) (m := 22) (fits_pack (n := 3) (m := 19) (fits_pack (n := 1) (m := 18) (fits_pack (n := 1) (m := 17) (fits_pack (n := 1) (m := 16) (fits_pack (n := 16) (m := 0) fits_zero))))))) : Fits _ 32), hw ▸ pack_mod _ _, by rw [hop]; decide, ?_⟩
    · rw [raw17 hop]
      simp only [decodeOp17, hk0, reduceIte, Nat.reduceEqDiff, OfNat.ofNat_ne_zero, OfNat.zero_ne_ofNat, OfNat.ofNat_ne_one, OfNat.one_ne_ofNat, zero_ne_one, one_ne_zero, true_and, false_and, and_true, and_false]
      subst hw
      simp (disch := decide) only [fld_pack_lo, fld_pack, Nat.reduceSub]
    · subst hw
      simp (disch := decide) only [fld_pack_lo, fld_pack, Nat.reduceSub])

theorem jpt (o : BitVec 16) : Statement (.jpt o) :=
  of_word rfl (fun s => by
    rw [show Instr.word (.jpt o) s = pack 1 (1#1) (pack 2 s (pack 13 (24#13) (pack 16 o 0))) from rfl]
    generalize hw : pack 1 (1#1) (pack 2 s (pack 13 (24#13) (pack 16 o 0))) = w
    have hop : sel w 3 7 = 24 := by subst hw; simp (disch := decide) only [sel_pack_lo, sel_pack_in, Nat.reduceSub, BitVec.toNat_ofNat]; try rfl
    have hk0 : sel w 10 6 = 0 := by subst hw; simp (disch := decide) only [sel_pack_lo, sel_pack_in, Nat.reduceSub, BitVec.toNat_ofNat]; try rfl
    refine ⟨?_, hw ▸ (fits_pack (n := 1) (m := 31) (fits_pack (n := 2) (m := 29) (fits_pack (n := 13) (m := 16) (fits_pack (n := 16) (m := 0) fits_zero))) : Fits _ 32), hw ▸ pack_mod _ _, by rw [hop]; decide, ?_⟩
    · rw [raw18 hop]
      simp only [decodeOp18, hk0, reduceIte, Nat.reduceEqDiff, OfNat.ofNat_ne_zero, OfNat.zero_ne_ofNat, OfNat.ofNat_ne_one, OfNat.one_ne_ofNat, zero_ne_one, one_ne_zero, true_and, false_and, and_true, and_false]
      subst hw
      simp (disch := decide) only [fld_pack_lo, fld_pack, Nat.reduceSub]
    · subst hw
      simp (disch := decide) only [fld_pack_lo, fld_pack, Nat.reduceSub])

theorem call (o : BitVec 16) (n : BitVec 1) (p : BitVec 3) : Statement (.call o n p) :=
  of_word rfl (fun s => by
    rw [show Instr.word (.call o n p) s = pack 1 (1#1) (pack 2 s (pack 7 (26#7) (pack 3 p (pack 1 n (pack 2 (0#2) (pack 16 o 0)))))) from rfl]
    generalize hw : pack 1 (1#1) (pack 2 s (pack 7 (26#7) (pack 3 p (pack 1 n (pack 2 (0#2) (pack 16 o 0)))))) = w
    have hop : sel w 3 7 = 26 := by subst hw; simp (disch := decide) only [sel_pack_lo, sel_pack_in, Nat.reduceSub, BitVec.toNat_ofNat]; try rfl
    have hk0 : sel w 14 2 = 0 := by subst hw; simp (disch := decide) only [sel_pack_lo, sel_pack_in, Nat.reduceSub, BitVec.toNat_ofNat]; try rfl
    refine ⟨?_, hw ▸ (fits_pack (n := 1) (m := 31) (fits_pack (n := 2) (m := 29) (fits_pack (n := 7) (m := 22) (fits_pack (n := 3) (m := 19) (fits_pack (n := 1) (m := 18) (fits_pack (n := 2) (m := 16) (fits_pack (n := 16) (m := 0) fits_zero)))))) : Fits _ 32), hw ▸ pack_mod _ _, by rw [hop]; decide, ?_⟩
    · rw [raw1A hop]
      simp only [decodeOp1A, hk0, reduceIte, Nat.reduceEqDiff, OfNat.ofNat_ne_zero, OfNat.zero_ne_ofNat, OfNat.ofNat_ne_one, OfNat.one_ne_ofNat, zero_ne_one, one_ne_zero, true_and, false_and, and_true, and_false]
      subst hw
      simp (disch := decide) only [fld_pack_lo, fld_pack, Nat.reduceSub]
    · subst hw
      simp (disch := decide) only [fld_pack_lo, fld_pack, Nat.reduceSub])

theorem calli (a : BitVec 7) : Statement (.calli a) :=
  of_word rfl (fun s => by
    rw [show Instr.word (.calli a) s = pack 1 (1#1) (pack 2 s (pack 14 (27#14) (pack 7 a (pack 8 (0#8) 0)))) from rfl]
    generalize hw : pack 1 (1#1) (pack 2 s (pack 14 (27#14) (pack 7 a (pack 8 (0#8) 0)))) = w
    have hop : sel w 3 7 = 27 := by subst hw; simp (disch := decide) only [sel_pack_lo, sel_pack_in, Nat.reduceSub, BitVec.toNat_ofNat]; try rfl
    have hk0 : sel w 10 7 = 0 := by subst hw; simp (disch := decide) only [sel_pack_lo, sel_pack_in, Nat.reduceSub, BitVec.toNat_ofNat]; try rfl
    have hk1 : sel w 24 8 = 0 := by subst hw; simp (disch := decide) only [sel_pack_lo, sel_pack_in, Nat.reduceSub, BitVec.toNat_ofNat]; try rfl
    refine ⟨?_, hw ▸ (fits_pack (n := 1) (m := 31) (fits_pack (n := 2) (m := 29) (fits_pack (n := 14) (m := 15) (fits_pack (n := 7) (m := 8) (fits_pack (n := 8) (m := 0) fits_zero)))) : Fits _ 32), hw ▸ pack_mod _ _, by rw [hop]; decide, ?_⟩
    · rw [raw1B hop]
      simp only [decodeOp1B, hk0, hk1, reduceIte, Nat.reduceEqDiff, OfNat.ofNat_ne_zero, OfNat.zero_ne_ofNat, OfNat.ofNat_ne_one, OfNat.one_ne_ofNat, zero_ne_one, one_ne_zero, true_and, false_and, and_true, and_false]
      subst hw
      simp (disch := decide) only [fld_pack_lo, fld_pack, Nat.reduceSub]
    · subst hw
      simp (disch := decide) only [fld_pack_lo, fld_pack, Nat.reduceSub])

theorem jmpi (a : BitVec 7) : Statement (.jmpi a) :=
  of_word rfl (fun s => by
    rw [show Instr.word (.jmpi a) s = pack 1 (1#1) (pack 2 s (pack 14 (28#14) (pack 7 a (pack 8 (0#8) 0)))) from rfl]
    generalize hw : pack 1 (1#1) (pack 2 s (pack 14 (28#14) (pack 7 a (pack 8 (0#8) 0)))) = w
    have hop : sel w 3 7 = 28 := by subst hw; simp (disch := decide) only [sel_pack_lo, sel_pack_in, Nat.reduceSub, BitVec.toNat_ofNat]; try rfl
    have hk0 : sel w 10 7 = 0 := by subst hw; simp (disch := decide) only [sel_pack_lo, sel_pack_in, Nat.reduceSub, BitVec.toNat_ofNat]; try rfl
    have hk1 : sel w 24 8 = 0 := by subst hw; simp (disch := decide) only [sel_pack_lo, sel_pack_in, Nat.reduceSub, BitVec.toNat_ofNat]; try rfl
    refine ⟨?_, hw ▸ (fits_pack (n := 1) (m := 31) (fits_pack (n := 2) (m := 29) (fits_pack (n := 14) (m := 15) (fits_pack (n := 7) (m := 8) (fits_pack (n := 8) (m := 0) fits_zero)))) : Fits _ 32), hw ▸ pack_mod _ _, by rw [hop]; decide, ?_⟩
    · rw [raw1C hop]
      simp only [decodeOp1C, hk0, hk1, reduceIte, Nat.reduceEqDiff, OfNat.ofNat_ne_zero, OfNat.zero_ne_ofNat, OfNat.ofNat_ne_one, OfNat.one_ne_ofNat, zero_ne_one, one_ne_zero, true_and, false_and, and_true, and_false]
      subst hw
      simp (disch := decide) only [fld_pack_lo, fld_pack, Nat.reduceSub]
    · subst hw
      simp (disch := decide) only [fld_pack_lo, fld_pack, Nat.reduceSub])

theorem srr (n : BitVec 12) (d : BitVec 6) : Statement (.srr n d) :=
  of_word rfl (fun s => by
    rw [show Instr.word (.srr n d) s = pack 1 (1#1) (pack 2 s (pack 7 (31#7) (pack 6 d (pack 12 n (pack 4 (2#4) 0))))) from rfl]
    generalize hw : pack 1 (1#1) (pack 2 s (pack 7 (31#7) (pack 6 d (pack 12 n (pack 4 (2#4) 0))))) = w
    have hop : sel w 3 7 = 31 := by subst hw; simp (disch := decide) only [sel_pack_lo, sel_pack_in, Nat.reduceSub, BitVec.toNat_ofNat]; try rfl
    have hk0 : sel w 28 4 = 2 := by subst hw; simp (disch := decide) only [sel_pack_lo, sel_pack_in, Nat.reduceSub, BitVec.toNat_ofNat]; try rfl
    have hn0 : ¬ sel w 10 22 = 0 := sel_ne 10 22 18 4 (by rw [hk0]; decide)
    have hn1 : ¬ sel w 10 22 = 262144 := sel_ne 10 22 18 4 (by rw [hk0]; decide)
    refine ⟨?_, hw ▸ (fits_pack (n := 1) (m := 31) (fits_pack (n := 2) (m := 29) (fits_pack (n := 7) (m := 22) (fits_pack (n := 6) (m := 16) (fits_pack (n := 12) (m := 4) (fits_pack (n := 4) (m := 0) fits_zero))))) : Fits _ 32), hw ▸ pack_mod _ _, by rw [hop]; decide, ?_⟩
    · rw [raw1F hop]
      simp only [decodeOp1F, hk0, hn0, hn1, reduceIte, Nat.reduceEqDiff, OfNat.ofNat_ne_zero, OfNat.zero_ne_ofNat, OfNat.ofNat_ne_one, OfNat.one_ne_ofNat, zero_ne_one, one_ne_zero, true_and, false_and, and_true, and_false]
      subst hw
      simp (disch := decide) only [fld_pack_lo, fld_pack, Nat.reduceSub]
    · subst hw
      simp (disch := decide) only [fld_pack_lo, fld_pack, Nat.reduceSub])

theorem srw (n : BitVec 12) (a : BitVec 6) : Statement (.srw n a) :=
  of_word rfl (fun s => by
    rw [show Instr.word (.srw n a) s = pack 1 (1#1) (pack 2 s (pack 7 (31#7) (pack 6 a (pack 12 n (pack 4 (3#4) 0))))) from rfl]
    generalize hw : pack 1 (1#1) (pack 2 s (pack 7 (31#7) (pack 6 a (pack 12 n (pack 4 (3#4) 0))))) = w
    have hop : sel w 3 7 = 31 := by subst hw; simp (disch := decide) only [sel_pack_lo, sel_pack_in, Nat.reduceSub, BitVec.toNat_ofNat]; try rfl
    have hk0 : sel w 28 4 = 3 := by subst hw; simp (disch := decide) only [sel_pack_lo, sel_pack_in, Nat.reduceSub, BitVec.toNat_ofNat]; try rfl
    have hn0 : ¬ sel w 10 22 = 0 := sel_ne 10 22 18 4 (by rw [hk0]; decide)
    have hn1 : ¬ sel w 10 22 = 262144 := sel_ne 10 22 18 4 (by rw [hk0]; decide)
    refine ⟨?_, hw ▸ (fits_pack (n := 1) (m := 31) (fits_pack (n := 2) (m := 29) (fits_pack (n := 7) (m := 22) (fits_pack (n := 6) (m := 16) (fits_pack (n := 12) (m := 4) (fits_pack (n := 4) (m := 0) fits_zero))))) : Fits _ 32), hw ▸ pack_mod _ _, by rw [hop]; decide, ?_⟩
    · rw [raw1F hop]
      simp only [decodeOp1F, hk0, hn0, hn1, reduceIte, Nat.reduceEqDiff, OfNat.ofNat_ne_zero, OfNat.zero_ne_ofNat, OfNat.ofNat_ne_one, OfNat.one_ne_ofNat, zero_ne_one, one_ne_zero, true_and, false_and, and_true, and_false]
      subst hw
      simp (disch := decide) only [fld_pack_lo, fld_pack, Nat.reduceSub]
    · subst hw
      simp (disch := decide) only [fld_pack_lo, fld_pack, Nat.reduceSub])

theorem sleep (a : BitVec 6) : Statement (.sleep a) :=
  of_word rfl (fun s => by
    rw [show Instr.word (.sleep a) s = pack 1 (1#1) (pack 2 s (pack 7 (31#7) (pack 6 a (pack 16 (16384#16) 0)))) from rfl]
    generalize hw : pack 1 (1#1) (pack 2 s (pack 7 (31#7) (pack 6 a (pack 16 (16384#16) 0)))) = w
    have hop : sel w 3 7 = 31 := by subst hw; simp (disch := decide) only [sel_pack_lo, sel_pack_in, Nat.reduceSub, BitVec.toNat_ofNat]; try rfl
    have hk0 : sel w 16 16 = 16384 := by subst hw; simp (disch := decide) only [sel_pack_lo, sel_pack_in, Nat.reduceSub, BitVec.toNat_ofNat]; try rfl
    have hn0 : ¬ sel w 10 22 = 0 := sel_ne 10 22 6 16 (by rw [hk0]; decide)
    have hn1 : ¬ sel w 10 22 = 262144 := sel_ne 10 22 6 16 (by rw [hk0]; decide)
    have hk1 : sel w 28 4 = 4 := by subst hw; simp (disch := decide) only [sel_pack_lo, sel_pack_in, Nat.reduceSub, BitVec.toNat_ofNat]; try rfl
    refine ⟨?_, hw ▸ (fits_pack (n := 1) (m := 31) (fits_pack (n := 2) (m := 29) (fits_pack (n := 7) (m := 22) (fits_pack (n := 6) (m := 16) (fits_pack (n := 16) (m := 0) fits_zero)))) : Fits _ 32), hw ▸ pack_mod _ _, by rw [hop]; decide, ?_⟩
    · rw [raw1F hop]
      simp only [decodeOp1F, hk0, hn0, hn1, hk1, reduceIte, Nat.reduceEqDiff, OfNat.ofNat_ne_zero, OfNat.zero_ne_ofNat, OfNat.ofNat_ne_one, OfNat.one_ne_ofNat, zero_ne_one, one_ne_zero, true_and, false_and, and_true, and_false]
      subst hw
      simp (disch := decide) only [fld_pack_lo, fld_pack, Nat.reduceSub]
    · subst hw
      simp (disch := decide) only [fld_pack_lo, fld_pack, Nat.reduceSub])

theorem bkpt (n : BitVec 12) : Statement (.bkpt n) :=
  of_word rfl (fun s => by
    rw [show Instr.word (.bkpt n) s = pack 1 (1#1) (pack 2 s (pack 13 (31#13) (pack 12 n (pack 4 (5#4) 0)))) from rfl]
    generalize hw : pack 1 (1#1) (pack 2 s (pack 13 (31#13) (pack 12 n (pack 4 (5#4) 0)))) = w
    have hop : sel w 3 7 = 31 := by subst hw; simp (disch := decide) only [sel_pack_lo, sel_pack_in, Nat.reduceSub, BitVec.toNat_ofNat]; try rfl
    have hk0 : sel w 28 4 = 5 := by subst hw; simp (disch := decide) only [sel_pack_lo, sel_pack_in, Nat.reduceSub, BitVec.toNat_ofNat]; try rfl
    have hn0 : ¬ sel w 10 22 = 0 := sel_ne 10 22 18 4 (by rw [hk0]; decide)
    have hn1 : ¬ sel w 10 22 = 262144 := sel_ne 10 22 18 4 (by rw [hk0]; decide)
    have hn2 : ¬ sel w 16 16 = 16384 := sel_ne 16 16 12 4 (by rw [hk0]; decide)
    have hk1 : sel w 10 6 = 0 := by subst hw; simp (disch := decide) only [sel_pack_lo, sel_pack_in, Nat.reduceSub, BitVec.toNat_ofNat]; try rfl
    refine ⟨?_, hw ▸ (fits_pack (n := 1) (m := 31) (fits_pack (n := 2) (m := 29) (fits_pack (n := 13) (m := 16) (fits_pack (n := 12) (m := 4) (fits_pack (n := 4) (m := 0) fits_zero)))) : Fits _ 32), hw ▸ pack_mod _ _, by rw [hop]; decide, ?_⟩
    · rw [raw1F hop]
      simp only [decodeOp1F, hk0, hn0, hn1, hn2, hk1, reduceIte, Nat.reduceEqDiff, OfNat.ofNat_ne_zero, OfNat.zero_ne_ofNat, OfNat.ofNat_ne_one, OfNat.one_ne_ofNat, zero_ne_one, one_ne_zero, true_and, false_and, and_true, and_false]
      subst hw
      simp (disch := decide) only [fld_pack_lo, fld_pack, Nat.reduceSub]
    · subst hw
      simp (disch := decide) only [fld_pack_lo, fld_pack, Nat.reduceSub])

theorem vaddI32 (x : BitVec 1) (b : BitVec 7) (a : BitVec 7) (d : BitVec 7) : Statement (.vaddI32 x b a d) :=
  of_word rfl (fun s => by
    rw [show Instr.word (.vaddI32 x b a d) s = pack 1 (1#1) (pack 2 s (pack 7 (32#7) (pack 7 d (pack 7 a (pack 7 b (pack 1 x 0)))))) from rfl]
    generalize hw : pack 1 (1#1) (pack 2 s (pack 7 (32#7) (pack 7 d (pack 7 a (pack 7 b (pack 1 x 0)))))) = w
    have hop : sel w 3 7 = 32 := by subst hw; simp (disch := decide) only [sel_pack_lo, sel_pack_in, Nat.reduceSub, BitVec.toNat_ofNat]; try rfl
    refine ⟨?_, hw ▸ (fits_pack (n := 1) (m := 31) (fits_pack (n := 2) (m := 29) (fits_pack (n := 7) (m := 22) (fits_pack (n := 7) (m := 15) (fits_pack (n := 7) (m := 8) (fits_pack (n := 7) (m := 1) (fits_pack (n := 1) (m := 0) fits_zero)))))) : Fits _ 32), hw ▸ pack_mod _ _, by rw [hop]; decide, ?_⟩
    · rw [raw20 hop, ← hw]
      simp (disch := decide) only [fld_pack_lo, fld_pack, Nat.reduceSub]
    · subst hw
      simp (disch := decide) only [fld_pack_lo, fld_pack, Nat.reduceSub])

theorem vsubI32 (x : BitVec 1) (b : BitVec 7) (a : BitVec 7) (d : BitVec 7) : Statement (.vsubI32 x b a d) :=
  of_word rfl (fun s => by
    rw [show Instr.word (.vsubI32 x b a d) s = pack 1 (1#1) (pack 2 s (pack 7 (33#7) (pack 7 d (pack 7 a (pack 7 b (pack 1 x 0)))))) from rfl]
    generalize hw : pack 1 (1#1) (pack 2 s (pack 7 (33#7) (pack 7 d (pack 7 a (pack 7 b (pack 1 x 0)))))) = w
    have hop : sel w 3 7 = 33 := by subst hw; simp (disch := decide) only [sel_pack_lo, sel_pack_in, Nat.reduceSub, BitVec.toNat_ofNat]; try rfl
    refine ⟨?_, hw ▸ (fits_pack (n := 1) (m := 31) (fits_pack (n := 2) (m := 29) (fits_pack (n := 7) (m := 22) (fits_pack (n := 7) (m := 15) (fits_pack (n := 7) (m := 8) (fits_pack (n := 7) (m := 1) (fits_pack (n := 1) (m := 0) fits_zero)))))) : Fits _ 32), hw ▸ pack_mod _ _, by rw [hop]; decide, ?_⟩
    · rw [raw21 hop, ← hw]
      simp (disch := decide) only [fld_pack_lo, fld_pack, Nat.reduceSub]
    · subst hw
      simp (disch := decide) only [fld_pack_lo, fld_pack, Nat.reduceSub])

theorem vmulI32 (x : BitVec 1) (b : BitVec 7) (a : BitVec 7) (d : BitVec 7) : Statement (.vmulI32 x b a d) :=
  of_word rfl (fun s => by
    rw [show Instr.word (.vmulI32 x b a d) s = pack 1 (1#1) (pack 2 s (pack 7 (34#7) (pack 7 d (pack 7 a (pack 7 b (pack 1 x 0)))))) from rfl]
    generalize hw : pack 1 (1#1) (pack 2 s (pack 7 (34#7) (pack 7 d (pack 7 a (pack 7 b (pack 1 x 0)))))) = w
    have hop : sel w 3 7 = 34 := by subst hw; simp (disch := decide) only [sel_pack_lo, sel_pack_in, Nat.reduceSub, BitVec.toNat_ofNat]; try rfl
    refine ⟨?_, hw ▸ (fits_pack (n := 1) (m := 31) (fits_pack (n := 2) (m := 29) (fits_pack (n := 7) (m := 22) (fits_pack (n := 7) (m := 15) (fits_pack (n := 7) (m := 8) (fits_pack (n := 7) (m := 1) (fits_pack (n := 1) (m := 0) fits_zero)))))) : Fits _ 32), hw ▸ pack_mod _ _, by rw [hop]; decide, ?_⟩
    · rw [raw22 hop, ← hw]
      simp (disch := decide) only [fld_pack_lo, fld_pack, Nat.reduceSub]
    · subst hw
      simp (disch := decide) only [fld_pack_lo, fld_pack, Nat.reduceSub])

theorem vmulh (x : BitVec 1) (b : BitVec 7) (a : BitVec 7) (d : BitVec 7) : Statement (.vmulh x b a d) :=
  of_word rfl (fun s => by
    rw [show Instr.word (.vmulh x b a d) s = pack 1 (1#1) (pack 2 s (pack 7 (35#7) (pack 7 d (pack 7 a (pack 7 b (pack 1 x 0)))))) from rfl]
    generalize hw : pack 1 (1#1) (pack 2 s (pack 7 (35#7) (pack 7 d (pack 7 a (pack 7 b (pack 1 x 0)))))) = w
    have hop : sel w 3 7 = 35 := by subst hw; simp (disch := decide) only [sel_pack_lo, sel_pack_in, Nat.reduceSub, BitVec.toNat_ofNat]; try rfl
    refine ⟨?_, hw ▸ (fits_pack (n := 1) (m := 31) (fits_pack (n := 2) (m := 29) (fits_pack (n := 7) (m := 22) (fits_pack (n := 7) (m := 15) (fits_pack (n := 7) (m := 8) (fits_pack (n := 7) (m := 1) (fits_pack (n := 1) (m := 0) fits_zero)))))) : Fits _ 32), hw ▸ pack_mod _ _, by rw [hop]; decide, ?_⟩
    · rw [raw23 hop, ← hw]
      simp (disch := decide) only [fld_pack_lo, fld_pack, Nat.reduceSub]
    · subst hw
      simp (disch := decide) only [fld_pack_lo, fld_pack, Nat.reduceSub])

theorem vmulhz (x : BitVec 1) (b : BitVec 7) (a : BitVec 7) (d : BitVec 7) : Statement (.vmulhz x b a d) :=
  of_word rfl (fun s => by
    rw [show Instr.word (.vmulhz x b a d) s = pack 1 (1#1) (pack 2 s (pack 7 (36#7) (pack 7 d (pack 7 a (pack 7 b (pack 1 x 0)))))) from rfl]
    generalize hw : pack 1 (1#1) (pack 2 s (pack 7 (36#7) (pack 7 d (pack 7 a (pack 7 b (pack 1 x 0)))))) = w
    have hop : sel w 3 7 = 36 := by subst hw; simp (disch := decide) only [sel_pack_lo, sel_pack_in, Nat.reduceSub, BitVec.toNat_ofNat]; try rfl
    refine ⟨?_, hw ▸ (fits_pack (n := 1) (m := 31) (fits_pack (n := 2) (m := 29) (fits_pack (n := 7) (m := 22) (fits_pack (n := 7) (m := 15) (fits_pack (n := 7) (m := 8) (fits_pack (n := 7) (m := 1) (fits_pack (n := 1) (m := 0) fits_zero)))))) : Fits _ 32), hw ▸ pack_mod _ _, by rw [hop]; decide, ?_⟩
    · rw [raw24 hop, ← hw]
      simp (disch := decide) only [fld_pack_lo, fld_pack, Nat.reduceSub]
    · subst hw
      simp (disch := decide) only [fld_pack_lo, fld_pack, Nat.reduceSub])

theorem vmadI32 (x : BitVec 1) (b : BitVec 7) (a : BitVec 7) (d : BitVec 7) : Statement (.vmadI32 x b a d) :=
  of_word rfl (fun s => by
    rw [show Instr.word (.vmadI32 x b a d) s = pack 1 (1#1) (pack 2 s (pack 7 (37#7) (pack 7 d (pack 7 a (pack 7 b (pack 1 x 0)))))) from rfl]
    generalize hw : pack 1 (1#1) (pack 2 s (pack 7 (37#7) (pack 7 d (pack 7 a (pack 7 b (pack 1 x 0)))))) = w
    have hop : sel w 3 7 = 37 := by subst hw; simp (disch := decide) only [sel_pack_lo, sel_pack_in, Nat.reduceSub, BitVec.toNat_ofNat]; try rfl
    refine ⟨?_, hw ▸ (fits_pack (n := 1) (m := 31) (fits_pack (n := 2) (m := 29) (fits_pack (n := 7) (m := 22) (fits_pack (n := 7) (m := 15) (fits_pack (n := 7) (m := 8) (fits_pack (n := 7) (m := 1) (fits_pack (n := 1) (m := 0) fits_zero)))))) : Fits _ 32), hw ▸ pack_mod _ _, by rw [hop]; decide, ?_⟩
    · rw [raw25 hop, ← hw]
      simp (disch := decide) only [fld_pack_lo, fld_pack, Nat.reduceSub]
    · subst hw
      simp (disch := decide) only [fld_pack_lo, fld_pack, Nat.reduceSub])

theorem vand (x : BitVec 1) (b : BitVec 7) (a : BitVec 7) (d : BitVec 7) : Statement (.vand x b a d) :=
  of_word rfl (fun s => by
    rw [show Instr.word (.vand x b a d) s = pack 1 (1#1) (pack 2 s (pack 7 (38#7) (pack 7 d (pack 7 a (pack 7 b (pack 1 x 0)))))) from rfl]
    generalize hw : pack 1 (1#1) (pack 2 s (pack 7 (38#7) (pack 7 d (pack 7 a (pack 7 b (pack 1 x 0)))))) = w
    have hop : sel w 3 7 = 38 := by subst hw; simp (disch := decide) only [sel_pack_lo, sel_pack_in, Nat.reduceSub, BitVec.toNat_ofNat]; try rfl
    refine ⟨?_, hw ▸ (fits_pack (n := 1) (m := 31) (fits_pack (n := 2) (m := 29) (fits_pack (n := 7) (m := 22) (fits_pack (n := 7) (m := 15) (fits_pack (n := 7) (m := 8) (fits_pack (n := 7) (m := 1) (fits_pack (n := 1) (m := 0) fits_zero)))))) : Fits _ 32), hw ▸ pack_mod _ _, by rw [hop]; decide, ?_⟩
    · rw [raw26 hop, ← hw]
      simp (disch := decide) only [fld_pack_lo, fld_pack, Nat.reduceSub]
    · subst hw
      simp (disch := decide) only [fld_pack_lo, fld_pack, Nat.reduceSub])

theorem vor (x : BitVec 1) (b : BitVec 7) (a : BitVec 7) (d : BitVec 7) : Statement (.vor x b a d) :=
  of_word rfl (fun s => by
    rw [show Instr.word (.vor x b a d) s = pack 1 (1#1) (pack 2 s (pack 7 (39#7) (pack 7 d (pack 7 a (pack 7 b (pack 1 x 0)))))) from rfl]
    generalize hw : pack 1 (1#1) (pack 2 s (pack 7 (39#7) (pack 7 d (pack 7 a (pack 7 b (pack 1 x 0)))))) = w
    have hop : sel w 3 7 = 39 := by subst hw; simp (disch := decide) only [sel_pack_lo, sel_pack_in, Nat.reduceSub, BitVec.toNat_ofNat]; try rfl
    refine ⟨?_, hw ▸ (fits_pack (n := 1) (m := 31) (fits_pack (n := 2) (m := 29) (fits_pack (n := 7) (m := 22) (fits_pack (n := 7) (m := 15) (fits_pack (n := 7) (m := 8) (fits_pack (n := 7) (m := 1) (fits_pack (n := 1) (m := 0) fits_zero)))))) : Fits _ 32), hw ▸ pack_mod _ _, by rw [hop]; decide, ?_⟩
    · rw [raw27 hop, ← hw]
      simp (disch := decide) only [fld_pack_lo, fld_pack, Nat.reduceSub]
    · subst hw
      simp (disch := decide) only [fld_pack_lo, fld_pack, Nat.reduceSub])

theorem vxor (x : BitVec 1) (b : BitVec 7) (a : BitVec 7) (d : BitVec 7) : Statement (.vxor x b a d) :=
  of_word rfl (fun s => by
    rw [show Instr.word (.vxor x b a d) s = pack 1 (1#1) (pack 2 s (pack 7 (40#7) (pack 7 d (pack 7 a (pack 7 b (pack 1 x 0)))))) from rfl]
    generalize hw : pack 1 (1#1) (pack 2 s (pack 7 (40#7) (pack 7 d (pack 7 a (pack 7 b (pack 1 x 0)))))) = w
    have hop : sel w 3 7 = 40 := by subst hw; simp (disch := decide) only [sel_pack_lo, sel_pack_in, Nat.reduceSub, BitVec.toNat_ofNat]; try rfl
    refine ⟨?_, hw ▸ (fits_pack (n := 1) (m := 31) (fits_pack (n := 2) (m := 29) (fits_pack (n := 7) (m := 22) (fits_pack (n := 7) (m := 15) (fits_pack (n := 7) (m := 8) (fits_pack (n := 7) (m := 1) (fits_pack (n := 1) (m := 0) fits_zero)))))) : Fits _ 32), hw ▸ pack_mod _ _, by rw [hop]; decide, ?_⟩
    · rw [raw28 hop, ← hw]
      simp (disch := decide) only [fld_pack_lo, fld_pack, Nat.reduceSub]
    · subst hw
      simp (disch := decide) only [fld_pack_lo, fld_pack, Nat.reduceSub])

theorem vshl (x : BitVec 1) (b : BitVec 7) (a : BitVec 7) (d : BitVec 7) : Statement (.vshl x b a d) :=
  of_word rfl (fun s => by
    rw [show Instr.word (.vshl x b a d) s = pack 1 (1#1) (pack 2 s (pack 7 (41#7) (pack 7 d (pack 7 a (pack 7 b (pack 1 x 0)))))) from rfl]
    generalize hw : pack 1 (1#1) (pack 2 s (pack 7 (41#7) (pack 7 d (pack 7 a (pack 7 b (pack 1 x 0)))))) = w
    have hop : sel w 3 7 = 41 := by subst hw; simp (disch := decide) only [sel_pack_lo, sel_pack_in, Nat.reduceSub, BitVec.toNat_ofNat]; try rfl
    refine ⟨?_, hw ▸ (fits_pack (n := 1) (m := 31) (fits_pack (n := 2) (m := 29) (fits_pack (n := 7) (m := 22) (fits_pack (n := 7) (m := 15) (fits_pack (n := 7) (m := 8) (fits_pack (n := 7) (m := 1) (fits_pack (n := 1) (m := 0) fits_zero)))))) : Fits _ 32), hw ▸ pack_mod _ _, by rw [hop]; decide, ?_⟩
    · rw [raw29 hop, ← hw]
      simp (disch := decide) only [fld_pack_lo, fld_pack, Nat.reduceSub]
    · subst hw
      simp (disch := decide) only [fld_pack_lo, fld_pack, Nat.reduceSub])

theorem vshr (x : BitVec 1) (b : BitVec 7) (a : BitVec 7) (d : BitVec 7) : Statement (.vshr x b a d) :=
  of_word rfl (fun s => by
    rw [show Instr.word (.vshr x b a d) s = pack 1 (1#1) (pack 2 s (pack 7 (42#7) (pack 7 d (pack 7 a (pack 7 b (pack 1 x 0)))))) from rfl]
    generalize hw : pack 1 (1#1) (pack 2 s (pack 7 (42#7) (pack 7 d (pack 7 a (pack 7 b (pack 1 x 0)))))) = w
    have hop : sel w 3 7 = 42 := by subst hw; simp (disch := decide) only [sel_pack_lo, sel_pack_in, Nat.reduceSub, BitVec.toNat_ofNat]; try rfl
    refine ⟨?_, hw ▸ (fits_pack (n := 1) (m := 31) (fits_pack (n := 2) (m := 29) (fits_pack (n := 7) (m := 22) (fits_pack (n := 7) (m := 15) (fits_pack (n := 7) (m := 8) (fits_pack (n := 7) (m := 1) (fits_pack (n := 1) (m := 0) fits_zero)))))) : Fits _ 32), hw ▸ pack_mod _ _, by rw [hop]; decide, ?_⟩
    · rw [raw2A hop, ← hw]
      simp (disch := decide) only [fld_pack_lo, fld_pack, Nat.reduceSub]
    · subst hw
      simp (disch := decide) only [fld_pack_lo, fld_pack, Nat.reduceSub])

theorem vsra (x : BitVec 1) (b : BitVec 7) (a : BitVec 7) (d : BitVec 7) : Statement (.vsra x b a d) :=
  of_word rfl (fun s => by
    rw [show Instr.word (.vsra x b a d) s = pack 1 (1#1) (pack 2 s (pack 7 (43#7) (pack 7 d (pack 7 a (pack 7 b (pack 1 x 0)))))) from rfl]
    generalize hw : pack 1 (1#1) (pack 2 s (pack 7 (43#7) (pack 7 d (pack 7 a (pack 7 b (pack 1 x 0)))))) = w
    have hop : sel w 3 7 = 43 := by subst hw; simp (disch := decide) only [sel_pack_lo, sel_pack_in, Nat.reduceSub, BitVec.toNat_ofNat]; try rfl
    refine ⟨?_, hw ▸ (fits_pack (n := 1) (m := 31) (fits_pack (n := 2) (m := 29) (fits_pack (n := 7) (m := 22) (fits_pack (n := 7) (m := 15) (fits_pack (n := 7) (m := 8) (fits_pack (n := 7) (m := 1) (fits_pack (n := 1) (m := 0) fits_zero)))))) : Fits _ 32), hw ▸ pack_mod _ _, by rw [hop]; decide, ?_⟩
    · rw [raw2B hop, ← hw]
      simp (disch := decide) only [fld_pack_lo, fld_pack, Nat.reduceSub]
    · subst hw
      simp (disch := decide) only [fld_pack_lo, fld_pack, Nat.reduceSub])

theorem vminI32 (x : BitVec 1) (b : BitVec 7) (a : BitVec 7) (d : BitVec 7) : Statement (.vminI32 x b a d) :=
  of_word rfl (fun s => by
    rw [show Instr.word (.vminI32 x b a d) s = pack 1 (1#1) (pack 2 s (pack 7 (44#7) (pack 7 d (pack 7 a (pack 7 b (pack 1 x 0)))))) from rfl]
    generalize hw : pack 1 (1#1) (pack 2 s (pack 7 (44#7) (pack 7 d (pack 7 a (pack 7 b (pack 1 x 0)))))) = w
    have hop : sel w 3 7 = 44 := by subst hw; simp (disch := decide) only [sel_pack_lo, sel_pack_in, Nat.reduceSub, BitVec.toNat_ofNat]; try rfl
    refine ⟨?_, hw ▸ (fits_pack (n := 1) (m := 31) (fits_pack (n := 2) (m := 29) (fits_pack (n := 7) (m := 22) (fits_pack (n := 7) (m := 15) (fits_pack (n := 7) (m := 8) (fits_pack (n := 7) (m := 1) (fits_pack (n := 1) (m := 0) fits_zero)))))) : Fits _ 32), hw ▸ pack_mod _ _, by rw [hop]; decide, ?_⟩
    · rw [raw2C hop, ← hw]
      simp (disch := decide) only [fld_pack_lo, fld_pack, Nat.reduceSub]
    · subst hw
      simp (disch := decide) only [fld_pack_lo, fld_pack, Nat.reduceSub])

theorem vmaxI32 (x : BitVec 1) (b : BitVec 7) (a : BitVec 7) (d : BitVec 7) : Statement (.vmaxI32 x b a d) :=
  of_word rfl (fun s => by
    rw [show Instr.word (.vmaxI32 x b a d) s = pack 1 (1#1) (pack 2 s (pack 7 (45#7) (pack 7 d (pack 7 a (pack 7 b (pack 1 x 0)))))) from rfl]
    generalize hw : pack 1 (1#1) (pack 2 s (pack 7 (45#7) (pack 7 d (pack 7 a (pack 7 b (pack 1 x 0)))))) = w
    have hop : sel w 3 7 = 45 := by subst hw; simp (disch := decide) only [sel_pack_lo, sel_pack_in, Nat.reduceSub, BitVec.toNat_ofNat]; try rfl
    refine ⟨?_, hw ▸ (fits_pack (n := 1) (m := 31) (fits_pack (n := 2) (m := 29) (fits_pack (n := 7) (m := 22) (fits_pack (n := 7) (m := 15) (fits_pack (n := 7) (m := 8) (fits_pack (n := 7) (m := 1) (fits_pack (n := 1) (m := 0) fits_zero)))))) : Fits _ 32), hw ▸ pack_mod _ _, by rw [hop]; decide, ?_⟩
    · rw [raw2D hop, ← hw]
      simp (disch := decide) only [fld_pack_lo, fld_pack, Nat.reduceSub]
    · subst hw
      simp (disch := decide) only [fld_pack_lo, fld_pack, Nat.reduceSub])

theorem vminZ32 (x : BitVec 1) (b : BitVec 7) (a : BitVec 7) (d : BitVec 7) : Statement (.vminZ32 x b a d) :=
  of_word rfl (fun s => by
    rw [show Instr.word (.vminZ32 x b a d) s = pack 1 (1#1) (pack 2 s (pack 7 (46#7) (pack 7 d (pack 7 a (pack 7 b (pack 1 x 0)))))) from rfl]
    generalize hw : pack 1 (1#1) (pack 2 s (pack 7 (46#7) (pack 7 d (pack 7 a (pack 7 b (pack 1 x 0)))))) = w
    have hop : sel w 3 7 = 46 := by subst hw; simp (disch := decide) only [sel_pack_lo, sel_pack_in, Nat.reduceSub, BitVec.toNat_ofNat]; try rfl
    refine ⟨?_, hw ▸ (fits_pack (n := 1) (m := 31) (fits_pack (n := 2) (m := 29) (fits_pack (n := 7) (m := 22) (fits_pack (n := 7) (m := 15) (fits_pack (n := 7) (m := 8) (fits_pack (n := 7) (m := 1) (fits_pack (n := 1) (m := 0) fits_zero)))))) : Fits _ 32), hw ▸ pack_mod _ _, by rw [hop]; decide, ?_⟩
    · rw [raw2E hop, ← hw]
      simp (disch := decide) only [fld_pack_lo, fld_pack, Nat.reduceSub]
    · subst hw
      simp (disch := decide) only [fld_pack_lo, fld_pack, Nat.reduceSub])

theorem vmaxZ32 (x : BitVec 1) (b : BitVec 7) (a : BitVec 7) (d : BitVec 7) : Statement (.vmaxZ32 x b a d) :=
  of_word rfl (fun s => by
    rw [show Instr.word (.vmaxZ32 x b a d) s = pack 1 (1#1) (pack 2 s (pack 7 (47#7) (pack 7 d (pack 7 a (pack 7 b (pack 1 x 0)))))) from rfl]
    generalize hw : pack 1 (1#1) (pack 2 s (pack 7 (47#7) (pack 7 d (pack 7 a (pack 7 b (pack 1 x 0)))))) = w
    have hop : sel w 3 7 = 47 := by subst hw; simp (disch := decide) only [sel_pack_lo, sel_pack_in, Nat.reduceSub, BitVec.toNat_ofNat]; try rfl
    refine ⟨?_, hw ▸ (fits_pack (n := 1) (m := 31) (fits_pack (n := 2) (m := 29) (fits_pack (n := 7) (m := 22) (fits_pack (n := 7) (m := 15) (fits_pack (n := 7) (m := 8) (fits_pack (n := 7) (m := 1) (fits_pack (n := 1) (m := 0) fits_zero)))))) : Fits _ 32), hw ▸ pack_mod _ _, by rw [hop]; decide, ?_⟩
    · rw [raw2F hop, ← hw]
      simp (disch := decide) only [fld_pack_lo, fld_pack, Nat.reduceSub]
    · subst hw
      simp (disch := decide) only [fld_pack_lo, fld_pack, Nat.reduceSub])

theorem vabsd (x : BitVec 1) (b : BitVec 7) (a : BitVec 7) (d : BitVec 7) : Statement (.vabsd x b a d) :=
  of_word rfl (fun s => by
    rw [show Instr.word (.vabsd x b a d) s = pack 1 (1#1) (pack 2 s (pack 7 (48#7) (pack 7 d (pack 7 a (pack 7 b (pack 1 x 0)))))) from rfl]
    generalize hw : pack 1 (1#1) (pack 2 s (pack 7 (48#7) (pack 7 d (pack 7 a (pack 7 b (pack 1 x 0)))))) = w
    have hop : sel w 3 7 = 48 := by subst hw; simp (disch := decide) only [sel_pack_lo, sel_pack_in, Nat.reduceSub, BitVec.toNat_ofNat]; try rfl
    refine ⟨?_, hw ▸ (fits_pack (n := 1) (m := 31) (fits_pack (n := 2) (m := 29) (fits_pack (n := 7) (m := 22) (fits_pack (n := 7) (m := 15) (fits_pack (n := 7) (m := 8) (fits_pack (n := 7) (m := 1) (fits_pack (n := 1) (m := 0) fits_zero)))))) : Fits _ 32), hw ▸ pack_mod _ _, by rw [hop]; decide, ?_⟩
    · rw [raw30 hop, ← hw]
      simp (disch := decide) only [fld_pack_lo, fld_pack, Nat.reduceSub]
    · subst hw
      simp (disch := decide) only [fld_pack_lo, fld_pack, Nat.reduceSub])

theorem vpopc (a : BitVec 7) (d : BitVec 7) : Statement (.vpopc a d) :=
  of_word rfl (fun s => by
    rw [show Instr.word (.vpopc a d) s = pack 1 (1#1) (pack 2 s (pack 7 (49#7) (pack 7 d (pack 7 a (pack 8 (0#8) 0))))) from rfl]
    generalize hw : pack 1 (1#1) (pack 2 s (pack 7 (49#7) (pack 7 d (pack 7 a (pack 8 (0#8) 0))))) = w
    have hop : sel w 3 7 = 49 := by subst hw; simp (disch := decide) only [sel_pack_lo, sel_pack_in, Nat.reduceSub, BitVec.toNat_ofNat]; try rfl
    have hk0 : sel w 24 8 = 0 := by subst hw; simp (disch := decide) only [sel_pack_lo, sel_pack_in, Nat.reduceSub, BitVec.toNat_ofNat]; try rfl
    refine ⟨?_, hw ▸ (fits_pack (n := 1) (m := 31) (fits_pack (n := 2) (m := 29) (fits_pack (n := 7) (m := 22) (fits_pack (n := 7) (m := 15) (fits_pack (n := 7) (m := 8) (fits_pack (n := 8) (m := 0) fits_zero))))) : Fits _ 32), hw ▸ pack_mod _ _, by rw [hop]; decide, ?_⟩
    · rw [raw31 hop]
      simp only [decodeOp31, hk0, reduceIte, Nat.reduceEqDiff, OfNat.ofNat_ne_zero, OfNat.zero_ne_ofNat, OfNat.ofNat_ne_one, OfNat.one_ne_ofNat, zero_ne_one, one_ne_zero, true_and, false_and, and_true, and_false]
      subst hw
      simp (disch := decide) only [fld_pack_lo, fld_pack, Nat.reduceSub]
    · subst hw
      simp (disch := decide) only [fld_pack_lo, fld_pack, Nat.reduceSub])

theorem vclz (a : BitVec 7) (d : BitVec 7) : Statement (.vclz a d) :=
  of_word rfl (fun s => by
    rw [show Instr.word (.vclz a d) s = pack 1 (1#1) (pack 2 s (pack 7 (49#7) (pack 7 d (pack 7 a (pack 8 (1#8) 0))))) from rfl]
    generalize hw : pack 1 (1#1) (pack 2 s (pack 7 (49#7) (pack 7 d (pack 7 a (pack 8 (1#8) 0))))) = w
    have hop : sel w 3 7 = 49 := by subst hw; simp (disch := decide) only [sel_pack_lo, sel_pack_in, Nat.reduceSub, BitVec.toNat_ofNat]; try rfl
    have hk0 : sel w 24 8 = 1 := by subst hw; simp (disch := decide) only [sel_pack_lo, sel_pack_in, Nat.reduceSub, BitVec.toNat_ofNat]; try rfl
    refine ⟨?_, hw ▸ (fits_pack (n := 1) (m := 31) (fits_pack (n := 2) (m := 29) (fits_pack (n := 7) (m := 22) (fits_pack (n := 7) (m := 15) (fits_pack (n := 7) (m := 8) (fits_pack (n := 8) (m := 0) fits_zero))))) : Fits _ 32), hw ▸ pack_mod _ _, by rw [hop]; decide, ?_⟩
    · rw [raw31 hop]
      simp only [decodeOp31, hk0, reduceIte, Nat.reduceEqDiff, OfNat.ofNat_ne_zero, OfNat.zero_ne_ofNat, OfNat.ofNat_ne_one, OfNat.one_ne_ofNat, zero_ne_one, one_ne_zero, true_and, false_and, and_true, and_false]
      subst hw
      simp (disch := decide) only [fld_pack_lo, fld_pack, Nat.reduceSub]
    · subst hw
      simp (disch := decide) only [fld_pack_lo, fld_pack, Nat.reduceSub])

theorem vbrev (a : BitVec 7) (d : BitVec 7) : Statement (.vbrev a d) :=
  of_word rfl (fun s => by
    rw [show Instr.word (.vbrev a d) s = pack 1 (1#1) (pack 2 s (pack 7 (49#7) (pack 7 d (pack 7 a (pack 8 (2#8) 0))))) from rfl]
    generalize hw : pack 1 (1#1) (pack 2 s (pack 7 (49#7) (pack 7 d (pack 7 a (pack 8 (2#8) 0))))) = w
    have hop : sel w 3 7 = 49 := by subst hw; simp (disch := decide) only [sel_pack_lo, sel_pack_in, Nat.reduceSub, BitVec.toNat_ofNat]; try rfl
    have hk0 : sel w 24 8 = 2 := by subst hw; simp (disch := decide) only [sel_pack_lo, sel_pack_in, Nat.reduceSub, BitVec.toNat_ofNat]; try rfl
    refine ⟨?_, hw ▸ (fits_pack (n := 1) (m := 31) (fits_pack (n := 2) (m := 29) (fits_pack (n := 7) (m := 22) (fits_pack (n := 7) (m := 15) (fits_pack (n := 7) (m := 8) (fits_pack (n := 8) (m := 0) fits_zero))))) : Fits _ 32), hw ▸ pack_mod _ _, by rw [hop]; decide, ?_⟩
    · rw [raw31 hop]
      simp only [decodeOp31, hk0, reduceIte, Nat.reduceEqDiff, OfNat.ofNat_ne_zero, OfNat.zero_ne_ofNat, OfNat.ofNat_ne_one, OfNat.one_ne_ofNat, zero_ne_one, one_ne_zero, true_and, false_and, and_true, and_false]
      subst hw
      simp (disch := decide) only [fld_pack_lo, fld_pack, Nat.reduceSub]
    · subst hw
      simp (disch := decide) only [fld_pack_lo, fld_pack, Nat.reduceSub])

theorem vnot (a : BitVec 7) (d : BitVec 7) : Statement (.vnot a d) :=
  of_word rfl (fun s => by
    rw [show Instr.word (.vnot a d) s = pack 1 (1#1) (pack 2 s (pack 7 (49#7) (pack 7 d (pack 7 a (pack 8 (3#8) 0))))) from rfl]
    generalize hw : pack 1 (1#1) (pack 2 s (pack 7 (49#7) (pack 7 d (pack 7 a (pack 8 (3#8) 0))))) = w
    have hop : sel w 3 7 = 49 := by subst hw; simp (disch := decide) only [sel_pack_lo, sel_pack_in, Nat.reduceSub, BitVec.toNat_ofNat]; try rfl
    have hk0 : sel w 24 8 = 3 := by subst hw; simp (disch := decide) only [sel_pack_lo, sel_pack_in, Nat.reduceSub, BitVec.toNat_ofNat]; try rfl
    refine ⟨?_, hw ▸ (fits_pack (n := 1) (m := 31) (fits_pack (n := 2) (m := 29) (fits_pack (n := 7) (m := 22) (fits_pack (n := 7) (m := 15) (fits_pack (n := 7) (m := 8) (fits_pack (n := 8) (m := 0) fits_zero))))) : Fits _ 32), hw ▸ pack_mod _ _, by rw [hop]; decide, ?_⟩
    · rw [raw31 hop]
      simp only [decodeOp31, hk0, reduceIte, Nat.reduceEqDiff, OfNat.ofNat_ne_zero, OfNat.zero_ne_ofNat, OfNat.ofNat_ne_one, OfNat.one_ne_ofNat, zero_ne_one, one_ne_zero, true_and, false_and, and_true, and_false]
      subst hw
      simp (disch := decide) only [fld_pack_lo, fld_pack, Nat.reduceSub]
    · subst hw
      simp (disch := decide) only [fld_pack_lo, fld_pack, Nat.reduceSub])

theorem vbfeI32 (x : BitVec 1) (b : BitVec 7) (a : BitVec 7) (d : BitVec 7) : Statement (.vbfeI32 x b a d) :=
  of_word rfl (fun s => by
    rw [show Instr.word (.vbfeI32 x b a d) s = pack 1 (1#1) (pack 2 s (pack 7 (50#7) (pack 7 d (pack 7 a (pack 7 b (pack 1 x 0)))))) from rfl]
    generalize hw : pack 1 (1#1) (pack 2 s (pack 7 (50#7) (pack 7 d (pack 7 a (pack 7 b (pack 1 x 0)))))) = w
    have hop : sel w 3 7 = 50 := by subst hw; simp (disch := decide) only [sel_pack_lo, sel_pack_in, Nat.reduceSub, BitVec.toNat_ofNat]; try rfl
    refine ⟨?_, hw ▸ (fits_pack (n := 1) (m := 31) (fits_pack (n := 2) (m := 29) (fits_pack (n := 7) (m := 22) (fits_pack (n := 7) (m := 15) (fits_pack (n := 7) (m := 8) (fits_pack (n := 7) (m := 1) (fits_pack (n := 1) (m := 0) fits_zero)))))) : Fits _ 32), hw ▸ pack_mod _ _, by rw [hop]; decide, ?_⟩
    · rw [raw32 hop, ← hw]
      simp (disch := decide) only [fld_pack_lo, fld_pack, Nat.reduceSub]
    · subst hw
      simp (disch := decide) only [fld_pack_lo, fld_pack, Nat.reduceSub])

theorem vbfeZ32 (x : BitVec 1) (b : BitVec 7) (a : BitVec 7) (d : BitVec 7) : Statement (.vbfeZ32 x b a d) :=
  of_word rfl (fun s => by
    rw [show Instr.word (.vbfeZ32 x b a d) s = pack 1 (1#1) (pack 2 s (pack 7 (51#7) (pack 7 d (pack 7 a (pack 7 b (pack 1 x 0)))))) from rfl]
    generalize hw : pack 1 (1#1) (pack 2 s (pack 7 (51#7) (pack 7 d (pack 7 a (pack 7 b (pack 1 x 0)))))) = w
    have hop : sel w 3 7 = 51 := by subst hw; simp (disch := decide) only [sel_pack_lo, sel_pack_in, Nat.reduceSub, BitVec.toNat_ofNat]; try rfl
    refine ⟨?_, hw ▸ (fits_pack (n := 1) (m := 31) (fits_pack (n := 2) (m := 29) (fits_pack (n := 7) (m := 22) (fits_pack (n := 7) (m := 15) (fits_pack (n := 7) (m := 8) (fits_pack (n := 7) (m := 1) (fits_pack (n := 1) (m := 0) fits_zero)))))) : Fits _ 32), hw ▸ pack_mod _ _, by rw [hop]; decide, ?_⟩
    · rw [raw33 hop, ← hw]
      simp (disch := decide) only [fld_pack_lo, fld_pack, Nat.reduceSub]
    · subst hw
      simp (disch := decide) only [fld_pack_lo, fld_pack, Nat.reduceSub])

theorem vbfi (x : BitVec 1) (b : BitVec 7) (a : BitVec 7) (d : BitVec 7) : Statement (.vbfi x b a d) :=
  of_word rfl (fun s => by
    rw [show Instr.word (.vbfi x b a d) s = pack 1 (1#1) (pack 2 s (pack 7 (52#7) (pack 7 d (pack 7 a (pack 7 b (pack 1 x 0)))))) from rfl]
    generalize hw : pack 1 (1#1) (pack 2 s (pack 7 (52#7) (pack 7 d (pack 7 a (pack 7 b (pack 1 x 0)))))) = w
    have hop : sel w 3 7 = 52 := by subst hw; simp (disch := decide) only [sel_pack_lo, sel_pack_in, Nat.reduceSub, BitVec.toNat_ofNat]; try rfl
    refine ⟨?_, hw ▸ (fits_pack (n := 1) (m := 31) (fits_pack (n := 2) (m := 29) (fits_pack (n := 7) (m := 22) (fits_pack (n := 7) (m := 15) (fits_pack (n := 7) (m := 8) (fits_pack (n := 7) (m := 1) (fits_pack (n := 1) (m := 0) fits_zero)))))) : Fits _ 32), hw ▸ pack_mod _ _, by rw [hop]; decide, ?_⟩
    · rw [raw34 hop, ← hw]
      simp (disch := decide) only [fld_pack_lo, fld_pack, Nat.reduceSub]
    · subst hw
      simp (disch := decide) only [fld_pack_lo, fld_pack, Nat.reduceSub])

theorem vsel (n : BitVec 1) (p : BitVec 4) (a : BitVec 7) (d : BitVec 7) : Statement (.vsel n p a d) :=
  of_word rfl (fun s => by
    rw [show Instr.word (.vsel n p a d) s = pack 1 (1#1) (pack 2 s (pack 7 (53#7) (pack 7 d (pack 7 a (pack 4 p (pack 1 n (pack 3 (0#3) 0))))))) from rfl]
    generalize hw : pack 1 (1#1) (pack 2 s (pack 7 (53#7) (pack 7 d (pack 7 a (pack 4 p (pack 1 n (pack 3 (0#3) 0))))))) = w
    have hop : sel w 3 7 = 53 := by subst hw; simp (disch := decide) only [sel_pack_lo, sel_pack_in, Nat.reduceSub, BitVec.toNat_ofNat]; try rfl
    have hk0 : sel w 29 3 = 0 := by subst hw; simp (disch := decide) only [sel_pack_lo, sel_pack_in, Nat.reduceSub, BitVec.toNat_ofNat]; try rfl
    refine ⟨?_, hw ▸ (fits_pack (n := 1) (m := 31) (fits_pack (n := 2) (m := 29) (fits_pack (n := 7) (m := 22) (fits_pack (n := 7) (m := 15) (fits_pack (n := 7) (m := 8) (fits_pack (n := 4) (m := 4) (fits_pack (n := 1) (m := 3) (fits_pack (n := 3) (m := 0) fits_zero))))))) : Fits _ 32), hw ▸ pack_mod _ _, by rw [hop]; decide, ?_⟩
    · rw [raw35 hop]
      simp only [decodeOp35, hk0, reduceIte, Nat.reduceEqDiff, OfNat.ofNat_ne_zero, OfNat.zero_ne_ofNat, OfNat.ofNat_ne_one, OfNat.one_ne_ofNat, zero_ne_one, one_ne_zero, true_and, false_and, and_true, and_false]
      subst hw
      simp (disch := decide) only [fld_pack_lo, fld_pack, Nat.reduceSub]
    · subst hw
      simp (disch := decide) only [fld_pack_lo, fld_pack, Nat.reduceSub])

theorem vdot4I8 (x : BitVec 1) (b : BitVec 7) (a : BitVec 7) (d : BitVec 7) : Statement (.vdot4I8 x b a d) :=
  of_word rfl (fun s => by
    rw [show Instr.word (.vdot4I8 x b a d) s = pack 1 (1#1) (pack 2 s (pack 7 (54#7) (pack 7 d (pack 7 a (pack 7 b (pack 1 x 0)))))) from rfl]
    generalize hw : pack 1 (1#1) (pack 2 s (pack 7 (54#7) (pack 7 d (pack 7 a (pack 7 b (pack 1 x 0)))))) = w
    have hop : sel w 3 7 = 54 := by subst hw; simp (disch := decide) only [sel_pack_lo, sel_pack_in, Nat.reduceSub, BitVec.toNat_ofNat]; try rfl
    refine ⟨?_, hw ▸ (fits_pack (n := 1) (m := 31) (fits_pack (n := 2) (m := 29) (fits_pack (n := 7) (m := 22) (fits_pack (n := 7) (m := 15) (fits_pack (n := 7) (m := 8) (fits_pack (n := 7) (m := 1) (fits_pack (n := 1) (m := 0) fits_zero)))))) : Fits _ 32), hw ▸ pack_mod _ _, by rw [hop]; decide, ?_⟩
    · rw [raw36 hop, ← hw]
      simp (disch := decide) only [fld_pack_lo, fld_pack, Nat.reduceSub]
    · subst hw
      simp (disch := decide) only [fld_pack_lo, fld_pack, Nat.reduceSub])

theorem vdot4Z8 (x : BitVec 1) (b : BitVec 7) (a : BitVec 7) (d : BitVec 7) : Statement (.vdot4Z8 x b a d) :=
  of_word rfl (fun s => by
    rw [show Instr.word (.vdot4Z8 x b a d) s = pack 1 (1#1) (pack 2 s (pack 7 (55#7) (pack 7 d (pack 7 a (pack 7 b (pack 1 x 0)))))) from rfl]
    generalize hw : pack 1 (1#1) (pack 2 s (pack 7 (55#7) (pack 7 d (pack 7 a (pack 7 b (pack 1 x 0)))))) = w
    have hop : sel w 3 7 = 55 := by subst hw; simp (disch := decide) only [sel_pack_lo, sel_pack_in, Nat.reduceSub, BitVec.toNat_ofNat]; try rfl
    refine ⟨?_, hw ▸ (fits_pack (n := 1) (m := 31) (fits_pack (n := 2) (m := 29) (fits_pack (n := 7) (m := 22) (fits_pack (n := 7) (m := 15) (fits_pack (n := 7) (m := 8) (fits_pack (n := 7) (m := 1) (fits_pack (n := 1) (m := 0) fits_zero)))))) : Fits _ 32), hw ▸ pack_mod _ _, by rw [hop]; decide, ?_⟩
    · rw [raw37 hop, ← hw]
      simp (disch := decide) only [fld_pack_lo, fld_pack, Nat.reduceSub]
    · subst hw
      simp (disch := decide) only [fld_pack_lo, fld_pack, Nat.reduceSub])

theorem vaddi (imm : BitVec 8) (a : BitVec 7) (d : BitVec 7) : Statement (.vaddi imm a d) :=
  of_word rfl (fun s => by
    rw [show Instr.word (.vaddi imm a d) s = pack 1 (1#1) (pack 2 s (pack 7 (56#7) (pack 7 d (pack 7 a (pack 8 imm 0))))) from rfl]
    generalize hw : pack 1 (1#1) (pack 2 s (pack 7 (56#7) (pack 7 d (pack 7 a (pack 8 imm 0))))) = w
    have hop : sel w 3 7 = 56 := by subst hw; simp (disch := decide) only [sel_pack_lo, sel_pack_in, Nat.reduceSub, BitVec.toNat_ofNat]; try rfl
    refine ⟨?_, hw ▸ (fits_pack (n := 1) (m := 31) (fits_pack (n := 2) (m := 29) (fits_pack (n := 7) (m := 22) (fits_pack (n := 7) (m := 15) (fits_pack (n := 7) (m := 8) (fits_pack (n := 8) (m := 0) fits_zero))))) : Fits _ 32), hw ▸ pack_mod _ _, by rw [hop]; decide, ?_⟩
    · rw [raw38 hop, ← hw]
      simp (disch := decide) only [fld_pack_lo, fld_pack, Nat.reduceSub]
    · subst hw
      simp (disch := decide) only [fld_pack_lo, fld_pack, Nat.reduceSub])

theorem vshli (imm : BitVec 5) (a : BitVec 7) (d : BitVec 7) : Statement (.vshli imm a d) :=
  of_word rfl (fun s => by
    rw [show Instr.word (.vshli imm a d) s = pack 1 (1#1) (pack 2 s (pack 7 (57#7) (pack 7 d (pack 7 a (pack 5 imm (pack 3 (0#3) 0)))))) from rfl]
    generalize hw : pack 1 (1#1) (pack 2 s (pack 7 (57#7) (pack 7 d (pack 7 a (pack 5 imm (pack 3 (0#3) 0)))))) = w
    have hop : sel w 3 7 = 57 := by subst hw; simp (disch := decide) only [sel_pack_lo, sel_pack_in, Nat.reduceSub, BitVec.toNat_ofNat]; try rfl
    have hk0 : sel w 29 3 = 0 := by subst hw; simp (disch := decide) only [sel_pack_lo, sel_pack_in, Nat.reduceSub, BitVec.toNat_ofNat]; try rfl
    refine ⟨?_, hw ▸ (fits_pack (n := 1) (m := 31) (fits_pack (n := 2) (m := 29) (fits_pack (n := 7) (m := 22) (fits_pack (n := 7) (m := 15) (fits_pack (n := 7) (m := 8) (fits_pack (n := 5) (m := 3) (fits_pack (n := 3) (m := 0) fits_zero)))))) : Fits _ 32), hw ▸ pack_mod _ _, by rw [hop]; decide, ?_⟩
    · rw [raw39 hop]
      simp only [decodeOp39, hk0, reduceIte, Nat.reduceEqDiff, OfNat.ofNat_ne_zero, OfNat.zero_ne_ofNat, OfNat.ofNat_ne_one, OfNat.one_ne_ofNat, zero_ne_one, one_ne_zero, true_and, false_and, and_true, and_false]
      subst hw
      simp (disch := decide) only [fld_pack_lo, fld_pack, Nat.reduceSub]
    · subst hw
      simp (disch := decide) only [fld_pack_lo, fld_pack, Nat.reduceSub])

theorem vshri (imm : BitVec 5) (a : BitVec 7) (d : BitVec 7) : Statement (.vshri imm a d) :=
  of_word rfl (fun s => by
    rw [show Instr.word (.vshri imm a d) s = pack 1 (1#1) (pack 2 s (pack 7 (58#7) (pack 7 d (pack 7 a (pack 5 imm (pack 3 (0#3) 0)))))) from rfl]
    generalize hw : pack 1 (1#1) (pack 2 s (pack 7 (58#7) (pack 7 d (pack 7 a (pack 5 imm (pack 3 (0#3) 0)))))) = w
    have hop : sel w 3 7 = 58 := by subst hw; simp (disch := decide) only [sel_pack_lo, sel_pack_in, Nat.reduceSub, BitVec.toNat_ofNat]; try rfl
    have hk0 : sel w 29 3 = 0 := by subst hw; simp (disch := decide) only [sel_pack_lo, sel_pack_in, Nat.reduceSub, BitVec.toNat_ofNat]; try rfl
    refine ⟨?_, hw ▸ (fits_pack (n := 1) (m := 31) (fits_pack (n := 2) (m := 29) (fits_pack (n := 7) (m := 22) (fits_pack (n := 7) (m := 15) (fits_pack (n := 7) (m := 8) (fits_pack (n := 5) (m := 3) (fits_pack (n := 3) (m := 0) fits_zero)))))) : Fits _ 32), hw ▸ pack_mod _ _, by rw [hop]; decide, ?_⟩
    · rw [raw3A hop]
      simp only [decodeOp3A, hk0, reduceIte, Nat.reduceEqDiff, OfNat.ofNat_ne_zero, OfNat.zero_ne_ofNat, OfNat.ofNat_ne_one, OfNat.one_ne_ofNat, zero_ne_one, one_ne_zero, true_and, false_and, and_true, and_false]
      subst hw
      simp (disch := decide) only [fld_pack_lo, fld_pack, Nat.reduceSub]
    · subst hw
      simp (disch := decide) only [fld_pack_lo, fld_pack, Nat.reduceSub])

theorem vsrai (imm : BitVec 5) (a : BitVec 7) (d : BitVec 7) : Statement (.vsrai imm a d) :=
  of_word rfl (fun s => by
    rw [show Instr.word (.vsrai imm a d) s = pack 1 (1#1) (pack 2 s (pack 7 (59#7) (pack 7 d (pack 7 a (pack 5 imm (pack 3 (0#3) 0)))))) from rfl]
    generalize hw : pack 1 (1#1) (pack 2 s (pack 7 (59#7) (pack 7 d (pack 7 a (pack 5 imm (pack 3 (0#3) 0)))))) = w
    have hop : sel w 3 7 = 59 := by subst hw; simp (disch := decide) only [sel_pack_lo, sel_pack_in, Nat.reduceSub, BitVec.toNat_ofNat]; try rfl
    have hk0 : sel w 29 3 = 0 := by subst hw; simp (disch := decide) only [sel_pack_lo, sel_pack_in, Nat.reduceSub, BitVec.toNat_ofNat]; try rfl
    refine ⟨?_, hw ▸ (fits_pack (n := 1) (m := 31) (fits_pack (n := 2) (m := 29) (fits_pack (n := 7) (m := 22) (fits_pack (n := 7) (m := 15) (fits_pack (n := 7) (m := 8) (fits_pack (n := 5) (m := 3) (fits_pack (n := 3) (m := 0) fits_zero)))))) : Fits _ 32), hw ▸ pack_mod _ _, by rw [hop]; decide, ?_⟩
    · rw [raw3B hop]
      simp only [decodeOp3B, hk0, reduceIte, Nat.reduceEqDiff, OfNat.ofNat_ne_zero, OfNat.zero_ne_ofNat, OfNat.ofNat_ne_one, OfNat.one_ne_ofNat, zero_ne_one, one_ne_zero, true_and, false_and, and_true, and_false]
      subst hw
      simp (disch := decide) only [fld_pack_lo, fld_pack, Nat.reduceSub]
    · subst hw
      simp (disch := decide) only [fld_pack_lo, fld_pack, Nat.reduceSub])

theorem vandi (imm : BitVec 8) (a : BitVec 7) (d : BitVec 7) : Statement (.vandi imm a d) :=
  of_word rfl (fun s => by
    rw [show Instr.word (.vandi imm a d) s = pack 1 (1#1) (pack 2 s (pack 7 (60#7) (pack 7 d (pack 7 a (pack 8 imm 0))))) from rfl]
    generalize hw : pack 1 (1#1) (pack 2 s (pack 7 (60#7) (pack 7 d (pack 7 a (pack 8 imm 0))))) = w
    have hop : sel w 3 7 = 60 := by subst hw; simp (disch := decide) only [sel_pack_lo, sel_pack_in, Nat.reduceSub, BitVec.toNat_ofNat]; try rfl
    refine ⟨?_, hw ▸ (fits_pack (n := 1) (m := 31) (fits_pack (n := 2) (m := 29) (fits_pack (n := 7) (m := 22) (fits_pack (n := 7) (m := 15) (fits_pack (n := 7) (m := 8) (fits_pack (n := 8) (m := 0) fits_zero))))) : Fits _ 32), hw ▸ pack_mod _ _, by rw [hop]; decide, ?_⟩
    · rw [raw3C hop, ← hw]
      simp (disch := decide) only [fld_pack_lo, fld_pack, Nat.reduceSub]
    · subst hw
      simp (disch := decide) only [fld_pack_lo, fld_pack, Nat.reduceSub])

theorem vli (imm : BitVec 15) (d : BitVec 7) : Statement (.vli imm d) :=
  of_word rfl (fun s => by
    rw [show Instr.word (.vli imm d) s = pack 1 (1#1) (pack 2 s (pack 7 (61#7) (pack 7 d (pack 15 imm 0)))) from rfl]
    generalize hw : pack 1 (1#1) (pack 2 s (pack 7 (61#7) (pack 7 d (pack 15 imm 0)))) = w
    have hop : sel w 3 7 = 61 := by subst hw; simp (disch := decide) only [sel_pack_lo, sel_pack_in, Nat.reduceSub, BitVec.toNat_ofNat]; try rfl
    refine ⟨?_, hw ▸ (fits_pack (n := 1) (m := 31) (fits_pack (n := 2) (m := 29) (fits_pack (n := 7) (m := 22) (fits_pack (n := 7) (m := 15) (fits_pack (n := 15) (m := 0) fits_zero)))) : Fits _ 32), hw ▸ pack_mod _ _, by rw [hop]; decide, ?_⟩
    · rw [raw3D hop, ← hw]
      simp (disch := decide) only [fld_pack_lo, fld_pack, Nat.reduceSub]
    · subst hw
      simp (disch := decide) only [fld_pack_lo, fld_pack, Nat.reduceSub])

theorem vbkSet (w : BitVec 2) (k : BitVec 2) (v : BitVec 7) : Statement (.vbkSet w k v) :=
  of_word rfl (fun s => by
    rw [show Instr.word (.vbkSet w k v) s = pack 1 (1#1) (pack 2 s (pack 7 (62#7) (pack 7 v (pack 2 k (pack 2 w (pack 11 (0#11) 0)))))) from rfl]
    generalize hw : pack 1 (1#1) (pack 2 s (pack 7 (62#7) (pack 7 v (pack 2 k (pack 2 w (pack 11 (0#11) 0)))))) = w
    have hop : sel w 3 7 = 62 := by subst hw; simp (disch := decide) only [sel_pack_lo, sel_pack_in, Nat.reduceSub, BitVec.toNat_ofNat]; try rfl
    have hk0 : sel w 21 11 = 0 := by subst hw; simp (disch := decide) only [sel_pack_lo, sel_pack_in, Nat.reduceSub, BitVec.toNat_ofNat]; try rfl
    refine ⟨?_, hw ▸ (fits_pack (n := 1) (m := 31) (fits_pack (n := 2) (m := 29) (fits_pack (n := 7) (m := 22) (fits_pack (n := 7) (m := 15) (fits_pack (n := 2) (m := 13) (fits_pack (n := 2) (m := 11) (fits_pack (n := 11) (m := 0) fits_zero)))))) : Fits _ 32), hw ▸ pack_mod _ _, by rw [hop]; decide, ?_⟩
    · rw [raw3E hop]
      simp only [decodeOp3E, hk0, reduceIte, Nat.reduceEqDiff, OfNat.ofNat_ne_zero, OfNat.zero_ne_ofNat, OfNat.ofNat_ne_one, OfNat.one_ne_ofNat, zero_ne_one, one_ne_zero, true_and, false_and, and_true, and_false]
      subst hw
      simp (disch := decide) only [fld_pack_lo, fld_pack, Nat.reduceSub]
    · subst hw
      simp (disch := decide) only [fld_pack_lo, fld_pack, Nat.reduceSub])

theorem vbkGet (w : BitVec 2) (k : BitVec 2) (v : BitVec 7) : Statement (.vbkGet w k v) :=
  of_word rfl (fun s => by
    rw [show Instr.word (.vbkGet w k v) s = pack 1 (1#1) (pack 2 s (pack 7 (62#7) (pack 7 v (pack 2 k (pack 2 w (pack 11 (1#11) 0)))))) from rfl]
    generalize hw : pack 1 (1#1) (pack 2 s (pack 7 (62#7) (pack 7 v (pack 2 k (pack 2 w (pack 11 (1#11) 0)))))) = w
    have hop : sel w 3 7 = 62 := by subst hw; simp (disch := decide) only [sel_pack_lo, sel_pack_in, Nat.reduceSub, BitVec.toNat_ofNat]; try rfl
    have hk0 : sel w 21 11 = 1 := by subst hw; simp (disch := decide) only [sel_pack_lo, sel_pack_in, Nat.reduceSub, BitVec.toNat_ofNat]; try rfl
    refine ⟨?_, hw ▸ (fits_pack (n := 1) (m := 31) (fits_pack (n := 2) (m := 29) (fits_pack (n := 7) (m := 22) (fits_pack (n := 7) (m := 15) (fits_pack (n := 2) (m := 13) (fits_pack (n := 2) (m := 11) (fits_pack (n := 11) (m := 0) fits_zero)))))) : Fits _ 32), hw ▸ pack_mod _ _, by rw [hop]; decide, ?_⟩
    · rw [raw3E hop]
      simp only [decodeOp3E, hk0, reduceIte, Nat.reduceEqDiff, OfNat.ofNat_ne_zero, OfNat.zero_ne_ofNat, OfNat.ofNat_ne_one, OfNat.one_ne_ofNat, zero_ne_one, one_ne_zero, true_and, false_and, and_true, and_false]
      subst hw
      simp (disch := decide) only [fld_pack_lo, fld_pack, Nat.reduceSub]
    · subst hw
      simp (disch := decide) only [fld_pack_lo, fld_pack, Nat.reduceSub])

theorem vicmp (x : BitVec 1) (b : BitVec 7) (a : BitVec 7) (c : BitVec 4) (p : BitVec 3) : Statement (.vicmp x b a c p) :=
  of_word rfl (fun s => by
    rw [show Instr.word (.vicmp x b a c p) s = pack 1 (1#1) (pack 2 s (pack 7 (63#7) (pack 3 p (pack 4 c (pack 7 a (pack 7 b (pack 1 x 0))))))) from rfl]
    generalize hw : pack 1 (1#1) (pack 2 s (pack 7 (63#7) (pack 3 p (pack 4 c (pack 7 a (pack 7 b (pack 1 x 0))))))) = w
    have hop : sel w 3 7 = 63 := by subst hw; simp (disch := decide) only [sel_pack_lo, sel_pack_in, Nat.reduceSub, BitVec.toNat_ofNat]; try rfl
    refine ⟨?_, hw ▸ (fits_pack (n := 1) (m := 31) (fits_pack (n := 2) (m := 29) (fits_pack (n := 7) (m := 22) (fits_pack (n := 3) (m := 19) (fits_pack (n := 4) (m := 15) (fits_pack (n := 7) (m := 8) (fits_pack (n := 7) (m := 1) (fits_pack (n := 1) (m := 0) fits_zero))))))) : Fits _ 32), hw ▸ pack_mod _ _, by rw [hop]; decide, ?_⟩
    · rw [raw3F hop, ← hw]
      simp (disch := decide) only [fld_pack_lo, fld_pack, Nat.reduceSub]
    · subst hw
      simp (disch := decide) only [fld_pack_lo, fld_pack, Nat.reduceSub])

theorem vfaddF32 (x : BitVec 1) (b : BitVec 7) (a : BitVec 7) (d : BitVec 7) : Statement (.vfaddF32 x b a d) :=
  of_word rfl (fun s => by
    rw [show Instr.word (.vfaddF32 x b a d) s = pack 1 (1#1) (pack 2 s (pack 7 (64#7) (pack 7 d (pack 7 a (pack 7 b (pack 1 x 0)))))) from rfl]
    generalize hw : pack 1 (1#1) (pack 2 s (pack 7 (64#7) (pack 7 d (pack 7 a (pack 7 b (pack 1 x 0)))))) = w
    have hop : sel w 3 7 = 64 := by subst hw; simp (disch := decide) only [sel_pack_lo, sel_pack_in, Nat.reduceSub, BitVec.toNat_ofNat]; try rfl
    refine ⟨?_, hw ▸ (fits_pack (n := 1) (m := 31) (fits_pack (n := 2) (m := 29) (fits_pack (n := 7) (m := 22) (fits_pack (n := 7) (m := 15) (fits_pack (n := 7) (m := 8) (fits_pack (n := 7) (m := 1) (fits_pack (n := 1) (m := 0) fits_zero)))))) : Fits _ 32), hw ▸ pack_mod _ _, by rw [hop]; decide, ?_⟩
    · rw [raw40 hop, ← hw]
      simp (disch := decide) only [fld_pack_lo, fld_pack, Nat.reduceSub]
    · subst hw
      simp (disch := decide) only [fld_pack_lo, fld_pack, Nat.reduceSub])

theorem vfsubF32 (x : BitVec 1) (b : BitVec 7) (a : BitVec 7) (d : BitVec 7) : Statement (.vfsubF32 x b a d) :=
  of_word rfl (fun s => by
    rw [show Instr.word (.vfsubF32 x b a d) s = pack 1 (1#1) (pack 2 s (pack 7 (65#7) (pack 7 d (pack 7 a (pack 7 b (pack 1 x 0)))))) from rfl]
    generalize hw : pack 1 (1#1) (pack 2 s (pack 7 (65#7) (pack 7 d (pack 7 a (pack 7 b (pack 1 x 0)))))) = w
    have hop : sel w 3 7 = 65 := by subst hw; simp (disch := decide) only [sel_pack_lo, sel_pack_in, Nat.reduceSub, BitVec.toNat_ofNat]; try rfl
    refine ⟨?_, hw ▸ (fits_pack (n := 1) (m := 31) (fits_pack (n := 2) (m := 29) (fits_pack (n := 7) (m := 22) (fits_pack (n := 7) (m := 15) (fits_pack (n := 7) (m := 8) (fits_pack (n := 7) (m := 1) (fits_pack (n := 1) (m := 0) fits_zero)))))) : Fits _ 32), hw ▸ pack_mod _ _, by rw [hop]; decide, ?_⟩
    · rw [raw41 hop, ← hw]
      simp (disch := decide) only [fld_pack_lo, fld_pack, Nat.reduceSub]
    · subst hw
      simp (disch := decide) only [fld_pack_lo, fld_pack, Nat.reduceSub])

theorem vfmulF32 (x : BitVec 1) (b : BitVec 7) (a : BitVec 7) (d : BitVec 7) : Statement (.vfmulF32 x b a d) :=
  of_word rfl (fun s => by
    rw [show Instr.word (.vfmulF32 x b a d) s = pack 1 (1#1) (pack 2 s (pack 7 (66#7) (pack 7 d (pack 7 a (pack 7 b (pack 1 x 0)))))) from rfl]
    generalize hw : pack 1 (1#1) (pack 2 s (pack 7 (66#7) (pack 7 d (pack 7 a (pack 7 b (pack 1 x 0)))))) = w
    have hop : sel w 3 7 = 66 := by subst hw; simp (disch := decide) only [sel_pack_lo, sel_pack_in, Nat.reduceSub, BitVec.toNat_ofNat]; try rfl
    refine ⟨?_, hw ▸ (fits_pack (n := 1) (m := 31) (fits_pack (n := 2) (m := 29) (fits_pack (n := 7) (m := 22) (fits_pack (n := 7) (m := 15) (fits_pack (n := 7) (m := 8) (fits_pack (n := 7) (m := 1) (fits_pack (n := 1) (m := 0) fits_zero)))))) : Fits _ 32), hw ▸ pack_mod _ _, by rw [hop]; decide, ?_⟩
    · rw [raw42 hop, ← hw]
      simp (disch := decide) only [fld_pack_lo, fld_pack, Nat.reduceSub]
    · subst hw
      simp (disch := decide) only [fld_pack_lo, fld_pack, Nat.reduceSub])

theorem vfmaF32 (x : BitVec 1) (b : BitVec 7) (a : BitVec 7) (d : BitVec 7) : Statement (.vfmaF32 x b a d) :=
  of_word rfl (fun s => by
    rw [show Instr.word (.vfmaF32 x b a d) s = pack 1 (1#1) (pack 2 s (pack 7 (67#7) (pack 7 d (pack 7 a (pack 7 b (pack 1 x 0)))))) from rfl]
    generalize hw : pack 1 (1#1) (pack 2 s (pack 7 (67#7) (pack 7 d (pack 7 a (pack 7 b (pack 1 x 0)))))) = w
    have hop : sel w 3 7 = 67 := by subst hw; simp (disch := decide) only [sel_pack_lo, sel_pack_in, Nat.reduceSub, BitVec.toNat_ofNat]; try rfl
    refine ⟨?_, hw ▸ (fits_pack (n := 1) (m := 31) (fits_pack (n := 2) (m := 29) (fits_pack (n := 7) (m := 22) (fits_pack (n := 7) (m := 15) (fits_pack (n := 7) (m := 8) (fits_pack (n := 7) (m := 1) (fits_pack (n := 1) (m := 0) fits_zero)))))) : Fits _ 32), hw ▸ pack_mod _ _, by rw [hop]; decide, ?_⟩
    · rw [raw43 hop, ← hw]
      simp (disch := decide) only [fld_pack_lo, fld_pack, Nat.reduceSub]
    · subst hw
      simp (disch := decide) only [fld_pack_lo, fld_pack, Nat.reduceSub])

theorem vfminF32 (x : BitVec 1) (b : BitVec 7) (a : BitVec 7) (d : BitVec 7) : Statement (.vfminF32 x b a d) :=
  of_word rfl (fun s => by
    rw [show Instr.word (.vfminF32 x b a d) s = pack 1 (1#1) (pack 2 s (pack 7 (68#7) (pack 7 d (pack 7 a (pack 7 b (pack 1 x 0)))))) from rfl]
    generalize hw : pack 1 (1#1) (pack 2 s (pack 7 (68#7) (pack 7 d (pack 7 a (pack 7 b (pack 1 x 0)))))) = w
    have hop : sel w 3 7 = 68 := by subst hw; simp (disch := decide) only [sel_pack_lo, sel_pack_in, Nat.reduceSub, BitVec.toNat_ofNat]; try rfl
    refine ⟨?_, hw ▸ (fits_pack (n := 1) (m := 31) (fits_pack (n := 2) (m := 29) (fits_pack (n := 7) (m := 22) (fits_pack (n := 7) (m := 15) (fits_pack (n := 7) (m := 8) (fits_pack (n := 7) (m := 1) (fits_pack (n := 1) (m := 0) fits_zero)))))) : Fits _ 32), hw ▸ pack_mod _ _, by rw [hop]; decide, ?_⟩
    · rw [raw44 hop, ← hw]
      simp (disch := decide) only [fld_pack_lo, fld_pack, Nat.reduceSub]
    · subst hw
      simp (disch := decide) only [fld_pack_lo, fld_pack, Nat.reduceSub])

theorem vfmaxF32 (x : BitVec 1) (b : BitVec 7) (a : BitVec 7) (d : BitVec 7) : Statement (.vfmaxF32 x b a d) :=
  of_word rfl (fun s => by
    rw [show Instr.word (.vfmaxF32 x b a d) s = pack 1 (1#1) (pack 2 s (pack 7 (69#7) (pack 7 d (pack 7 a (pack 7 b (pack 1 x 0)))))) from rfl]
    generalize hw : pack 1 (1#1) (pack 2 s (pack 7 (69#7) (pack 7 d (pack 7 a (pack 7 b (pack 1 x 0)))))) = w
    have hop : sel w 3 7 = 69 := by subst hw; simp (disch := decide) only [sel_pack_lo, sel_pack_in, Nat.reduceSub, BitVec.toNat_ofNat]; try rfl
    refine ⟨?_, hw ▸ (fits_pack (n := 1) (m := 31) (fits_pack (n := 2) (m := 29) (fits_pack (n := 7) (m := 22) (fits_pack (n := 7) (m := 15) (fits_pack (n := 7) (m := 8) (fits_pack (n := 7) (m := 1) (fits_pack (n := 1) (m := 0) fits_zero)))))) : Fits _ 32), hw ▸ pack_mod _ _, by rw [hop]; decide, ?_⟩
    · rw [raw45 hop, ← hw]
      simp (disch := decide) only [fld_pack_lo, fld_pack, Nat.reduceSub]
    · subst hw
      simp (disch := decide) only [fld_pack_lo, fld_pack, Nat.reduceSub])

theorem vfaddH2 (x : BitVec 1) (b : BitVec 7) (a : BitVec 7) (d : BitVec 7) : Statement (.vfaddH2 x b a d) :=
  of_word rfl (fun s => by
    rw [show Instr.word (.vfaddH2 x b a d) s = pack 1 (1#1) (pack 2 s (pack 7 (70#7) (pack 7 d (pack 7 a (pack 7 b (pack 1 x 0)))))) from rfl]
    generalize hw : pack 1 (1#1) (pack 2 s (pack 7 (70#7) (pack 7 d (pack 7 a (pack 7 b (pack 1 x 0)))))) = w
    have hop : sel w 3 7 = 70 := by subst hw; simp (disch := decide) only [sel_pack_lo, sel_pack_in, Nat.reduceSub, BitVec.toNat_ofNat]; try rfl
    refine ⟨?_, hw ▸ (fits_pack (n := 1) (m := 31) (fits_pack (n := 2) (m := 29) (fits_pack (n := 7) (m := 22) (fits_pack (n := 7) (m := 15) (fits_pack (n := 7) (m := 8) (fits_pack (n := 7) (m := 1) (fits_pack (n := 1) (m := 0) fits_zero)))))) : Fits _ 32), hw ▸ pack_mod _ _, by rw [hop]; decide, ?_⟩
    · rw [raw46 hop, ← hw]
      simp (disch := decide) only [fld_pack_lo, fld_pack, Nat.reduceSub]
    · subst hw
      simp (disch := decide) only [fld_pack_lo, fld_pack, Nat.reduceSub])

theorem vfsubH2 (x : BitVec 1) (b : BitVec 7) (a : BitVec 7) (d : BitVec 7) : Statement (.vfsubH2 x b a d) :=
  of_word rfl (fun s => by
    rw [show Instr.word (.vfsubH2 x b a d) s = pack 1 (1#1) (pack 2 s (pack 7 (71#7) (pack 7 d (pack 7 a (pack 7 b (pack 1 x 0)))))) from rfl]
    generalize hw : pack 1 (1#1) (pack 2 s (pack 7 (71#7) (pack 7 d (pack 7 a (pack 7 b (pack 1 x 0)))))) = w
    have hop : sel w 3 7 = 71 := by subst hw; simp (disch := decide) only [sel_pack_lo, sel_pack_in, Nat.reduceSub, BitVec.toNat_ofNat]; try rfl
    refine ⟨?_, hw ▸ (fits_pack (n := 1) (m := 31) (fits_pack (n := 2) (m := 29) (fits_pack (n := 7) (m := 22) (fits_pack (n := 7) (m := 15) (fits_pack (n := 7) (m := 8) (fits_pack (n := 7) (m := 1) (fits_pack (n := 1) (m := 0) fits_zero)))))) : Fits _ 32), hw ▸ pack_mod _ _, by rw [hop]; decide, ?_⟩
    · rw [raw47 hop, ← hw]
      simp (disch := decide) only [fld_pack_lo, fld_pack, Nat.reduceSub]
    · subst hw
      simp (disch := decide) only [fld_pack_lo, fld_pack, Nat.reduceSub])

theorem vfmulH2 (x : BitVec 1) (b : BitVec 7) (a : BitVec 7) (d : BitVec 7) : Statement (.vfmulH2 x b a d) :=
  of_word rfl (fun s => by
    rw [show Instr.word (.vfmulH2 x b a d) s = pack 1 (1#1) (pack 2 s (pack 7 (72#7) (pack 7 d (pack 7 a (pack 7 b (pack 1 x 0)))))) from rfl]
    generalize hw : pack 1 (1#1) (pack 2 s (pack 7 (72#7) (pack 7 d (pack 7 a (pack 7 b (pack 1 x 0)))))) = w
    have hop : sel w 3 7 = 72 := by subst hw; simp (disch := decide) only [sel_pack_lo, sel_pack_in, Nat.reduceSub, BitVec.toNat_ofNat]; try rfl
    refine ⟨?_, hw ▸ (fits_pack (n := 1) (m := 31) (fits_pack (n := 2) (m := 29) (fits_pack (n := 7) (m := 22) (fits_pack (n := 7) (m := 15) (fits_pack (n := 7) (m := 8) (fits_pack (n := 7) (m := 1) (fits_pack (n := 1) (m := 0) fits_zero)))))) : Fits _ 32), hw ▸ pack_mod _ _, by rw [hop]; decide, ?_⟩
    · rw [raw48 hop, ← hw]
      simp (disch := decide) only [fld_pack_lo, fld_pack, Nat.reduceSub]
    · subst hw
      simp (disch := decide) only [fld_pack_lo, fld_pack, Nat.reduceSub])

theorem vfmaH2 (x : BitVec 1) (b : BitVec 7) (a : BitVec 7) (d : BitVec 7) : Statement (.vfmaH2 x b a d) :=
  of_word rfl (fun s => by
    rw [show Instr.word (.vfmaH2 x b a d) s = pack 1 (1#1) (pack 2 s (pack 7 (73#7) (pack 7 d (pack 7 a (pack 7 b (pack 1 x 0)))))) from rfl]
    generalize hw : pack 1 (1#1) (pack 2 s (pack 7 (73#7) (pack 7 d (pack 7 a (pack 7 b (pack 1 x 0)))))) = w
    have hop : sel w 3 7 = 73 := by subst hw; simp (disch := decide) only [sel_pack_lo, sel_pack_in, Nat.reduceSub, BitVec.toNat_ofNat]; try rfl
    refine ⟨?_, hw ▸ (fits_pack (n := 1) (m := 31) (fits_pack (n := 2) (m := 29) (fits_pack (n := 7) (m := 22) (fits_pack (n := 7) (m := 15) (fits_pack (n := 7) (m := 8) (fits_pack (n := 7) (m := 1) (fits_pack (n := 1) (m := 0) fits_zero)))))) : Fits _ 32), hw ▸ pack_mod _ _, by rw [hop]; decide, ?_⟩
    · rw [raw49 hop, ← hw]
      simp (disch := decide) only [fld_pack_lo, fld_pack, Nat.reduceSub]
    · subst hw
      simp (disch := decide) only [fld_pack_lo, fld_pack, Nat.reduceSub])

theorem vfminH2 (x : BitVec 1) (b : BitVec 7) (a : BitVec 7) (d : BitVec 7) : Statement (.vfminH2 x b a d) :=
  of_word rfl (fun s => by
    rw [show Instr.word (.vfminH2 x b a d) s = pack 1 (1#1) (pack 2 s (pack 7 (74#7) (pack 7 d (pack 7 a (pack 7 b (pack 1 x 0)))))) from rfl]
    generalize hw : pack 1 (1#1) (pack 2 s (pack 7 (74#7) (pack 7 d (pack 7 a (pack 7 b (pack 1 x 0)))))) = w
    have hop : sel w 3 7 = 74 := by subst hw; simp (disch := decide) only [sel_pack_lo, sel_pack_in, Nat.reduceSub, BitVec.toNat_ofNat]; try rfl
    refine ⟨?_, hw ▸ (fits_pack (n := 1) (m := 31) (fits_pack (n := 2) (m := 29) (fits_pack (n := 7) (m := 22) (fits_pack (n := 7) (m := 15) (fits_pack (n := 7) (m := 8) (fits_pack (n := 7) (m := 1) (fits_pack (n := 1) (m := 0) fits_zero)))))) : Fits _ 32), hw ▸ pack_mod _ _, by rw [hop]; decide, ?_⟩
    · rw [raw4A hop, ← hw]
      simp (disch := decide) only [fld_pack_lo, fld_pack, Nat.reduceSub]
    · subst hw
      simp (disch := decide) only [fld_pack_lo, fld_pack, Nat.reduceSub])

theorem vfmaxH2 (x : BitVec 1) (b : BitVec 7) (a : BitVec 7) (d : BitVec 7) : Statement (.vfmaxH2 x b a d) :=
  of_word rfl (fun s => by
    rw [show Instr.word (.vfmaxH2 x b a d) s = pack 1 (1#1) (pack 2 s (pack 7 (75#7) (pack 7 d (pack 7 a (pack 7 b (pack 1 x 0)))))) from rfl]
    generalize hw : pack 1 (1#1) (pack 2 s (pack 7 (75#7) (pack 7 d (pack 7 a (pack 7 b (pack 1 x 0)))))) = w
    have hop : sel w 3 7 = 75 := by subst hw; simp (disch := decide) only [sel_pack_lo, sel_pack_in, Nat.reduceSub, BitVec.toNat_ofNat]; try rfl
    refine ⟨?_, hw ▸ (fits_pack (n := 1) (m := 31) (fits_pack (n := 2) (m := 29) (fits_pack (n := 7) (m := 22) (fits_pack (n := 7) (m := 15) (fits_pack (n := 7) (m := 8) (fits_pack (n := 7) (m := 1) (fits_pack (n := 1) (m := 0) fits_zero)))))) : Fits _ 32), hw ▸ pack_mod _ _, by rw [hop]; decide, ?_⟩
    · rw [raw4B hop, ← hw]
      simp (disch := decide) only [fld_pack_lo, fld_pack, Nat.reduceSub]
    · subst hw
      simp (disch := decide) only [fld_pack_lo, fld_pack, Nat.reduceSub])

theorem vfaddB2 (x : BitVec 1) (b : BitVec 7) (a : BitVec 7) (d : BitVec 7) : Statement (.vfaddB2 x b a d) :=
  of_word rfl (fun s => by
    rw [show Instr.word (.vfaddB2 x b a d) s = pack 1 (1#1) (pack 2 s (pack 7 (76#7) (pack 7 d (pack 7 a (pack 7 b (pack 1 x 0)))))) from rfl]
    generalize hw : pack 1 (1#1) (pack 2 s (pack 7 (76#7) (pack 7 d (pack 7 a (pack 7 b (pack 1 x 0)))))) = w
    have hop : sel w 3 7 = 76 := by subst hw; simp (disch := decide) only [sel_pack_lo, sel_pack_in, Nat.reduceSub, BitVec.toNat_ofNat]; try rfl
    refine ⟨?_, hw ▸ (fits_pack (n := 1) (m := 31) (fits_pack (n := 2) (m := 29) (fits_pack (n := 7) (m := 22) (fits_pack (n := 7) (m := 15) (fits_pack (n := 7) (m := 8) (fits_pack (n := 7) (m := 1) (fits_pack (n := 1) (m := 0) fits_zero)))))) : Fits _ 32), hw ▸ pack_mod _ _, by rw [hop]; decide, ?_⟩
    · rw [raw4C hop, ← hw]
      simp (disch := decide) only [fld_pack_lo, fld_pack, Nat.reduceSub]
    · subst hw
      simp (disch := decide) only [fld_pack_lo, fld_pack, Nat.reduceSub])

theorem vfsubB2 (x : BitVec 1) (b : BitVec 7) (a : BitVec 7) (d : BitVec 7) : Statement (.vfsubB2 x b a d) :=
  of_word rfl (fun s => by
    rw [show Instr.word (.vfsubB2 x b a d) s = pack 1 (1#1) (pack 2 s (pack 7 (77#7) (pack 7 d (pack 7 a (pack 7 b (pack 1 x 0)))))) from rfl]
    generalize hw : pack 1 (1#1) (pack 2 s (pack 7 (77#7) (pack 7 d (pack 7 a (pack 7 b (pack 1 x 0)))))) = w
    have hop : sel w 3 7 = 77 := by subst hw; simp (disch := decide) only [sel_pack_lo, sel_pack_in, Nat.reduceSub, BitVec.toNat_ofNat]; try rfl
    refine ⟨?_, hw ▸ (fits_pack (n := 1) (m := 31) (fits_pack (n := 2) (m := 29) (fits_pack (n := 7) (m := 22) (fits_pack (n := 7) (m := 15) (fits_pack (n := 7) (m := 8) (fits_pack (n := 7) (m := 1) (fits_pack (n := 1) (m := 0) fits_zero)))))) : Fits _ 32), hw ▸ pack_mod _ _, by rw [hop]; decide, ?_⟩
    · rw [raw4D hop, ← hw]
      simp (disch := decide) only [fld_pack_lo, fld_pack, Nat.reduceSub]
    · subst hw
      simp (disch := decide) only [fld_pack_lo, fld_pack, Nat.reduceSub])

theorem vfmulB2 (x : BitVec 1) (b : BitVec 7) (a : BitVec 7) (d : BitVec 7) : Statement (.vfmulB2 x b a d) :=
  of_word rfl (fun s => by
    rw [show Instr.word (.vfmulB2 x b a d) s = pack 1 (1#1) (pack 2 s (pack 7 (78#7) (pack 7 d (pack 7 a (pack 7 b (pack 1 x 0)))))) from rfl]
    generalize hw : pack 1 (1#1) (pack 2 s (pack 7 (78#7) (pack 7 d (pack 7 a (pack 7 b (pack 1 x 0)))))) = w
    have hop : sel w 3 7 = 78 := by subst hw; simp (disch := decide) only [sel_pack_lo, sel_pack_in, Nat.reduceSub, BitVec.toNat_ofNat]; try rfl
    refine ⟨?_, hw ▸ (fits_pack (n := 1) (m := 31) (fits_pack (n := 2) (m := 29) (fits_pack (n := 7) (m := 22) (fits_pack (n := 7) (m := 15) (fits_pack (n := 7) (m := 8) (fits_pack (n := 7) (m := 1) (fits_pack (n := 1) (m := 0) fits_zero)))))) : Fits _ 32), hw ▸ pack_mod _ _, by rw [hop]; decide, ?_⟩
    · rw [raw4E hop, ← hw]
      simp (disch := decide) only [fld_pack_lo, fld_pack, Nat.reduceSub]
    · subst hw
      simp (disch := decide) only [fld_pack_lo, fld_pack, Nat.reduceSub])

theorem vfmaB2 (x : BitVec 1) (b : BitVec 7) (a : BitVec 7) (d : BitVec 7) : Statement (.vfmaB2 x b a d) :=
  of_word rfl (fun s => by
    rw [show Instr.word (.vfmaB2 x b a d) s = pack 1 (1#1) (pack 2 s (pack 7 (79#7) (pack 7 d (pack 7 a (pack 7 b (pack 1 x 0)))))) from rfl]
    generalize hw : pack 1 (1#1) (pack 2 s (pack 7 (79#7) (pack 7 d (pack 7 a (pack 7 b (pack 1 x 0)))))) = w
    have hop : sel w 3 7 = 79 := by subst hw; simp (disch := decide) only [sel_pack_lo, sel_pack_in, Nat.reduceSub, BitVec.toNat_ofNat]; try rfl
    refine ⟨?_, hw ▸ (fits_pack (n := 1) (m := 31) (fits_pack (n := 2) (m := 29) (fits_pack (n := 7) (m := 22) (fits_pack (n := 7) (m := 15) (fits_pack (n := 7) (m := 8) (fits_pack (n := 7) (m := 1) (fits_pack (n := 1) (m := 0) fits_zero)))))) : Fits _ 32), hw ▸ pack_mod _ _, by rw [hop]; decide, ?_⟩
    · rw [raw4F hop, ← hw]
      simp (disch := decide) only [fld_pack_lo, fld_pack, Nat.reduceSub]
    · subst hw
      simp (disch := decide) only [fld_pack_lo, fld_pack, Nat.reduceSub])

theorem vfminB2 (x : BitVec 1) (b : BitVec 7) (a : BitVec 7) (d : BitVec 7) : Statement (.vfminB2 x b a d) :=
  of_word rfl (fun s => by
    rw [show Instr.word (.vfminB2 x b a d) s = pack 1 (1#1) (pack 2 s (pack 7 (80#7) (pack 7 d (pack 7 a (pack 7 b (pack 1 x 0)))))) from rfl]
    generalize hw : pack 1 (1#1) (pack 2 s (pack 7 (80#7) (pack 7 d (pack 7 a (pack 7 b (pack 1 x 0)))))) = w
    have hop : sel w 3 7 = 80 := by subst hw; simp (disch := decide) only [sel_pack_lo, sel_pack_in, Nat.reduceSub, BitVec.toNat_ofNat]; try rfl
    refine ⟨?_, hw ▸ (fits_pack (n := 1) (m := 31) (fits_pack (n := 2) (m := 29) (fits_pack (n := 7) (m := 22) (fits_pack (n := 7) (m := 15) (fits_pack (n := 7) (m := 8) (fits_pack (n := 7) (m := 1) (fits_pack (n := 1) (m := 0) fits_zero)))))) : Fits _ 32), hw ▸ pack_mod _ _, by rw [hop]; decide, ?_⟩
    · rw [raw50 hop, ← hw]
      simp (disch := decide) only [fld_pack_lo, fld_pack, Nat.reduceSub]
    · subst hw
      simp (disch := decide) only [fld_pack_lo, fld_pack, Nat.reduceSub])

theorem vfmaxB2 (x : BitVec 1) (b : BitVec 7) (a : BitVec 7) (d : BitVec 7) : Statement (.vfmaxB2 x b a d) :=
  of_word rfl (fun s => by
    rw [show Instr.word (.vfmaxB2 x b a d) s = pack 1 (1#1) (pack 2 s (pack 7 (81#7) (pack 7 d (pack 7 a (pack 7 b (pack 1 x 0)))))) from rfl]
    generalize hw : pack 1 (1#1) (pack 2 s (pack 7 (81#7) (pack 7 d (pack 7 a (pack 7 b (pack 1 x 0)))))) = w
    have hop : sel w 3 7 = 81 := by subst hw; simp (disch := decide) only [sel_pack_lo, sel_pack_in, Nat.reduceSub, BitVec.toNat_ofNat]; try rfl
    refine ⟨?_, hw ▸ (fits_pack (n := 1) (m := 31) (fits_pack (n := 2) (m := 29) (fits_pack (n := 7) (m := 22) (fits_pack (n := 7) (m := 15) (fits_pack (n := 7) (m := 8) (fits_pack (n := 7) (m := 1) (fits_pack (n := 1) (m := 0) fits_zero)))))) : Fits _ 32), hw ▸ pack_mod _ _, by rw [hop]; decide, ?_⟩
    · rw [raw51 hop, ← hw]
      simp (disch := decide) only [fld_pack_lo, fld_pack, Nat.reduceSub]
    · subst hw
      simp (disch := decide) only [fld_pack_lo, fld_pack, Nat.reduceSub])

theorem vfrcp (a : BitVec 7) (d : BitVec 7) : Statement (.vfrcp a d) :=
  of_word rfl (fun s => by
    rw [show Instr.word (.vfrcp a d) s = pack 1 (1#1) (pack 2 s (pack 7 (82#7) (pack 7 d (pack 7 a (pack 8 (0#8) 0))))) from rfl]
    generalize hw : pack 1 (1#1) (pack 2 s (pack 7 (82#7) (pack 7 d (pack 7 a (pack 8 (0#8) 0))))) = w
    have hop : sel w 3 7 = 82 := by subst hw; simp (disch := decide) only [sel_pack_lo, sel_pack_in, Nat.reduceSub, BitVec.toNat_ofNat]; try rfl
    have hk0 : sel w 24 8 = 0 := by subst hw; simp (disch := decide) only [sel_pack_lo, sel_pack_in, Nat.reduceSub, BitVec.toNat_ofNat]; try rfl
    refine ⟨?_, hw ▸ (fits_pack (n := 1) (m := 31) (fits_pack (n := 2) (m := 29) (fits_pack (n := 7) (m := 22) (fits_pack (n := 7) (m := 15) (fits_pack (n := 7) (m := 8) (fits_pack (n := 8) (m := 0) fits_zero))))) : Fits _ 32), hw ▸ pack_mod _ _, by rw [hop]; decide, ?_⟩
    · rw [raw52 hop]
      simp only [decodeOp52, hk0, reduceIte, Nat.reduceEqDiff, OfNat.ofNat_ne_zero, OfNat.zero_ne_ofNat, OfNat.ofNat_ne_one, OfNat.one_ne_ofNat, zero_ne_one, one_ne_zero, true_and, false_and, and_true, and_false]
      subst hw
      simp (disch := decide) only [fld_pack_lo, fld_pack, Nat.reduceSub]
    · subst hw
      simp (disch := decide) only [fld_pack_lo, fld_pack, Nat.reduceSub])

theorem vfrsq (a : BitVec 7) (d : BitVec 7) : Statement (.vfrsq a d) :=
  of_word rfl (fun s => by
    rw [show Instr.word (.vfrsq a d) s = pack 1 (1#1) (pack 2 s (pack 7 (82#7) (pack 7 d (pack 7 a (pack 8 (1#8) 0))))) from rfl]
    generalize hw : pack 1 (1#1) (pack 2 s (pack 7 (82#7) (pack 7 d (pack 7 a (pack 8 (1#8) 0))))) = w
    have hop : sel w 3 7 = 82 := by subst hw; simp (disch := decide) only [sel_pack_lo, sel_pack_in, Nat.reduceSub, BitVec.toNat_ofNat]; try rfl
    have hk0 : sel w 24 8 = 1 := by subst hw; simp (disch := decide) only [sel_pack_lo, sel_pack_in, Nat.reduceSub, BitVec.toNat_ofNat]; try rfl
    refine ⟨?_, hw ▸ (fits_pack (n := 1) (m := 31) (fits_pack (n := 2) (m := 29) (fits_pack (n := 7) (m := 22) (fits_pack (n := 7) (m := 15) (fits_pack (n := 7) (m := 8) (fits_pack (n := 8) (m := 0) fits_zero))))) : Fits _ 32), hw ▸ pack_mod _ _, by rw [hop]; decide, ?_⟩
    · rw [raw52 hop]
      simp only [decodeOp52, hk0, reduceIte, Nat.reduceEqDiff, OfNat.ofNat_ne_zero, OfNat.zero_ne_ofNat, OfNat.ofNat_ne_one, OfNat.one_ne_ofNat, zero_ne_one, one_ne_zero, true_and, false_and, and_true, and_false]
      subst hw
      simp (disch := decide) only [fld_pack_lo, fld_pack, Nat.reduceSub]
    · subst hw
      simp (disch := decide) only [fld_pack_lo, fld_pack, Nat.reduceSub])

theorem vfsqrt (a : BitVec 7) (d : BitVec 7) : Statement (.vfsqrt a d) :=
  of_word rfl (fun s => by
    rw [show Instr.word (.vfsqrt a d) s = pack 1 (1#1) (pack 2 s (pack 7 (82#7) (pack 7 d (pack 7 a (pack 8 (2#8) 0))))) from rfl]
    generalize hw : pack 1 (1#1) (pack 2 s (pack 7 (82#7) (pack 7 d (pack 7 a (pack 8 (2#8) 0))))) = w
    have hop : sel w 3 7 = 82 := by subst hw; simp (disch := decide) only [sel_pack_lo, sel_pack_in, Nat.reduceSub, BitVec.toNat_ofNat]; try rfl
    have hk0 : sel w 24 8 = 2 := by subst hw; simp (disch := decide) only [sel_pack_lo, sel_pack_in, Nat.reduceSub, BitVec.toNat_ofNat]; try rfl
    refine ⟨?_, hw ▸ (fits_pack (n := 1) (m := 31) (fits_pack (n := 2) (m := 29) (fits_pack (n := 7) (m := 22) (fits_pack (n := 7) (m := 15) (fits_pack (n := 7) (m := 8) (fits_pack (n := 8) (m := 0) fits_zero))))) : Fits _ 32), hw ▸ pack_mod _ _, by rw [hop]; decide, ?_⟩
    · rw [raw52 hop]
      simp only [decodeOp52, hk0, reduceIte, Nat.reduceEqDiff, OfNat.ofNat_ne_zero, OfNat.zero_ne_ofNat, OfNat.ofNat_ne_one, OfNat.one_ne_ofNat, zero_ne_one, one_ne_zero, true_and, false_and, and_true, and_false]
      subst hw
      simp (disch := decide) only [fld_pack_lo, fld_pack, Nat.reduceSub]
    · subst hw
      simp (disch := decide) only [fld_pack_lo, fld_pack, Nat.reduceSub])

theorem vfex2 (a : BitVec 7) (d : BitVec 7) : Statement (.vfex2 a d) :=
  of_word rfl (fun s => by
    rw [show Instr.word (.vfex2 a d) s = pack 1 (1#1) (pack 2 s (pack 7 (82#7) (pack 7 d (pack 7 a (pack 8 (3#8) 0))))) from rfl]
    generalize hw : pack 1 (1#1) (pack 2 s (pack 7 (82#7) (pack 7 d (pack 7 a (pack 8 (3#8) 0))))) = w
    have hop : sel w 3 7 = 82 := by subst hw; simp (disch := decide) only [sel_pack_lo, sel_pack_in, Nat.reduceSub, BitVec.toNat_ofNat]; try rfl
    have hk0 : sel w 24 8 = 3 := by subst hw; simp (disch := decide) only [sel_pack_lo, sel_pack_in, Nat.reduceSub, BitVec.toNat_ofNat]; try rfl
    refine ⟨?_, hw ▸ (fits_pack (n := 1) (m := 31) (fits_pack (n := 2) (m := 29) (fits_pack (n := 7) (m := 22) (fits_pack (n := 7) (m := 15) (fits_pack (n := 7) (m := 8) (fits_pack (n := 8) (m := 0) fits_zero))))) : Fits _ 32), hw ▸ pack_mod _ _, by rw [hop]; decide, ?_⟩
    · rw [raw52 hop]
      simp only [decodeOp52, hk0, reduceIte, Nat.reduceEqDiff, OfNat.ofNat_ne_zero, OfNat.zero_ne_ofNat, OfNat.ofNat_ne_one, OfNat.one_ne_ofNat, zero_ne_one, one_ne_zero, true_and, false_and, and_true, and_false]
      subst hw
      simp (disch := decide) only [fld_pack_lo, fld_pack, Nat.reduceSub]
    · subst hw
      simp (disch := decide) only [fld_pack_lo, fld_pack, Nat.reduceSub])

theorem vflg2 (a : BitVec 7) (d : BitVec 7) : Statement (.vflg2 a d) :=
  of_word rfl (fun s => by
    rw [show Instr.word (.vflg2 a d) s = pack 1 (1#1) (pack 2 s (pack 7 (82#7) (pack 7 d (pack 7 a (pack 8 (4#8) 0))))) from rfl]
    generalize hw : pack 1 (1#1) (pack 2 s (pack 7 (82#7) (pack 7 d (pack 7 a (pack 8 (4#8) 0))))) = w
    have hop : sel w 3 7 = 82 := by subst hw; simp (disch := decide) only [sel_pack_lo, sel_pack_in, Nat.reduceSub, BitVec.toNat_ofNat]; try rfl
    have hk0 : sel w 24 8 = 4 := by subst hw; simp (disch := decide) only [sel_pack_lo, sel_pack_in, Nat.reduceSub, BitVec.toNat_ofNat]; try rfl
    refine ⟨?_, hw ▸ (fits_pack (n := 1) (m := 31) (fits_pack (n := 2) (m := 29) (fits_pack (n := 7) (m := 22) (fits_pack (n := 7) (m := 15) (fits_pack (n := 7) (m := 8) (fits_pack (n := 8) (m := 0) fits_zero))))) : Fits _ 32), hw ▸ pack_mod _ _, by rw [hop]; decide, ?_⟩
    · rw [raw52 hop]
      simp only [decodeOp52, hk0, reduceIte, Nat.reduceEqDiff, OfNat.ofNat_ne_zero, OfNat.zero_ne_ofNat, OfNat.ofNat_ne_one, OfNat.one_ne_ofNat, zero_ne_one, one_ne_zero, true_and, false_and, and_true, and_false]
      subst hw
      simp (disch := decide) only [fld_pack_lo, fld_pack, Nat.reduceSub]
    · subst hw
      simp (disch := decide) only [fld_pack_lo, fld_pack, Nat.reduceSub])

theorem vfsin (a : BitVec 7) (d : BitVec 7) : Statement (.vfsin a d) :=
  of_word rfl (fun s => by
    rw [show Instr.word (.vfsin a d) s = pack 1 (1#1) (pack 2 s (pack 7 (82#7) (pack 7 d (pack 7 a (pack 8 (5#8) 0))))) from rfl]
    generalize hw : pack 1 (1#1) (pack 2 s (pack 7 (82#7) (pack 7 d (pack 7 a (pack 8 (5#8) 0))))) = w
    have hop : sel w 3 7 = 82 := by subst hw; simp (disch := decide) only [sel_pack_lo, sel_pack_in, Nat.reduceSub, BitVec.toNat_ofNat]; try rfl
    have hk0 : sel w 24 8 = 5 := by subst hw; simp (disch := decide) only [sel_pack_lo, sel_pack_in, Nat.reduceSub, BitVec.toNat_ofNat]; try rfl
    refine ⟨?_, hw ▸ (fits_pack (n := 1) (m := 31) (fits_pack (n := 2) (m := 29) (fits_pack (n := 7) (m := 22) (fits_pack (n := 7) (m := 15) (fits_pack (n := 7) (m := 8) (fits_pack (n := 8) (m := 0) fits_zero))))) : Fits _ 32), hw ▸ pack_mod _ _, by rw [hop]; decide, ?_⟩
    · rw [raw52 hop]
      simp only [decodeOp52, hk0, reduceIte, Nat.reduceEqDiff, OfNat.ofNat_ne_zero, OfNat.zero_ne_ofNat, OfNat.ofNat_ne_one, OfNat.one_ne_ofNat, zero_ne_one, one_ne_zero, true_and, false_and, and_true, and_false]
      subst hw
      simp (disch := decide) only [fld_pack_lo, fld_pack, Nat.reduceSub]
    · subst hw
      simp (disch := decide) only [fld_pack_lo, fld_pack, Nat.reduceSub])

theorem vfcos (a : BitVec 7) (d : BitVec 7) : Statement (.vfcos a d) :=
  of_word rfl (fun s => by
    rw [show Instr.word (.vfcos a d) s = pack 1 (1#1) (pack 2 s (pack 7 (82#7) (pack 7 d (pack 7 a (pack 8 (6#8) 0))))) from rfl]
    generalize hw : pack 1 (1#1) (pack 2 s (pack 7 (82#7) (pack 7 d (pack 7 a (pack 8 (6#8) 0))))) = w
    have hop : sel w 3 7 = 82 := by subst hw; simp (disch := decide) only [sel_pack_lo, sel_pack_in, Nat.reduceSub, BitVec.toNat_ofNat]; try rfl
    have hk0 : sel w 24 8 = 6 := by subst hw; simp (disch := decide) only [sel_pack_lo, sel_pack_in, Nat.reduceSub, BitVec.toNat_ofNat]; try rfl
    refine ⟨?_, hw ▸ (fits_pack (n := 1) (m := 31) (fits_pack (n := 2) (m := 29) (fits_pack (n := 7) (m := 22) (fits_pack (n := 7) (m := 15) (fits_pack (n := 7) (m := 8) (fits_pack (n := 8) (m := 0) fits_zero))))) : Fits _ 32), hw ▸ pack_mod _ _, by rw [hop]; decide, ?_⟩
    · rw [raw52 hop]
      simp only [decodeOp52, hk0, reduceIte, Nat.reduceEqDiff, OfNat.ofNat_ne_zero, OfNat.zero_ne_ofNat, OfNat.ofNat_ne_one, OfNat.one_ne_ofNat, zero_ne_one, one_ne_zero, true_and, false_and, and_true, and_false]
      subst hw
      simp (disch := decide) only [fld_pack_lo, fld_pack, Nat.reduceSub]
    · subst hw
      simp (disch := decide) only [fld_pack_lo, fld_pack, Nat.reduceSub])

theorem vftanh (a : BitVec 7) (d : BitVec 7) : Statement (.vftanh a d) :=
  of_word rfl (fun s => by
    rw [show Instr.word (.vftanh a d) s = pack 1 (1#1) (pack 2 s (pack 7 (82#7) (pack 7 d (pack 7 a (pack 8 (7#8) 0))))) from rfl]
    generalize hw : pack 1 (1#1) (pack 2 s (pack 7 (82#7) (pack 7 d (pack 7 a (pack 8 (7#8) 0))))) = w
    have hop : sel w 3 7 = 82 := by subst hw; simp (disch := decide) only [sel_pack_lo, sel_pack_in, Nat.reduceSub, BitVec.toNat_ofNat]; try rfl
    have hk0 : sel w 24 8 = 7 := by subst hw; simp (disch := decide) only [sel_pack_lo, sel_pack_in, Nat.reduceSub, BitVec.toNat_ofNat]; try rfl
    refine ⟨?_, hw ▸ (fits_pack (n := 1) (m := 31) (fits_pack (n := 2) (m := 29) (fits_pack (n := 7) (m := 22) (fits_pack (n := 7) (m := 15) (fits_pack (n := 7) (m := 8) (fits_pack (n := 8) (m := 0) fits_zero))))) : Fits _ 32), hw ▸ pack_mod _ _, by rw [hop]; decide, ?_⟩
    · rw [raw52 hop]
      simp only [decodeOp52, hk0, reduceIte, Nat.reduceEqDiff, OfNat.ofNat_ne_zero, OfNat.zero_ne_ofNat, OfNat.ofNat_ne_one, OfNat.one_ne_ofNat, zero_ne_one, one_ne_zero, true_and, false_and, and_true, and_false]
      subst hw
      simp (disch := decide) only [fld_pack_lo, fld_pack, Nat.reduceSub]
    · subst hw
      simp (disch := decide) only [fld_pack_lo, fld_pack, Nat.reduceSub])

theorem vfcls (a : BitVec 7) (d : BitVec 7) : Statement (.vfcls a d) :=
  of_word rfl (fun s => by
    rw [show Instr.word (.vfcls a d) s = pack 1 (1#1) (pack 2 s (pack 7 (82#7) (pack 7 d (pack 7 a (pack 8 (8#8) 0))))) from rfl]
    generalize hw : pack 1 (1#1) (pack 2 s (pack 7 (82#7) (pack 7 d (pack 7 a (pack 8 (8#8) 0))))) = w
    have hop : sel w 3 7 = 82 := by subst hw; simp (disch := decide) only [sel_pack_lo, sel_pack_in, Nat.reduceSub, BitVec.toNat_ofNat]; try rfl
    have hk0 : sel w 24 8 = 8 := by subst hw; simp (disch := decide) only [sel_pack_lo, sel_pack_in, Nat.reduceSub, BitVec.toNat_ofNat]; try rfl
    refine ⟨?_, hw ▸ (fits_pack (n := 1) (m := 31) (fits_pack (n := 2) (m := 29) (fits_pack (n := 7) (m := 22) (fits_pack (n := 7) (m := 15) (fits_pack (n := 7) (m := 8) (fits_pack (n := 8) (m := 0) fits_zero))))) : Fits _ 32), hw ▸ pack_mod _ _, by rw [hop]; decide, ?_⟩
    · rw [raw52 hop]
      simp only [decodeOp52, hk0, reduceIte, Nat.reduceEqDiff, OfNat.ofNat_ne_zero, OfNat.zero_ne_ofNat, OfNat.ofNat_ne_one, OfNat.one_ne_ofNat, zero_ne_one, one_ne_zero, true_and, false_and, and_true, and_false]
      subst hw
      simp (disch := decide) only [fld_pack_lo, fld_pack, Nat.reduceSub]
    · subst hw
      simp (disch := decide) only [fld_pack_lo, fld_pack, Nat.reduceSub])

theorem vlaneid (d : BitVec 7) : Statement (.vlaneid d) :=
  of_word rfl (fun s => by
    rw [show Instr.word (.vlaneid d) s = pack 1 (1#1) (pack 2 s (pack 7 (82#7) (pack 7 d (pack 15 (1152#15) 0)))) from rfl]
    generalize hw : pack 1 (1#1) (pack 2 s (pack 7 (82#7) (pack 7 d (pack 15 (1152#15) 0)))) = w
    have hop : sel w 3 7 = 82 := by subst hw; simp (disch := decide) only [sel_pack_lo, sel_pack_in, Nat.reduceSub, BitVec.toNat_ofNat]; try rfl
    have hk0 : sel w 24 8 = 9 := by subst hw; simp (disch := decide) only [sel_pack_lo, sel_pack_in, Nat.reduceSub, BitVec.toNat_ofNat]; try rfl
    have hk1 : sel w 17 15 = 1152 := by subst hw; simp (disch := decide) only [sel_pack_lo, sel_pack_in, Nat.reduceSub, BitVec.toNat_ofNat]; try rfl
    refine ⟨?_, hw ▸ (fits_pack (n := 1) (m := 31) (fits_pack (n := 2) (m := 29) (fits_pack (n := 7) (m := 22) (fits_pack (n := 7) (m := 15) (fits_pack (n := 15) (m := 0) fits_zero)))) : Fits _ 32), hw ▸ pack_mod _ _, by rw [hop]; decide, ?_⟩
    · rw [raw52 hop]
      simp only [decodeOp52, hk0, hk1, reduceIte, Nat.reduceEqDiff, OfNat.ofNat_ne_zero, OfNat.zero_ne_ofNat, OfNat.ofNat_ne_one, OfNat.one_ne_ofNat, zero_ne_one, one_ne_zero, true_and, false_and, and_true, and_false]
      subst hw
      simp (disch := decide) only [fld_pack_lo, fld_pack, Nat.reduceSub]
    · subst hw
      simp (disch := decide) only [fld_pack_lo, fld_pack, Nat.reduceSub])

theorem vtid (d : BitVec 7) : Statement (.vtid d) :=
  of_word rfl (fun s => by
    rw [show Instr.word (.vtid d) s = pack 1 (1#1) (pack 2 s (pack 7 (82#7) (pack 7 d (pack 15 (1280#15) 0)))) from rfl]
    generalize hw : pack 1 (1#1) (pack 2 s (pack 7 (82#7) (pack 7 d (pack 15 (1280#15) 0)))) = w
    have hop : sel w 3 7 = 82 := by subst hw; simp (disch := decide) only [sel_pack_lo, sel_pack_in, Nat.reduceSub, BitVec.toNat_ofNat]; try rfl
    have hk0 : sel w 24 8 = 10 := by subst hw; simp (disch := decide) only [sel_pack_lo, sel_pack_in, Nat.reduceSub, BitVec.toNat_ofNat]; try rfl
    have hk1 : sel w 17 15 = 1280 := by subst hw; simp (disch := decide) only [sel_pack_lo, sel_pack_in, Nat.reduceSub, BitVec.toNat_ofNat]; try rfl
    refine ⟨?_, hw ▸ (fits_pack (n := 1) (m := 31) (fits_pack (n := 2) (m := 29) (fits_pack (n := 7) (m := 22) (fits_pack (n := 7) (m := 15) (fits_pack (n := 15) (m := 0) fits_zero)))) : Fits _ 32), hw ▸ pack_mod _ _, by rw [hop]; decide, ?_⟩
    · rw [raw52 hop]
      simp only [decodeOp52, hk0, hk1, reduceIte, Nat.reduceEqDiff, OfNat.ofNat_ne_zero, OfNat.zero_ne_ofNat, OfNat.ofNat_ne_one, OfNat.one_ne_ofNat, zero_ne_one, one_ne_zero, true_and, false_and, and_true, and_false]
      subst hw
      simp (disch := decide) only [fld_pack_lo, fld_pack, Nat.reduceSub]
    · subst hw
      simp (disch := decide) only [fld_pack_lo, fld_pack, Nat.reduceSub])

theorem vfcmp (x : BitVec 1) (b : BitVec 7) (a : BitVec 7) (c : BitVec 4) (p : BitVec 3) : Statement (.vfcmp x b a c p) :=
  of_word rfl (fun s => by
    rw [show Instr.word (.vfcmp x b a c p) s = pack 1 (1#1) (pack 2 s (pack 7 (83#7) (pack 3 p (pack 4 c (pack 7 a (pack 7 b (pack 1 x 0))))))) from rfl]
    generalize hw : pack 1 (1#1) (pack 2 s (pack 7 (83#7) (pack 3 p (pack 4 c (pack 7 a (pack 7 b (pack 1 x 0))))))) = w
    have hop : sel w 3 7 = 83 := by subst hw; simp (disch := decide) only [sel_pack_lo, sel_pack_in, Nat.reduceSub, BitVec.toNat_ofNat]; try rfl
    refine ⟨?_, hw ▸ (fits_pack (n := 1) (m := 31) (fits_pack (n := 2) (m := 29) (fits_pack (n := 7) (m := 22) (fits_pack (n := 3) (m := 19) (fits_pack (n := 4) (m := 15) (fits_pack (n := 7) (m := 8) (fits_pack (n := 7) (m := 1) (fits_pack (n := 1) (m := 0) fits_zero))))))) : Fits _ 32), hw ▸ pack_mod _ _, by rw [hop]; decide, ?_⟩
    · rw [raw53 hop, ← hw]
      simp (disch := decide) only [fld_pack_lo, fld_pack, Nat.reduceSub]
    · subst hw
      simp (disch := decide) only [fld_pack_lo, fld_pack, Nat.reduceSub])

theorem vcvt (f : BitVec 4) (g : BitVec 4) (a : BitVec 7) (d : BitVec 7) : Statement (.vcvt f g a d) :=
  of_word rfl (fun s => by
    rw [show Instr.word (.vcvt f g a d) s = pack 1 (1#1) (pack 2 s (pack 7 (84#7) (pack 7 d (pack 7 a (pack 4 g (pack 4 f 0)))))) from rfl]
    generalize hw : pack 1 (1#1) (pack 2 s (pack 7 (84#7) (pack 7 d (pack 7 a (pack 4 g (pack 4 f 0)))))) = w
    have hop : sel w 3 7 = 84 := by subst hw; simp (disch := decide) only [sel_pack_lo, sel_pack_in, Nat.reduceSub, BitVec.toNat_ofNat]; try rfl
    refine ⟨?_, hw ▸ (fits_pack (n := 1) (m := 31) (fits_pack (n := 2) (m := 29) (fits_pack (n := 7) (m := 22) (fits_pack (n := 7) (m := 15) (fits_pack (n := 7) (m := 8) (fits_pack (n := 4) (m := 4) (fits_pack (n := 4) (m := 0) fits_zero)))))) : Fits _ 32), hw ▸ pack_mod _ _, by rw [hop]; decide, ?_⟩
    · rw [raw54 hop, ← hw]
      simp (disch := decide) only [fld_pack_lo, fld_pack, Nat.reduceSub]
    · subst hw
      simp (disch := decide) only [fld_pack_lo, fld_pack, Nat.reduceSub])

theorem vpackI8x4 (a : BitVec 7) (d : BitVec 7) : Statement (.vpackI8x4 a d) :=
  of_word rfl (fun s => by
    rw [show Instr.word (.vpackI8x4 a d) s = pack 1 (1#1) (pack 2 s (pack 7 (85#7) (pack 7 d (pack 7 a (pack 8 (0#8) 0))))) from rfl]
    generalize hw : pack 1 (1#1) (pack 2 s (pack 7 (85#7) (pack 7 d (pack 7 a (pack 8 (0#8) 0))))) = w
    have hop : sel w 3 7 = 85 := by subst hw; simp (disch := decide) only [sel_pack_lo, sel_pack_in, Nat.reduceSub, BitVec.toNat_ofNat]; try rfl
    have hk0 : sel w 24 8 = 0 := by subst hw; simp (disch := decide) only [sel_pack_lo, sel_pack_in, Nat.reduceSub, BitVec.toNat_ofNat]; try rfl
    refine ⟨?_, hw ▸ (fits_pack (n := 1) (m := 31) (fits_pack (n := 2) (m := 29) (fits_pack (n := 7) (m := 22) (fits_pack (n := 7) (m := 15) (fits_pack (n := 7) (m := 8) (fits_pack (n := 8) (m := 0) fits_zero))))) : Fits _ 32), hw ▸ pack_mod _ _, by rw [hop]; decide, ?_⟩
    · rw [raw55 hop]
      simp only [decodeOp55, hk0, reduceIte, Nat.reduceEqDiff, OfNat.ofNat_ne_zero, OfNat.zero_ne_ofNat, OfNat.ofNat_ne_one, OfNat.one_ne_ofNat, zero_ne_one, one_ne_zero, true_and, false_and, and_true, and_false]
      subst hw
      simp (disch := decide) only [fld_pack_lo, fld_pack, Nat.reduceSub]
    · subst hw
      simp (disch := decide) only [fld_pack_lo, fld_pack, Nat.reduceSub])

theorem vpackTer16 (a : BitVec 7) (d : BitVec 7) : Statement (.vpackTer16 a d) :=
  of_word rfl (fun s => by
    rw [show Instr.word (.vpackTer16 a d) s = pack 1 (1#1) (pack 2 s (pack 7 (85#7) (pack 7 d (pack 7 a (pack 8 (1#8) 0))))) from rfl]
    generalize hw : pack 1 (1#1) (pack 2 s (pack 7 (85#7) (pack 7 d (pack 7 a (pack 8 (1#8) 0))))) = w
    have hop : sel w 3 7 = 85 := by subst hw; simp (disch := decide) only [sel_pack_lo, sel_pack_in, Nat.reduceSub, BitVec.toNat_ofNat]; try rfl
    have hk0 : sel w 24 8 = 1 := by subst hw; simp (disch := decide) only [sel_pack_lo, sel_pack_in, Nat.reduceSub, BitVec.toNat_ofNat]; try rfl
    refine ⟨?_, hw ▸ (fits_pack (n := 1) (m := 31) (fits_pack (n := 2) (m := 29) (fits_pack (n := 7) (m := 22) (fits_pack (n := 7) (m := 15) (fits_pack (n := 7) (m := 8) (fits_pack (n := 8) (m := 0) fits_zero))))) : Fits _ 32), hw ▸ pack_mod _ _, by rw [hop]; decide, ?_⟩
    · rw [raw55 hop]
      simp only [decodeOp55, hk0, reduceIte, Nat.reduceEqDiff, OfNat.ofNat_ne_zero, OfNat.zero_ne_ofNat, OfNat.ofNat_ne_one, OfNat.one_ne_ofNat, zero_ne_one, one_ne_zero, true_and, false_and, and_true, and_false]
      subst hw
      simp (disch := decide) only [fld_pack_lo, fld_pack, Nat.reduceSub]
    · subst hw
      simp (disch := decide) only [fld_pack_lo, fld_pack, Nat.reduceSub])

theorem vpackE8m0 (a : BitVec 7) (d : BitVec 7) : Statement (.vpackE8m0 a d) :=
  of_word rfl (fun s => by
    rw [show Instr.word (.vpackE8m0 a d) s = pack 1 (1#1) (pack 2 s (pack 7 (85#7) (pack 7 d (pack 7 a (pack 8 (2#8) 0))))) from rfl]
    generalize hw : pack 1 (1#1) (pack 2 s (pack 7 (85#7) (pack 7 d (pack 7 a (pack 8 (2#8) 0))))) = w
    have hop : sel w 3 7 = 85 := by subst hw; simp (disch := decide) only [sel_pack_lo, sel_pack_in, Nat.reduceSub, BitVec.toNat_ofNat]; try rfl
    have hk0 : sel w 24 8 = 2 := by subst hw; simp (disch := decide) only [sel_pack_lo, sel_pack_in, Nat.reduceSub, BitVec.toNat_ofNat]; try rfl
    refine ⟨?_, hw ▸ (fits_pack (n := 1) (m := 31) (fits_pack (n := 2) (m := 29) (fits_pack (n := 7) (m := 22) (fits_pack (n := 7) (m := 15) (fits_pack (n := 7) (m := 8) (fits_pack (n := 8) (m := 0) fits_zero))))) : Fits _ 32), hw ▸ pack_mod _ _, by rw [hop]; decide, ?_⟩
    · rw [raw55 hop]
      simp only [decodeOp55, hk0, reduceIte, Nat.reduceEqDiff, OfNat.ofNat_ne_zero, OfNat.zero_ne_ofNat, OfNat.ofNat_ne_one, OfNat.one_ne_ofNat, zero_ne_one, one_ne_zero, true_and, false_and, and_true, and_false]
      subst hw
      simp (disch := decide) only [fld_pack_lo, fld_pack, Nat.reduceSub]
    · subst hw
      simp (disch := decide) only [fld_pack_lo, fld_pack, Nat.reduceSub])

theorem vqx (q : BitVec 4) (a : BitVec 7) (d : BitVec 7) : Statement (.vqx q a d) :=
  of_word rfl (fun s => by
    rw [show Instr.word (.vqx q a d) s = pack 1 (1#1) (pack 2 s (pack 7 (86#7) (pack 7 d (pack 7 a (pack 4 q (pack 4 (0#4) 0)))))) from rfl]
    generalize hw : pack 1 (1#1) (pack 2 s (pack 7 (86#7) (pack 7 d (pack 7 a (pack 4 q (pack 4 (0#4) 0)))))) = w
    have hop : sel w 3 7 = 86 := by subst hw; simp (disch := decide) only [sel_pack_lo, sel_pack_in, Nat.reduceSub, BitVec.toNat_ofNat]; try rfl
    have hk0 : sel w 28 4 = 0 := by subst hw; simp (disch := decide) only [sel_pack_lo, sel_pack_in, Nat.reduceSub, BitVec.toNat_ofNat]; try rfl
    refine ⟨?_, hw ▸ (fits_pack (n := 1) (m := 31) (fits_pack (n := 2) (m := 29) (fits_pack (n := 7) (m := 22) (fits_pack (n := 7) (m := 15) (fits_pack (n := 7) (m := 8) (fits_pack (n := 4) (m := 4) (fits_pack (n := 4) (m := 0) fits_zero)))))) : Fits _ 32), hw ▸ pack_mod _ _, by rw [hop]; decide, ?_⟩
    · rw [raw56 hop]
      simp only [decodeOp56, hk0, reduceIte, Nat.reduceEqDiff, OfNat.ofNat_ne_zero, OfNat.zero_ne_ofNat, OfNat.ofNat_ne_one, OfNat.one_ne_ofNat, zero_ne_one, one_ne_zero, true_and, false_and, and_true, and_false]
      subst hw
      simp (disch := decide) only [fld_pack_lo, fld_pack, Nat.reduceSub]
    · subst hw
      simp (disch := decide) only [fld_pack_lo, fld_pack, Nat.reduceSub])

theorem vshflIdx (x : BitVec 1) (b : BitVec 7) (a : BitVec 7) (d : BitVec 7) : Statement (.vshflIdx x b a d) :=
  of_word rfl (fun s => by
    rw [show Instr.word (.vshflIdx x b a d) s = pack 1 (1#1) (pack 2 s (pack 7 (87#7) (pack 7 d (pack 7 a (pack 7 b (pack 1 x 0)))))) from rfl]
    generalize hw : pack 1 (1#1) (pack 2 s (pack 7 (87#7) (pack 7 d (pack 7 a (pack 7 b (pack 1 x 0)))))) = w
    have hop : sel w 3 7 = 87 := by subst hw; simp (disch := decide) only [sel_pack_lo, sel_pack_in, Nat.reduceSub, BitVec.toNat_ofNat]; try rfl
    refine ⟨?_, hw ▸ (fits_pack (n := 1) (m := 31) (fits_pack (n := 2) (m := 29) (fits_pack (n := 7) (m := 22) (fits_pack (n := 7) (m := 15) (fits_pack (n := 7) (m := 8) (fits_pack (n := 7) (m := 1) (fits_pack (n := 1) (m := 0) fits_zero)))))) : Fits _ 32), hw ▸ pack_mod _ _, by rw [hop]; decide, ?_⟩
    · rw [raw57 hop, ← hw]
      simp (disch := decide) only [fld_pack_lo, fld_pack, Nat.reduceSub]
    · subst hw
      simp (disch := decide) only [fld_pack_lo, fld_pack, Nat.reduceSub])

theorem vshflUp (x : BitVec 1) (b : BitVec 7) (a : BitVec 7) (d : BitVec 7) : Statement (.vshflUp x b a d) :=
  of_word rfl (fun s => by
    rw [show Instr.word (.vshflUp x b a d) s = pack 1 (1#1) (pack 2 s (pack 7 (88#7) (pack 7 d (pack 7 a (pack 7 b (pack 1 x 0)))))) from rfl]
    generalize hw : pack 1 (1#1) (pack 2 s (pack 7 (88#7) (pack 7 d (pack 7 a (pack 7 b (pack 1 x 0)))))) = w
    have hop : sel w 3 7 = 88 := by subst hw; simp (disch := decide) only [sel_pack_lo, sel_pack_in, Nat.reduceSub, BitVec.toNat_ofNat]; try rfl
    refine ⟨?_, hw ▸ (fits_pack (n := 1) (m := 31) (fits_pack (n := 2) (m := 29) (fits_pack (n := 7) (m := 22) (fits_pack (n := 7) (m := 15) (fits_pack (n := 7) (m := 8) (fits_pack (n := 7) (m := 1) (fits_pack (n := 1) (m := 0) fits_zero)))))) : Fits _ 32), hw ▸ pack_mod _ _, by rw [hop]; decide, ?_⟩
    · rw [raw58 hop, ← hw]
      simp (disch := decide) only [fld_pack_lo, fld_pack, Nat.reduceSub]
    · subst hw
      simp (disch := decide) only [fld_pack_lo, fld_pack, Nat.reduceSub])

theorem vshflDn (x : BitVec 1) (b : BitVec 7) (a : BitVec 7) (d : BitVec 7) : Statement (.vshflDn x b a d) :=
  of_word rfl (fun s => by
    rw [show Instr.word (.vshflDn x b a d) s = pack 1 (1#1) (pack 2 s (pack 7 (89#7) (pack 7 d (pack 7 a (pack 7 b (pack 1 x 0)))))) from rfl]
    generalize hw : pack 1 (1#1) (pack 2 s (pack 7 (89#7) (pack 7 d (pack 7 a (pack 7 b (pack 1 x 0)))))) = w
    have hop : sel w 3 7 = 89 := by subst hw; simp (disch := decide) only [sel_pack_lo, sel_pack_in, Nat.reduceSub, BitVec.toNat_ofNat]; try rfl
    refine ⟨?_, hw ▸ (fits_pack (n := 1) (m := 31) (fits_pack (n := 2) (m := 29) (fits_pack (n := 7) (m := 22) (fits_pack (n := 7) (m := 15) (fits_pack (n := 7) (m := 8) (fits_pack (n := 7) (m := 1) (fits_pack (n := 1) (m := 0) fits_zero)))))) : Fits _ 32), hw ▸ pack_mod _ _, by rw [hop]; decide, ?_⟩
    · rw [raw59 hop, ← hw]
      simp (disch := decide) only [fld_pack_lo, fld_pack, Nat.reduceSub]
    · subst hw
      simp (disch := decide) only [fld_pack_lo, fld_pack, Nat.reduceSub])

theorem vshflXor (x : BitVec 1) (b : BitVec 7) (a : BitVec 7) (d : BitVec 7) : Statement (.vshflXor x b a d) :=
  of_word rfl (fun s => by
    rw [show Instr.word (.vshflXor x b a d) s = pack 1 (1#1) (pack 2 s (pack 7 (90#7) (pack 7 d (pack 7 a (pack 7 b (pack 1 x 0)))))) from rfl]
    generalize hw : pack 1 (1#1) (pack 2 s (pack 7 (90#7) (pack 7 d (pack 7 a (pack 7 b (pack 1 x 0)))))) = w
    have hop : sel w 3 7 = 90 := by subst hw; simp (disch := decide) only [sel_pack_lo, sel_pack_in, Nat.reduceSub, BitVec.toNat_ofNat]; try rfl
    refine ⟨?_, hw ▸ (fits_pack (n := 1) (m := 31) (fits_pack (n := 2) (m := 29) (fits_pack (n := 7) (m := 22) (fits_pack (n := 7) (m := 15) (fits_pack (n := 7) (m := 8) (fits_pack (n := 7) (m := 1) (fits_pack (n := 1) (m := 0) fits_zero)))))) : Fits _ 32), hw ▸ pack_mod _ _, by rw [hop]; decide, ?_⟩
    · rw [raw5A hop, ← hw]
      simp (disch := decide) only [fld_pack_lo, fld_pack, Nat.reduceSub]
    · subst hw
      simp (disch := decide) only [fld_pack_lo, fld_pack, Nat.reduceSub])

theorem vred (p : BitVec 2) (r : BitVec 4) (a : BitVec 7) (d : BitVec 7) : Statement (.vred p r a d) :=
  of_word rfl (fun s => by
    rw [show Instr.word (.vred p r a d) s = pack 1 (1#1) (pack 2 s (pack 7 (91#7) (pack 7 d (pack 7 a (pack 4 r (pack 2 p (pack 2 (0#2) 0))))))) from rfl]
    generalize hw : pack 1 (1#1) (pack 2 s (pack 7 (91#7) (pack 7 d (pack 7 a (pack 4 r (pack 2 p (pack 2 (0#2) 0))))))) = w
    have hop : sel w 3 7 = 91 := by subst hw; simp (disch := decide) only [sel_pack_lo, sel_pack_in, Nat.reduceSub, BitVec.toNat_ofNat]; try rfl
    have hk0 : sel w 30 2 = 0 := by subst hw; simp (disch := decide) only [sel_pack_lo, sel_pack_in, Nat.reduceSub, BitVec.toNat_ofNat]; try rfl
    refine ⟨?_, hw ▸ (fits_pack (n := 1) (m := 31) (fits_pack (n := 2) (m := 29) (fits_pack (n := 7) (m := 22) (fits_pack (n := 7) (m := 15) (fits_pack (n := 7) (m := 8) (fits_pack (n := 4) (m := 4) (fits_pack (n := 2) (m := 2) (fits_pack (n := 2) (m := 0) fits_zero))))))) : Fits _ 32), hw ▸ pack_mod _ _, by rw [hop]; decide, ?_⟩
    · rw [raw5B hop]
      simp only [decodeOp5B, hk0, reduceIte, Nat.reduceEqDiff, OfNat.ofNat_ne_zero, OfNat.zero_ne_ofNat, OfNat.ofNat_ne_one, OfNat.one_ne_ofNat, zero_ne_one, one_ne_zero, true_and, false_and, and_true, and_false]
      subst hw
      simp (disch := decide) only [fld_pack_lo, fld_pack, Nat.reduceSub]
    · subst hw
      simp (disch := decide) only [fld_pack_lo, fld_pack, Nat.reduceSub])

theorem vscan (p : BitVec 2) (r : BitVec 4) (a : BitVec 7) (d : BitVec 7) : Statement (.vscan p r a d) :=
  of_word rfl (fun s => by
    rw [show Instr.word (.vscan p r a d) s = pack 1 (1#1) (pack 2 s (pack 7 (92#7) (pack 7 d (pack 7 a (pack 4 r (pack 2 p (pack 2 (0#2) 0))))))) from rfl]
    generalize hw : pack 1 (1#1) (pack 2 s (pack 7 (92#7) (pack 7 d (pack 7 a (pack 4 r (pack 2 p (pack 2 (0#2) 0))))))) = w
    have hop : sel w 3 7 = 92 := by subst hw; simp (disch := decide) only [sel_pack_lo, sel_pack_in, Nat.reduceSub, BitVec.toNat_ofNat]; try rfl
    have hk0 : sel w 30 2 = 0 := by subst hw; simp (disch := decide) only [sel_pack_lo, sel_pack_in, Nat.reduceSub, BitVec.toNat_ofNat]; try rfl
    refine ⟨?_, hw ▸ (fits_pack (n := 1) (m := 31) (fits_pack (n := 2) (m := 29) (fits_pack (n := 7) (m := 22) (fits_pack (n := 7) (m := 15) (fits_pack (n := 7) (m := 8) (fits_pack (n := 4) (m := 4) (fits_pack (n := 2) (m := 2) (fits_pack (n := 2) (m := 0) fits_zero))))))) : Fits _ 32), hw ▸ pack_mod _ _, by rw [hop]; decide, ?_⟩
    · rw [raw5C hop]
      simp only [decodeOp5C, hk0, reduceIte, Nat.reduceEqDiff, OfNat.ofNat_ne_zero, OfNat.zero_ne_ofNat, OfNat.ofNat_ne_one, OfNat.one_ne_ofNat, zero_ne_one, one_ne_zero, true_and, false_and, and_true, and_false]
      subst hw
      simp (disch := decide) only [fld_pack_lo, fld_pack, Nat.reduceSub]
    · subst hw
      simp (disch := decide) only [fld_pack_lo, fld_pack, Nat.reduceSub])

theorem vvoteAny (n : BitVec 1) (p : BitVec 4) (d : BitVec 6) : Statement (.vvoteAny n p d) :=
  of_word rfl (fun s => by
    rw [show Instr.word (.vvoteAny n p d) s = pack 1 (1#1) (pack 2 s (pack 7 (93#7) (pack 6 d (pack 1 (0#1) (pack 4 p (pack 1 n (pack 10 (0#10) 0))))))) from rfl]
    generalize hw : pack 1 (1#1) (pack 2 s (pack 7 (93#7) (pack 6 d (pack 1 (0#1) (pack 4 p (pack 1 n (pack 10 (0#10) 0))))))) = w
    have hop : sel w 3 7 = 93 := by subst hw; simp (disch := decide) only [sel_pack_lo, sel_pack_in, Nat.reduceSub, BitVec.toNat_ofNat]; try rfl
    have hk0 : sel w 16 1 = 0 := by subst hw; simp (disch := decide) only [sel_pack_lo, sel_pack_in, Nat.reduceSub, BitVec.toNat_ofNat]; try rfl
    have hk1 : sel w 22 10 = 0 := by subst hw; simp (disch := decide) only [sel_pack_lo, sel_pack_in, Nat.reduceSub, BitVec.toNat_ofNat]; try rfl
    refine ⟨?_, hw ▸ (fits_pack (n := 1) (m := 31) (fits_pack (n := 2) (m := 29) (fits_pack (n := 7) (m := 22) (fits_pack (n := 6) (m := 16) (fits_pack (n := 1) (m := 15) (fits_pack (n := 4) (m := 11) (fits_pack (n := 1) (m := 10) (fits_pack (n := 10) (m := 0) fits_zero))))))) : Fits _ 32), hw ▸ pack_mod _ _, by rw [hop]; decide, ?_⟩
    · rw [raw5D hop]
      simp only [decodeOp5D, hk0, hk1, reduceIte, Nat.reduceEqDiff, OfNat.ofNat_ne_zero, OfNat.zero_ne_ofNat, OfNat.ofNat_ne_one, OfNat.one_ne_ofNat, zero_ne_one, one_ne_zero, true_and, false_and, and_true, and_false]
      subst hw
      simp (disch := decide) only [fld_pack_lo, fld_pack, Nat.reduceSub]
    · subst hw
      simp (disch := decide) only [fld_pack_lo, fld_pack, Nat.reduceSub])

theorem vvoteAll (n : BitVec 1) (p : BitVec 4) (d : BitVec 6) : Statement (.vvoteAll n p d) :=
  of_word rfl (fun s => by
    rw [show Instr.word (.vvoteAll n p d) s = pack 1 (1#1) (pack 2 s (pack 7 (93#7) (pack 6 d (pack 1 (0#1) (pack 4 p (pack 1 n (pack 10 (1#10) 0))))))) from rfl]
    generalize hw : pack 1 (1#1) (pack 2 s (pack 7 (93#7) (pack 6 d (pack 1 (0#1) (pack 4 p (pack 1 n (pack 10 (1#10) 0))))))) = w
    have hop : sel w 3 7 = 93 := by subst hw; simp (disch := decide) only [sel_pack_lo, sel_pack_in, Nat.reduceSub, BitVec.toNat_ofNat]; try rfl
    have hk0 : sel w 22 10 = 1 := by subst hw; simp (disch := decide) only [sel_pack_lo, sel_pack_in, Nat.reduceSub, BitVec.toNat_ofNat]; try rfl
    have hk1 : sel w 16 1 = 0 := by subst hw; simp (disch := decide) only [sel_pack_lo, sel_pack_in, Nat.reduceSub, BitVec.toNat_ofNat]; try rfl
    refine ⟨?_, hw ▸ (fits_pack (n := 1) (m := 31) (fits_pack (n := 2) (m := 29) (fits_pack (n := 7) (m := 22) (fits_pack (n := 6) (m := 16) (fits_pack (n := 1) (m := 15) (fits_pack (n := 4) (m := 11) (fits_pack (n := 1) (m := 10) (fits_pack (n := 10) (m := 0) fits_zero))))))) : Fits _ 32), hw ▸ pack_mod _ _, by rw [hop]; decide, ?_⟩
    · rw [raw5D hop]
      simp only [decodeOp5D, hk0, hk1, reduceIte, Nat.reduceEqDiff, OfNat.ofNat_ne_zero, OfNat.zero_ne_ofNat, OfNat.ofNat_ne_one, OfNat.one_ne_ofNat, zero_ne_one, one_ne_zero, true_and, false_and, and_true, and_false]
      subst hw
      simp (disch := decide) only [fld_pack_lo, fld_pack, Nat.reduceSub]
    · subst hw
      simp (disch := decide) only [fld_pack_lo, fld_pack, Nat.reduceSub])

theorem vvoteBallot (n : BitVec 1) (p : BitVec 4) (d : BitVec 6) : Statement (.vvoteBallot n p d) :=
  of_word rfl (fun s => by
    rw [show Instr.word (.vvoteBallot n p d) s = pack 1 (1#1) (pack 2 s (pack 7 (93#7) (pack 6 d (pack 1 (0#1) (pack 4 p (pack 1 n (pack 10 (2#10) 0))))))) from rfl]
    generalize hw : pack 1 (1#1) (pack 2 s (pack 7 (93#7) (pack 6 d (pack 1 (0#1) (pack 4 p (pack 1 n (pack 10 (2#10) 0))))))) = w
    have hop : sel w 3 7 = 93 := by subst hw; simp (disch := decide) only [sel_pack_lo, sel_pack_in, Nat.reduceSub, BitVec.toNat_ofNat]; try rfl
    have hk0 : sel w 22 10 = 2 := by subst hw; simp (disch := decide) only [sel_pack_lo, sel_pack_in, Nat.reduceSub, BitVec.toNat_ofNat]; try rfl
    have hk1 : sel w 16 1 = 0 := by subst hw; simp (disch := decide) only [sel_pack_lo, sel_pack_in, Nat.reduceSub, BitVec.toNat_ofNat]; try rfl
    refine ⟨?_, hw ▸ (fits_pack (n := 1) (m := 31) (fits_pack (n := 2) (m := 29) (fits_pack (n := 7) (m := 22) (fits_pack (n := 6) (m := 16) (fits_pack (n := 1) (m := 15) (fits_pack (n := 4) (m := 11) (fits_pack (n := 1) (m := 10) (fits_pack (n := 10) (m := 0) fits_zero))))))) : Fits _ 32), hw ▸ pack_mod _ _, by rw [hop]; decide, ?_⟩
    · rw [raw5D hop]
      simp only [decodeOp5D, hk0, hk1, reduceIte, Nat.reduceEqDiff, OfNat.ofNat_ne_zero, OfNat.zero_ne_ofNat, OfNat.ofNat_ne_one, OfNat.one_ne_ofNat, zero_ne_one, one_ne_zero, true_and, false_and, and_true, and_false]
      subst hw
      simp (disch := decide) only [fld_pack_lo, fld_pack, Nat.reduceSub]
    · subst hw
      simp (disch := decide) only [fld_pack_lo, fld_pack, Nat.reduceSub])

theorem vvotePopc (n : BitVec 1) (p : BitVec 4) (d : BitVec 6) : Statement (.vvotePopc n p d) :=
  of_word rfl (fun s => by
    rw [show Instr.word (.vvotePopc n p d) s = pack 1 (1#1) (pack 2 s (pack 7 (93#7) (pack 6 d (pack 1 (0#1) (pack 4 p (pack 1 n (pack 10 (3#10) 0))))))) from rfl]
    generalize hw : pack 1 (1#1) (pack 2 s (pack 7 (93#7) (pack 6 d (pack 1 (0#1) (pack 4 p (pack 1 n (pack 10 (3#10) 0))))))) = w
    have hop : sel w 3 7 = 93 := by subst hw; simp (disch := decide) only [sel_pack_lo, sel_pack_in, Nat.reduceSub, BitVec.toNat_ofNat]; try rfl
    have hk0 : sel w 22 10 = 3 := by subst hw; simp (disch := decide) only [sel_pack_lo, sel_pack_in, Nat.reduceSub, BitVec.toNat_ofNat]; try rfl
    have hk1 : sel w 16 1 = 0 := by subst hw; simp (disch := decide) only [sel_pack_lo, sel_pack_in, Nat.reduceSub, BitVec.toNat_ofNat]; try rfl
    refine ⟨?_, hw ▸ (fits_pack (n := 1) (m := 31) (fits_pack (n := 2) (m := 29) (fits_pack (n := 7) (m := 22) (fits_pack (n := 6) (m := 16) (fits_pack (n := 1) (m := 15) (fits_pack (n := 4) (m := 11) (fits_pack (n := 1) (m := 10) (fits_pack (n := 10) (m := 0) fits_zero))))))) : Fits _ 32), hw ▸ pack_mod _ _, by rw [hop]; decide, ?_⟩
    · rw [raw5D hop]
      simp only [decodeOp5D, hk0, hk1, reduceIte, Nat.reduceEqDiff, OfNat.ofNat_ne_zero, OfNat.zero_ne_ofNat, OfNat.ofNat_ne_one, OfNat.one_ne_ofNat, zero_ne_one, one_ne_zero, true_and, false_and, and_true, and_false]
      subst hw
      simp (disch := decide) only [fld_pack_lo, fld_pack, Nat.reduceSub]
    · subst hw
      simp (disch := decide) only [fld_pack_lo, fld_pack, Nat.reduceSub])

theorem vpredAnd (b : BitVec 4) (a : BitVec 4) (d : BitVec 3) : Statement (.vpredAnd b a d) :=
  of_word rfl (fun s => by
    rw [show Instr.word (.vpredAnd b a d) s = pack 1 (1#1) (pack 2 s (pack 7 (94#7) (pack 3 d (pack 4 a (pack 4 b (pack 11 (0#11) 0)))))) from rfl]
    generalize hw : pack 1 (1#1) (pack 2 s (pack 7 (94#7) (pack 3 d (pack 4 a (pack 4 b (pack 11 (0#11) 0)))))) = w
    have hop : sel w 3 7 = 94 := by subst hw; simp (disch := decide) only [sel_pack_lo, sel_pack_in, Nat.reduceSub, BitVec.toNat_ofNat]; try rfl
    have hk0 : sel w 21 11 = 0 := by subst hw; simp (disch := decide) only [sel_pack_lo, sel_pack_in, Nat.reduceSub, BitVec.toNat_ofNat]; try rfl
    refine ⟨?_, hw ▸ (fits_pack (n := 1) (m := 31) (fits_pack (n := 2) (m := 29) (fits_pack (n := 7) (m := 22) (fits_pack (n := 3) (m := 19) (fits_pack (n := 4) (m := 15) (fits_pack (n := 4) (m := 11) (fits_pack (n := 11) (m := 0) fits_zero)))))) : Fits _ 32), hw ▸ pack_mod _ _, by rw [hop]; decide, ?_⟩
    · rw [raw5E hop]
      simp only [decodeOp5E, hk0, reduceIte, Nat.reduceEqDiff, OfNat.ofNat_ne_zero, OfNat.zero_ne_ofNat, OfNat.ofNat_ne_one, OfNat.one_ne_ofNat, zero_ne_one, one_ne_zero, true_and, false_and, and_true, and_false]
      subst hw
      simp (disch := decide) only [fld_pack_lo, fld_pack, Nat.reduceSub]
    · subst hw
      simp (disch := decide) only [fld_pack_lo, fld_pack, Nat.reduceSub])

theorem vpredOr (b : BitVec 4) (a : BitVec 4) (d : BitVec 3) : Statement (.vpredOr b a d) :=
  of_word rfl (fun s => by
    rw [show Instr.word (.vpredOr b a d) s = pack 1 (1#1) (pack 2 s (pack 7 (94#7) (pack 3 d (pack 4 a (pack 4 b (pack 11 (1#11) 0)))))) from rfl]
    generalize hw : pack 1 (1#1) (pack 2 s (pack 7 (94#7) (pack 3 d (pack 4 a (pack 4 b (pack 11 (1#11) 0)))))) = w
    have hop : sel w 3 7 = 94 := by subst hw; simp (disch := decide) only [sel_pack_lo, sel_pack_in, Nat.reduceSub, BitVec.toNat_ofNat]; try rfl
    have hk0 : sel w 21 11 = 1 := by subst hw; simp (disch := decide) only [sel_pack_lo, sel_pack_in, Nat.reduceSub, BitVec.toNat_ofNat]; try rfl
    refine ⟨?_, hw ▸ (fits_pack (n := 1) (m := 31) (fits_pack (n := 2) (m := 29) (fits_pack (n := 7) (m := 22) (fits_pack (n := 3) (m := 19) (fits_pack (n := 4) (m := 15) (fits_pack (n := 4) (m := 11) (fits_pack (n := 11) (m := 0) fits_zero)))))) : Fits _ 32), hw ▸ pack_mod _ _, by rw [hop]; decide, ?_⟩
    · rw [raw5E hop]
      simp only [decodeOp5E, hk0, reduceIte, Nat.reduceEqDiff, OfNat.ofNat_ne_zero, OfNat.zero_ne_ofNat, OfNat.ofNat_ne_one, OfNat.one_ne_ofNat, zero_ne_one, one_ne_zero, true_and, false_and, and_true, and_false]
      subst hw
      simp (disch := decide) only [fld_pack_lo, fld_pack, Nat.reduceSub]
    · subst hw
      simp (disch := decide) only [fld_pack_lo, fld_pack, Nat.reduceSub])

theorem vpredXor (b : BitVec 4) (a : BitVec 4) (d : BitVec 3) : Statement (.vpredXor b a d) :=
  of_word rfl (fun s => by
    rw [show Instr.word (.vpredXor b a d) s = pack 1 (1#1) (pack 2 s (pack 7 (94#7) (pack 3 d (pack 4 a (pack 4 b (pack 11 (2#11) 0)))))) from rfl]
    generalize hw : pack 1 (1#1) (pack 2 s (pack 7 (94#7) (pack 3 d (pack 4 a (pack 4 b (pack 11 (2#11) 0)))))) = w
    have hop : sel w 3 7 = 94 := by subst hw; simp (disch := decide) only [sel_pack_lo, sel_pack_in, Nat.reduceSub, BitVec.toNat_ofNat]; try rfl
    have hk0 : sel w 21 11 = 2 := by subst hw; simp (disch := decide) only [sel_pack_lo, sel_pack_in, Nat.reduceSub, BitVec.toNat_ofNat]; try rfl
    refine ⟨?_, hw ▸ (fits_pack (n := 1) (m := 31) (fits_pack (n := 2) (m := 29) (fits_pack (n := 7) (m := 22) (fits_pack (n := 3) (m := 19) (fits_pack (n := 4) (m := 15) (fits_pack (n := 4) (m := 11) (fits_pack (n := 11) (m := 0) fits_zero)))))) : Fits _ 32), hw ▸ pack_mod _ _, by rw [hop]; decide, ?_⟩
    · rw [raw5E hop]
      simp only [decodeOp5E, hk0, reduceIte, Nat.reduceEqDiff, OfNat.ofNat_ne_zero, OfNat.zero_ne_ofNat, OfNat.ofNat_ne_one, OfNat.one_ne_ofNat, zero_ne_one, one_ne_zero, true_and, false_and, and_true, and_false]
      subst hw
      simp (disch := decide) only [fld_pack_lo, fld_pack, Nat.reduceSub]
    · subst hw
      simp (disch := decide) only [fld_pack_lo, fld_pack, Nat.reduceSub])

theorem vpredAndn (b : BitVec 4) (a : BitVec 4) (d : BitVec 3) : Statement (.vpredAndn b a d) :=
  of_word rfl (fun s => by
    rw [show Instr.word (.vpredAndn b a d) s = pack 1 (1#1) (pack 2 s (pack 7 (94#7) (pack 3 d (pack 4 a (pack 4 b (pack 11 (3#11) 0)))))) from rfl]
    generalize hw : pack 1 (1#1) (pack 2 s (pack 7 (94#7) (pack 3 d (pack 4 a (pack 4 b (pack 11 (3#11) 0)))))) = w
    have hop : sel w 3 7 = 94 := by subst hw; simp (disch := decide) only [sel_pack_lo, sel_pack_in, Nat.reduceSub, BitVec.toNat_ofNat]; try rfl
    have hk0 : sel w 21 11 = 3 := by subst hw; simp (disch := decide) only [sel_pack_lo, sel_pack_in, Nat.reduceSub, BitVec.toNat_ofNat]; try rfl
    refine ⟨?_, hw ▸ (fits_pack (n := 1) (m := 31) (fits_pack (n := 2) (m := 29) (fits_pack (n := 7) (m := 22) (fits_pack (n := 3) (m := 19) (fits_pack (n := 4) (m := 15) (fits_pack (n := 4) (m := 11) (fits_pack (n := 11) (m := 0) fits_zero)))))) : Fits _ 32), hw ▸ pack_mod _ _, by rw [hop]; decide, ?_⟩
    · rw [raw5E hop]
      simp only [decodeOp5E, hk0, reduceIte, Nat.reduceEqDiff, OfNat.ofNat_ne_zero, OfNat.zero_ne_ofNat, OfNat.ofNat_ne_one, OfNat.one_ne_ofNat, zero_ne_one, one_ne_zero, true_and, false_and, and_true, and_false]
      subst hw
      simp (disch := decide) only [fld_pack_lo, fld_pack, Nat.reduceSub]
    · subst hw
      simp (disch := decide) only [fld_pack_lo, fld_pack, Nat.reduceSub])

theorem vpredOrn (b : BitVec 4) (a : BitVec 4) (d : BitVec 3) : Statement (.vpredOrn b a d) :=
  of_word rfl (fun s => by
    rw [show Instr.word (.vpredOrn b a d) s = pack 1 (1#1) (pack 2 s (pack 7 (94#7) (pack 3 d (pack 4 a (pack 4 b (pack 11 (4#11) 0)))))) from rfl]
    generalize hw : pack 1 (1#1) (pack 2 s (pack 7 (94#7) (pack 3 d (pack 4 a (pack 4 b (pack 11 (4#11) 0)))))) = w
    have hop : sel w 3 7 = 94 := by subst hw; simp (disch := decide) only [sel_pack_lo, sel_pack_in, Nat.reduceSub, BitVec.toNat_ofNat]; try rfl
    have hk0 : sel w 21 11 = 4 := by subst hw; simp (disch := decide) only [sel_pack_lo, sel_pack_in, Nat.reduceSub, BitVec.toNat_ofNat]; try rfl
    refine ⟨?_, hw ▸ (fits_pack (n := 1) (m := 31) (fits_pack (n := 2) (m := 29) (fits_pack (n := 7) (m := 22) (fits_pack (n := 3) (m := 19) (fits_pack (n := 4) (m := 15) (fits_pack (n := 4) (m := 11) (fits_pack (n := 11) (m := 0) fits_zero)))))) : Fits _ 32), hw ▸ pack_mod _ _, by rw [hop]; decide, ?_⟩
    · rw [raw5E hop]
      simp only [decodeOp5E, hk0, reduceIte, Nat.reduceEqDiff, OfNat.ofNat_ne_zero, OfNat.zero_ne_ofNat, OfNat.ofNat_ne_one, OfNat.one_ne_ofNat, zero_ne_one, one_ne_zero, true_and, false_and, and_true, and_false]
      subst hw
      simp (disch := decide) only [fld_pack_lo, fld_pack, Nat.reduceSub]
    · subst hw
      simp (disch := decide) only [fld_pack_lo, fld_pack, Nat.reduceSub])

theorem vpredNot (a : BitVec 4) (d : BitVec 3) : Statement (.vpredNot a d) :=
  of_word rfl (fun s => by
    rw [show Instr.word (.vpredNot a d) s = pack 1 (1#1) (pack 2 s (pack 7 (94#7) (pack 3 d (pack 4 a (pack 15 (80#15) 0))))) from rfl]
    generalize hw : pack 1 (1#1) (pack 2 s (pack 7 (94#7) (pack 3 d (pack 4 a (pack 15 (80#15) 0))))) = w
    have hop : sel w 3 7 = 94 := by subst hw; simp (disch := decide) only [sel_pack_lo, sel_pack_in, Nat.reduceSub, BitVec.toNat_ofNat]; try rfl
    have hk0 : sel w 21 11 = 5 := by subst hw; simp (disch := decide) only [sel_pack_lo, sel_pack_in, Nat.reduceSub, BitVec.toNat_ofNat]; try rfl
    have hk1 : sel w 17 15 = 80 := by subst hw; simp (disch := decide) only [sel_pack_lo, sel_pack_in, Nat.reduceSub, BitVec.toNat_ofNat]; try rfl
    refine ⟨?_, hw ▸ (fits_pack (n := 1) (m := 31) (fits_pack (n := 2) (m := 29) (fits_pack (n := 7) (m := 22) (fits_pack (n := 3) (m := 19) (fits_pack (n := 4) (m := 15) (fits_pack (n := 15) (m := 0) fits_zero))))) : Fits _ 32), hw ▸ pack_mod _ _, by rw [hop]; decide, ?_⟩
    · rw [raw5E hop]
      simp only [decodeOp5E, hk0, hk1, reduceIte, Nat.reduceEqDiff, OfNat.ofNat_ne_zero, OfNat.zero_ne_ofNat, OfNat.ofNat_ne_one, OfNat.one_ne_ofNat, zero_ne_one, one_ne_zero, true_and, false_and, and_true, and_false]
      subst hw
      simp (disch := decide) only [fld_pack_lo, fld_pack, Nat.reduceSub]
    · subst hw
      simp (disch := decide) only [fld_pack_lo, fld_pack, Nat.reduceSub])

theorem vpredMov (a : BitVec 4) (d : BitVec 3) : Statement (.vpredMov a d) :=
  of_word rfl (fun s => by
    rw [show Instr.word (.vpredMov a d) s = pack 1 (1#1) (pack 2 s (pack 7 (94#7) (pack 3 d (pack 4 a (pack 15 (96#15) 0))))) from rfl]
    generalize hw : pack 1 (1#1) (pack 2 s (pack 7 (94#7) (pack 3 d (pack 4 a (pack 15 (96#15) 0))))) = w
    have hop : sel w 3 7 = 94 := by subst hw; simp (disch := decide) only [sel_pack_lo, sel_pack_in, Nat.reduceSub, BitVec.toNat_ofNat]; try rfl
    have hk0 : sel w 21 11 = 6 := by subst hw; simp (disch := decide) only [sel_pack_lo, sel_pack_in, Nat.reduceSub, BitVec.toNat_ofNat]; try rfl
    have hk1 : sel w 17 15 = 96 := by subst hw; simp (disch := decide) only [sel_pack_lo, sel_pack_in, Nat.reduceSub, BitVec.toNat_ofNat]; try rfl
    refine ⟨?_, hw ▸ (fits_pack (n := 1) (m := 31) (fits_pack (n := 2) (m := 29) (fits_pack (n := 7) (m := 22) (fits_pack (n := 3) (m := 19) (fits_pack (n := 4) (m := 15) (fits_pack (n := 15) (m := 0) fits_zero))))) : Fits _ 32), hw ▸ pack_mod _ _, by rw [hop]; decide, ?_⟩
    · rw [raw5E hop]
      simp only [decodeOp5E, hk0, hk1, reduceIte, Nat.reduceEqDiff, OfNat.ofNat_ne_zero, OfNat.zero_ne_ofNat, OfNat.ofNat_ne_one, OfNat.one_ne_ofNat, zero_ne_one, one_ne_zero, true_and, false_and, and_true, and_false]
      subst hw
      simp (disch := decide) only [fld_pack_lo, fld_pack, Nat.reduceSub]
    · subst hw
      simp (disch := decide) only [fld_pack_lo, fld_pack, Nat.reduceSub])

theorem vpredFromv (v : BitVec 7) (d : BitVec 3) : Statement (.vpredFromv v d) :=
  of_word rfl (fun s => by
    rw [show Instr.word (.vpredFromv v d) s = pack 1 (1#1) (pack 2 s (pack 7 (94#7) (pack 3 d (pack 11 (1792#11) (pack 7 v (pack 1 (0#1) 0)))))) from rfl]
    generalize hw : pack 1 (1#1) (pack 2 s (pack 7 (94#7) (pack 3 d (pack 11 (1792#11) (pack 7 v (pack 1 (0#1) 0)))))) = w
    have hop : sel w 3 7 = 94 := by subst hw; simp (disch := decide) only [sel_pack_lo, sel_pack_in, Nat.reduceSub, BitVec.toNat_ofNat]; try rfl
    have hk0 : sel w 21 3 = 7 := by subst hw; simp (disch := decide) only [sel_pack_lo, sel_pack_in, Nat.reduceSub, BitVec.toNat_ofNat]; try rfl
    have hn0 : ¬ sel w 21 11 = 0 := sel_ne 21 11 0 3 (by rw [hk0]; decide)
    have hn1 : ¬ sel w 21 11 = 1 := sel_ne 21 11 0 3 (by rw [hk0]; decide)
    have hn2 : ¬ sel w 21 11 = 2 := sel_ne 21 11 0 3 (by rw [hk0]; decide)
    have hn3 : ¬ sel w 21 11 = 3 := sel_ne 21 11 0 3 (by rw [hk0]; decide)
    have hn4 : ¬ sel w 21 11 = 4 := sel_ne 21 11 0 3 (by rw [hk0]; decide)
    have hk1 : sel w 17 7 = 112 := by subst hw; simp (disch := decide) only [sel_pack_lo, sel_pack_in, Nat.reduceSub, BitVec.toNat_ofNat]; try rfl
    have hn5 : ¬ sel w 17 15 = 80 := sel_ne 17 15 0 7 (by rw [hk1]; decide)
    have hn6 : ¬ sel w 17 15 = 96 := sel_ne 17 15 0 7 (by rw [hk1]; decide)
    have hk2 : sel w 13 11 = 1792 := by subst hw; simp (disch := decide) only [sel_pack_lo, sel_pack_in, Nat.reduceSub, BitVec.toNat_ofNat]; try rfl
    have hk3 : sel w 31 1 = 0 := by subst hw; simp (disch := decide) only [sel_pack_lo, sel_pack_in, Nat.reduceSub, BitVec.toNat_ofNat]; try rfl
    refine ⟨?_, hw ▸ (fits_pack (n := 1) (m := 31) (fits_pack (n := 2) (m := 29) (fits_pack (n := 7) (m := 22) (fits_pack (n := 3) (m := 19) (fits_pack (n := 11) (m := 8) (fits_pack (n := 7) (m := 1) (fits_pack (n := 1) (m := 0) fits_zero)))))) : Fits _ 32), hw ▸ pack_mod _ _, by rw [hop]; decide, ?_⟩
    · rw [raw5E hop]
      simp only [decodeOp5E, hk0, hn0, hn1, hn2, hn3, hn4, hk1, hn5, hn6, hk2, hk3, reduceIte, Nat.reduceEqDiff, OfNat.ofNat_ne_zero, OfNat.zero_ne_ofNat, OfNat.ofNat_ne_one, OfNat.one_ne_ofNat, zero_ne_one, one_ne_zero, true_and, false_and, and_true, and_false]
      subst hw
      simp (disch := decide) only [fld_pack_lo, fld_pack, Nat.reduceSub]
    · subst hw
      simp (disch := decide) only [fld_pack_lo, fld_pack, Nat.reduceSub])

theorem vflgRd (m : BitVec 6) (d : BitVec 7) : Statement (.vflgRd m d) :=
  of_word rfl (fun s => by
    rw [show Instr.word (.vflgRd m d) s = pack 1 (1#1) (pack 2 s (pack 7 (95#7) (pack 7 d (pack 2 (0#2) (pack 6 m (pack 7 (0#7) 0)))))) from rfl]
    generalize hw : pack 1 (1#1) (pack 2 s (pack 7 (95#7) (pack 7 d (pack 2 (0#2) (pack 6 m (pack 7 (0#7) 0)))))) = w
    have hop : sel w 3 7 = 95 := by subst hw; simp (disch := decide) only [sel_pack_lo, sel_pack_in, Nat.reduceSub, BitVec.toNat_ofNat]; try rfl
    have hk0 : sel w 17 2 = 0 := by subst hw; simp (disch := decide) only [sel_pack_lo, sel_pack_in, Nat.reduceSub, BitVec.toNat_ofNat]; try rfl
    have hk1 : sel w 25 7 = 0 := by subst hw; simp (disch := decide) only [sel_pack_lo, sel_pack_in, Nat.reduceSub, BitVec.toNat_ofNat]; try rfl
    refine ⟨?_, hw ▸ (fits_pack (n := 1) (m := 31) (fits_pack (n := 2) (m := 29) (fits_pack (n := 7) (m := 22) (fits_pack (n := 7) (m := 15) (fits_pack (n := 2) (m := 13) (fits_pack (n := 6) (m := 7) (fits_pack (n := 7) (m := 0) fits_zero)))))) : Fits _ 32), hw ▸ pack_mod _ _, by rw [hop]; decide, ?_⟩
    · rw [raw5F hop]
      simp only [decodeOp5F, hk0, hk1, reduceIte, Nat.reduceEqDiff, OfNat.ofNat_ne_zero, OfNat.zero_ne_ofNat, OfNat.ofNat_ne_one, OfNat.one_ne_ofNat, zero_ne_one, one_ne_zero, true_and, false_and, and_true, and_false]
      subst hw
      simp (disch := decide) only [fld_pack_lo, fld_pack, Nat.reduceSub]
    · subst hw
      simp (disch := decide) only [fld_pack_lo, fld_pack, Nat.reduceSub])

theorem vflgClr (m : BitVec 6) : Statement (.vflgClr m) :=
  of_word rfl (fun s => by
    rw [show Instr.word (.vflgClr m) s = pack 1 (1#1) (pack 2 s (pack 16 (16479#16) (pack 6 m (pack 7 (0#7) 0)))) from rfl]
    generalize hw : pack 1 (1#1) (pack 2 s (pack 16 (16479#16) (pack 6 m (pack 7 (0#7) 0)))) = w
    have hop : sel w 3 7 = 95 := by subst hw; simp (disch := decide) only [sel_pack_lo, sel_pack_in, Nat.reduceSub, BitVec.toNat_ofNat]; try rfl
    have hk0 : sel w 17 2 = 1 := by subst hw; simp (disch := decide) only [sel_pack_lo, sel_pack_in, Nat.reduceSub, BitVec.toNat_ofNat]; try rfl
    have hk1 : sel w 10 9 = 128 := by subst hw; simp (disch := decide) only [sel_pack_lo, sel_pack_in, Nat.reduceSub, BitVec.toNat_ofNat]; try rfl
    have hk2 : sel w 25 7 = 0 := by subst hw; simp (disch := decide) only [sel_pack_lo, sel_pack_in, Nat.reduceSub, BitVec.toNat_ofNat]; try rfl
    refine ⟨?_, hw ▸ (fits_pack (n := 1) (m := 31) (fits_pack (n := 2) (m := 29) (fits_pack (n := 16) (m := 13) (fits_pack (n := 6) (m := 7) (fits_pack (n := 7) (m := 0) fits_zero)))) : Fits _ 32), hw ▸ pack_mod _ _, by rw [hop]; decide, ?_⟩
    · rw [raw5F hop]
      simp only [decodeOp5F, hk0, hk1, hk2, reduceIte, Nat.reduceEqDiff, OfNat.ofNat_ne_zero, OfNat.zero_ne_ofNat, OfNat.ofNat_ne_one, OfNat.one_ne_ofNat, zero_ne_one, one_ne_zero, true_and, false_and, and_true, and_false]
      subst hw
      simp (disch := decide) only [fld_pack_lo, fld_pack, Nat.reduceSub]
    · subst hw
      simp (disch := decide) only [fld_pack_lo, fld_pack, Nat.reduceSub])

theorem vflgRdclr (m : BitVec 6) (d : BitVec 7) : Statement (.vflgRdclr m d) :=
  of_word rfl (fun s => by
    rw [show Instr.word (.vflgRdclr m d) s = pack 1 (1#1) (pack 2 s (pack 7 (95#7) (pack 7 d (pack 2 (2#2) (pack 6 m (pack 7 (0#7) 0)))))) from rfl]
    generalize hw : pack 1 (1#1) (pack 2 s (pack 7 (95#7) (pack 7 d (pack 2 (2#2) (pack 6 m (pack 7 (0#7) 0)))))) = w
    have hop : sel w 3 7 = 95 := by subst hw; simp (disch := decide) only [sel_pack_lo, sel_pack_in, Nat.reduceSub, BitVec.toNat_ofNat]; try rfl
    have hk0 : sel w 17 2 = 2 := by subst hw; simp (disch := decide) only [sel_pack_lo, sel_pack_in, Nat.reduceSub, BitVec.toNat_ofNat]; try rfl
    have hn0 : ¬ sel w 10 9 = 128 := sel_ne 10 9 7 2 (by rw [hk0]; decide)
    have hk1 : sel w 25 7 = 0 := by subst hw; simp (disch := decide) only [sel_pack_lo, sel_pack_in, Nat.reduceSub, BitVec.toNat_ofNat]; try rfl
    refine ⟨?_, hw ▸ (fits_pack (n := 1) (m := 31) (fits_pack (n := 2) (m := 29) (fits_pack (n := 7) (m := 22) (fits_pack (n := 7) (m := 15) (fits_pack (n := 2) (m := 13) (fits_pack (n := 6) (m := 7) (fits_pack (n := 7) (m := 0) fits_zero)))))) : Fits _ 32), hw ▸ pack_mod _ _, by rw [hop]; decide, ?_⟩
    · rw [raw5F hop]
      simp only [decodeOp5F, hk0, hn0, hk1, reduceIte, Nat.reduceEqDiff, OfNat.ofNat_ne_zero, OfNat.zero_ne_ofNat, OfNat.ofNat_ne_one, OfNat.one_ne_ofNat, zero_ne_one, one_ne_zero, true_and, false_and, and_true, and_false]
      subst hw
      simp (disch := decide) only [fld_pack_lo, fld_pack, Nat.reduceSub]
    · subst hw
      simp (disch := decide) only [fld_pack_lo, fld_pack, Nat.reduceSub])

theorem ldS8 (g : BitVec 2) (x : BitVec 7) (b : BitVec 6) (t : BitVec 7) : Statement (.ldS8 g x b t) :=
  of_word rfl (fun s => by
    rw [show Instr.word (.ldS8 g x b t) s = pack 1 (1#1) (pack 2 s (pack 7 (96#7) (pack 7 t (pack 6 b (pack 7 x (pack 2 g 0)))))) from rfl]
    generalize hw : pack 1 (1#1) (pack 2 s (pack 7 (96#7) (pack 7 t (pack 6 b (pack 7 x (pack 2 g 0)))))) = w
    have hop : sel w 3 7 = 96 := by subst hw; simp (disch := decide) only [sel_pack_lo, sel_pack_in, Nat.reduceSub, BitVec.toNat_ofNat]; try rfl
    refine ⟨?_, hw ▸ (fits_pack (n := 1) (m := 31) (fits_pack (n := 2) (m := 29) (fits_pack (n := 7) (m := 22) (fits_pack (n := 7) (m := 15) (fits_pack (n := 6) (m := 9) (fits_pack (n := 7) (m := 2) (fits_pack (n := 2) (m := 0) fits_zero)))))) : Fits _ 32), hw ▸ pack_mod _ _, by rw [hop]; decide, ?_⟩
    · rw [raw60 hop, ← hw]
      simp (disch := decide) only [fld_pack_lo, fld_pack, Nat.reduceSub]
    · subst hw
      simp (disch := decide) only [fld_pack_lo, fld_pack, Nat.reduceSub])

theorem ldZ8 (g : BitVec 2) (x : BitVec 7) (b : BitVec 6) (t : BitVec 7) : Statement (.ldZ8 g x b t) :=
  of_word rfl (fun s => by
    rw [show Instr.word (.ldZ8 g x b t) s = pack 1 (1#1) (pack 2 s (pack 7 (97#7) (pack 7 t (pack 6 b (pack 7 x (pack 2 g 0)))))) from rfl]
    generalize hw : pack 1 (1#1) (pack 2 s (pack 7 (97#7) (pack 7 t (pack 6 b (pack 7 x (pack 2 g 0)))))) = w
    have hop : sel w 3 7 = 97 := by subst hw; simp (disch := decide) only [sel_pack_lo, sel_pack_in, Nat.reduceSub, BitVec.toNat_ofNat]; try rfl
    refine ⟨?_, hw ▸ (fits_pack (n := 1) (m := 31) (fits_pack (n := 2) (m := 29) (fits_pack (n := 7) (m := 22) (fits_pack (n := 7) (m := 15) (fits_pack (n := 6) (m := 9) (fits_pack (n := 7) (m := 2) (fits_pack (n := 2) (m := 0) fits_zero)))))) : Fits _ 32), hw ▸ pack_mod _ _, by rw [hop]; decide, ?_⟩
    · rw [raw61 hop, ← hw]
      simp (disch := decide) only [fld_pack_lo, fld_pack, Nat.reduceSub]
    · subst hw
      simp (disch := decide) only [fld_pack_lo, fld_pack, Nat.reduceSub])

theorem ldS16 (g : BitVec 2) (x : BitVec 7) (b : BitVec 6) (t : BitVec 7) : Statement (.ldS16 g x b t) :=
  of_word rfl (fun s => by
    rw [show Instr.word (.ldS16 g x b t) s = pack 1 (1#1) (pack 2 s (pack 7 (98#7) (pack 7 t (pack 6 b (pack 7 x (pack 2 g 0)))))) from rfl]
    generalize hw : pack 1 (1#1) (pack 2 s (pack 7 (98#7) (pack 7 t (pack 6 b (pack 7 x (pack 2 g 0)))))) = w
    have hop : sel w 3 7 = 98 := by subst hw; simp (disch := decide) only [sel_pack_lo, sel_pack_in, Nat.reduceSub, BitVec.toNat_ofNat]; try rfl
    refine ⟨?_, hw ▸ (fits_pack (n := 1) (m := 31) (fits_pack (n := 2) (m := 29) (fits_pack (n := 7) (m := 22) (fits_pack (n := 7) (m := 15) (fits_pack (n := 6) (m := 9) (fits_pack (n := 7) (m := 2) (fits_pack (n := 2) (m := 0) fits_zero)))))) : Fits _ 32), hw ▸ pack_mod _ _, by rw [hop]; decide, ?_⟩
    · rw [raw62 hop, ← hw]
      simp (disch := decide) only [fld_pack_lo, fld_pack, Nat.reduceSub]
    · subst hw
      simp (disch := decide) only [fld_pack_lo, fld_pack, Nat.reduceSub])

theorem ldZ16 (g : BitVec 2) (x : BitVec 7) (b : BitVec 6) (t : BitVec 7) : Statement (.ldZ16 g x b t) :=
  of_word rfl (fun s => by
    rw [show Instr.word (.ldZ16 g x b t) s = pack 1 (1#1) (pack 2 s (pack 7 (99#7) (pack 7 t (pack 6 b (pack 7 x (pack 2 g 0)))))) from rfl]
    generalize hw : pack 1 (1#1) (pack 2 s (pack 7 (99#7) (pack 7 t (pack 6 b (pack 7 x (pack 2 g 0)))))) = w
    have hop : sel w 3 7 = 99 := by subst hw; simp (disch := decide) only [sel_pack_lo, sel_pack_in, Nat.reduceSub, BitVec.toNat_ofNat]; try rfl
    refine ⟨?_, hw ▸ (fits_pack (n := 1) (m := 31) (fits_pack (n := 2) (m := 29) (fits_pack (n := 7) (m := 22) (fits_pack (n := 7) (m := 15) (fits_pack (n := 6) (m := 9) (fits_pack (n := 7) (m := 2) (fits_pack (n := 2) (m := 0) fits_zero)))))) : Fits _ 32), hw ▸ pack_mod _ _, by rw [hop]; decide, ?_⟩
    · rw [raw63 hop, ← hw]
      simp (disch := decide) only [fld_pack_lo, fld_pack, Nat.reduceSub]
    · subst hw
      simp (disch := decide) only [fld_pack_lo, fld_pack, Nat.reduceSub])

theorem ld32 (g : BitVec 2) (x : BitVec 7) (b : BitVec 6) (t : BitVec 7) : Statement (.ld32 g x b t) :=
  of_word rfl (fun s => by
    rw [show Instr.word (.ld32 g x b t) s = pack 1 (1#1) (pack 2 s (pack 7 (100#7) (pack 7 t (pack 6 b (pack 7 x (pack 2 g 0)))))) from rfl]
    generalize hw : pack 1 (1#1) (pack 2 s (pack 7 (100#7) (pack 7 t (pack 6 b (pack 7 x (pack 2 g 0)))))) = w
    have hop : sel w 3 7 = 100 := by subst hw; simp (disch := decide) only [sel_pack_lo, sel_pack_in, Nat.reduceSub, BitVec.toNat_ofNat]; try rfl
    refine ⟨?_, hw ▸ (fits_pack (n := 1) (m := 31) (fits_pack (n := 2) (m := 29) (fits_pack (n := 7) (m := 22) (fits_pack (n := 7) (m := 15) (fits_pack (n := 6) (m := 9) (fits_pack (n := 7) (m := 2) (fits_pack (n := 2) (m := 0) fits_zero)))))) : Fits _ 32), hw ▸ pack_mod _ _, by rw [hop]; decide, ?_⟩
    · rw [raw64 hop, ← hw]
      simp (disch := decide) only [fld_pack_lo, fld_pack, Nat.reduceSub]
    · subst hw
      simp (disch := decide) only [fld_pack_lo, fld_pack, Nat.reduceSub])

theorem ld64 (g : BitVec 2) (x : BitVec 7) (b : BitVec 6) (t : BitVec 7) : Statement (.ld64 g x b t) :=
  of_word rfl (fun s => by
    rw [show Instr.word (.ld64 g x b t) s = pack 1 (1#1) (pack 2 s (pack 7 (101#7) (pack 7 t (pack 6 b (pack 7 x (pack 2 g 0)))))) from rfl]
    generalize hw : pack 1 (1#1) (pack 2 s (pack 7 (101#7) (pack 7 t (pack 6 b (pack 7 x (pack 2 g 0)))))) = w
    have hop : sel w 3 7 = 101 := by subst hw; simp (disch := decide) only [sel_pack_lo, sel_pack_in, Nat.reduceSub, BitVec.toNat_ofNat]; try rfl
    refine ⟨?_, hw ▸ (fits_pack (n := 1) (m := 31) (fits_pack (n := 2) (m := 29) (fits_pack (n := 7) (m := 22) (fits_pack (n := 7) (m := 15) (fits_pack (n := 6) (m := 9) (fits_pack (n := 7) (m := 2) (fits_pack (n := 2) (m := 0) fits_zero)))))) : Fits _ 32), hw ▸ pack_mod _ _, by rw [hop]; decide, ?_⟩
    · rw [raw65 hop, ← hw]
      simp (disch := decide) only [fld_pack_lo, fld_pack, Nat.reduceSub]
    · subst hw
      simp (disch := decide) only [fld_pack_lo, fld_pack, Nat.reduceSub])

theorem ld128 (g : BitVec 2) (x : BitVec 7) (b : BitVec 6) (t : BitVec 7) : Statement (.ld128 g x b t) :=
  of_word rfl (fun s => by
    rw [show Instr.word (.ld128 g x b t) s = pack 1 (1#1) (pack 2 s (pack 7 (102#7) (pack 7 t (pack 6 b (pack 7 x (pack 2 g 0)))))) from rfl]
    generalize hw : pack 1 (1#1) (pack 2 s (pack 7 (102#7) (pack 7 t (pack 6 b (pack 7 x (pack 2 g 0)))))) = w
    have hop : sel w 3 7 = 102 := by subst hw; simp (disch := decide) only [sel_pack_lo, sel_pack_in, Nat.reduceSub, BitVec.toNat_ofNat]; try rfl
    refine ⟨?_, hw ▸ (fits_pack (n := 1) (m := 31) (fits_pack (n := 2) (m := 29) (fits_pack (n := 7) (m := 22) (fits_pack (n := 7) (m := 15) (fits_pack (n := 6) (m := 9) (fits_pack (n := 7) (m := 2) (fits_pack (n := 2) (m := 0) fits_zero)))))) : Fits _ 32), hw ▸ pack_mod _ _, by rw [hop]; decide, ?_⟩
    · rw [raw66 hop, ← hw]
      simp (disch := decide) only [fld_pack_lo, fld_pack, Nat.reduceSub]
    · subst hw
      simp (disch := decide) only [fld_pack_lo, fld_pack, Nat.reduceSub])

theorem st8 (g : BitVec 2) (x : BitVec 7) (b : BitVec 6) (t : BitVec 7) : Statement (.st8 g x b t) :=
  of_word rfl (fun s => by
    rw [show Instr.word (.st8 g x b t) s = pack 1 (1#1) (pack 2 s (pack 7 (103#7) (pack 7 t (pack 6 b (pack 7 x (pack 2 g 0)))))) from rfl]
    generalize hw : pack 1 (1#1) (pack 2 s (pack 7 (103#7) (pack 7 t (pack 6 b (pack 7 x (pack 2 g 0)))))) = w
    have hop : sel w 3 7 = 103 := by subst hw; simp (disch := decide) only [sel_pack_lo, sel_pack_in, Nat.reduceSub, BitVec.toNat_ofNat]; try rfl
    refine ⟨?_, hw ▸ (fits_pack (n := 1) (m := 31) (fits_pack (n := 2) (m := 29) (fits_pack (n := 7) (m := 22) (fits_pack (n := 7) (m := 15) (fits_pack (n := 6) (m := 9) (fits_pack (n := 7) (m := 2) (fits_pack (n := 2) (m := 0) fits_zero)))))) : Fits _ 32), hw ▸ pack_mod _ _, by rw [hop]; decide, ?_⟩
    · rw [raw67 hop, ← hw]
      simp (disch := decide) only [fld_pack_lo, fld_pack, Nat.reduceSub]
    · subst hw
      simp (disch := decide) only [fld_pack_lo, fld_pack, Nat.reduceSub])

theorem st16 (g : BitVec 2) (x : BitVec 7) (b : BitVec 6) (t : BitVec 7) : Statement (.st16 g x b t) :=
  of_word rfl (fun s => by
    rw [show Instr.word (.st16 g x b t) s = pack 1 (1#1) (pack 2 s (pack 7 (104#7) (pack 7 t (pack 6 b (pack 7 x (pack 2 g 0)))))) from rfl]
    generalize hw : pack 1 (1#1) (pack 2 s (pack 7 (104#7) (pack 7 t (pack 6 b (pack 7 x (pack 2 g 0)))))) = w
    have hop : sel w 3 7 = 104 := by subst hw; simp (disch := decide) only [sel_pack_lo, sel_pack_in, Nat.reduceSub, BitVec.toNat_ofNat]; try rfl
    refine ⟨?_, hw ▸ (fits_pack (n := 1) (m := 31) (fits_pack (n := 2) (m := 29) (fits_pack (n := 7) (m := 22) (fits_pack (n := 7) (m := 15) (fits_pack (n := 6) (m := 9) (fits_pack (n := 7) (m := 2) (fits_pack (n := 2) (m := 0) fits_zero)))))) : Fits _ 32), hw ▸ pack_mod _ _, by rw [hop]; decide, ?_⟩
    · rw [raw68 hop, ← hw]
      simp (disch := decide) only [fld_pack_lo, fld_pack, Nat.reduceSub]
    · subst hw
      simp (disch := decide) only [fld_pack_lo, fld_pack, Nat.reduceSub])

theorem st32 (g : BitVec 2) (x : BitVec 7) (b : BitVec 6) (t : BitVec 7) : Statement (.st32 g x b t) :=
  of_word rfl (fun s => by
    rw [show Instr.word (.st32 g x b t) s = pack 1 (1#1) (pack 2 s (pack 7 (105#7) (pack 7 t (pack 6 b (pack 7 x (pack 2 g 0)))))) from rfl]
    generalize hw : pack 1 (1#1) (pack 2 s (pack 7 (105#7) (pack 7 t (pack 6 b (pack 7 x (pack 2 g 0)))))) = w
    have hop : sel w 3 7 = 105 := by subst hw; simp (disch := decide) only [sel_pack_lo, sel_pack_in, Nat.reduceSub, BitVec.toNat_ofNat]; try rfl
    refine ⟨?_, hw ▸ (fits_pack (n := 1) (m := 31) (fits_pack (n := 2) (m := 29) (fits_pack (n := 7) (m := 22) (fits_pack (n := 7) (m := 15) (fits_pack (n := 6) (m := 9) (fits_pack (n := 7) (m := 2) (fits_pack (n := 2) (m := 0) fits_zero)))))) : Fits _ 32), hw ▸ pack_mod _ _, by rw [hop]; decide, ?_⟩
    · rw [raw69 hop, ← hw]
      simp (disch := decide) only [fld_pack_lo, fld_pack, Nat.reduceSub]
    · subst hw
      simp (disch := decide) only [fld_pack_lo, fld_pack, Nat.reduceSub])

theorem st64 (g : BitVec 2) (x : BitVec 7) (b : BitVec 6) (t : BitVec 7) : Statement (.st64 g x b t) :=
  of_word rfl (fun s => by
    rw [show Instr.word (.st64 g x b t) s = pack 1 (1#1) (pack 2 s (pack 7 (106#7) (pack 7 t (pack 6 b (pack 7 x (pack 2 g 0)))))) from rfl]
    generalize hw : pack 1 (1#1) (pack 2 s (pack 7 (106#7) (pack 7 t (pack 6 b (pack 7 x (pack 2 g 0)))))) = w
    have hop : sel w 3 7 = 106 := by subst hw; simp (disch := decide) only [sel_pack_lo, sel_pack_in, Nat.reduceSub, BitVec.toNat_ofNat]; try rfl
    refine ⟨?_, hw ▸ (fits_pack (n := 1) (m := 31) (fits_pack (n := 2) (m := 29) (fits_pack (n := 7) (m := 22) (fits_pack (n := 7) (m := 15) (fits_pack (n := 6) (m := 9) (fits_pack (n := 7) (m := 2) (fits_pack (n := 2) (m := 0) fits_zero)))))) : Fits _ 32), hw ▸ pack_mod _ _, by rw [hop]; decide, ?_⟩
    · rw [raw6A hop, ← hw]
      simp (disch := decide) only [fld_pack_lo, fld_pack, Nat.reduceSub]
    · subst hw
      simp (disch := decide) only [fld_pack_lo, fld_pack, Nat.reduceSub])

theorem st128 (g : BitVec 2) (x : BitVec 7) (b : BitVec 6) (t : BitVec 7) : Statement (.st128 g x b t) :=
  of_word rfl (fun s => by
    rw [show Instr.word (.st128 g x b t) s = pack 1 (1#1) (pack 2 s (pack 7 (107#7) (pack 7 t (pack 6 b (pack 7 x (pack 2 g 0)))))) from rfl]
    generalize hw : pack 1 (1#1) (pack 2 s (pack 7 (107#7) (pack 7 t (pack 6 b (pack 7 x (pack 2 g 0)))))) = w
    have hop : sel w 3 7 = 107 := by subst hw; simp (disch := decide) only [sel_pack_lo, sel_pack_in, Nat.reduceSub, BitVec.toNat_ofNat]; try rfl
    refine ⟨?_, hw ▸ (fits_pack (n := 1) (m := 31) (fits_pack (n := 2) (m := 29) (fits_pack (n := 7) (m := 22) (fits_pack (n := 7) (m := 15) (fits_pack (n := 6) (m := 9) (fits_pack (n := 7) (m := 2) (fits_pack (n := 2) (m := 0) fits_zero)))))) : Fits _ 32), hw ▸ pack_mod _ _, by rw [hop]; decide, ?_⟩
    · rw [raw6B hop, ← hw]
      simp (disch := decide) only [fld_pack_lo, fld_pack, Nat.reduceSub]
    · subst hw
      simp (disch := decide) only [fld_pack_lo, fld_pack, Nat.reduceSub])

theorem lds (z : BitVec 2) (imm : BitVec 6) (x : BitVec 7) (t : BitVec 7) : Statement (.lds z imm x t) :=
  of_word rfl (fun s => by
    rw [show Instr.word (.lds z imm x t) s = pack 1 (1#1) (pack 2 s (pack 7 (108#7) (pack 7 t (pack 7 x (pack 6 imm (pack 2 z 0)))))) from rfl]
    generalize hw : pack 1 (1#1) (pack 2 s (pack 7 (108#7) (pack 7 t (pack 7 x (pack 6 imm (pack 2 z 0)))))) = w
    have hop : sel w 3 7 = 108 := by subst hw; simp (disch := decide) only [sel_pack_lo, sel_pack_in, Nat.reduceSub, BitVec.toNat_ofNat]; try rfl
    refine ⟨?_, hw ▸ (fits_pack (n := 1) (m := 31) (fits_pack (n := 2) (m := 29) (fits_pack (n := 7) (m := 22) (fits_pack (n := 7) (m := 15) (fits_pack (n := 7) (m := 8) (fits_pack (n := 6) (m := 2) (fits_pack (n := 2) (m := 0) fits_zero)))))) : Fits _ 32), hw ▸ pack_mod _ _, by rw [hop]; decide, ?_⟩
    · rw [raw6C hop, ← hw]
      simp (disch := decide) only [fld_pack_lo, fld_pack, Nat.reduceSub]
    · subst hw
      simp (disch := decide) only [fld_pack_lo, fld_pack, Nat.reduceSub])

theorem sts (z : BitVec 2) (imm : BitVec 6) (x : BitVec 7) (t : BitVec 7) : Statement (.sts z imm x t) :=
  of_word rfl (fun s => by
    rw [show Instr.word (.sts z imm x t) s = pack 1 (1#1) (pack 2 s (pack 7 (109#7) (pack 7 t (pack 7 x (pack 6 imm (pack 2 z 0)))))) from rfl]
    generalize hw : pack 1 (1#1) (pack 2 s (pack 7 (109#7) (pack 7 t (pack 7 x (pack 6 imm (pack 2 z 0)))))) = w
    have hop : sel w 3 7 = 109 := by subst hw; simp (disch := decide) only [sel_pack_lo, sel_pack_in, Nat.reduceSub, BitVec.toNat_ofNat]; try rfl
    refine ⟨?_, hw ▸ (fits_pack (n := 1) (m := 31) (fits_pack (n := 2) (m := 29) (fits_pack (n := 7) (m := 22) (fits_pack (n := 7) (m := 15) (fits_pack (n := 7) (m := 8) (fits_pack (n := 6) (m := 2) (fits_pack (n := 2) (m := 0) fits_zero)))))) : Fits _ 32), hw ▸ pack_mod _ _, by rw [hop]; decide, ?_⟩
    · rw [raw6D hop, ← hw]
      simp (disch := decide) only [fld_pack_lo, fld_pack, Nat.reduceSub]
    · subst hw
      simp (disch := decide) only [fld_pack_lo, fld_pack, Nat.reduceSub])

theorem ldc (g : BitVec 2) (x : BitVec 7) (b : BitVec 6) (t : BitVec 7) : Statement (.ldc g x b t) :=
  of_word rfl (fun s => by
    rw [show Instr.word (.ldc g x b t) s = pack 1 (1#1) (pack 2 s (pack 7 (110#7) (pack 7 t (pack 6 b (pack 7 x (pack 2 g 0)))))) from rfl]
    generalize hw : pack 1 (1#1) (pack 2 s (pack 7 (110#7) (pack 7 t (pack 6 b (pack 7 x (pack 2 g 0)))))) = w
    have hop : sel w 3 7 = 110 := by subst hw; simp (disch := decide) only [sel_pack_lo, sel_pack_in, Nat.reduceSub, BitVec.toNat_ofNat]; try rfl
    refine ⟨?_, hw ▸ (fits_pack (n := 1) (m := 31) (fits_pack (n := 2) (m := 29) (fits_pack (n := 7) (m := 22) (fits_pack (n := 7) (m := 15) (fits_pack (n := 6) (m := 9) (fits_pack (n := 7) (m := 2) (fits_pack (n := 2) (m := 0) fits_zero)))))) : Fits _ 32), hw ▸ pack_mod _ _, by rw [hop]; decide, ?_⟩
    · rw [raw6E hop, ← hw]
      simp (disch := decide) only [fld_pack_lo, fld_pack, Nat.reduceSub]
    · subst hw
      simp (disch := decide) only [fld_pack_lo, fld_pack, Nat.reduceSub])

theorem ldsmp (g : BitVec 2) (x : BitVec 7) (b : BitVec 6) (t : BitVec 7) : Statement (.ldsmp g x b t) :=
  of_word rfl (fun s => by
    rw [show Instr.word (.ldsmp g x b t) s = pack 1 (1#1) (pack 2 s (pack 7 (111#7) (pack 7 t (pack 6 b (pack 7 x (pack 2 g 0)))))) from rfl]
    generalize hw : pack 1 (1#1) (pack 2 s (pack 7 (111#7) (pack 7 t (pack 6 b (pack 7 x (pack 2 g 0)))))) = w
    have hop : sel w 3 7 = 111 := by subst hw; simp (disch := decide) only [sel_pack_lo, sel_pack_in, Nat.reduceSub, BitVec.toNat_ofNat]; try rfl
    refine ⟨?_, hw ▸ (fits_pack (n := 1) (m := 31) (fits_pack (n := 2) (m := 29) (fits_pack (n := 7) (m := 22) (fits_pack (n := 7) (m := 15) (fits_pack (n := 6) (m := 9) (fits_pack (n := 7) (m := 2) (fits_pack (n := 2) (m := 0) fits_zero)))))) : Fits _ 32), hw ▸ pack_mod _ _, by rw [hop]; decide, ?_⟩
    · rw [raw6F hop, ← hw]
      simp (disch := decide) only [fld_pack_lo, fld_pack, Nat.reduceSub]
    · subst hw
      simp (disch := decide) only [fld_pack_lo, fld_pack, Nat.reduceSub])

theorem atomAdd32 (x : BitVec 7) (b : BitVec 6) (t : BitVec 7) : Statement (.atomAdd32 x b t) :=
  of_word rfl (fun s => by
    rw [show Instr.word (.atomAdd32 x b t) s = pack 1 (1#1) (pack 2 s (pack 7 (112#7) (pack 7 t (pack 6 b (pack 7 x (pack 2 (0#2) 0)))))) from rfl]
    generalize hw : pack 1 (1#1) (pack 2 s (pack 7 (112#7) (pack 7 t (pack 6 b (pack 7 x (pack 2 (0#2) 0)))))) = w
    have hop : sel w 3 7 = 112 := by subst hw; simp (disch := decide) only [sel_pack_lo, sel_pack_in, Nat.reduceSub, BitVec.toNat_ofNat]; try rfl
    have hk0 : sel w 30 2 = 0 := by subst hw; simp (disch := decide) only [sel_pack_lo, sel_pack_in, Nat.reduceSub, BitVec.toNat_ofNat]; try rfl
    refine ⟨?_, hw ▸ (fits_pack (n := 1) (m := 31) (fits_pack (n := 2) (m := 29) (fits_pack (n := 7) (m := 22) (fits_pack (n := 7) (m := 15) (fits_pack (n := 6) (m := 9) (fits_pack (n := 7) (m := 2) (fits_pack (n := 2) (m := 0) fits_zero)))))) : Fits _ 32), hw ▸ pack_mod _ _, by rw [hop]; decide, ?_⟩
    · rw [raw70 hop]
      simp only [decodeOp70, hk0, reduceIte, Nat.reduceEqDiff, OfNat.ofNat_ne_zero, OfNat.zero_ne_ofNat, OfNat.ofNat_ne_one, OfNat.one_ne_ofNat, zero_ne_one, one_ne_zero, true_and, false_and, and_true, and_false]
      subst hw
      simp (disch := decide) only [fld_pack_lo, fld_pack, Nat.reduceSub]
    · subst hw
      simp (disch := decide) only [fld_pack_lo, fld_pack, Nat.reduceSub])

theorem atomAdd64 (x : BitVec 7) (b : BitVec 6) (t : BitVec 7) : Statement (.atomAdd64 x b t) :=
  of_word rfl (fun s => by
    rw [show Instr.word (.atomAdd64 x b t) s = pack 1 (1#1) (pack 2 s (pack 7 (112#7) (pack 7 t (pack 6 b (pack 7 x (pack 2 (1#2) 0)))))) from rfl]
    generalize hw : pack 1 (1#1) (pack 2 s (pack 7 (112#7) (pack 7 t (pack 6 b (pack 7 x (pack 2 (1#2) 0)))))) = w
    have hop : sel w 3 7 = 112 := by subst hw; simp (disch := decide) only [sel_pack_lo, sel_pack_in, Nat.reduceSub, BitVec.toNat_ofNat]; try rfl
    have hk0 : sel w 30 2 = 1 := by subst hw; simp (disch := decide) only [sel_pack_lo, sel_pack_in, Nat.reduceSub, BitVec.toNat_ofNat]; try rfl
    refine ⟨?_, hw ▸ (fits_pack (n := 1) (m := 31) (fits_pack (n := 2) (m := 29) (fits_pack (n := 7) (m := 22) (fits_pack (n := 7) (m := 15) (fits_pack (n := 6) (m := 9) (fits_pack (n := 7) (m := 2) (fits_pack (n := 2) (m := 0) fits_zero)))))) : Fits _ 32), hw ▸ pack_mod _ _, by rw [hop]; decide, ?_⟩
    · rw [raw70 hop]
      simp only [decodeOp70, hk0, reduceIte, Nat.reduceEqDiff, OfNat.ofNat_ne_zero, OfNat.zero_ne_ofNat, OfNat.ofNat_ne_one, OfNat.one_ne_ofNat, zero_ne_one, one_ne_zero, true_and, false_and, and_true, and_false]
      subst hw
      simp (disch := decide) only [fld_pack_lo, fld_pack, Nat.reduceSub]
    · subst hw
      simp (disch := decide) only [fld_pack_lo, fld_pack, Nat.reduceSub])

theorem atomFaddF32 (x : BitVec 7) (b : BitVec 6) (t : BitVec 7) : Statement (.atomFaddF32 x b t) :=
  of_word rfl (fun s => by
    rw [show Instr.word (.atomFaddF32 x b t) s = pack 1 (1#1) (pack 2 s (pack 7 (112#7) (pack 7 t (pack 6 b (pack 7 x (pack 2 (2#2) 0)))))) from rfl]
    generalize hw : pack 1 (1#1) (pack 2 s (pack 7 (112#7) (pack 7 t (pack 6 b (pack 7 x (pack 2 (2#2) 0)))))) = w
    have hop : sel w 3 7 = 112 := by subst hw; simp (disch := decide) only [sel_pack_lo, sel_pack_in, Nat.reduceSub, BitVec.toNat_ofNat]; try rfl
    have hk0 : sel w 30 2 = 2 := by subst hw; simp (disch := decide) only [sel_pack_lo, sel_pack_in, Nat.reduceSub, BitVec.toNat_ofNat]; try rfl
    refine ⟨?_, hw ▸ (fits_pack (n := 1) (m := 31) (fits_pack (n := 2) (m := 29) (fits_pack (n := 7) (m := 22) (fits_pack (n := 7) (m := 15) (fits_pack (n := 6) (m := 9) (fits_pack (n := 7) (m := 2) (fits_pack (n := 2) (m := 0) fits_zero)))))) : Fits _ 32), hw ▸ pack_mod _ _, by rw [hop]; decide, ?_⟩
    · rw [raw70 hop]
      simp only [decodeOp70, hk0, reduceIte, Nat.reduceEqDiff, OfNat.ofNat_ne_zero, OfNat.zero_ne_ofNat, OfNat.ofNat_ne_one, OfNat.one_ne_ofNat, zero_ne_one, one_ne_zero, true_and, false_and, and_true, and_false]
      subst hw
      simp (disch := decide) only [fld_pack_lo, fld_pack, Nat.reduceSub]
    · subst hw
      simp (disch := decide) only [fld_pack_lo, fld_pack, Nat.reduceSub])

theorem atomExch32 (x : BitVec 7) (b : BitVec 6) (t : BitVec 7) : Statement (.atomExch32 x b t) :=
  of_word rfl (fun s => by
    rw [show Instr.word (.atomExch32 x b t) s = pack 1 (1#1) (pack 2 s (pack 7 (112#7) (pack 7 t (pack 6 b (pack 7 x (pack 2 (3#2) 0)))))) from rfl]
    generalize hw : pack 1 (1#1) (pack 2 s (pack 7 (112#7) (pack 7 t (pack 6 b (pack 7 x (pack 2 (3#2) 0)))))) = w
    have hop : sel w 3 7 = 112 := by subst hw; simp (disch := decide) only [sel_pack_lo, sel_pack_in, Nat.reduceSub, BitVec.toNat_ofNat]; try rfl
    have hk0 : sel w 30 2 = 3 := by subst hw; simp (disch := decide) only [sel_pack_lo, sel_pack_in, Nat.reduceSub, BitVec.toNat_ofNat]; try rfl
    refine ⟨?_, hw ▸ (fits_pack (n := 1) (m := 31) (fits_pack (n := 2) (m := 29) (fits_pack (n := 7) (m := 22) (fits_pack (n := 7) (m := 15) (fits_pack (n := 6) (m := 9) (fits_pack (n := 7) (m := 2) (fits_pack (n := 2) (m := 0) fits_zero)))))) : Fits _ 32), hw ▸ pack_mod _ _, by rw [hop]; decide, ?_⟩
    · rw [raw70 hop]
      simp only [decodeOp70, hk0, reduceIte, Nat.reduceEqDiff, OfNat.ofNat_ne_zero, OfNat.zero_ne_ofNat, OfNat.ofNat_ne_one, OfNat.one_ne_ofNat, zero_ne_one, one_ne_zero, true_and, false_and, and_true, and_false]
      subst hw
      simp (disch := decide) only [fld_pack_lo, fld_pack, Nat.reduceSub]
    · subst hw
      simp (disch := decide) only [fld_pack_lo, fld_pack, Nat.reduceSub])

theorem atomMinI32 (x : BitVec 7) (b : BitVec 6) (t : BitVec 7) : Statement (.atomMinI32 x b t) :=
  of_word rfl (fun s => by
    rw [show Instr.word (.atomMinI32 x b t) s = pack 1 (1#1) (pack 2 s (pack 7 (113#7) (pack 7 t (pack 6 b (pack 7 x (pack 2 (0#2) 0)))))) from rfl]
    generalize hw : pack 1 (1#1) (pack 2 s (pack 7 (113#7) (pack 7 t (pack 6 b (pack 7 x (pack 2 (0#2) 0)))))) = w
    have hop : sel w 3 7 = 113 := by subst hw; simp (disch := decide) only [sel_pack_lo, sel_pack_in, Nat.reduceSub, BitVec.toNat_ofNat]; try rfl
    have hk0 : sel w 30 2 = 0 := by subst hw; simp (disch := decide) only [sel_pack_lo, sel_pack_in, Nat.reduceSub, BitVec.toNat_ofNat]; try rfl
    refine ⟨?_, hw ▸ (fits_pack (n := 1) (m := 31) (fits_pack (n := 2) (m := 29) (fits_pack (n := 7) (m := 22) (fits_pack (n := 7) (m := 15) (fits_pack (n := 6) (m := 9) (fits_pack (n := 7) (m := 2) (fits_pack (n := 2) (m := 0) fits_zero)))))) : Fits _ 32), hw ▸ pack_mod _ _, by rw [hop]; decide, ?_⟩
    · rw [raw71 hop]
      simp only [decodeOp71, hk0, reduceIte, Nat.reduceEqDiff, OfNat.ofNat_ne_zero, OfNat.zero_ne_ofNat, OfNat.ofNat_ne_one, OfNat.one_ne_ofNat, zero_ne_one, one_ne_zero, true_and, false_and, and_true, and_false]
      subst hw
      simp (disch := decide) only [fld_pack_lo, fld_pack, Nat.reduceSub]
    · subst hw
      simp (disch := decide) only [fld_pack_lo, fld_pack, Nat.reduceSub])

theorem atomMaxI32 (x : BitVec 7) (b : BitVec 6) (t : BitVec 7) : Statement (.atomMaxI32 x b t) :=
  of_word rfl (fun s => by
    rw [show Instr.word (.atomMaxI32 x b t) s = pack 1 (1#1) (pack 2 s (pack 7 (113#7) (pack 7 t (pack 6 b (pack 7 x (pack 2 (1#2) 0)))))) from rfl]
    generalize hw : pack 1 (1#1) (pack 2 s (pack 7 (113#7) (pack 7 t (pack 6 b (pack 7 x (pack 2 (1#2) 0)))))) = w
    have hop : sel w 3 7 = 113 := by subst hw; simp (disch := decide) only [sel_pack_lo, sel_pack_in, Nat.reduceSub, BitVec.toNat_ofNat]; try rfl
    have hk0 : sel w 30 2 = 1 := by subst hw; simp (disch := decide) only [sel_pack_lo, sel_pack_in, Nat.reduceSub, BitVec.toNat_ofNat]; try rfl
    refine ⟨?_, hw ▸ (fits_pack (n := 1) (m := 31) (fits_pack (n := 2) (m := 29) (fits_pack (n := 7) (m := 22) (fits_pack (n := 7) (m := 15) (fits_pack (n := 6) (m := 9) (fits_pack (n := 7) (m := 2) (fits_pack (n := 2) (m := 0) fits_zero)))))) : Fits _ 32), hw ▸ pack_mod _ _, by rw [hop]; decide, ?_⟩
    · rw [raw71 hop]
      simp only [decodeOp71, hk0, reduceIte, Nat.reduceEqDiff, OfNat.ofNat_ne_zero, OfNat.zero_ne_ofNat, OfNat.ofNat_ne_one, OfNat.one_ne_ofNat, zero_ne_one, one_ne_zero, true_and, false_and, and_true, and_false]
      subst hw
      simp (disch := decide) only [fld_pack_lo, fld_pack, Nat.reduceSub]
    · subst hw
      simp (disch := decide) only [fld_pack_lo, fld_pack, Nat.reduceSub])

theorem atomMinZ32 (x : BitVec 7) (b : BitVec 6) (t : BitVec 7) : Statement (.atomMinZ32 x b t) :=
  of_word rfl (fun s => by
    rw [show Instr.word (.atomMinZ32 x b t) s = pack 1 (1#1) (pack 2 s (pack 7 (113#7) (pack 7 t (pack 6 b (pack 7 x (pack 2 (2#2) 0)))))) from rfl]
    generalize hw : pack 1 (1#1) (pack 2 s (pack 7 (113#7) (pack 7 t (pack 6 b (pack 7 x (pack 2 (2#2) 0)))))) = w
    have hop : sel w 3 7 = 113 := by subst hw; simp (disch := decide) only [sel_pack_lo, sel_pack_in, Nat.reduceSub, BitVec.toNat_ofNat]; try rfl
    have hk0 : sel w 30 2 = 2 := by subst hw; simp (disch := decide) only [sel_pack_lo, sel_pack_in, Nat.reduceSub, BitVec.toNat_ofNat]; try rfl
    refine ⟨?_, hw ▸ (fits_pack (n := 1) (m := 31) (fits_pack (n := 2) (m := 29) (fits_pack (n := 7) (m := 22) (fits_pack (n := 7) (m := 15) (fits_pack (n := 6) (m := 9) (fits_pack (n := 7) (m := 2) (fits_pack (n := 2) (m := 0) fits_zero)))))) : Fits _ 32), hw ▸ pack_mod _ _, by rw [hop]; decide, ?_⟩
    · rw [raw71 hop]
      simp only [decodeOp71, hk0, reduceIte, Nat.reduceEqDiff, OfNat.ofNat_ne_zero, OfNat.zero_ne_ofNat, OfNat.ofNat_ne_one, OfNat.one_ne_ofNat, zero_ne_one, one_ne_zero, true_and, false_and, and_true, and_false]
      subst hw
      simp (disch := decide) only [fld_pack_lo, fld_pack, Nat.reduceSub]
    · subst hw
      simp (disch := decide) only [fld_pack_lo, fld_pack, Nat.reduceSub])

theorem atomMaxZ32 (x : BitVec 7) (b : BitVec 6) (t : BitVec 7) : Statement (.atomMaxZ32 x b t) :=
  of_word rfl (fun s => by
    rw [show Instr.word (.atomMaxZ32 x b t) s = pack 1 (1#1) (pack 2 s (pack 7 (113#7) (pack 7 t (pack 6 b (pack 7 x (pack 2 (3#2) 0)))))) from rfl]
    generalize hw : pack 1 (1#1) (pack 2 s (pack 7 (113#7) (pack 7 t (pack 6 b (pack 7 x (pack 2 (3#2) 0)))))) = w
    have hop : sel w 3 7 = 113 := by subst hw; simp (disch := decide) only [sel_pack_lo, sel_pack_in, Nat.reduceSub, BitVec.toNat_ofNat]; try rfl
    have hk0 : sel w 30 2 = 3 := by subst hw; simp (disch := decide) only [sel_pack_lo, sel_pack_in, Nat.reduceSub, BitVec.toNat_ofNat]; try rfl
    refine ⟨?_, hw ▸ (fits_pack (n := 1) (m := 31) (fits_pack (n := 2) (m := 29) (fits_pack (n := 7) (m := 22) (fits_pack (n := 7) (m := 15) (fits_pack (n := 6) (m := 9) (fits_pack (n := 7) (m := 2) (fits_pack (n := 2) (m := 0) fits_zero)))))) : Fits _ 32), hw ▸ pack_mod _ _, by rw [hop]; decide, ?_⟩
    · rw [raw71 hop]
      simp only [decodeOp71, hk0, reduceIte, Nat.reduceEqDiff, OfNat.ofNat_ne_zero, OfNat.zero_ne_ofNat, OfNat.ofNat_ne_one, OfNat.one_ne_ofNat, zero_ne_one, one_ne_zero, true_and, false_and, and_true, and_false]
      subst hw
      simp (disch := decide) only [fld_pack_lo, fld_pack, Nat.reduceSub]
    · subst hw
      simp (disch := decide) only [fld_pack_lo, fld_pack, Nat.reduceSub])

theorem atomAnd32 (x : BitVec 7) (b : BitVec 6) (t : BitVec 7) : Statement (.atomAnd32 x b t) :=
  of_word rfl (fun s => by
    rw [show Instr.word (.atomAnd32 x b t) s = pack 1 (1#1) (pack 2 s (pack 7 (114#7) (pack 7 t (pack 6 b (pack 7 x (pack 2 (0#2) 0)))))) from rfl]
    generalize hw : pack 1 (1#1) (pack 2 s (pack 7 (114#7) (pack 7 t (pack 6 b (pack 7 x (pack 2 (0#2) 0)))))) = w
    have hop : sel w 3 7 = 114 := by subst hw; simp (disch := decide) only [sel_pack_lo, sel_pack_in, Nat.reduceSub, BitVec.toNat_ofNat]; try rfl
    have hk0 : sel w 30 2 = 0 := by subst hw; simp (disch := decide) only [sel_pack_lo, sel_pack_in, Nat.reduceSub, BitVec.toNat_ofNat]; try rfl
    refine ⟨?_, hw ▸ (fits_pack (n := 1) (m := 31) (fits_pack (n := 2) (m := 29) (fits_pack (n := 7) (m := 22) (fits_pack (n := 7) (m := 15) (fits_pack (n := 6) (m := 9) (fits_pack (n := 7) (m := 2) (fits_pack (n := 2) (m := 0) fits_zero)))))) : Fits _ 32), hw ▸ pack_mod _ _, by rw [hop]; decide, ?_⟩
    · rw [raw72 hop]
      simp only [decodeOp72, hk0, reduceIte, Nat.reduceEqDiff, OfNat.ofNat_ne_zero, OfNat.zero_ne_ofNat, OfNat.ofNat_ne_one, OfNat.one_ne_ofNat, zero_ne_one, one_ne_zero, true_and, false_and, and_true, and_false]
      subst hw
      simp (disch := decide) only [fld_pack_lo, fld_pack, Nat.reduceSub]
    · subst hw
      simp (disch := decide) only [fld_pack_lo, fld_pack, Nat.reduceSub])

theorem atomOr32 (x : BitVec 7) (b : BitVec 6) (t : BitVec 7) : Statement (.atomOr32 x b t) :=
  of_word rfl (fun s => by
    rw [show Instr.word (.atomOr32 x b t) s = pack 1 (1#1) (pack 2 s (pack 7 (114#7) (pack 7 t (pack 6 b (pack 7 x (pack 2 (1#2) 0)))))) from rfl]
    generalize hw : pack 1 (1#1) (pack 2 s (pack 7 (114#7) (pack 7 t (pack 6 b (pack 7 x (pack 2 (1#2) 0)))))) = w
    have hop : sel w 3 7 = 114 := by subst hw; simp (disch := decide) only [sel_pack_lo, sel_pack_in, Nat.reduceSub, BitVec.toNat_ofNat]; try rfl
    have hk0 : sel w 30 2 = 1 := by subst hw; simp (disch := decide) only [sel_pack_lo, sel_pack_in, Nat.reduceSub, BitVec.toNat_ofNat]; try rfl
    refine ⟨?_, hw ▸ (fits_pack (n := 1) (m := 31) (fits_pack (n := 2) (m := 29) (fits_pack (n := 7) (m := 22) (fits_pack (n := 7) (m := 15) (fits_pack (n := 6) (m := 9) (fits_pack (n := 7) (m := 2) (fits_pack (n := 2) (m := 0) fits_zero)))))) : Fits _ 32), hw ▸ pack_mod _ _, by rw [hop]; decide, ?_⟩
    · rw [raw72 hop]
      simp only [decodeOp72, hk0, reduceIte, Nat.reduceEqDiff, OfNat.ofNat_ne_zero, OfNat.zero_ne_ofNat, OfNat.ofNat_ne_one, OfNat.one_ne_ofNat, zero_ne_one, one_ne_zero, true_and, false_and, and_true, and_false]
      subst hw
      simp (disch := decide) only [fld_pack_lo, fld_pack, Nat.reduceSub]
    · subst hw
      simp (disch := decide) only [fld_pack_lo, fld_pack, Nat.reduceSub])

theorem atomXor32 (x : BitVec 7) (b : BitVec 6) (t : BitVec 7) : Statement (.atomXor32 x b t) :=
  of_word rfl (fun s => by
    rw [show Instr.word (.atomXor32 x b t) s = pack 1 (1#1) (pack 2 s (pack 7 (114#7) (pack 7 t (pack 6 b (pack 7 x (pack 2 (2#2) 0)))))) from rfl]
    generalize hw : pack 1 (1#1) (pack 2 s (pack 7 (114#7) (pack 7 t (pack 6 b (pack 7 x (pack 2 (2#2) 0)))))) = w
    have hop : sel w 3 7 = 114 := by subst hw; simp (disch := decide) only [sel_pack_lo, sel_pack_in, Nat.reduceSub, BitVec.toNat_ofNat]; try rfl
    have hk0 : sel w 30 2 = 2 := by subst hw; simp (disch := decide) only [sel_pack_lo, sel_pack_in, Nat.reduceSub, BitVec.toNat_ofNat]; try rfl
    refine ⟨?_, hw ▸ (fits_pack (n := 1) (m := 31) (fits_pack (n := 2) (m := 29) (fits_pack (n := 7) (m := 22) (fits_pack (n := 7) (m := 15) (fits_pack (n := 6) (m := 9) (fits_pack (n := 7) (m := 2) (fits_pack (n := 2) (m := 0) fits_zero)))))) : Fits _ 32), hw ▸ pack_mod _ _, by rw [hop]; decide, ?_⟩
    · rw [raw72 hop]
      simp only [decodeOp72, hk0, reduceIte, Nat.reduceEqDiff, OfNat.ofNat_ne_zero, OfNat.zero_ne_ofNat, OfNat.ofNat_ne_one, OfNat.one_ne_ofNat, zero_ne_one, one_ne_zero, true_and, false_and, and_true, and_false]
      subst hw
      simp (disch := decide) only [fld_pack_lo, fld_pack, Nat.reduceSub]
    · subst hw
      simp (disch := decide) only [fld_pack_lo, fld_pack, Nat.reduceSub])

theorem atomExch64 (x : BitVec 7) (b : BitVec 6) (t : BitVec 7) : Statement (.atomExch64 x b t) :=
  of_word rfl (fun s => by
    rw [show Instr.word (.atomExch64 x b t) s = pack 1 (1#1) (pack 2 s (pack 7 (114#7) (pack 7 t (pack 6 b (pack 7 x (pack 2 (3#2) 0)))))) from rfl]
    generalize hw : pack 1 (1#1) (pack 2 s (pack 7 (114#7) (pack 7 t (pack 6 b (pack 7 x (pack 2 (3#2) 0)))))) = w
    have hop : sel w 3 7 = 114 := by subst hw; simp (disch := decide) only [sel_pack_lo, sel_pack_in, Nat.reduceSub, BitVec.toNat_ofNat]; try rfl
    have hk0 : sel w 30 2 = 3 := by subst hw; simp (disch := decide) only [sel_pack_lo, sel_pack_in, Nat.reduceSub, BitVec.toNat_ofNat]; try rfl
    refine ⟨?_, hw ▸ (fits_pack (n := 1) (m := 31) (fits_pack (n := 2) (m := 29) (fits_pack (n := 7) (m := 22) (fits_pack (n := 7) (m := 15) (fits_pack (n := 6) (m := 9) (fits_pack (n := 7) (m := 2) (fits_pack (n := 2) (m := 0) fits_zero)))))) : Fits _ 32), hw ▸ pack_mod _ _, by rw [hop]; decide, ?_⟩
    · rw [raw72 hop]
      simp only [decodeOp72, hk0, reduceIte, Nat.reduceEqDiff, OfNat.ofNat_ne_zero, OfNat.zero_ne_ofNat, OfNat.ofNat_ne_one, OfNat.one_ne_ofNat, zero_ne_one, one_ne_zero, true_and, false_and, and_true, and_false]
      subst hw
      simp (disch := decide) only [fld_pack_lo, fld_pack, Nat.reduceSub]
    · subst hw
      simp (disch := decide) only [fld_pack_lo, fld_pack, Nat.reduceSub])

theorem atomFminF32 (x : BitVec 7) (b : BitVec 6) (t : BitVec 7) : Statement (.atomFminF32 x b t) :=
  of_word rfl (fun s => by
    rw [show Instr.word (.atomFminF32 x b t) s = pack 1 (1#1) (pack 2 s (pack 7 (115#7) (pack 7 t (pack 6 b (pack 7 x (pack 2 (0#2) 0)))))) from rfl]
    generalize hw : pack 1 (1#1) (pack 2 s (pack 7 (115#7) (pack 7 t (pack 6 b (pack 7 x (pack 2 (0#2) 0)))))) = w
    have hop : sel w 3 7 = 115 := by subst hw; simp (disch := decide) only [sel_pack_lo, sel_pack_in, Nat.reduceSub, BitVec.toNat_ofNat]; try rfl
    have hk0 : sel w 30 2 = 0 := by subst hw; simp (disch := decide) only [sel_pack_lo, sel_pack_in, Nat.reduceSub, BitVec.toNat_ofNat]; try rfl
    refine ⟨?_, hw ▸ (fits_pack (n := 1) (m := 31) (fits_pack (n := 2) (m := 29) (fits_pack (n := 7) (m := 22) (fits_pack (n := 7) (m := 15) (fits_pack (n := 6) (m := 9) (fits_pack (n := 7) (m := 2) (fits_pack (n := 2) (m := 0) fits_zero)))))) : Fits _ 32), hw ▸ pack_mod _ _, by rw [hop]; decide, ?_⟩
    · rw [raw73 hop]
      simp only [decodeOp73, hk0, reduceIte, Nat.reduceEqDiff, OfNat.ofNat_ne_zero, OfNat.zero_ne_ofNat, OfNat.ofNat_ne_one, OfNat.one_ne_ofNat, zero_ne_one, one_ne_zero, true_and, false_and, and_true, and_false]
      subst hw
      simp (disch := decide) only [fld_pack_lo, fld_pack, Nat.reduceSub]
    · subst hw
      simp (disch := decide) only [fld_pack_lo, fld_pack, Nat.reduceSub])

theorem atomFmaxF32 (x : BitVec 7) (b : BitVec 6) (t : BitVec 7) : Statement (.atomFmaxF32 x b t) :=
  of_word rfl (fun s => by
    rw [show Instr.word (.atomFmaxF32 x b t) s = pack 1 (1#1) (pack 2 s (pack 7 (115#7) (pack 7 t (pack 6 b (pack 7 x (pack 2 (1#2) 0)))))) from rfl]
    generalize hw : pack 1 (1#1) (pack 2 s (pack 7 (115#7) (pack 7 t (pack 6 b (pack 7 x (pack 2 (1#2) 0)))))) = w
    have hop : sel w 3 7 = 115 := by subst hw; simp (disch := decide) only [sel_pack_lo, sel_pack_in, Nat.reduceSub, BitVec.toNat_ofNat]; try rfl
    have hk0 : sel w 30 2 = 1 := by subst hw; simp (disch := decide) only [sel_pack_lo, sel_pack_in, Nat.reduceSub, BitVec.toNat_ofNat]; try rfl
    refine ⟨?_, hw ▸ (fits_pack (n := 1) (m := 31) (fits_pack (n := 2) (m := 29) (fits_pack (n := 7) (m := 22) (fits_pack (n := 7) (m := 15) (fits_pack (n := 6) (m := 9) (fits_pack (n := 7) (m := 2) (fits_pack (n := 2) (m := 0) fits_zero)))))) : Fits _ 32), hw ▸ pack_mod _ _, by rw [hop]; decide, ?_⟩
    · rw [raw73 hop]
      simp only [decodeOp73, hk0, reduceIte, Nat.reduceEqDiff, OfNat.ofNat_ne_zero, OfNat.zero_ne_ofNat, OfNat.ofNat_ne_one, OfNat.one_ne_ofNat, zero_ne_one, one_ne_zero, true_and, false_and, and_true, and_false]
      subst hw
      simp (disch := decide) only [fld_pack_lo, fld_pack, Nat.reduceSub]
    · subst hw
      simp (disch := decide) only [fld_pack_lo, fld_pack, Nat.reduceSub])

theorem atomCas32 (x : BitVec 7) (b : BitVec 6) (t : BitVec 7) : Statement (.atomCas32 x b t) :=
  of_word rfl (fun s => by
    rw [show Instr.word (.atomCas32 x b t) s = pack 1 (1#1) (pack 2 s (pack 7 (115#7) (pack 7 t (pack 6 b (pack 7 x (pack 2 (2#2) 0)))))) from rfl]
    generalize hw : pack 1 (1#1) (pack 2 s (pack 7 (115#7) (pack 7 t (pack 6 b (pack 7 x (pack 2 (2#2) 0)))))) = w
    have hop : sel w 3 7 = 115 := by subst hw; simp (disch := decide) only [sel_pack_lo, sel_pack_in, Nat.reduceSub, BitVec.toNat_ofNat]; try rfl
    have hk0 : sel w 30 2 = 2 := by subst hw; simp (disch := decide) only [sel_pack_lo, sel_pack_in, Nat.reduceSub, BitVec.toNat_ofNat]; try rfl
    refine ⟨?_, hw ▸ (fits_pack (n := 1) (m := 31) (fits_pack (n := 2) (m := 29) (fits_pack (n := 7) (m := 22) (fits_pack (n := 7) (m := 15) (fits_pack (n := 6) (m := 9) (fits_pack (n := 7) (m := 2) (fits_pack (n := 2) (m := 0) fits_zero)))))) : Fits _ 32), hw ▸ pack_mod _ _, by rw [hop]; decide, ?_⟩
    · rw [raw73 hop]
      simp only [decodeOp73, hk0, reduceIte, Nat.reduceEqDiff, OfNat.ofNat_ne_zero, OfNat.zero_ne_ofNat, OfNat.ofNat_ne_one, OfNat.one_ne_ofNat, zero_ne_one, one_ne_zero, true_and, false_and, and_true, and_false]
      subst hw
      simp (disch := decide) only [fld_pack_lo, fld_pack, Nat.reduceSub]
    · subst hw
      simp (disch := decide) only [fld_pack_lo, fld_pack, Nat.reduceSub])

theorem atomCas64 (x : BitVec 7) (b : BitVec 6) (t : BitVec 7) : Statement (.atomCas64 x b t) :=
  of_word rfl (fun s => by
    rw [show Instr.word (.atomCas64 x b t) s = pack 1 (1#1) (pack 2 s (pack 7 (115#7) (pack 7 t (pack 6 b (pack 7 x (pack 2 (3#2) 0)))))) from rfl]
    generalize hw : pack 1 (1#1) (pack 2 s (pack 7 (115#7) (pack 7 t (pack 6 b (pack 7 x (pack 2 (3#2) 0)))))) = w
    have hop : sel w 3 7 = 115 := by subst hw; simp (disch := decide) only [sel_pack_lo, sel_pack_in, Nat.reduceSub, BitVec.toNat_ofNat]; try rfl
    have hk0 : sel w 30 2 = 3 := by subst hw; simp (disch := decide) only [sel_pack_lo, sel_pack_in, Nat.reduceSub, BitVec.toNat_ofNat]; try rfl
    refine ⟨?_, hw ▸ (fits_pack (n := 1) (m := 31) (fits_pack (n := 2) (m := 29) (fits_pack (n := 7) (m := 22) (fits_pack (n := 7) (m := 15) (fits_pack (n := 6) (m := 9) (fits_pack (n := 7) (m := 2) (fits_pack (n := 2) (m := 0) fits_zero)))))) : Fits _ 32), hw ▸ pack_mod _ _, by rw [hop]; decide, ?_⟩
    · rw [raw73 hop]
      simp only [decodeOp73, hk0, reduceIte, Nat.reduceEqDiff, OfNat.ofNat_ne_zero, OfNat.zero_ne_ofNat, OfNat.ofNat_ne_one, OfNat.one_ne_ofNat, zero_ne_one, one_ne_zero, true_and, false_and, and_true, and_false]
      subst hw
      simp (disch := decide) only [fld_pack_lo, fld_pack, Nat.reduceSub]
    · subst hw
      simp (disch := decide) only [fld_pack_lo, fld_pack, Nat.reduceSub])

theorem atoms (o : BitVec 4) (x : BitVec 7) (t : BitVec 7) : Statement (.atoms o x t) :=
  of_word rfl (fun s => by
    rw [show Instr.word (.atoms o x t) s = pack 1 (1#1) (pack 2 s (pack 7 (116#7) (pack 7 t (pack 7 x (pack 4 o (pack 4 (0#4) 0)))))) from rfl]
    generalize hw : pack 1 (1#1) (pack 2 s (pack 7 (116#7) (pack 7 t (pack 7 x (pack 4 o (pack 4 (0#4) 0)))))) = w
    have hop : sel w 3 7 = 116 := by subst hw; simp (disch := decide) only [sel_pack_lo, sel_pack_in, Nat.reduceSub, BitVec.toNat_ofNat]; try rfl
    have hk0 : sel w 28 4 = 0 := by subst hw; simp (disch := decide) only [sel_pack_lo, sel_pack_in, Nat.reduceSub, BitVec.toNat_ofNat]; try rfl
    refine ⟨?_, hw ▸ (fits_pack (n := 1) (m := 31) (fits_pack (n := 2) (m := 29) (fits_pack (n := 7) (m := 22) (fits_pack (n := 7) (m := 15) (fits_pack (n := 7) (m := 8) (fits_pack (n := 4) (m := 4) (fits_pack (n := 4) (m := 0) fits_zero)))))) : Fits _ 32), hw ▸ pack_mod _ _, by rw [hop]; decide, ?_⟩
    · rw [raw74 hop]
      simp only [decodeOp74, hk0, reduceIte, Nat.reduceEqDiff, OfNat.ofNat_ne_zero, OfNat.zero_ne_ofNat, OfNat.ofNat_ne_one, OfNat.one_ne_ofNat, zero_ne_one, one_ne_zero, true_and, false_and, and_true, and_false]
      subst hw
      simp (disch := decide) only [fld_pack_lo, fld_pack, Nat.reduceSub]
    · subst hw
      simp (disch := decide) only [fld_pack_lo, fld_pack, Nat.reduceSub])

theorem pref (b : BitVec 6) (a : BitVec 6) : Statement (.pref b a) :=
  of_word rfl (fun s => by
    rw [show Instr.word (.pref b a) s = pack 1 (1#1) (pack 2 s (pack 7 (117#7) (pack 6 a (pack 6 b (pack 10 (0#10) 0))))) from rfl]
    generalize hw : pack 1 (1#1) (pack 2 s (pack 7 (117#7) (pack 6 a (pack 6 b (pack 10 (0#10) 0))))) = w
    have hop : sel w 3 7 = 117 := by subst hw; simp (disch := decide) only [sel_pack_lo, sel_pack_in, Nat.reduceSub, BitVec.toNat_ofNat]; try rfl
    have hk0 : sel w 22 10 = 0 := by subst hw; simp (disch := decide) only [sel_pack_lo, sel_pack_in, Nat.reduceSub, BitVec.toNat_ofNat]; try rfl
    refine ⟨?_, hw ▸ (fits_pack (n := 1) (m := 31) (fits_pack (n := 2) (m := 29) (fits_pack (n := 7) (m := 22) (fits_pack (n := 6) (m := 16) (fits_pack (n := 6) (m := 10) (fits_pack (n := 10) (m := 0) fits_zero))))) : Fits _ 32), hw ▸ pack_mod _ _, by rw [hop]; decide, ?_⟩
    · rw [raw75 hop]
      simp only [decodeOp75, hk0, reduceIte, Nat.reduceEqDiff, OfNat.ofNat_ne_zero, OfNat.zero_ne_ofNat, OfNat.ofNat_ne_one, OfNat.one_ne_ofNat, zero_ne_one, one_ne_zero, true_and, false_and, and_true, and_false]
      subst hw
      simp (disch := decide) only [fld_pack_lo, fld_pack, Nat.reduceSub]
    · subst hw
      simp (disch := decide) only [fld_pack_lo, fld_pack, Nat.reduceSub])

theorem cwb (b : BitVec 6) (a : BitVec 6) : Statement (.cwb b a) :=
  of_word rfl (fun s => by
    rw [show Instr.word (.cwb b a) s = pack 1 (1#1) (pack 2 s (pack 7 (117#7) (pack 6 a (pack 6 b (pack 10 (64#10) 0))))) from rfl]
    generalize hw : pack 1 (1#1) (pack 2 s (pack 7 (117#7) (pack 6 a (pack 6 b (pack 10 (64#10) 0))))) = w
    have hop : sel w 3 7 = 117 := by subst hw; simp (disch := decide) only [sel_pack_lo, sel_pack_in, Nat.reduceSub, BitVec.toNat_ofNat]; try rfl
    have hk0 : sel w 22 10 = 64 := by subst hw; simp (disch := decide) only [sel_pack_lo, sel_pack_in, Nat.reduceSub, BitVec.toNat_ofNat]; try rfl
    refine ⟨?_, hw ▸ (fits_pack (n := 1) (m := 31) (fits_pack (n := 2) (m := 29) (fits_pack (n := 7) (m := 22) (fits_pack (n := 6) (m := 16) (fits_pack (n := 6) (m := 10) (fits_pack (n := 10) (m := 0) fits_zero))))) : Fits _ 32), hw ▸ pack_mod _ _, by rw [hop]; decide, ?_⟩
    · rw [raw75 hop]
      simp only [decodeOp75, hk0, reduceIte, Nat.reduceEqDiff, OfNat.ofNat_ne_zero, OfNat.zero_ne_ofNat, OfNat.ofNat_ne_one, OfNat.one_ne_ofNat, zero_ne_one, one_ne_zero, true_and, false_and, and_true, and_false]
      subst hw
      simp (disch := decide) only [fld_pack_lo, fld_pack, Nat.reduceSub]
    · subst hw
      simp (disch := decide) only [fld_pack_lo, fld_pack, Nat.reduceSub])

theorem cinv (b : BitVec 6) (a : BitVec 6) : Statement (.cinv b a) :=
  of_word rfl (fun s => by
    rw [show Instr.word (.cinv b a) s = pack 1 (1#1) (pack 2 s (pack 7 (117#7) (pack 6 a (pack 6 b (pack 10 (128#10) 0))))) from rfl]
    generalize hw : pack 1 (1#1) (pack 2 s (pack 7 (117#7) (pack 6 a (pack 6 b (pack 10 (128#10) 0))))) = w
    have hop : sel w 3 7 = 117 := by subst hw; simp (disch := decide) only [sel_pack_lo, sel_pack_in, Nat.reduceSub, BitVec.toNat_ofNat]; try rfl
    have hk0 : sel w 22 10 = 128 := by subst hw; simp (disch := decide) only [sel_pack_lo, sel_pack_in, Nat.reduceSub, BitVec.toNat_ofNat]; try rfl
    refine ⟨?_, hw ▸ (fits_pack (n := 1) (m := 31) (fits_pack (n := 2) (m := 29) (fits_pack (n := 7) (m := 22) (fits_pack (n := 6) (m := 16) (fits_pack (n := 6) (m := 10) (fits_pack (n := 10) (m := 0) fits_zero))))) : Fits _ 32), hw ▸ pack_mod _ _, by rw [hop]; decide, ?_⟩
    · rw [raw75 hop]
      simp only [decodeOp75, hk0, reduceIte, Nat.reduceEqDiff, OfNat.ofNat_ne_zero, OfNat.zero_ne_ofNat, OfNat.ofNat_ne_one, OfNat.one_ne_ofNat, zero_ne_one, one_ne_zero, true_and, false_and, and_true, and_false]
      subst hw
      simp (disch := decide) only [fld_pack_lo, fld_pack, Nat.reduceSub]
    · subst hw
      simp (disch := decide) only [fld_pack_lo, fld_pack, Nat.reduceSub])

theorem cwbi (b : BitVec 6) (a : BitVec 6) : Statement (.cwbi b a) :=
  of_word rfl (fun s => by
    rw [show Instr.word (.cwbi b a) s = pack 1 (1#1) (pack 2 s (pack 7 (117#7) (pack 6 a (pack 6 b (pack 10 (192#10) 0))))) from rfl]
    generalize hw : pack 1 (1#1) (pack 2 s (pack 7 (117#7) (pack 6 a (pack 6 b (pack 10 (192#10) 0))))) = w
    have hop : sel w 3 7 = 117 := by subst hw; simp (disch := decide) only [sel_pack_lo, sel_pack_in, Nat.reduceSub, BitVec.toNat_ofNat]; try rfl
    have hk0 : sel w 22 10 = 192 := by subst hw; simp (disch := decide) only [sel_pack_lo, sel_pack_in, Nat.reduceSub, BitVec.toNat_ofNat]; try rfl
    refine ⟨?_, hw ▸ (fits_pack (n := 1) (m := 31) (fits_pack (n := 2) (m := 29) (fits_pack (n := 7) (m := 22) (fits_pack (n := 6) (m := 16) (fits_pack (n := 6) (m := 10) (fits_pack (n := 10) (m := 0) fits_zero))))) : Fits _ 32), hw ▸ pack_mod _ _, by rw [hop]; decide, ?_⟩
    · rw [raw75 hop]
      simp only [decodeOp75, hk0, reduceIte, Nat.reduceEqDiff, OfNat.ofNat_ne_zero, OfNat.zero_ne_ofNat, OfNat.ofNat_ne_one, OfNat.one_ne_ofNat, zero_ne_one, one_ne_zero, true_and, false_and, and_true, and_false]
      subst hw
      simp (disch := decide) only [fld_pack_lo, fld_pack, Nat.reduceSub]
    · subst hw
      simp (disch := decide) only [fld_pack_lo, fld_pack, Nat.reduceSub])

theorem fence (k : BitVec 2) (c : BitVec 3) : Statement (.fence k c) :=
  of_word rfl (fun s => by
    rw [show Instr.word (.fence k c) s = pack 1 (1#1) (pack 2 s (pack 7 (118#7) (pack 3 c (pack 2 k (pack 17 (0#17) 0))))) from rfl]
    generalize hw : pack 1 (1#1) (pack 2 s (pack 7 (118#7) (pack 3 c (pack 2 k (pack 17 (0#17) 0))))) = w
    have hop : sel w 3 7 = 118 := by subst hw; simp (disch := decide) only [sel_pack_lo, sel_pack_in, Nat.reduceSub, BitVec.toNat_ofNat]; try rfl
    have hk0 : sel w 15 17 = 0 := by subst hw; simp (disch := decide) only [sel_pack_lo, sel_pack_in, Nat.reduceSub, BitVec.toNat_ofNat]; try rfl
    refine ⟨?_, hw ▸ (fits_pack (n := 1) (m := 31) (fits_pack (n := 2) (m := 29) (fits_pack (n := 7) (m := 22) (fits_pack (n := 3) (m := 19) (fits_pack (n := 2) (m := 17) (fits_pack (n := 17) (m := 0) fits_zero))))) : Fits _ 32), hw ▸ pack_mod _ _, by rw [hop]; decide, ?_⟩
    · rw [raw76 hop]
      simp only [decodeOp76, hk0, reduceIte, Nat.reduceEqDiff, OfNat.ofNat_ne_zero, OfNat.zero_ne_ofNat, OfNat.ofNat_ne_one, OfNat.one_ne_ofNat, zero_ne_one, one_ne_zero, true_and, false_and, and_true, and_false]
      subst hw
      simp (disch := decide) only [fld_pack_lo, fld_pack, Nat.reduceSub]
    · subst hw
      simp (disch := decide) only [fld_pack_lo, fld_pack, Nat.reduceSub])

theorem pfence (t : BitVec 4) (f : BitVec 4) : Statement (.pfence t f) :=
  of_word rfl (fun s => by
    rw [show Instr.word (.pfence t f) s = pack 1 (1#1) (pack 2 s (pack 7 (119#7) (pack 4 f (pack 4 t (pack 14 (0#14) 0))))) from rfl]
    generalize hw : pack 1 (1#1) (pack 2 s (pack 7 (119#7) (pack 4 f (pack 4 t (pack 14 (0#14) 0))))) = w
    have hop : sel w 3 7 = 119 := by subst hw; simp (disch := decide) only [sel_pack_lo, sel_pack_in, Nat.reduceSub, BitVec.toNat_ofNat]; try rfl
    have hk0 : sel w 18 14 = 0 := by subst hw; simp (disch := decide) only [sel_pack_lo, sel_pack_in, Nat.reduceSub, BitVec.toNat_ofNat]; try rfl
    refine ⟨?_, hw ▸ (fits_pack (n := 1) (m := 31) (fits_pack (n := 2) (m := 29) (fits_pack (n := 7) (m := 22) (fits_pack (n := 4) (m := 18) (fits_pack (n := 4) (m := 14) (fits_pack (n := 14) (m := 0) fits_zero))))) : Fits _ 32), hw ▸ pack_mod _ _, by rw [hop]; decide, ?_⟩
    · rw [raw77 hop]
      simp only [decodeOp77, hk0, reduceIte, Nat.reduceEqDiff, OfNat.ofNat_ne_zero, OfNat.zero_ne_ofNat, OfNat.ofNat_ne_one, OfNat.one_ne_ofNat, zero_ne_one, one_ne_zero, true_and, false_and, and_true, and_false]
      subst hw
      simp (disch := decide) only [fld_pack_lo, fld_pack, Nat.reduceSub]
    · subst hw
      simp (disch := decide) only [fld_pack_lo, fld_pack, Nat.reduceSub])

theorem opinst (b : BitVec 6) (a : BitVec 6) : Statement (.opinst b a) :=
  of_word rfl (fun s => by
    rw [show Instr.word (.opinst b a) s = pack 1 (1#1) (pack 2 s (pack 7 (120#7) (pack 6 a (pack 6 b (pack 10 (0#10) 0))))) from rfl]
    generalize hw : pack 1 (1#1) (pack 2 s (pack 7 (120#7) (pack 6 a (pack 6 b (pack 10 (0#10) 0))))) = w
    have hop : sel w 3 7 = 120 := by subst hw; simp (disch := decide) only [sel_pack_lo, sel_pack_in, Nat.reduceSub, BitVec.toNat_ofNat]; try rfl
    have hk0 : sel w 22 10 = 0 := by subst hw; simp (disch := decide) only [sel_pack_lo, sel_pack_in, Nat.reduceSub, BitVec.toNat_ofNat]; try rfl
    refine ⟨?_, hw ▸ (fits_pack (n := 1) (m := 31) (fits_pack (n := 2) (m := 29) (fits_pack (n := 7) (m := 22) (fits_pack (n := 6) (m := 16) (fits_pack (n := 6) (m := 10) (fits_pack (n := 10) (m := 0) fits_zero))))) : Fits _ 32), hw ▸ pack_mod _ _, by rw [hop]; decide, ?_⟩
    · rw [raw78 hop]
      simp only [decodeOp78, hk0, reduceIte, Nat.reduceEqDiff, OfNat.ofNat_ne_zero, OfNat.zero_ne_ofNat, OfNat.ofNat_ne_one, OfNat.one_ne_ofNat, zero_ne_one, one_ne_zero, true_and, false_and, and_true, and_false]
      subst hw
      simp (disch := decide) only [fld_pack_lo, fld_pack, Nat.reduceSub]
    · subst hw
      simp (disch := decide) only [fld_pack_lo, fld_pack, Nat.reduceSub])

theorem oprem (b : BitVec 6) : Statement (.oprem b) :=
  of_word rfl (fun s => by
    rw [show Instr.word (.oprem b) s = pack 1 (1#1) (pack 2 s (pack 13 (120#13) (pack 6 b (pack 10 (64#10) 0)))) from rfl]
    generalize hw : pack 1 (1#1) (pack 2 s (pack 13 (120#13) (pack 6 b (pack 10 (64#10) 0)))) = w
    have hop : sel w 3 7 = 120 := by subst hw; simp (disch := decide) only [sel_pack_lo, sel_pack_in, Nat.reduceSub, BitVec.toNat_ofNat]; try rfl
    have hk0 : sel w 22 10 = 64 := by subst hw; simp (disch := decide) only [sel_pack_lo, sel_pack_in, Nat.reduceSub, BitVec.toNat_ofNat]; try rfl
    have hk1 : sel w 10 6 = 0 := by subst hw; simp (disch := decide) only [sel_pack_lo, sel_pack_in, Nat.reduceSub, BitVec.toNat_ofNat]; try rfl
    refine ⟨?_, hw ▸ (fits_pack (n := 1) (m := 31) (fits_pack (n := 2) (m := 29) (fits_pack (n := 13) (m := 16) (fits_pack (n := 6) (m := 10) (fits_pack (n := 10) (m := 0) fits_zero)))) : Fits _ 32), hw ▸ pack_mod _ _, by rw [hop]; decide, ?_⟩
    · rw [raw78 hop]
      simp only [decodeOp78, hk0, hk1, reduceIte, Nat.reduceEqDiff, OfNat.ofNat_ne_zero, OfNat.zero_ne_ofNat, OfNat.ofNat_ne_one, OfNat.one_ne_ofNat, zero_ne_one, one_ne_zero, true_and, false_and, and_true, and_false]
      subst hw
      simp (disch := decide) only [fld_pack_lo, fld_pack, Nat.reduceSub]
    · subst hw
      simp (disch := decide) only [fld_pack_lo, fld_pack, Nat.reduceSub])

theorem opfire (c : BitVec 6) (b : BitVec 6) : Statement (.opfire c b) :=
  of_word rfl (fun s => by
    rw [show Instr.word (.opfire c b) s = pack 1 (1#1) (pack 2 s (pack 13 (120#13) (pack 6 b (pack 6 c (pack 4 (2#4) 0))))) from rfl]
    generalize hw : pack 1 (1#1) (pack 2 s (pack 13 (120#13) (pack 6 b (pack 6 c (pack 4 (2#4) 0))))) = w
    have hop : sel w 3 7 = 120 := by subst hw; simp (disch := decide) only [sel_pack_lo, sel_pack_in, Nat.reduceSub, BitVec.toNat_ofNat]; try rfl
    have hk0 : sel w 28 4 = 2 := by subst hw; simp (disch := decide) only [sel_pack_lo, sel_pack_in, Nat.reduceSub, BitVec.toNat_ofNat]; try rfl
    have hn0 : ¬ sel w 22 10 = 0 := sel_ne 22 10 6 4 (by rw [hk0]; decide)
    have hn1 : ¬ sel w 22 10 = 64 := sel_ne 22 10 6 4 (by rw [hk0]; decide)
    have hk1 : sel w 10 6 = 0 := by subst hw; simp (disch := decide) only [sel_pack_lo, sel_pack_in, Nat.reduceSub, BitVec.toNat_ofNat]; try rfl
    refine ⟨?_, hw ▸ (fits_pack (n := 1) (m := 31) (fits_pack (n := 2) (m := 29) (fits_pack (n := 13) (m := 16) (fits_pack (n := 6) (m := 10) (fits_pack (n := 6) (m := 4) (fits_pack (n := 4) (m := 0) fits_zero))))) : Fits _ 32), hw ▸ pack_mod _ _, by rw [hop]; decide, ?_⟩
    · rw [raw78 hop]
      simp only [decodeOp78, hk0, hn0, hn1, hk1, reduceIte, Nat.reduceEqDiff, OfNat.ofNat_ne_zero, OfNat.zero_ne_ofNat, OfNat.ofNat_ne_one, OfNat.one_ne_ofNat, zero_ne_one, one_ne_zero, true_and, false_and, and_true, and_false]
      subst hw
      simp (disch := decide) only [fld_pack_lo, fld_pack, Nat.reduceSub]
    · subst hw
      simp (disch := decide) only [fld_pack_lo, fld_pack, Nat.reduceSub])

theorem opqry (c : BitVec 6) (b : BitVec 6) (a : BitVec 6) : Statement (.opqry c b a) :=
  of_word rfl (fun s => by
    rw [show Instr.word (.opqry c b a) s = pack 1 (1#1) (pack 2 s (pack 7 (120#7) (pack 6 a (pack 6 b (pack 6 c (pack 4 (3#4) 0)))))) from rfl]
    generalize hw : pack 1 (1#1) (pack 2 s (pack 7 (120#7) (pack 6 a (pack 6 b (pack 6 c (pack 4 (3#4) 0)))))) = w
    have hop : sel w 3 7 = 120 := by subst hw; simp (disch := decide) only [sel_pack_lo, sel_pack_in, Nat.reduceSub, BitVec.toNat_ofNat]; try rfl
    have hk0 : sel w 28 4 = 3 := by subst hw; simp (disch := decide) only [sel_pack_lo, sel_pack_in, Nat.reduceSub, BitVec.toNat_ofNat]; try rfl
    have hn0 : ¬ sel w 22 10 = 0 := sel_ne 22 10 6 4 (by rw [hk0]; decide)
    have hn1 : ¬ sel w 22 10 = 64 := sel_ne 22 10 6 4 (by rw [hk0]; decide)
    refine ⟨?_, hw ▸ (fits_pack (n := 1) (m := 31) (fits_pack (n := 2) (m := 29) (fits_pack (n := 7) (m := 22) (fits_pack (n := 6) (m := 16) (fits_pack (n := 6) (m := 10) (fits_pack (n := 6) (m := 4) (fits_pack (n := 4) (m := 0) fits_zero)))))) : Fits _ 32), hw ▸ pack_mod _ _, by rw [hop]; decide, ?_⟩
    · rw [raw78 hop]
      simp only [decodeOp78, hk0, hn0, hn1, reduceIte, Nat.reduceEqDiff, OfNat.ofNat_ne_zero, OfNat.zero_ne_ofNat, OfNat.ofNat_ne_one, OfNat.one_ne_ofNat, zero_ne_one, one_ne_zero, true_and, false_and, and_true, and_false]
      subst hw
      simp (disch := decide) only [fld_pack_lo, fld_pack, Nat.reduceSub]
    · subst hw
      simp (disch := decide) only [fld_pack_lo, fld_pack, Nat.reduceSub])

theorem cseal (a : BitVec 6) : Statement (.cseal a) :=
  of_word rfl (fun s => by
    rw [show Instr.word (.cseal a) s = pack 1 (1#1) (pack 2 s (pack 7 (120#7) (pack 6 a (pack 16 (16384#16) 0)))) from rfl]
    generalize hw : pack 1 (1#1) (pack 2 s (pack 7 (120#7) (pack 6 a (pack 16 (16384#16) 0)))) = w
    have hop : sel w 3 7 = 120 := by subst hw; simp (disch := decide) only [sel_pack_lo, sel_pack_in, Nat.reduceSub, BitVec.toNat_ofNat]; try rfl
    have hk0 : sel w 22 10 = 256 := by subst hw; simp (disch := decide) only [sel_pack_lo, sel_pack_in, Nat.reduceSub, BitVec.toNat_ofNat]; try rfl
    have hk1 : sel w 28 4 = 4 := by subst hw; simp (disch := decide) only [sel_pack_lo, sel_pack_in, Nat.reduceSub, BitVec.toNat_ofNat]; try rfl
    have hk2 : sel w 16 16 = 16384 := by subst hw; simp (disch := decide) only [sel_pack_lo, sel_pack_in, Nat.reduceSub, BitVec.toNat_ofNat]; try rfl
    refine ⟨?_, hw ▸ (fits_pack (n := 1) (m := 31) (fits_pack (n := 2) (m := 29) (fits_pack (n := 7) (m := 22) (fits_pack (n := 6) (m := 16) (fits_pack (n := 16) (m := 0) fits_zero)))) : Fits _ 32), hw ▸ pack_mod _ _, by rw [hop]; decide, ?_⟩
    · rw [raw78 hop]
      simp only [decodeOp78, hk0, hk1, hk2, reduceIte, Nat.reduceEqDiff, OfNat.ofNat_ne_zero, OfNat.zero_ne_ofNat, OfNat.ofNat_ne_one, OfNat.one_ne_ofNat, zero_ne_one, one_ne_zero, true_and, false_and, and_true, and_false]
      subst hw
      simp (disch := decide) only [fld_pack_lo, fld_pack, Nat.reduceSub]
    · subst hw
      simp (disch := decide) only [fld_pack_lo, fld_pack, Nat.reduceSub])

theorem cwait (b : BitVec 6) : Statement (.cwait b) :=
  of_word rfl (fun s => by
    rw [show Instr.word (.cwait b) s = pack 1 (1#1) (pack 2 s (pack 13 (120#13) (pack 6 b (pack 10 (320#10) 0)))) from rfl]
    generalize hw : pack 1 (1#1) (pack 2 s (pack 13 (120#13) (pack 6 b (pack 10 (320#10) 0)))) = w
    have hop : sel w 3 7 = 120 := by subst hw; simp (disch := decide) only [sel_pack_lo, sel_pack_in, Nat.reduceSub, BitVec.toNat_ofNat]; try rfl
    have hk0 : sel w 22 10 = 320 := by subst hw; simp (disch := decide) only [sel_pack_lo, sel_pack_in, Nat.reduceSub, BitVec.toNat_ofNat]; try rfl
    have hk1 : sel w 28 4 = 5 := by subst hw; simp (disch := decide) only [sel_pack_lo, sel_pack_in, Nat.reduceSub, BitVec.toNat_ofNat]; try rfl
    have hn0 : ¬ sel w 16 16 = 16384 := sel_ne 16 16 6 10 (by rw [hk0]; decide)
    have hk2 : sel w 10 6 = 0 := by subst hw; simp (disch := decide) only [sel_pack_lo, sel_pack_in, Nat.reduceSub, BitVec.toNat_ofNat]; try rfl
    refine ⟨?_, hw ▸ (fits_pack (n := 1) (m := 31) (fits_pack (n := 2) (m := 29) (fits_pack (n := 13) (m := 16) (fits_pack (n := 6) (m := 10) (fits_pack (n := 10) (m := 0) fits_zero)))) : Fits _ 32), hw ▸ pack_mod _ _, by rw [hop]; decide, ?_⟩
    · rw [raw78 hop]
      simp only [decodeOp78, hk0, hk1, hn0, hk2, reduceIte, Nat.reduceEqDiff, OfNat.ofNat_ne_zero, OfNat.zero_ne_ofNat, OfNat.ofNat_ne_one, OfNat.one_ne_ofNat, zero_ne_one, one_ne_zero, true_and, false_and, and_true, and_false]
      subst hw
      simp (disch := decide) only [fld_pack_lo, fld_pack, Nat.reduceSub]
    · subst hw
      simp (disch := decide) only [fld_pack_lo, fld_pack, Nat.reduceSub])

theorem cntwait (c : BitVec 6) (b : BitVec 6) : Statement (.cntwait c b) :=
  of_word rfl (fun s => by
    rw [show Instr.word (.cntwait c b) s = pack 1 (1#1) (pack 2 s (pack 13 (120#13) (pack 6 b (pack 6 c (pack 4 (6#4) 0))))) from rfl]
    generalize hw : pack 1 (1#1) (pack 2 s (pack 13 (120#13) (pack 6 b (pack 6 c (pack 4 (6#4) 0))))) = w
    have hop : sel w 3 7 = 120 := by subst hw; simp (disch := decide) only [sel_pack_lo, sel_pack_in, Nat.reduceSub, BitVec.toNat_ofNat]; try rfl
    have hk0 : sel w 28 4 = 6 := by subst hw; simp (disch := decide) only [sel_pack_lo, sel_pack_in, Nat.reduceSub, BitVec.toNat_ofNat]; try rfl
    have hn0 : ¬ sel w 22 10 = 0 := sel_ne 22 10 6 4 (by rw [hk0]; decide)
    have hn1 : ¬ sel w 22 10 = 64 := sel_ne 22 10 6 4 (by rw [hk0]; decide)
    have hn2 : ¬ sel w 16 16 = 16384 := sel_ne 16 16 12 4 (by rw [hk0]; decide)
    have hn3 : ¬ sel w 22 10 = 320 := sel_ne 22 10 6 4 (by rw [hk0]; decide)
    have hk1 : sel w 10 6 = 0 := by subst hw; simp (disch := decide) only [sel_pack_lo, sel_pack_in, Nat.reduceSub, BitVec.toNat_ofNat]; try rfl
    refine ⟨?_, hw ▸ (fits_pack (n := 1) (m := 31) (fits_pack (n := 2) (m := 29) (fits_pack (n := 13) (m := 16) (fits_pack (n := 6) (m := 10) (fits_pack (n := 6) (m := 4) (fits_pack (n := 4) (m := 0) fits_zero))))) : Fits _ 32), hw ▸ pack_mod _ _, by rw [hop]; decide, ?_⟩
    · rw [raw78 hop]
      simp only [decodeOp78, hk0, hn0, hn1, hn2, hn3, hk1, reduceIte, Nat.reduceEqDiff, OfNat.ofNat_ne_zero, OfNat.zero_ne_ofNat, OfNat.ofNat_ne_one, OfNat.one_ne_ofNat, zero_ne_one, one_ne_zero, true_and, false_and, and_true, and_false]
      subst hw
      simp (disch := decide) only [fld_pack_lo, fld_pack, Nat.reduceSub]
    · subst hw
      simp (disch := decide) only [fld_pack_lo, fld_pack, Nat.reduceSub])

theorem cntadd (c : BitVec 6) (b : BitVec 6) : Statement (.cntadd c b) :=
  of_word rfl (fun s => by
    rw [show Instr.word (.cntadd c b) s = pack 1 (1#1) (pack 2 s (pack 13 (120#13) (pack 6 b (pack 6 c (pack 4 (7#4) 0))))) from rfl]
    generalize hw : pack 1 (1#1) (pack 2 s (pack 13 (120#13) (pack 6 b (pack 6 c (pack 4 (7#4) 0))))) = w
    have hop : sel w 3 7 = 120 := by subst hw; simp (disch := decide) only [sel_pack_lo, sel_pack_in, Nat.reduceSub, BitVec.toNat_ofNat]; try rfl
    have hk0 : sel w 28 4 = 7 := by subst hw; simp (disch := decide) only [sel_pack_lo, sel_pack_in, Nat.reduceSub, BitVec.toNat_ofNat]; try rfl
    have hn0 : ¬ sel w 22 10 = 0 := sel_ne 22 10 6 4 (by rw [hk0]; decide)
    have hn1 : ¬ sel w 22 10 = 64 := sel_ne 22 10 6 4 (by rw [hk0]; decide)
    have hn2 : ¬ sel w 16 16 = 16384 := sel_ne 16 16 12 4 (by rw [hk0]; decide)
    have hn3 : ¬ sel w 22 10 = 320 := sel_ne 22 10 6 4 (by rw [hk0]; decide)
    have hk1 : sel w 10 6 = 0 := by subst hw; simp (disch := decide) only [sel_pack_lo, sel_pack_in, Nat.reduceSub, BitVec.toNat_ofNat]; try rfl
    refine ⟨?_, hw ▸ (fits_pack (n := 1) (m := 31) (fits_pack (n := 2) (m := 29) (fits_pack (n := 13) (m := 16) (fits_pack (n := 6) (m := 10) (fits_pack (n := 6) (m := 4) (fits_pack (n := 4) (m := 0) fits_zero))))) : Fits _ 32), hw ▸ pack_mod _ _, by rw [hop]; decide, ?_⟩
    · rw [raw78 hop]
      simp only [decodeOp78, hk0, hn0, hn1, hn2, hn3, hk1, reduceIte, Nat.reduceEqDiff, OfNat.ofNat_ne_zero, OfNat.zero_ne_ofNat, OfNat.ofNat_ne_one, OfNat.one_ne_ofNat, zero_ne_one, one_ne_zero, true_and, false_and, and_true, and_false]
      subst hw
      simp (disch := decide) only [fld_pack_lo, fld_pack, Nat.reduceSub]
    · subst hw
      simp (disch := decide) only [fld_pack_lo, fld_pack, Nat.reduceSub])

theorem cntinit (c : BitVec 6) (b : BitVec 6) : Statement (.cntinit c b) :=
  of_word rfl (fun s => by
    rw [show Instr.word (.cntinit c b) s = pack 1 (1#1) (pack 2 s (pack 13 (120#13) (pack 6 b (pack 6 c (pack 4 (8#4) 0))))) from rfl]
    generalize hw : pack 1 (1#1) (pack 2 s (pack 13 (120#13) (pack 6 b (pack 6 c (pack 4 (8#4) 0))))) = w
    have hop : sel w 3 7 = 120 := by subst hw; simp (disch := decide) only [sel_pack_lo, sel_pack_in, Nat.reduceSub, BitVec.toNat_ofNat]; try rfl
    have hk0 : sel w 28 4 = 8 := by subst hw; simp (disch := decide) only [sel_pack_lo, sel_pack_in, Nat.reduceSub, BitVec.toNat_ofNat]; try rfl
    have hn0 : ¬ sel w 22 10 = 0 := sel_ne 22 10 6 4 (by rw [hk0]; decide)
    have hn1 : ¬ sel w 22 10 = 64 := sel_ne 22 10 6 4 (by rw [hk0]; decide)
    have hn2 : ¬ sel w 16 16 = 16384 := sel_ne 16 16 12 4 (by rw [hk0]; decide)
    have hn3 : ¬ sel w 22 10 = 320 := sel_ne 22 10 6 4 (by rw [hk0]; decide)
    have hk1 : sel w 10 6 = 0 := by subst hw; simp (disch := decide) only [sel_pack_lo, sel_pack_in, Nat.reduceSub, BitVec.toNat_ofNat]; try rfl
    refine ⟨?_, hw ▸ (fits_pack (n := 1) (m := 31) (fits_pack (n := 2) (m := 29) (fits_pack (n := 13) (m := 16) (fits_pack (n := 6) (m := 10) (fits_pack (n := 6) (m := 4) (fits_pack (n := 4) (m := 0) fits_zero))))) : Fits _ 32), hw ▸ pack_mod _ _, by rw [hop]; decide, ?_⟩
    · rw [raw78 hop]
      simp only [decodeOp78, hk0, hn0, hn1, hn2, hn3, hk1, reduceIte, Nat.reduceEqDiff, OfNat.ofNat_ne_zero, OfNat.zero_ne_ofNat, OfNat.ofNat_ne_one, OfNat.one_ne_ofNat, zero_ne_one, one_ne_zero, true_and, false_and, and_true, and_false]
      subst hw
      simp (disch := decide) only [fld_pack_lo, fld_pack, Nat.reduceSub]
    · subst hw
      simp (disch := decide) only [fld_pack_lo, fld_pack, Nat.reduceSub])

theorem mseal (a : BitVec 6) : Statement (.mseal a) :=
  of_word rfl (fun s => by
    rw [show Instr.word (.mseal a) s = pack 1 (1#1) (pack 2 s (pack 7 (120#7) (pack 6 a (pack 16 (36864#16) 0)))) from rfl]
    generalize hw : pack 1 (1#1) (pack 2 s (pack 7 (120#7) (pack 6 a (pack 16 (36864#16) 0)))) = w
    have hop : sel w 3 7 = 120 := by subst hw; simp (disch := decide) only [sel_pack_lo, sel_pack_in, Nat.reduceSub, BitVec.toNat_ofNat]; try rfl
    have hk0 : sel w 22 10 = 576 := by subst hw; simp (disch := decide) only [sel_pack_lo, sel_pack_in, Nat.reduceSub, BitVec.toNat_ofNat]; try rfl
    have hk1 : sel w 28 4 = 9 := by subst hw; simp (disch := decide) only [sel_pack_lo, sel_pack_in, Nat.reduceSub, BitVec.toNat_ofNat]; try rfl
    have hk2 : sel w 16 16 = 36864 := by subst hw; simp (disch := decide) only [sel_pack_lo, sel_pack_in, Nat.reduceSub, BitVec.toNat_ofNat]; try rfl
    refine ⟨?_, hw ▸ (fits_pack (n := 1) (m := 31) (fits_pack (n := 2) (m := 29) (fits_pack (n := 7) (m := 22) (fits_pack (n := 6) (m := 16) (fits_pack (n := 16) (m := 0) fits_zero)))) : Fits _ 32), hw ▸ pack_mod _ _, by rw [hop]; decide, ?_⟩
    · rw [raw78 hop]
      simp only [decodeOp78, hk0, hk1, hk2, reduceIte, Nat.reduceEqDiff, OfNat.ofNat_ne_zero, OfNat.zero_ne_ofNat, OfNat.ofNat_ne_one, OfNat.one_ne_ofNat, zero_ne_one, one_ne_zero, true_and, false_and, and_true, and_false]
      subst hw
      simp (disch := decide) only [fld_pack_lo, fld_pack, Nat.reduceSub]
    · subst hw
      simp (disch := decide) only [fld_pack_lo, fld_pack, Nat.reduceSub])

theorem mwait (b : BitVec 6) : Statement (.mwait b) :=
  of_word rfl (fun s => by
    rw [show Instr.word (.mwait b) s = pack 1 (1#1) (pack 2 s (pack 13 (120#13) (pack 6 b (pack 10 (640#10) 0)))) from rfl]
    generalize hw : pack 1 (1#1) (pack 2 s (pack 13 (120#13) (pack 6 b (pack 10 (640#10) 0)))) = w
    have hop : sel w 3 7 = 120 := by subst hw; simp (disch := decide) only [sel_pack_lo, sel_pack_in, Nat.reduceSub, BitVec.toNat_ofNat]; try rfl
    have hk0 : sel w 22 10 = 640 := by subst hw; simp (disch := decide) only [sel_pack_lo, sel_pack_in, Nat.reduceSub, BitVec.toNat_ofNat]; try rfl
    have hk1 : sel w 28 4 = 10 := by subst hw; simp (disch := decide) only [sel_pack_lo, sel_pack_in, Nat.reduceSub, BitVec.toNat_ofNat]; try rfl
    have hn0 : ¬ sel w 16 16 = 16384 := sel_ne 16 16 6 10 (by rw [hk0]; decide)
    have hn1 : ¬ sel w 16 16 = 36864 := sel_ne 16 16 6 10 (by rw [hk0]; decide)
    have hk2 : sel w 10 6 = 0 := by subst hw; simp (disch := decide) only [sel_pack_lo, sel_pack_in, Nat.reduceSub, BitVec.toNat_ofNat]; try rfl
    refine ⟨?_, hw ▸ (fits_pack (n := 1) (m := 31) (fits_pack (n := 2) (m := 29) (fits_pack (n := 13) (m := 16) (fits_pack (n := 6) (m := 10) (fits_pack (n := 10) (m := 0) fits_zero)))) : Fits _ 32), hw ▸ pack_mod _ _, by rw [hop]; decide, ?_⟩
    · rw [raw78 hop]
      simp only [decodeOp78, hk0, hk1, hn0, hn1, hk2, reduceIte, Nat.reduceEqDiff, OfNat.ofNat_ne_zero, OfNat.zero_ne_ofNat, OfNat.ofNat_ne_one, OfNat.one_ne_ofNat, zero_ne_one, one_ne_zero, true_and, false_and, and_true, and_false]
      subst hw
      simp (disch := decide) only [fld_pack_lo, fld_pack, Nat.reduceSub]
    · subst hw
      simp (disch := decide) only [fld_pack_lo, fld_pack, Nat.reduceSub])

theorem tzero (c : BitVec 5) (a : BitVec 5) : Statement (.tzero c a) :=
  of_word rfl (fun s => by
    rw [show Instr.word (.tzero c a) s = pack 1 (1#1) (pack 2 s (pack 7 (120#7) (pack 5 a (pack 7 (0#7) (pack 5 c (pack 5 (22#5) 0)))))) from rfl]
    generalize hw : pack 1 (1#1) (pack 2 s (pack 7 (120#7) (pack 5 a (pack 7 (0#7) (pack 5 c (pack 5 (22#5) 0)))))) = w
    have hop : sel w 3 7 = 120 := by subst hw; simp (disch := decide) only [sel_pack_lo, sel_pack_in, Nat.reduceSub, BitVec.toNat_ofNat]; try rfl
    have hk0 : sel w 27 5 = 22 := by subst hw; simp (disch := decide) only [sel_pack_lo, sel_pack_in, Nat.reduceSub, BitVec.toNat_ofNat]; try rfl
    have hn0 : ¬ sel w 22 10 = 0 := sel_ne 22 10 5 5 (by rw [hk0]; decide)
    have hn1 : ¬ sel w 22 10 = 64 := sel_ne 22 10 5 5 (by rw [hk0]; decide)
    have hk1 : sel w 28 4 = 11 := by subst hw; simp (disch := decide) only [sel_pack_lo, sel_pack_in, Nat.reduceSub, BitVec.toNat_ofNat]; try rfl
    have hn2 : ¬ sel w 16 16 = 16384 := sel_ne 16 16 11 5 (by rw [hk0]; decide)
    have hn3 : ¬ sel w 22 10 = 320 := sel_ne 22 10 5 5 (by rw [hk0]; decide)
    have hn4 : ¬ sel w 16 16 = 36864 := sel_ne 16 16 11 5 (by rw [hk0]; decide)
    have hn5 : ¬ sel w 22 10 = 640 := sel_ne 22 10 5 5 (by rw [hk0]; decide)
    have hk2 : sel w 15 7 = 0 := by subst hw; simp (disch := decide) only [sel_pack_lo, sel_pack_in, Nat.reduceSub, BitVec.toNat_ofNat]; try rfl
    refine ⟨?_, hw ▸ (fits_pack (n := 1) (m := 31) (fits_pack (n := 2) (m := 29) (fits_pack (n := 7) (m := 22) (fits_pack (n := 5) (m := 17) (fits_pack (n := 7) (m := 10) (fits_pack (n := 5) (m := 5) (fits_pack (n := 5) (m := 0) fits_zero)))))) : Fits _ 32), hw ▸ pack_mod _ _, by rw [hop]; decide, ?_⟩
    · rw [raw78 hop]
      simp only [decodeOp78, hk0, hn0, hn1, hk1, hn2, hn3, hn4, hn5, hk2, reduceIte, Nat.reduceEqDiff, OfNat.ofNat_ne_zero, OfNat.zero_ne_ofNat, OfNat.ofNat_ne_one, OfNat.one_ne_ofNat, zero_ne_one, one_ne_zero, true_and, false_and, and_true, and_false]
      subst hw
      simp (disch := decide) only [fld_pack_lo, fld_pack, Nat.reduceSub]
    · subst hw
      simp (disch := decide) only [fld_pack_lo, fld_pack, Nat.reduceSub])

theorem tsta (c : BitVec 5) (b : BitVec 6) (a : BitVec 5) : Statement (.tsta c b a) :=
  of_word rfl (fun s => by
    rw [show Instr.word (.tsta c b a) s = pack 1 (1#1) (pack 2 s (pack 7 (120#7) (pack 5 a (pack 1 (0#1) (pack 6 b (pack 5 c (pack 5 (24#5) 0))))))) from rfl]
    generalize hw : pack 1 (1#1) (pack 2 s (pack 7 (120#7) (pack 5 a (pack 1 (0#1) (pack 6 b (pack 5 c (pack 5 (24#5) 0))))))) = w
    have hop : sel w 3 7 = 120 := by subst hw; simp (disch := decide) only [sel_pack_lo, sel_pack_in, Nat.reduceSub, BitVec.toNat_ofNat]; try rfl
    have hk0 : sel w 27 5 = 24 := by subst hw; simp (disch := decide) only [sel_pack_lo, sel_pack_in, Nat.reduceSub, BitVec.toNat_ofNat]; try rfl
    have hn0 : ¬ sel w 22 10 = 0 := sel_ne 22 10 5 5 (by rw [hk0]; decide)
    have hn1 : ¬ sel w 22 10 = 64 := sel_ne 22 10 5 5 (by rw [hk0]; decide)
    have hk1 : sel w 28 4 = 12 := by subst hw; simp (disch := decide) only [sel_pack_lo, sel_pack_in, Nat.reduceSub, BitVec.toNat_ofNat]; try rfl
    have hn2 : ¬ sel w 16 16 = 16384 := sel_ne 16 16 11 5 (by rw [hk0]; decide)
    have hn3 : ¬ sel w 22 10 = 320 := sel_ne 22 10 5 5 (by rw [hk0]; decide)
    have hn4 : ¬ sel w 16 16 = 36864 := sel_ne 16 16 11 5 (by rw [hk0]; decide)
    have hn5 : ¬ sel w 22 10 = 640 := sel_ne 22 10 5 5 (by rw [hk0]; decide)
    have hk2 : sel w 15 1 = 0 := by subst hw; simp (disch := decide) only [sel_pack_lo, sel_pack_in, Nat.reduceSub, BitVec.toNat_ofNat]; try rfl
    refine ⟨?_, hw ▸ (fits_pack (n := 1) (m := 31) (fits_pack (n := 2) (m := 29) (fits_pack (n := 7) (m := 22) (fits_pack (n := 5) (m := 17) (fits_pack (n := 1) (m := 16) (fits_pack (n := 6) (m := 10) (fits_pack (n := 5) (m := 5) (fits_pack (n := 5) (m := 0) fits_zero))))))) : Fits _ 32), hw ▸ pack_mod _ _, by rw [hop]; decide, ?_⟩
    · rw [raw78 hop]
      simp only [decodeOp78, hk0, hn0, hn1, hk1, hn2, hn3, hn4, hn5, hk2, reduceIte, Nat.reduceEqDiff, OfNat.ofNat_ne_zero, OfNat.zero_ne_ofNat, OfNat.ofNat_ne_one, OfNat.one_ne_ofNat, zero_ne_one, one_ne_zero, true_and, false_and, and_true, and_false]
      subst hw
      simp (disch := decide) only [fld_pack_lo, fld_pack, Nat.reduceSub]
    · subst hw
      simp (disch := decide) only [fld_pack_lo, fld_pack, Nat.reduceSub])

theorem tlda (c : BitVec 5) (b : BitVec 6) (a : BitVec 5) : Statement (.tlda c b a) :=
  of_word rfl (fun s => by
    rw [show Instr.word (.tlda c b a) s = pack 1 (1#1) (pack 2 s (pack 7 (120#7) (pack 5 a (pack 1 (0#1) (pack 6 b (pack 5 c (pack 5 (26#5) 0))))))) from rfl]
    generalize hw : pack 1 (1#1) (pack 2 s (pack 7 (120#7) (pack 5 a (pack 1 (0#1) (pack 6 b (pack 5 c (pack 5 (26#5) 0))))))) = w
    have hop : sel w 3 7 = 120 := by subst hw; simp (disch := decide) only [sel_pack_lo, sel_pack_in, Nat.reduceSub, BitVec.toNat_ofNat]; try rfl
    have hk0 : sel w 27 5 = 26 := by subst hw; simp (disch := decide) only [sel_pack_lo, sel_pack_in, Nat.reduceSub, BitVec.toNat_ofNat]; try rfl
    have hn0 : ¬ sel w 22 10 = 0 := sel_ne 22 10 5 5 (by rw [hk0]; decide)
    have hn1 : ¬ sel w 22 10 = 64 := sel_ne 22 10 5 5 (by rw [hk0]; decide)
    have hk1 : sel w 28 4 = 13 := by subst hw; simp (disch := decide) only [sel_pack_lo, sel_pack_in, Nat.reduceSub, BitVec.toNat_ofNat]; try rfl
    have hn2 : ¬ sel w 16 16 = 16384 := sel_ne 16 16 11 5 (by rw [hk0]; decide)
    have hn3 : ¬ sel w 22 10 = 320 := sel_ne 22 10 5 5 (by rw [hk0]; decide)
    have hn4 : ¬ sel w 16 16 = 36864 := sel_ne 16 16 11 5 (by rw [hk0]; decide)
    have hn5 : ¬ sel w 22 10 = 640 := sel_ne 22 10 5 5 (by rw [hk0]; decide)
    have hk2 : sel w 15 1 = 0 := by subst hw; simp (disch := decide) only [sel_pack_lo, sel_pack_in, Nat.reduceSub, BitVec.toNat_ofNat]; try rfl
    refine ⟨?_, hw ▸ (fits_pack (n := 1) (m := 31) (fits_pack (n := 2) (m := 29) (fits_pack (n := 7) (m := 22) (fits_pack (n := 5) (m := 17) (fits_pack (n := 1) (m := 16) (fits_pack (n := 6) (m := 10) (fits_pack (n := 5) (m := 5) (fits_pack (n := 5) (m := 0) fits_zero))))))) : Fits _ 32), hw ▸ pack_mod _ _, by rw [hop]; decide, ?_⟩
    · rw [raw78 hop]
      simp only [decodeOp78, hk0, hn0, hn1, hk1, hn2, hn3, hn4, hn5, hk2, reduceIte, Nat.reduceEqDiff, OfNat.ofNat_ne_zero, OfNat.zero_ne_ofNat, OfNat.ofNat_ne_one, OfNat.one_ne_ofNat, zero_ne_one, one_ne_zero, true_and, false_and, and_true, and_false]
      subst hw
      simp (disch := decide) only [fld_pack_lo, fld_pack, Nat.reduceSub]
    · subst hw
      simp (disch := decide) only [fld_pack_lo, fld_pack, Nat.reduceSub])

theorem tmul (j : BitVec 2) (q : BitVec 6) (f : BitVec 2) (c : BitVec 5) (u : BitVec 5) : Statement (.tmul j q f c u) :=
  of_word rfl (fun s => by
    rw [show Instr.word (.tmul j q f c u) s = pack 1 (1#1) (pack 2 s (pack 7 (121#7) (pack 5 u (pack 5 c (pack 2 f (pack 6 q (pack 2 j (pack 2 (0#2) 0)))))))) from rfl]
    generalize hw : pack 1 (1#1) (pack 2 s (pack 7 (121#7) (pack 5 u (pack 5 c (pack 2 f (pack 6 q (pack 2 j (pack 2 (0#2) 0)))))))) = w
    have hop : sel w 3 7 = 121 := by subst hw; simp (disch := decide) only [sel_pack_lo, sel_pack_in, Nat.reduceSub, BitVec.toNat_ofNat]; try rfl
    have hk0 : sel w 30 2 = 0 := by subst hw; simp (disch := decide) only [sel_pack_lo, sel_pack_in, Nat.reduceSub, BitVec.toNat_ofNat]; try rfl
    refine ⟨?_, hw ▸ (fits_pack (n := 1) (m := 31) (fits_pack (n := 2) (m := 29) (fits_pack (n := 7) (m := 22) (fits_pack (n := 5) (m := 17) (fits_pack (n := 5) (m := 12) (fits_pack (n := 2) (m := 10) (fits_pack (n := 6) (m := 4) (fits_pack (n := 2) (m := 2) (fits_pack (n := 2) (m := 0) fits_zero)))))))) : Fits _ 32), hw ▸ pack_mod _ _, by rw [hop]; decide, ?_⟩
    · rw [raw79 hop]
      simp only [decodeOp79, hk0, reduceIte, Nat.reduceEqDiff, OfNat.ofNat_ne_zero, OfNat.zero_ne_ofNat, OfNat.ofNat_ne_one, OfNat.one_ne_ofNat, zero_ne_one, one_ne_zero, true_and, false_and, and_true, and_false]
      subst hw
      simp (disch := decide) only [fld_pack_lo, fld_pack, Nat.reduceSub]
    · subst hw
      simp (disch := decide) only [fld_pack_lo, fld_pack, Nat.reduceSub])

theorem mbinit (c : BitVec 6) (b : BitVec 6) : Statement (.mbinit c b) :=
  of_word rfl (fun s => by
    rw [show Instr.word (.mbinit c b) s = pack 1 (1#1) (pack 2 s (pack 13 (122#13) (pack 6 b (pack 6 c (pack 4 (2#4) 0))))) from rfl]
    generalize hw : pack 1 (1#1) (pack 2 s (pack 13 (122#13) (pack 6 b (pack 6 c (pack 4 (2#4) 0))))) = w
    have hop : sel w 3 7 = 122 := by subst hw; simp (disch := decide) only [sel_pack_lo, sel_pack_in, Nat.reduceSub, BitVec.toNat_ofNat]; try rfl
    have hk0 : sel w 28 4 = 2 := by subst hw; simp (disch := decide) only [sel_pack_lo, sel_pack_in, Nat.reduceSub, BitVec.toNat_ofNat]; try rfl
    have hn0 : ¬ sel w 10 22 = 0 := sel_ne 10 22 18 4 (by rw [hk0]; decide)
    have hn1 : ¬ sel w 10 22 = 262144 := sel_ne 10 22 18 4 (by rw [hk0]; decide)
    have hk1 : sel w 10 6 = 0 := by subst hw; simp (disch := decide) only [sel_pack_lo, sel_pack_in, Nat.reduceSub, BitVec.toNat_ofNat]; try rfl
    refine ⟨?_, hw ▸ (fits_pack (n := 1) (m := 31) (fits_pack (n := 2) (m := 29) (fits_pack (n := 13) (m := 16) (fits_pack (n := 6) (m := 10) (fits_pack (n := 6) (m := 4) (fits_pack (n := 4) (m := 0) fits_zero))))) : Fits _ 32), hw ▸ pack_mod _ _, by rw [hop]; decide, ?_⟩
    · rw [raw7A hop]
      simp only [decodeOp7A, hk0, hn0, hn1, hk1, reduceIte, Nat.reduceEqDiff, OfNat.ofNat_ne_zero, OfNat.zero_ne_ofNat, OfNat.ofNat_ne_one, OfNat.one_ne_ofNat, zero_ne_one, one_ne_zero, true_and, false_and, and_true, and_false]
      subst hw
      simp (disch := decide) only [fld_pack_lo, fld_pack, Nat.reduceSub]
    · subst hw
      simp (disch := decide) only [fld_pack_lo, fld_pack, Nat.reduceSub])

theorem mbarr (b : BitVec 6) : Statement (.mbarr b) :=
  of_word rfl (fun s => by
    rw [show Instr.word (.mbarr b) s = pack 1 (1#1) (pack 2 s (pack 13 (122#13) (pack 6 b (pack 10 (192#10) 0)))) from rfl]
    generalize hw : pack 1 (1#1) (pack 2 s (pack 13 (122#13) (pack 6 b (pack 10 (192#10) 0)))) = w
    have hop : sel w 3 7 = 122 := by subst hw; simp (disch := decide) only [sel_pack_lo, sel_pack_in, Nat.reduceSub, BitVec.toNat_ofNat]; try rfl
    have hk0 : sel w 22 10 = 192 := by subst hw; simp (disch := decide) only [sel_pack_lo, sel_pack_in, Nat.reduceSub, BitVec.toNat_ofNat]; try rfl
    have hn0 : ¬ sel w 10 22 = 0 := sel_ne 10 22 12 10 (by rw [hk0]; decide)
    have hn1 : ¬ sel w 10 22 = 262144 := sel_ne 10 22 12 10 (by rw [hk0]; decide)
    have hk1 : sel w 28 4 = 3 := by subst hw; simp (disch := decide) only [sel_pack_lo, sel_pack_in, Nat.reduceSub, BitVec.toNat_ofNat]; try rfl
    have hk2 : sel w 10 6 = 0 := by subst hw; simp (disch := decide) only [sel_pack_lo, sel_pack_in, Nat.reduceSub, BitVec.toNat_ofNat]; try rfl
    refine ⟨?_, hw ▸ (fits_pack (n := 1) (m := 31) (fits_pack (n := 2) (m := 29) (fits_pack (n := 13) (m := 16) (fits_pack (n := 6) (m := 10) (fits_pack (n := 10) (m := 0) fits_zero)))) : Fits _ 32), hw ▸ pack_mod _ _, by rw [hop]; decide, ?_⟩
    · rw [raw7A hop]
      simp only [decodeOp7A, hk0, hn0, hn1, hk1, hk2, reduceIte, Nat.reduceEqDiff, OfNat.ofNat_ne_zero, OfNat.zero_ne_ofNat, OfNat.ofNat_ne_one, OfNat.one_ne_ofNat, zero_ne_one, one_ne_zero, true_and, false_and, and_true, and_false]
      subst hw
      simp (disch := decide) only [fld_pack_lo, fld_pack, Nat.reduceSub]
    · subst hw
      simp (disch := decide) only [fld_pack_lo, fld_pack, Nat.reduceSub])

theorem mbexp (c : BitVec 6) (b : BitVec 6) : Statement (.mbexp c b) :=
  of_word rfl (fun s => by
    rw [show Instr.word (.mbexp c b) s = pack 1 (1#1) (pack 2 s (pack 13 (122#13) (pack 6 b (pack 6 c (pack 4 (4#4) 0))))) from rfl]
    generalize hw : pack 1 (1#1) (pack 2 s (pack 13 (122#13) (pack 6 b (pack 6 c (pack 4 (4#4) 0))))) = w
    have hop : sel w 3 7 = 122 := by subst hw; simp (disch := decide) only [sel_pack_lo, sel_pack_in, Nat.reduceSub, BitVec.toNat_ofNat]; try rfl
    have hk0 : sel w 28 4 = 4 := by subst hw; simp (disch := decide) only [sel_pack_lo, sel_pack_in, Nat.reduceSub, BitVec.toNat_ofNat]; try rfl
    have hn0 : ¬ sel w 10 22 = 0 := sel_ne 10 22 18 4 (by rw [hk0]; decide)
    have hn1 : ¬ sel w 10 22 = 262144 := sel_ne 10 22 18 4 (by rw [hk0]; decide)
    have hn2 : ¬ sel w 22 10 = 192 := sel_ne 22 10 6 4 (by rw [hk0]; decide)
    have hk1 : sel w 10 6 = 0 := by subst hw; simp (disch := decide) only [sel_pack_lo, sel_pack_in, Nat.reduceSub, BitVec.toNat_ofNat]; try rfl
    refine ⟨?_, hw ▸ (fits_pack (n := 1) (m := 31) (fits_pack (n := 2) (m := 29) (fits_pack (n := 13) (m := 16) (fits_pack (n := 6) (m := 10) (fits_pack (n := 6) (m := 4) (fits_pack (n := 4) (m := 0) fits_zero))))) : Fits _ 32), hw ▸ pack_mod _ _, by rw [hop]; decide, ?_⟩
    · rw [raw7A hop]
      simp only [decodeOp7A, hk0, hn0, hn1, hn2, hk1, reduceIte, Nat.reduceEqDiff, OfNat.ofNat_ne_zero, OfNat.zero_ne_ofNat, OfNat.ofNat_ne_one, OfNat.one_ne_ofNat, zero_ne_one, one_ne_zero, true_and, false_and, and_true, and_false]
      subst hw
      simp (disch := decide) only [fld_pack_lo, fld_pack, Nat.reduceSub]
    · subst hw
      simp (disch := decide) only [fld_pack_lo, fld_pack, Nat.reduceSub])

theorem mbwait (c : BitVec 6) (b : BitVec 6) : Statement (.mbwait c b) :=
  of_word rfl (fun s => by
    rw [show Instr.word (.mbwait c b) s = pack 1 (1#1) (pack 2 s (pack 13 (122#13) (pack 6 b (pack 6 c (pack 4 (5#4) 0))))) from rfl]
    generalize hw : pack 1 (1#1) (pack 2 s (pack 13 (122#13) (pack 6 b (pack 6 c (pack 4 (5#4) 0))))) = w
    have hop : sel w 3 7 = 122 := by subst hw; simp (disch := decide) only [sel_pack_lo, sel_pack_in, Nat.reduceSub, BitVec.toNat_ofNat]; try rfl
    have hk0 : sel w 28 4 = 5 := by subst hw; simp (disch := decide) only [sel_pack_lo, sel_pack_in, Nat.reduceSub, BitVec.toNat_ofNat]; try rfl
    have hn0 : ¬ sel w 10 22 = 0 := sel_ne 10 22 18 4 (by rw [hk0]; decide)
    have hn1 : ¬ sel w 10 22 = 262144 := sel_ne 10 22 18 4 (by rw [hk0]; decide)
    have hn2 : ¬ sel w 22 10 = 192 := sel_ne 22 10 6 4 (by rw [hk0]; decide)
    have hk1 : sel w 10 6 = 0 := by subst hw; simp (disch := decide) only [sel_pack_lo, sel_pack_in, Nat.reduceSub, BitVec.toNat_ofNat]; try rfl
    refine ⟨?_, hw ▸ (fits_pack (n := 1) (m := 31) (fits_pack (n := 2) (m := 29) (fits_pack (n := 13) (m := 16) (fits_pack (n := 6) (m := 10) (fits_pack (n := 6) (m := 4) (fits_pack (n := 4) (m := 0) fits_zero))))) : Fits _ 32), hw ▸ pack_mod _ _, by rw [hop]; decide, ?_⟩
    · rw [raw7A hop]
      simp only [decodeOp7A, hk0, hn0, hn1, hn2, hk1, reduceIte, Nat.reduceEqDiff, OfNat.ofNat_ne_zero, OfNat.zero_ne_ofNat, OfNat.ofNat_ne_one, OfNat.one_ne_ofNat, zero_ne_one, one_ne_zero, true_and, false_and, and_true, and_false]
      subst hw
      simp (disch := decide) only [fld_pack_lo, fld_pack, Nat.reduceSub]
    · subst hw
      simp (disch := decide) only [fld_pack_lo, fld_pack, Nat.reduceSub])

theorem mbtry (c : BitVec 6) (b : BitVec 6) (a : BitVec 6) : Statement (.mbtry c b a) :=
  of_word rfl (fun s => by
    rw [show Instr.word (.mbtry c b a) s = pack 1 (1#1) (pack 2 s (pack 7 (122#7) (pack 6 a (pack 6 b (pack 6 c (pack 4 (6#4) 0)))))) from rfl]
    generalize hw : pack 1 (1#1) (pack 2 s (pack 7 (122#7) (pack 6 a (pack 6 b (pack 6 c (pack 4 (6#4) 0)))))) = w
    have hop : sel w 3 7 = 122 := by subst hw; simp (disch := decide) only [sel_pack_lo, sel_pack_in, Nat.reduceSub, BitVec.toNat_ofNat]; try rfl
    have hk0 : sel w 28 4 = 6 := by subst hw; simp (disch := decide) only [sel_pack_lo, sel_pack_in, Nat.reduceSub, BitVec.toNat_ofNat]; try rfl
    have hn0 : ¬ sel w 10 22 = 0 := sel_ne 10 22 18 4 (by rw [hk0]; decide)
    have hn1 : ¬ sel w 10 22 = 262144 := sel_ne 10 22 18 4 (by rw [hk0]; decide)
    have hn2 : ¬ sel w 22 10 = 192 := sel_ne 22 10 6 4 (by rw [hk0]; decide)
    refine ⟨?_, hw ▸ (fits_pack (n := 1) (m := 31) (fits_pack (n := 2) (m := 29) (fits_pack (n := 7) (m := 22) (fits_pack (n := 6) (m := 16) (fits_pack (n := 6) (m := 10) (fits_pack (n := 6) (m := 4) (fits_pack (n := 4) (m := 0) fits_zero)))))) : Fits _ 32), hw ▸ pack_mod _ _, by rw [hop]; decide, ?_⟩
    · rw [raw7A hop]
      simp only [decodeOp7A, hk0, hn0, hn1, hn2, reduceIte, Nat.reduceEqDiff, OfNat.ofNat_ne_zero, OfNat.zero_ne_ofNat, OfNat.ofNat_ne_one, OfNat.one_ne_ofNat, zero_ne_one, one_ne_zero, true_and, false_and, and_true, and_false]
      subst hw
      simp (disch := decide) only [fld_pack_lo, fld_pack, Nat.reduceSub]
    · subst hw
      simp (disch := decide) only [fld_pack_lo, fld_pack, Nat.reduceSub])

theorem walk (b : BitVec 6) (a : BitVec 6) : Statement (.walk b a) :=
  of_word rfl (fun s => by
    rw [show Instr.word (.walk b a) s = pack 1 (1#1) (pack 2 s (pack 7 (122#7) (pack 6 a (pack 6 b (pack 10 (448#10) 0))))) from rfl]
    generalize hw : pack 1 (1#1) (pack 2 s (pack 7 (122#7) (pack 6 a (pack 6 b (pack 10 (448#10) 0))))) = w
    have hop : sel w 3 7 = 122 := by subst hw; simp (disch := decide) only [sel_pack_lo, sel_pack_in, Nat.reduceSub, BitVec.toNat_ofNat]; try rfl
    have hk0 : sel w 22 10 = 448 := by subst hw; simp (disch := decide) only [sel_pack_lo, sel_pack_in, Nat.reduceSub, BitVec.toNat_ofNat]; try rfl
    have hn0 : ¬ sel w 10 22 = 0 := sel_ne 10 22 12 10 (by rw [hk0]; decide)
    have hn1 : ¬ sel w 10 22 = 262144 := sel_ne 10 22 12 10 (by rw [hk0]; decide)
    have hk1 : sel w 28 4 = 7 := by subst hw; simp (disch := decide) only [sel_pack_lo, sel_pack_in, Nat.reduceSub, BitVec.toNat_ofNat]; try rfl
    refine ⟨?_, hw ▸ (fits_pack (n := 1) (m := 31) (fits_pack (n := 2) (m := 29) (fits_pack (n := 7) (m := 22) (fits_pack (n := 6) (m := 16) (fits_pack (n := 6) (m := 10) (fits_pack (n := 10) (m := 0) fits_zero))))) : Fits _ 32), hw ▸ pack_mod _ _, by rw [hop]; decide, ?_⟩
    · rw [raw7A hop]
      simp only [decodeOp7A, hk0, hn0, hn1, hk1, reduceIte, Nat.reduceEqDiff, OfNat.ofNat_ne_zero, OfNat.zero_ne_ofNat, OfNat.ofNat_ne_one, OfNat.one_ne_ofNat, zero_ne_one, one_ne_zero, true_and, false_and, and_true, and_false]
      subst hw
      simp (disch := decide) only [fld_pack_lo, fld_pack, Nat.reduceSub]
    · subst hw
      simp (disch := decide) only [fld_pack_lo, fld_pack, Nat.reduceSub])

theorem wnext (a : BitVec 6) : Statement (.wnext a) :=
  of_word rfl (fun s => by
    rw [show Instr.word (.wnext a) s = pack 1 (1#1) (pack 2 s (pack 7 (122#7) (pack 6 a (pack 16 (32768#16) 0)))) from rfl]
    generalize hw : pack 1 (1#1) (pack 2 s (pack 7 (122#7) (pack 6 a (pack 16 (32768#16) 0)))) = w
    have hop : sel w 3 7 = 122 := by subst hw; simp (disch := decide) only [sel_pack_lo, sel_pack_in, Nat.reduceSub, BitVec.toNat_ofNat]; try rfl
    have hk0 : sel w 16 16 = 32768 := by subst hw; simp (disch := decide) only [sel_pack_lo, sel_pack_in, Nat.reduceSub, BitVec.toNat_ofNat]; try rfl
    have hn0 : ¬ sel w 10 22 = 0 := sel_ne 10 22 6 16 (by rw [hk0]; decide)
    have hn1 : ¬ sel w 10 22 = 262144 := sel_ne 10 22 6 16 (by rw [hk0]; decide)
    have hk1 : sel w 28 4 = 8 := by subst hw; simp (disch := decide) only [sel_pack_lo, sel_pack_in, Nat.reduceSub, BitVec.toNat_ofNat]; try rfl
    have hk2 : sel w 22 10 = 512 := by subst hw; simp (disch := decide) only [sel_pack_lo, sel_pack_in, Nat.reduceSub, BitVec.toNat_ofNat]; try rfl
    refine ⟨?_, hw ▸ (fits_pack (n := 1) (m := 31) (fits_pack (n := 2) (m := 29) (fits_pack (n := 7) (m := 22) (fits_pack (n := 6) (m := 16) (fits_pack (n := 16) (m := 0) fits_zero)))) : Fits _ 32), hw ▸ pack_mod _ _, by rw [hop]; decide, ?_⟩
    · rw [raw7A hop]
      simp only [decodeOp7A, hk0, hn0, hn1, hk1, hk2, reduceIte, Nat.reduceEqDiff, OfNat.ofNat_ne_zero, OfNat.zero_ne_ofNat, OfNat.ofNat_ne_one, OfNat.one_ne_ofNat, zero_ne_one, one_ne_zero, true_and, false_and, and_true, and_false]
      subst hw
      simp (disch := decide) only [fld_pack_lo, fld_pack, Nat.reduceSub]
    · subst hw
      simp (disch := decide) only [fld_pack_lo, fld_pack, Nat.reduceSub])

theorem trda (c : BitVec 6) (u : BitVec 5) (t : BitVec 7) : Statement (.trda c u t) :=
  of_word rfl (fun s => by
    rw [show Instr.word (.trda c u t) s = pack 1 (1#1) (pack 2 s (pack 7 (123#7) (pack 7 t (pack 5 u (pack 2 (0#2) (pack 6 c (pack 2 (0#2) 0))))))) from rfl]
    generalize hw : pack 1 (1#1) (pack 2 s (pack 7 (123#7) (pack 7 t (pack 5 u (pack 2 (0#2) (pack 6 c (pack 2 (0#2) 0))))))) = w
    have hop : sel w 3 7 = 123 := by subst hw; simp (disch := decide) only [sel_pack_lo, sel_pack_in, Nat.reduceSub, BitVec.toNat_ofNat]; try rfl
    have hk0 : sel w 22 2 = 0 := by subst hw; simp (disch := decide) only [sel_pack_lo, sel_pack_in, Nat.reduceSub, BitVec.toNat_ofNat]; try rfl
    have hk1 : sel w 30 2 = 0 := by subst hw; simp (disch := decide) only [sel_pack_lo, sel_pack_in, Nat.reduceSub, BitVec.toNat_ofNat]; try rfl
    refine ⟨?_, hw ▸ (fits_pack (n := 1) (m := 31) (fits_pack (n := 2) (m := 29) (fits_pack (n := 7) (m := 22) (fits_pack (n := 7) (m := 15) (fits_pack (n := 5) (m := 10) (fits_pack (n := 2) (m := 8) (fits_pack (n := 6) (m := 2) (fits_pack (n := 2) (m := 0) fits_zero))))))) : Fits _ 32), hw ▸ pack_mod _ _, by rw [hop]; decide, ?_⟩
    · rw [raw7B hop]
      simp only [decodeOp7B, hk0, hk1, reduceIte, Nat.reduceEqDiff, OfNat.ofNat_ne_zero, OfNat.zero_ne_ofNat, OfNat.ofNat_ne_one, OfNat.one_ne_ofNat, zero_ne_one, one_ne_zero, true_and, false_and, and_true, and_false]
      subst hw
      simp (disch := decide) only [fld_pack_lo, fld_pack, Nat.reduceSub]
    · subst hw
      simp (disch := decide) only [fld_pack_lo, fld_pack, Nat.reduceSub])

theorem twra (c : BitVec 6) (u : BitVec 5) (t : BitVec 7) : Statement (.twra c u t) :=
  of_word rfl (fun s => by
    rw [show Instr.word (.twra c u t) s = pack 1 (1#1) (pack 2 s (pack 7 (123#7) (pack 7 t (pack 5 u (pack 2 (1#2) (pack 6 c (pack 2 (0#2) 0))))))) from rfl]
    generalize hw : pack 1 (1#1) (pack 2 s (pack 7 (123#7) (pack 7 t (pack 5 u (pack 2 (1#2) (pack 6 c (pack 2 (0#2) 0))))))) = w
    have hop : sel w 3 7 = 123 := by subst hw; simp (disch := decide) only [sel_pack_lo, sel_pack_in, Nat.reduceSub, BitVec.toNat_ofNat]; try rfl
    have hk0 : sel w 22 2 = 1 := by subst hw; simp (disch := decide) only [sel_pack_lo, sel_pack_in, Nat.reduceSub, BitVec.toNat_ofNat]; try rfl
    have hk1 : sel w 30 2 = 0 := by subst hw; simp (disch := decide) only [sel_pack_lo, sel_pack_in, Nat.reduceSub, BitVec.toNat_ofNat]; try rfl
    refine ⟨?_, hw ▸ (fits_pack (n := 1) (m := 31) (fits_pack (n := 2) (m := 29) (fits_pack (n := 7) (m := 22) (fits_pack (n := 7) (m := 15) (fits_pack (n := 5) (m := 10) (fits_pack (n := 2) (m := 8) (fits_pack (n := 6) (m := 2) (fits_pack (n := 2) (m := 0) fits_zero))))))) : Fits _ 32), hw ▸ pack_mod _ _, by rw [hop]; decide, ?_⟩
    · rw [raw7B hop]
      simp only [decodeOp7B, hk0, hk1, reduceIte, Nat.reduceEqDiff, OfNat.ofNat_ne_zero, OfNat.zero_ne_ofNat, OfNat.ofNat_ne_one, OfNat.one_ne_ofNat, zero_ne_one, one_ne_zero, true_and, false_and, and_true, and_false]
      subst hw
      simp (disch := decide) only [fld_pack_lo, fld_pack, Nat.reduceSub]
    · subst hw
      simp (disch := decide) only [fld_pack_lo, fld_pack, Nat.reduceSub])

theorem shpub (c : BitVec 6) (b : BitVec 6) (a : BitVec 6) : Statement (.shpub c b a) :=
  of_word rfl (fun s => by
    rw [show Instr.word (.shpub c b a) s = pack 1 (1#1) (pack 2 s (pack 7 (124#7) (pack 6 a (pack 6 b (pack 6 c (pack 4 (0#4) 0)))))) from rfl]
    generalize hw : pack 1 (1#1) (pack 2 s (pack 7 (124#7) (pack 6 a (pack 6 b (pack 6 c (pack 4 (0#4) 0)))))) = w
    have hop : sel w 3 7 = 124 := by subst hw; simp (disch := decide) only [sel_pack_lo, sel_pack_in, Nat.reduceSub, BitVec.toNat_ofNat]; try rfl
    have hk0 : sel w 28 4 = 0 := by subst hw; simp (disch := decide) only [sel_pack_lo, sel_pack_in, Nat.reduceSub, BitVec.toNat_ofNat]; try rfl
    refine ⟨?_, hw ▸ (fits_pack (n := 1) (m := 31) (fits_pack (n := 2) (m := 29) (fits_pack (n := 7) (m := 22) (fits_pack (n := 6) (m := 16) (fits_pack (n := 6) (m := 10) (fits_pack (n := 6) (m := 4) (fits_pack (n := 4) (m := 0) fits_zero)))))) : Fits _ 32), hw ▸ pack_mod _ _, by rw [hop]; decide, ?_⟩
    · rw [raw7C hop]
      simp only [decodeOp7C, hk0, reduceIte, Nat.reduceEqDiff, OfNat.ofNat_ne_zero, OfNat.zero_ne_ofNat, OfNat.ofNat_ne_one, OfNat.one_ne_ofNat, zero_ne_one, one_ne_zero, true_and, false_and, and_true, and_false]
      subst hw
      simp (disch := decide) only [fld_pack_lo, fld_pack, Nat.reduceSub]
    · subst hw
      simp (disch := decide) only [fld_pack_lo, fld_pack, Nat.reduceSub])

theorem shqry (a : BitVec 6) : Statement (.shqry a) :=
  of_word rfl (fun s => by
    rw [show Instr.word (.shqry a) s = pack 1 (1#1) (pack 2 s (pack 7 (124#7) (pack 6 a (pack 16 (8192#16) 0)))) from rfl]
    generalize hw : pack 1 (1#1) (pack 2 s (pack 7 (124#7) (pack 6 a (pack 16 (8192#16) 0)))) = w
    have hop : sel w 3 7 = 124 := by subst hw; simp (disch := decide) only [sel_pack_lo, sel_pack_in, Nat.reduceSub, BitVec.toNat_ofNat]; try rfl
    have hk0 : sel w 28 4 = 2 := by subst hw; simp (disch := decide) only [sel_pack_lo, sel_pack_in, Nat.reduceSub, BitVec.toNat_ofNat]; try rfl
    have hk1 : sel w 16 16 = 8192 := by subst hw; simp (disch := decide) only [sel_pack_lo, sel_pack_in, Nat.reduceSub, BitVec.toNat_ofNat]; try rfl
    have hn0 : ¬ sel w 10 22 = 262144 := sel_ne 10 22 6 16 (by rw [hk1]; decide)
    refine ⟨?_, hw ▸ (fits_pack (n := 1) (m := 31) (fits_pack (n := 2) (m := 29) (fits_pack (n := 7) (m := 22) (fits_pack (n := 6) (m := 16) (fits_pack (n := 16) (m := 0) fits_zero)))) : Fits _ 32), hw ▸ pack_mod _ _, by rw [hop]; decide, ?_⟩
    · rw [raw7C hop]
      simp only [decodeOp7C, hk0, hk1, hn0, reduceIte, Nat.reduceEqDiff, OfNat.ofNat_ne_zero, OfNat.zero_ne_ofNat, OfNat.ofNat_ne_one, OfNat.one_ne_ofNat, zero_ne_one, one_ne_zero, true_and, false_and, and_true, and_false]
      subst hw
      simp (disch := decide) only [fld_pack_lo, fld_pack, Nat.reduceSub]
    · subst hw
      simp (disch := decide) only [fld_pack_lo, fld_pack, Nat.reduceSub])

theorem ralloc (b : BitVec 6) (a : BitVec 6) : Statement (.ralloc b a) :=
  of_word rfl (fun s => by
    rw [show Instr.word (.ralloc b a) s = pack 1 (1#1) (pack 2 s (pack 7 (124#7) (pack 6 a (pack 6 b (pack 10 (192#10) 0))))) from rfl]
    generalize hw : pack 1 (1#1) (pack 2 s (pack 7 (124#7) (pack 6 a (pack 6 b (pack 10 (192#10) 0))))) = w
    have hop : sel w 3 7 = 124 := by subst hw; simp (disch := decide) only [sel_pack_lo, sel_pack_in, Nat.reduceSub, BitVec.toNat_ofNat]; try rfl
    have hk0 : sel w 28 4 = 3 := by subst hw; simp (disch := decide) only [sel_pack_lo, sel_pack_in, Nat.reduceSub, BitVec.toNat_ofNat]; try rfl
    have hk1 : sel w 22 10 = 192 := by subst hw; simp (disch := decide) only [sel_pack_lo, sel_pack_in, Nat.reduceSub, BitVec.toNat_ofNat]; try rfl
    have hn0 : ¬ sel w 10 22 = 262144 := sel_ne 10 22 12 10 (by rw [hk1]; decide)
    have hn1 : ¬ sel w 16 16 = 8192 := sel_ne 16 16 6 10 (by rw [hk1]; decide)
    refine ⟨?_, hw ▸ (fits_pack (n := 1) (m := 31) (fits_pack (n := 2) (m := 29) (fits_pack (n := 7) (m := 22) (fits_pack (n := 6) (m := 16) (fits_pack (n := 6) (m := 10) (fits_pack (n := 10) (m := 0) fits_zero))))) : Fits _ 32), hw ▸ pack_mod _ _, by rw [hop]; decide, ?_⟩
    · rw [raw7C hop]
      simp only [decodeOp7C, hk0, hk1, hn0, hn1, reduceIte, Nat.reduceEqDiff, OfNat.ofNat_ne_zero, OfNat.zero_ne_ofNat, OfNat.ofNat_ne_one, OfNat.one_ne_ofNat, zero_ne_one, one_ne_zero, true_and, false_and, and_true, and_false]
      subst hw
      simp (disch := decide) only [fld_pack_lo, fld_pack, Nat.reduceSub]
    · subst hw
      simp (disch := decide) only [fld_pack_lo, fld_pack, Nat.reduceSub])

theorem rfree (b : BitVec 6) : Statement (.rfree b) :=
  of_word rfl (fun s => by
    rw [show Instr.word (.rfree b) s = pack 1 (1#1) (pack 2 s (pack 13 (124#13) (pack 6 b (pack 10 (256#10) 0)))) from rfl]
    generalize hw : pack 1 (1#1) (pack 2 s (pack 13 (124#13) (pack 6 b (pack 10 (256#10) 0)))) = w
    have hop : sel w 3 7 = 124 := by subst hw; simp (disch := decide) only [sel_pack_lo, sel_pack_in, Nat.reduceSub, BitVec.toNat_ofNat]; try rfl
    have hk0 : sel w 28 4 = 4 := by subst hw; simp (disch := decide) only [sel_pack_lo, sel_pack_in, Nat.reduceSub, BitVec.toNat_ofNat]; try rfl
    have hk1 : sel w 22 10 = 256 := by subst hw; simp (disch := decide) only [sel_pack_lo, sel_pack_in, Nat.reduceSub, BitVec.toNat_ofNat]; try rfl
    have hn0 : ¬ sel w 10 22 = 262144 := sel_ne 10 22 12 10 (by rw [hk1]; decide)
    have hn1 : ¬ sel w 16 16 = 8192 := sel_ne 16 16 6 10 (by rw [hk1]; decide)
    have hk2 : sel w 10 6 = 0 := by subst hw; simp (disch := decide) only [sel_pack_lo, sel_pack_in, Nat.reduceSub, BitVec.toNat_ofNat]; try rfl
    refine ⟨?_, hw ▸ (fits_pack (n := 1) (m := 31) (fits_pack (n := 2) (m := 29) (fits_pack (n := 13) (m := 16) (fits_pack (n := 6) (m := 10) (fits_pack (n := 10) (m := 0) fits_zero)))) : Fits _ 32), hw ▸ pack_mod _ _, by rw [hop]; decide, ?_⟩
    · rw [raw7C hop]
      simp only [decodeOp7C, hk0, hk1, hn0, hn1, hk2, reduceIte, Nat.reduceEqDiff, OfNat.ofNat_ne_zero, OfNat.zero_ne_ofNat, OfNat.ofNat_ne_one, OfNat.one_ne_ofNat, zero_ne_one, one_ne_zero, true_and, false_and, and_true, and_false]
      subst hw
      simp (disch := decide) only [fld_pack_lo, fld_pack, Nat.reduceSub]
    · subst hw
      simp (disch := decide) only [fld_pack_lo, fld_pack, Nat.reduceSub])

theorem trap (n : BitVec 12) : Statement (.trap n) :=
  of_word rfl (fun s => by
    rw [show Instr.word (.trap n) s = pack 1 (1#1) (pack 2 s (pack 13 (124#13) (pack 12 n (pack 4 (6#4) 0)))) from rfl]
    generalize hw : pack 1 (1#1) (pack 2 s (pack 13 (124#13) (pack 12 n (pack 4 (6#4) 0)))) = w
    have hop : sel w 3 7 = 124 := by subst hw; simp (disch := decide) only [sel_pack_lo, sel_pack_in, Nat.reduceSub, BitVec.toNat_ofNat]; try rfl
    have hk0 : sel w 28 4 = 6 := by subst hw; simp (disch := decide) only [sel_pack_lo, sel_pack_in, Nat.reduceSub, BitVec.toNat_ofNat]; try rfl
    have hn0 : ¬ sel w 10 22 = 262144 := sel_ne 10 22 18 4 (by rw [hk0]; decide)
    have hn1 : ¬ sel w 16 16 = 8192 := sel_ne 16 16 12 4 (by rw [hk0]; decide)
    have hn2 : ¬ sel w 22 10 = 192 := sel_ne 22 10 6 4 (by rw [hk0]; decide)
    have hn3 : ¬ sel w 22 10 = 256 := sel_ne 22 10 6 4 (by rw [hk0]; decide)
    have hn4 : ¬ sel w 10 22 = 1310720 := sel_ne 10 22 18 4 (by rw [hk0]; decide)
    have hk1 : sel w 10 6 = 0 := by subst hw; simp (disch := decide) only [sel_pack_lo, sel_pack_in, Nat.reduceSub, BitVec.toNat_ofNat]; try rfl
    refine ⟨?_, hw ▸ (fits_pack (n := 1) (m := 31) (fits_pack (n := 2) (m := 29) (fits_pack (n := 13) (m := 16) (fits_pack (n := 12) (m := 4) (fits_pack (n := 4) (m := 0) fits_zero)))) : Fits _ 32), hw ▸ pack_mod _ _, by rw [hop]; decide, ?_⟩
    · rw [raw7C hop]
      simp only [decodeOp7C, hk0, hn0, hn1, hn2, hn3, hn4, hk1, reduceIte, Nat.reduceEqDiff, OfNat.ofNat_ne_zero, OfNat.zero_ne_ofNat, OfNat.ofNat_ne_one, OfNat.one_ne_ofNat, zero_ne_one, one_ne_zero, true_and, false_and, and_true, and_false]
      subst hw
      simp (disch := decide) only [fld_pack_lo, fld_pack, Nat.reduceSub]
    · subst hw
      simp (disch := decide) only [fld_pack_lo, fld_pack, Nat.reduceSub])

theorem supcall (n : BitVec 12) : Statement (.supcall n) :=
  of_word rfl (fun s => by
    rw [show Instr.word (.supcall n) s = pack 1 (1#1) (pack 2 s (pack 13 (124#13) (pack 12 n (pack 4 (7#4) 0)))) from rfl]
    generalize hw : pack 1 (1#1) (pack 2 s (pack 13 (124#13) (pack 12 n (pack 4 (7#4) 0)))) = w
    have hop : sel w 3 7 = 124 := by subst hw; simp (disch := decide) only [sel_pack_lo, sel_pack_in, Nat.reduceSub, BitVec.toNat_ofNat]; try rfl
    have hk0 : sel w 28 4 = 7 := by subst hw; simp (disch := decide) only [sel_pack_lo, sel_pack_in, Nat.reduceSub, BitVec.toNat_ofNat]; try rfl
    have hn0 : ¬ sel w 10 22 = 262144 := sel_ne 10 22 18 4 (by rw [hk0]; decide)
    have hn1 : ¬ sel w 16 16 = 8192 := sel_ne 16 16 12 4 (by rw [hk0]; decide)
    have hn2 : ¬ sel w 22 10 = 192 := sel_ne 22 10 6 4 (by rw [hk0]; decide)
    have hn3 : ¬ sel w 22 10 = 256 := sel_ne 22 10 6 4 (by rw [hk0]; decide)
    have hn4 : ¬ sel w 10 22 = 1310720 := sel_ne 10 22 18 4 (by rw [hk0]; decide)
    have hk1 : sel w 10 6 = 0 := by subst hw; simp (disch := decide) only [sel_pack_lo, sel_pack_in, Nat.reduceSub, BitVec.toNat_ofNat]; try rfl
    refine ⟨?_, hw ▸ (fits_pack (n := 1) (m := 31) (fits_pack (n := 2) (m := 29) (fits_pack (n := 13) (m := 16) (fits_pack (n := 12) (m := 4) (fits_pack (n := 4) (m := 0) fits_zero)))) : Fits _ 32), hw ▸ pack_mod _ _, by rw [hop]; decide, ?_⟩
    · rw [raw7C hop]
      simp only [decodeOp7C, hk0, hn0, hn1, hn2, hn3, hn4, hk1, reduceIte, Nat.reduceEqDiff, OfNat.ofNat_ne_zero, OfNat.zero_ne_ofNat, OfNat.ofNat_ne_one, OfNat.one_ne_ofNat, zero_ne_one, one_ne_zero, true_and, false_and, and_true, and_false]
      subst hw
      simp (disch := decide) only [fld_pack_lo, fld_pack, Nat.reduceSub]
    · subst hw
      simp (disch := decide) only [fld_pack_lo, fld_pack, Nat.reduceSub])

theorem tlbinv (c : BitVec 6) (b : BitVec 6) : Statement (.tlbinv c b) :=
  of_word rfl (fun s => by
    rw [show Instr.word (.tlbinv c b) s = pack 1 (1#1) (pack 2 s (pack 13 (124#13) (pack 6 b (pack 6 c (pack 4 (9#4) 0))))) from rfl]
    generalize hw : pack 1 (1#1) (pack 2 s (pack 13 (124#13) (pack 6 b (pack 6 c (pack 4 (9#4) 0))))) = w
    have hop : sel w 3 7 = 124 := by subst hw; simp (disch := decide) only [sel_pack_lo, sel_pack_in, Nat.reduceSub, BitVec.toNat_ofNat]; try rfl
    have hk0 : sel w 28 4 = 9 := by subst hw; simp (disch := decide) only [sel_pack_lo, sel_pack_in, Nat.reduceSub, BitVec.toNat_ofNat]; try rfl
    have hn0 : ¬ sel w 10 22 = 262144 := sel_ne 10 22 18 4 (by rw [hk0]; decide)
    have hn1 : ¬ sel w 16 16 = 8192 := sel_ne 16 16 12 4 (by rw [hk0]; decide)
    have hn2 : ¬ sel w 22 10 = 192 := sel_ne 22 10 6 4 (by rw [hk0]; decide)
    have hn3 : ¬ sel w 22 10 = 256 := sel_ne 22 10 6 4 (by rw [hk0]; decide)
    have hn4 : ¬ sel w 10 22 = 1310720 := sel_ne 10 22 18 4 (by rw [hk0]; decide)
    have hn5 : ¬ sel w 10 22 = 2097152 := sel_ne 10 22 18 4 (by rw [hk0]; decide)
    have hk1 : sel w 10 6 = 0 := by subst hw; simp (disch := decide) only [sel_pack_lo, sel_pack_in, Nat.reduceSub, BitVec.toNat_ofNat]; try rfl
    refine ⟨?_, hw ▸ (fits_pack (n := 1) (m := 31) (fits_pack (n := 2) (m := 29) (fits_pack (n := 13) (m := 16) (fits_pack (n := 6) (m := 10) (fits_pack (n := 6) (m := 4) (fits_pack (n := 4) (m := 0) fits_zero))))) : Fits _ 32), hw ▸ pack_mod _ _, by rw [hop]; decide, ?_⟩
    · rw [raw7C hop]
      simp only [decodeOp7C, hk0, hn0, hn1, hn2, hn3, hn4, hn5, hk1, reduceIte, Nat.reduceEqDiff, OfNat.ofNat_ne_zero, OfNat.zero_ne_ofNat, OfNat.ofNat_ne_one, OfNat.one_ne_ofNat, zero_ne_one, one_ne_zero, true_and, false_and, and_true, and_false]
      subst hw
      simp (disch := decide) only [fld_pack_lo, fld_pack, Nat.reduceSub]
    · subst hw
      simp (disch := decide) only [fld_pack_lo, fld_pack, Nat.reduceSub])

theorem oppark (b : BitVec 6) : Statement (.oppark b) :=
  of_word rfl (fun s => by
    rw [show Instr.word (.oppark b) s = pack 1 (1#1) (pack 2 s (pack 13 (124#13) (pack 6 b (pack 10 (640#10) 0)))) from rfl]
    generalize hw : pack 1 (1#1) (pack 2 s (pack 13 (124#13) (pack 6 b (pack 10 (640#10) 0)))) = w
    have hop : sel w 3 7 = 124 := by subst hw; simp (disch := decide) only [sel_pack_lo, sel_pack_in, Nat.reduceSub, BitVec.toNat_ofNat]; try rfl
    have hk0 : sel w 28 4 = 10 := by subst hw; simp (disch := decide) only [sel_pack_lo, sel_pack_in, Nat.reduceSub, BitVec.toNat_ofNat]; try rfl
    have hk1 : sel w 22 10 = 640 := by subst hw; simp (disch := decide) only [sel_pack_lo, sel_pack_in, Nat.reduceSub, BitVec.toNat_ofNat]; try rfl
    have hn0 : ¬ sel w 10 22 = 262144 := sel_ne 10 22 12 10 (by rw [hk1]; decide)
    have hn1 : ¬ sel w 16 16 = 8192 := sel_ne 16 16 6 10 (by rw [hk1]; decide)
    have hn2 : ¬ sel w 10 22 = 1310720 := sel_ne 10 22 12 10 (by rw [hk1]; decide)
    have hn3 : ¬ sel w 10 22 = 2097152 := sel_ne 10 22 12 10 (by rw [hk1]; decide)
    have hk2 : sel w 10 6 = 0 := by subst hw; simp (disch := decide) only [sel_pack_lo, sel_pack_in, Nat.reduceSub, BitVec.toNat_ofNat]; try rfl
    refine ⟨?_, hw ▸ (fits_pack (n := 1) (m := 31) (fits_pack (n := 2) (m := 29) (fits_pack (n := 13) (m := 16) (fits_pack (n := 6) (m := 10) (fits_pack (n := 10) (m := 0) fits_zero)))) : Fits _ 32), hw ▸ pack_mod _ _, by rw [hop]; decide, ?_⟩
    · rw [raw7C hop]
      simp only [decodeOp7C, hk0, hk1, hn0, hn1, hn2, hn3, hk2, reduceIte, Nat.reduceEqDiff, OfNat.ofNat_ne_zero, OfNat.zero_ne_ofNat, OfNat.ofNat_ne_one, OfNat.one_ne_ofNat, zero_ne_one, one_ne_zero, true_and, false_and, and_true, and_false]
      subst hw
      simp (disch := decide) only [fld_pack_lo, fld_pack, Nat.reduceSub]
    · subst hw
      simp (disch := decide) only [fld_pack_lo, fld_pack, Nat.reduceSub])

theorem phint (n : BitVec 12) : Statement (.phint n) :=
  of_word rfl (fun s => by
    rw [show Instr.word (.phint n) s = pack 1 (1#1) (pack 2 s (pack 13 (124#13) (pack 12 n (pack 4 (11#4) 0)))) from rfl]
    generalize hw : pack 1 (1#1) (pack 2 s (pack 13 (124#13) (pack 12 n (pack 4 (11#4) 0)))) = w
    have hop : sel w 3 7 = 124 := by subst hw; simp (disch := decide) only [sel_pack_lo, sel_pack_in, Nat.reduceSub, BitVec.toNat_ofNat]; try rfl
    have hk0 : sel w 28 4 = 11 := by subst hw; simp (disch := decide) only [sel_pack_lo, sel_pack_in, Nat.reduceSub, BitVec.toNat_ofNat]; try rfl
    have hn0 : ¬ sel w 10 22 = 262144 := sel_ne 10 22 18 4 (by rw [hk0]; decide)
    have hn1 : ¬ sel w 16 16 = 8192 := sel_ne 16 16 12 4 (by rw [hk0]; decide)
    have hn2 : ¬ sel w 22 10 = 192 := sel_ne 22 10 6 4 (by rw [hk0]; decide)
    have hn3 : ¬ sel w 22 10 = 256 := sel_ne 22 10 6 4 (by rw [hk0]; decide)
    have hn4 : ¬ sel w 10 22 = 1310720 := sel_ne 10 22 18 4 (by rw [hk0]; decide)
    have hn5 : ¬ sel w 10 22 = 2097152 := sel_ne 10 22 18 4 (by rw [hk0]; decide)
    have hn6 : ¬ sel w 22 10 = 640 := sel_ne 22 10 6 4 (by rw [hk0]; decide)
    have hk1 : sel w 10 6 = 0 := by subst hw; simp (disch := decide) only [sel_pack_lo, sel_pack_in, Nat.reduceSub, BitVec.toNat_ofNat]; try rfl
    refine ⟨?_, hw ▸ (fits_pack (n := 1) (m := 31) (fits_pack (n := 2) (m := 29) (fits_pack (n := 13) (m := 16) (fits_pack (n := 12) (m := 4) (fits_pack (n := 4) (m := 0) fits_zero)))) : Fits _ 32), hw ▸ pack_mod _ _, by rw [hop]; decide, ?_⟩
    · rw [raw7C hop]
      simp only [decodeOp7C, hk0, hn0, hn1, hn2, hn3, hn4, hn5, hn6, hk1, reduceIte, Nat.reduceEqDiff, OfNat.ofNat_ne_zero, OfNat.zero_ne_ofNat, OfNat.ofNat_ne_one, OfNat.one_ne_ofNat, zero_ne_one, one_ne_zero, true_and, false_and, and_true, and_false]
      subst hw
      simp (disch := decide) only [fld_pack_lo, fld_pack, Nat.reduceSub]
    · subst hw
      simp (disch := decide) only [fld_pack_lo, fld_pack, Nat.reduceSub])

theorem rlabel (n : BitVec 12) : Statement (.rlabel n) :=
  of_word rfl (fun s => by
    rw [show Instr.word (.rlabel n) s = pack 1 (1#1) (pack 2 s (pack 13 (124#13) (pack 12 n (pack 4 (12#4) 0)))) from rfl]
    generalize hw : pack 1 (1#1) (pack 2 s (pack 13 (124#13) (pack 12 n (pack 4 (12#4) 0)))) = w
    have hop : sel w 3 7 = 124 := by subst hw; simp (disch := decide) only [sel_pack_lo, sel_pack_in, Nat.reduceSub, BitVec.toNat_ofNat]; try rfl
    have hk0 : sel w 28 4 = 12 := by subst hw; simp (disch := decide) only [sel_pack_lo, sel_pack_in, Nat.reduceSub, BitVec.toNat_ofNat]; try rfl
    have hn0 : ¬ sel w 10 22 = 262144 := sel_ne 10 22 18 4 (by rw [hk0]; decide)
    have hn1 : ¬ sel w 16 16 = 8192 := sel_ne 16 16 12 4 (by rw [hk0]; decide)
    have hn2 : ¬ sel w 22 10 = 192 := sel_ne 22 10 6 4 (by rw [hk0]; decide)
    have hn3 : ¬ sel w 22 10 = 256 := sel_ne 22 10 6 4 (by rw [hk0]; decide)
    have hn4 : ¬ sel w 10 22 = 1310720 := sel_ne 10 22 18 4 (by rw [hk0]; decide)
    have hn5 : ¬ sel w 10 22 = 2097152 := sel_ne 10 22 18 4 (by rw [hk0]; decide)
    have hn6 : ¬ sel w 22 10 = 640 := sel_ne 22 10 6 4 (by rw [hk0]; decide)
    have hk1 : sel w 10 6 = 0 := by subst hw; simp (disch := decide) only [sel_pack_lo, sel_pack_in, Nat.reduceSub, BitVec.toNat_ofNat]; try rfl
    refine ⟨?_, hw ▸ (fits_pack (n := 1) (m := 31) (fits_pack (n := 2) (m := 29) (fits_pack (n := 13) (m := 16) (fits_pack (n := 12) (m := 4) (fits_pack (n := 4) (m := 0) fits_zero)))) : Fits _ 32), hw ▸ pack_mod _ _, by rw [hop]; decide, ?_⟩
    · rw [raw7C hop]
      simp only [decodeOp7C, hk0, hn0, hn1, hn2, hn3, hn4, hn5, hn6, hk1, reduceIte, Nat.reduceEqDiff, OfNat.ofNat_ne_zero, OfNat.zero_ne_ofNat, OfNat.ofNat_ne_one, OfNat.one_ne_ofNat, zero_ne_one, one_ne_zero, true_and, false_and, and_true, and_false]
      subst hw
      simp (disch := decide) only [fld_pack_lo, fld_pack, Nat.reduceSub]
    · subst hw
      simp (disch := decide) only [fld_pack_lo, fld_pack, Nat.reduceSub])

theorem tcopyLd (m : BitVec 1) (e : BitVec 1) (v : BitVec 7) (c : BitVec 6) (h : BitVec 6) : Statement (.tcopyLd m e v c h) :=
  of_word rfl (fun s => by
    rw [show Instr.word (.tcopyLd m e v c h) s = pack 1 (1#1) (pack 2 s (pack 7 (125#7) (pack 6 h (pack 6 c (pack 7 v (pack 1 (0#1) (pack 1 e (pack 1 m 0)))))))) from rfl]
    generalize hw : pack 1 (1#1) (pack 2 s (pack 7 (125#7) (pack 6 h (pack 6 c (pack 7 v (pack 1 (0#1) (pack 1 e (pack 1 m 0)))))))) = w
    have hop : sel w 3 7 = 125 := by subst hw; simp (disch := decide) only [sel_pack_lo, sel_pack_in, Nat.reduceSub, BitVec.toNat_ofNat]; try rfl
    have hk0 : sel w 29 1 = 0 := by subst hw; simp (disch := decide) only [sel_pack_lo, sel_pack_in, Nat.reduceSub, BitVec.toNat_ofNat]; try rfl
    refine ⟨?_, hw ▸ (fits_pack (n := 1) (m := 31) (fits_pack (n := 2) (m := 29) (fits_pack (n := 7) (m := 22) (fits_pack (n := 6) (m := 16) (fits_pack (n := 6) (m := 10) (fits_pack (n := 7) (m := 3) (fits_pack (n := 1) (m := 2) (fits_pack (n := 1) (m := 1) (fits_pack (n := 1) (m := 0) fits_zero)))))))) : Fits _ 32), hw ▸ pack_mod _ _, by rw [hop]; decide, ?_⟩
    · rw [raw7D hop]
      simp only [decodeOp7D, hk0, reduceIte, Nat.reduceEqDiff, OfNat.ofNat_ne_zero, OfNat.zero_ne_ofNat, OfNat.ofNat_ne_one, OfNat.one_ne_ofNat, zero_ne_one, one_ne_zero, true_and, false_and, and_true, and_false]
      subst hw
      simp (disch := decide) only [fld_pack_lo, fld_pack, Nat.reduceSub]
    · subst hw
      simp (disch := decide) only [fld_pack_lo, fld_pack, Nat.reduceSub])

theorem tcopySt (e : BitVec 1) (v : BitVec 7) (c : BitVec 6) (h : BitVec 6) : Statement (.tcopySt e v c h) :=
  of_word rfl (fun s => by
    rw [show Instr.word (.tcopySt e v c h) s = pack 1 (1#1) (pack 2 s (pack 7 (125#7) (pack 6 h (pack 6 c (pack 7 v (pack 1 (1#1) (pack 1 e (pack 1 (0#1) 0)))))))) from rfl]
    generalize hw : pack 1 (1#1) (pack 2 s (pack 7 (125#7) (pack 6 h (pack 6 c (pack 7 v (pack 1 (1#1) (pack 1 e (pack 1 (0#1) 0)))))))) = w
    have hop : sel w 3 7 = 125 := by subst hw; simp (disch := decide) only [sel_pack_lo, sel_pack_in, Nat.reduceSub, BitVec.toNat_ofNat]; try rfl
    have hk0 : sel w 29 1 = 1 := by subst hw; simp (disch := decide) only [sel_pack_lo, sel_pack_in, Nat.reduceSub, BitVec.toNat_ofNat]; try rfl
    have hk1 : sel w 31 1 = 0 := by subst hw; simp (disch := decide) only [sel_pack_lo, sel_pack_in, Nat.reduceSub, BitVec.toNat_ofNat]; try rfl
    refine ⟨?_, hw ▸ (fits_pack (n := 1) (m := 31) (fits_pack (n := 2) (m := 29) (fits_pack (n := 7) (m := 22) (fits_pack (n := 6) (m := 16) (fits_pack (n := 6) (m := 10) (fits_pack (n := 7) (m := 3) (fits_pack (n := 1) (m := 2) (fits_pack (n := 1) (m := 1) (fits_pack (n := 1) (m := 0) fits_zero)))))))) : Fits _ 32), hw ▸ pack_mod _ _, by rw [hop]; decide, ?_⟩
    · rw [raw7D hop]
      simp only [decodeOp7D, hk0, hk1, reduceIte, Nat.reduceEqDiff, OfNat.ofNat_ne_zero, OfNat.zero_ne_ofNat, OfNat.ofNat_ne_one, OfNat.one_ne_ofNat, zero_ne_one, one_ne_zero, true_and, false_and, and_true, and_false]
      subst hw
      simp (disch := decide) only [fld_pack_lo, fld_pack, Nat.reduceSub]
    · subst hw
      simp (disch := decide) only [fld_pack_lo, fld_pack, Nat.reduceSub])

theorem rep (r : BitVec 2) (p : BitVec 3) (c : BitVec 6) : Statement (.rep r p c) :=
  of_word rfl (fun s => by
    rw [show Instr.word (.rep r p c) s = pack 1 (1#1) (pack 2 s (pack 9 (127#9) (pack 6 c (pack 3 p (pack 2 r (pack 9 (0#9) 0)))))) from rfl]
    generalize hw : pack 1 (1#1) (pack 2 s (pack 9 (127#9) (pack 6 c (pack 3 p (pack 2 r (pack 9 (0#9) 0)))))) = w
    have hop : sel w 3 7 = 127 := by subst hw; simp (disch := decide) only [sel_pack_lo, sel_pack_in, Nat.reduceSub, BitVec.toNat_ofNat]; try rfl
    have hk0 : sel w 10 2 = 0 := by subst hw; simp (disch := decide) only [sel_pack_lo, sel_pack_in, Nat.reduceSub, BitVec.toNat_ofNat]; try rfl
    have hk1 : sel w 23 9 = 0 := by subst hw; simp (disch := decide) only [sel_pack_lo, sel_pack_in, Nat.reduceSub, BitVec.toNat_ofNat]; try rfl
    refine ⟨?_, hw ▸ (fits_pack (n := 1) (m := 31) (fits_pack (n := 2) (m := 29) (fits_pack (n := 9) (m := 20) (fits_pack (n := 6) (m := 14) (fits_pack (n := 3) (m := 11) (fits_pack (n := 2) (m := 9) (fits_pack (n := 9) (m := 0) fits_zero)))))) : Fits _ 32), hw ▸ pack_mod _ _, by rw [hop]; decide, ?_⟩
    · rw [raw7F hop]
      simp only [decodeOp7F, hk0, hk1, reduceIte, Nat.reduceEqDiff, OfNat.ofNat_ne_zero, OfNat.zero_ne_ofNat, OfNat.ofNat_ne_one, OfNat.one_ne_ofNat, zero_ne_one, one_ne_zero, true_and, false_and, and_true, and_false]
      subst hw
      simp (disch := decide) only [fld_pack_lo, fld_pack, Nat.reduceSub]
    · subst hw
      simp (disch := decide) only [fld_pack_lo, fld_pack, Nat.reduceSub])

theorem inv (l : BitVec 2) (d : BitVec 1) (m : BitVec 1) (y : BitVec 7) (x : BitVec 7) (k : BitVec 2) : Statement (.inv l d m y x k) :=
  of_word rfl (fun s => by
    rw [show Instr.word (.inv l d m y x k) s = pack 1 (1#1) (pack 2 s (pack 9 (255#9) (pack 2 k (pack 7 x (pack 7 y (pack 1 m (pack 1 d (pack 2 l 0)))))))) from rfl]
    generalize hw : pack 1 (1#1) (pack 2 s (pack 9 (255#9) (pack 2 k (pack 7 x (pack 7 y (pack 1 m (pack 1 d (pack 2 l 0)))))))) = w
    have hop : sel w 3 7 = 127 := by subst hw; simp (disch := decide) only [sel_pack_lo, sel_pack_in, Nat.reduceSub, BitVec.toNat_ofNat]; try rfl
    have hk0 : sel w 10 2 = 1 := by subst hw; simp (disch := decide) only [sel_pack_lo, sel_pack_in, Nat.reduceSub, BitVec.toNat_ofNat]; try rfl
    refine ⟨?_, hw ▸ (fits_pack (n := 1) (m := 31) (fits_pack (n := 2) (m := 29) (fits_pack (n := 9) (m := 20) (fits_pack (n := 2) (m := 18) (fits_pack (n := 7) (m := 11) (fits_pack (n := 7) (m := 4) (fits_pack (n := 1) (m := 3) (fits_pack (n := 1) (m := 2) (fits_pack (n := 2) (m := 0) fits_zero)))))))) : Fits _ 32), hw ▸ pack_mod _ _, by rw [hop]; decide, ?_⟩
    · rw [raw7F hop]
      simp only [decodeOp7F, hk0, reduceIte, Nat.reduceEqDiff, OfNat.ofNat_ne_zero, OfNat.zero_ne_ofNat, OfNat.ofNat_ne_one, OfNat.one_ne_ofNat, zero_ne_one, one_ne_zero, true_and, false_and, and_true, and_false]
      subst hw
      simp (disch := decide) only [fld_pack_lo, fld_pack, Nat.reduceSub]
    · subst hw
      simp (disch := decide) only [fld_pack_lo, fld_pack, Nat.reduceSub])

theorem modAlu (p : BitVec 6) (c : BitVec 1) (k : BitVec 5) (e : BitVec 1) (f : BitVec 1) (h : BitVec 1) (imm : BitVec 1) (u : BitVec 2) : Statement (.modAlu p c k e f h imm u) :=
  of_word rfl (fun s => by
    rw [show Instr.word (.modAlu p c k e f h imm u) s = pack 1 (1#1) (pack 2 s (pack 9 (383#9) (pack 2 u (pack 1 imm (pack 1 h (pack 1 f (pack 1 e (pack 5 k (pack 1 c (pack 6 p (pack 2 (0#2) 0))))))))))) from rfl]
    generalize hw : pack 1 (1#1) (pack 2 s (pack 9 (383#9) (pack 2 u (pack 1 imm (pack 1 h (pack 1 f (pack 1 e (pack 5 k (pack 1 c (pack 6 p (pack 2 (0#2) 0))))))))))) = w
    have hop : sel w 3 7 = 127 := by subst hw; simp (disch := decide) only [sel_pack_lo, sel_pack_in, Nat.reduceSub, BitVec.toNat_ofNat]; try rfl
    have hk0 : sel w 10 2 = 2 := by subst hw; simp (disch := decide) only [sel_pack_lo, sel_pack_in, Nat.reduceSub, BitVec.toNat_ofNat]; try rfl
    have hk1 : sel w 30 2 = 0 := by subst hw; simp (disch := decide) only [sel_pack_lo, sel_pack_in, Nat.reduceSub, BitVec.toNat_ofNat]; try rfl
    refine ⟨?_, hw ▸ (fits_pack (n := 1) (m := 31) (fits_pack (n := 2) (m := 29) (fits_pack (n := 9) (m := 20) (fits_pack (n := 2) (m := 18) (fits_pack (n := 1) (m := 17) (fits_pack (n := 1) (m := 16) (fits_pack (n := 1) (m := 15) (fits_pack (n := 1) (m := 14) (fits_pack (n := 5) (m := 9) (fits_pack (n := 1) (m := 8) (fits_pack (n := 6) (m := 2) (fits_pack (n := 2) (m := 0) fits_zero))))))))))) : Fits _ 32), hw ▸ pack_mod _ _, by rw [hop]; decide, ?_⟩
    · rw [raw7F hop]
      simp only [decodeOp7F, hk0, hk1, reduceIte, Nat.reduceEqDiff, OfNat.ofNat_ne_zero, OfNat.zero_ne_ofNat, OfNat.ofNat_ne_one, OfNat.one_ne_ofNat, zero_ne_one, one_ne_zero, true_and, false_and, and_true, and_false]
      subst hw
      simp (disch := decide) only [fld_pack_lo, fld_pack, Nat.reduceSub]
    · subst hw
      simp (disch := decide) only [fld_pack_lo, fld_pack, Nat.reduceSub])

theorem modMemory (o : BitVec 9) (k : BitVec 1) (w : BitVec 1) (h : BitVec 2) (c : BitVec 3) (r : BitVec 2) : Statement (.modMemory o k w h c r) :=
  of_word rfl (fun s => by
    rw [show Instr.word (.modMemory o k w h c r) s = pack 1 (1#1) (pack 2 s (pack 9 (383#9) (pack 2 r (pack 3 c (pack 2 h (pack 1 w (pack 1 k (pack 9 o (pack 2 (1#2) 0))))))))) from rfl]
    generalize hw : pack 1 (1#1) (pack 2 s (pack 9 (383#9) (pack 2 r (pack 3 c (pack 2 h (pack 1 w (pack 1 k (pack 9 o (pack 2 (1#2) 0))))))))) = w
    have hop : sel w 3 7 = 127 := by subst hw; simp (disch := decide) only [sel_pack_lo, sel_pack_in, Nat.reduceSub, BitVec.toNat_ofNat]; try rfl
    have hk0 : sel w 10 2 = 2 := by subst hw; simp (disch := decide) only [sel_pack_lo, sel_pack_in, Nat.reduceSub, BitVec.toNat_ofNat]; try rfl
    have hk1 : sel w 30 2 = 1 := by subst hw; simp (disch := decide) only [sel_pack_lo, sel_pack_in, Nat.reduceSub, BitVec.toNat_ofNat]; try rfl
    refine ⟨?_, hw ▸ (fits_pack (n := 1) (m := 31) (fits_pack (n := 2) (m := 29) (fits_pack (n := 9) (m := 20) (fits_pack (n := 2) (m := 18) (fits_pack (n := 3) (m := 15) (fits_pack (n := 2) (m := 13) (fits_pack (n := 1) (m := 12) (fits_pack (n := 1) (m := 11) (fits_pack (n := 9) (m := 2) (fits_pack (n := 2) (m := 0) fits_zero))))))))) : Fits _ 32), hw ▸ pack_mod _ _, by rw [hop]; decide, ?_⟩
    · rw [raw7F hop]
      simp only [decodeOp7F, hk0, hk1, reduceIte, Nat.reduceEqDiff, OfNat.ofNat_ne_zero, OfNat.zero_ne_ofNat, OfNat.ofNat_ne_one, OfNat.one_ne_ofNat, zero_ne_one, one_ne_zero, true_and, false_and, and_true, and_false]
      subst hw
      simp (disch := decide) only [fld_pack_lo, fld_pack, Nat.reduceSub]
    · subst hw
      simp (disch := decide) only [fld_pack_lo, fld_pack, Nat.reduceSub])

theorem join : Statement (.join) :=
  of_word rfl (fun s => by
    rw [show Instr.word (.join) s = pack 1 (1#1) (pack 2 s (pack 29 (25#29) 0)) from rfl]
    generalize hw : pack 1 (1#1) (pack 2 s (pack 29 (25#29) 0)) = w
    have hop : sel w 3 7 = 25 := by subst hw; simp (disch := decide) only [sel_pack_lo, sel_pack_in, Nat.reduceSub, BitVec.toNat_ofNat]; try rfl
    have hk0 : sel w 10 22 = 0 := by subst hw; simp (disch := decide) only [sel_pack_lo, sel_pack_in, Nat.reduceSub, BitVec.toNat_ofNat]; try rfl
    refine ⟨?_, hw ▸ (fits_pack (n := 1) (m := 31) (fits_pack (n := 2) (m := 29) (fits_pack (n := 29) (m := 0) fits_zero)) : Fits _ 32), hw ▸ pack_mod _ _, by rw [hop]; decide, ?_⟩
    · rw [raw19 hop]
      simp only [decodeOp19, hk0, reduceIte, Nat.reduceEqDiff, OfNat.ofNat_ne_zero, OfNat.zero_ne_ofNat, OfNat.ofNat_ne_one, OfNat.one_ne_ofNat, zero_ne_one, one_ne_zero, true_and, false_and, and_true, and_false]
    · subst hw
      simp (disch := decide) only [fld_pack_lo, fld_pack, Nat.reduceSub])

theorem ret : Statement (.ret) :=
  of_word rfl (fun s => by
    rw [show Instr.word (.ret) s = pack 1 (1#1) (pack 2 s (pack 29 (29#29) 0)) from rfl]
    generalize hw : pack 1 (1#1) (pack 2 s (pack 29 (29#29) 0)) = w
    have hop : sel w 3 7 = 29 := by subst hw; simp (disch := decide) only [sel_pack_lo, sel_pack_in, Nat.reduceSub, BitVec.toNat_ofNat]; try rfl
    have hk0 : sel w 10 22 = 0 := by subst hw; simp (disch := decide) only [sel_pack_lo, sel_pack_in, Nat.reduceSub, BitVec.toNat_ofNat]; try rfl
    refine ⟨?_, hw ▸ (fits_pack (n := 1) (m := 31) (fits_pack (n := 2) (m := 29) (fits_pack (n := 29) (m := 0) fits_zero)) : Fits _ 32), hw ▸ pack_mod _ _, by rw [hop]; decide, ?_⟩
    · rw [raw1D hop]
      simp only [decodeOp1D, hk0, reduceIte, Nat.reduceEqDiff, OfNat.ofNat_ne_zero, OfNat.zero_ne_ofNat, OfNat.ofNat_ne_one, OfNat.one_ne_ofNat, zero_ne_one, one_ne_zero, true_and, false_and, and_true, and_false]
    · subst hw
      simp (disch := decide) only [fld_pack_lo, fld_pack, Nat.reduceSub])

theorem exit : Statement (.exit) :=
  of_word rfl (fun s => by
    rw [show Instr.word (.exit) s = pack 1 (1#1) (pack 2 s (pack 29 (30#29) 0)) from rfl]
    generalize hw : pack 1 (1#1) (pack 2 s (pack 29 (30#29) 0)) = w
    have hop : sel w 3 7 = 30 := by subst hw; simp (disch := decide) only [sel_pack_lo, sel_pack_in, Nat.reduceSub, BitVec.toNat_ofNat]; try rfl
    have hk0 : sel w 10 22 = 0 := by subst hw; simp (disch := decide) only [sel_pack_lo, sel_pack_in, Nat.reduceSub, BitVec.toNat_ofNat]; try rfl
    refine ⟨?_, hw ▸ (fits_pack (n := 1) (m := 31) (fits_pack (n := 2) (m := 29) (fits_pack (n := 29) (m := 0) fits_zero)) : Fits _ 32), hw ▸ pack_mod _ _, by rw [hop]; decide, ?_⟩
    · rw [raw1E hop]
      simp only [decodeOp1E, hk0, reduceIte, Nat.reduceEqDiff, OfNat.ofNat_ne_zero, OfNat.zero_ne_ofNat, OfNat.ofNat_ne_one, OfNat.one_ne_ofNat, zero_ne_one, one_ne_zero, true_and, false_and, and_true, and_false]
    · subst hw
      simp (disch := decide) only [fld_pack_lo, fld_pack, Nat.reduceSub])

theorem nop : Statement (.nop) :=
  of_word rfl (fun s => by
    rw [show Instr.word (.nop) s = pack 1 (1#1) (pack 2 s (pack 29 (31#29) 0)) from rfl]
    generalize hw : pack 1 (1#1) (pack 2 s (pack 29 (31#29) 0)) = w
    have hop : sel w 3 7 = 31 := by subst hw; simp (disch := decide) only [sel_pack_lo, sel_pack_in, Nat.reduceSub, BitVec.toNat_ofNat]; try rfl
    have hk0 : sel w 10 22 = 0 := by subst hw; simp (disch := decide) only [sel_pack_lo, sel_pack_in, Nat.reduceSub, BitVec.toNat_ofNat]; try rfl
    refine ⟨?_, hw ▸ (fits_pack (n := 1) (m := 31) (fits_pack (n := 2) (m := 29) (fits_pack (n := 29) (m := 0) fits_zero)) : Fits _ 32), hw ▸ pack_mod _ _, by rw [hop]; decide, ?_⟩
    · rw [raw1F hop]
      simp only [decodeOp1F, hk0, reduceIte, Nat.reduceEqDiff, OfNat.ofNat_ne_zero, OfNat.zero_ne_ofNat, OfNat.ofNat_ne_one, OfNat.one_ne_ofNat, zero_ne_one, one_ne_zero, true_and, false_and, and_true, and_false]
    · subst hw
      simp (disch := decide) only [fld_pack_lo, fld_pack, Nat.reduceSub])

theorem yield : Statement (.yield) :=
  of_word rfl (fun s => by
    rw [show Instr.word (.yield) s = pack 1 (1#1) (pack 2 s (pack 29 (33554463#29) 0)) from rfl]
    generalize hw : pack 1 (1#1) (pack 2 s (pack 29 (33554463#29) 0)) = w
    have hop : sel w 3 7 = 31 := by subst hw; simp (disch := decide) only [sel_pack_lo, sel_pack_in, Nat.reduceSub, BitVec.toNat_ofNat]; try rfl
    have hk0 : sel w 10 22 = 262144 := by subst hw; simp (disch := decide) only [sel_pack_lo, sel_pack_in, Nat.reduceSub, BitVec.toNat_ofNat]; try rfl
    refine ⟨?_, hw ▸ (fits_pack (n := 1) (m := 31) (fits_pack (n := 2) (m := 29) (fits_pack (n := 29) (m := 0) fits_zero)) : Fits _ 32), hw ▸ pack_mod _ _, by rw [hop]; decide, ?_⟩
    · rw [raw1F hop]
      simp only [decodeOp1F, hk0, reduceIte, Nat.reduceEqDiff, OfNat.ofNat_ne_zero, OfNat.zero_ne_ofNat, OfNat.ofNat_ne_one, OfNat.one_ne_ofNat, zero_ne_one, one_ne_zero, true_and, false_and, and_true, and_false]
    · subst hw
      simp (disch := decide) only [fld_pack_lo, fld_pack, Nat.reduceSub])

theorem barBlk : Statement (.barBlk) :=
  of_word rfl (fun s => by
    rw [show Instr.word (.barBlk) s = pack 1 (1#1) (pack 2 s (pack 29 (122#29) 0)) from rfl]
    generalize hw : pack 1 (1#1) (pack 2 s (pack 29 (122#29) 0)) = w
    have hop : sel w 3 7 = 122 := by subst hw; simp (disch := decide) only [sel_pack_lo, sel_pack_in, Nat.reduceSub, BitVec.toNat_ofNat]; try rfl
    have hk0 : sel w 10 22 = 0 := by subst hw; simp (disch := decide) only [sel_pack_lo, sel_pack_in, Nat.reduceSub, BitVec.toNat_ofNat]; try rfl
    refine ⟨?_, hw ▸ (fits_pack (n := 1) (m := 31) (fits_pack (n := 2) (m := 29) (fits_pack (n := 29) (m := 0) fits_zero)) : Fits _ 32), hw ▸ pack_mod _ _, by rw [hop]; decide, ?_⟩
    · rw [raw7A hop]
      simp only [decodeOp7A, hk0, reduceIte, Nat.reduceEqDiff, OfNat.ofNat_ne_zero, OfNat.zero_ne_ofNat, OfNat.ofNat_ne_one, OfNat.one_ne_ofNat, zero_ne_one, one_ne_zero, true_and, false_and, and_true, and_false]
    · subst hw
      simp (disch := decide) only [fld_pack_lo, fld_pack, Nat.reduceSub])

theorem barClu : Statement (.barClu) :=
  of_word rfl (fun s => by
    rw [show Instr.word (.barClu) s = pack 1 (1#1) (pack 2 s (pack 29 (33554554#29) 0)) from rfl]
    generalize hw : pack 1 (1#1) (pack 2 s (pack 29 (33554554#29) 0)) = w
    have hop : sel w 3 7 = 122 := by subst hw; simp (disch := decide) only [sel_pack_lo, sel_pack_in, Nat.reduceSub, BitVec.toNat_ofNat]; try rfl
    have hk0 : sel w 10 22 = 262144 := by subst hw; simp (disch := decide) only [sel_pack_lo, sel_pack_in, Nat.reduceSub, BitVec.toNat_ofNat]; try rfl
    refine ⟨?_, hw ▸ (fits_pack (n := 1) (m := 31) (fits_pack (n := 2) (m := 29) (fits_pack (n := 29) (m := 0) fits_zero)) : Fits _ 32), hw ▸ pack_mod _ _, by rw [hop]; decide, ?_⟩
    · rw [raw7A hop]
      simp only [decodeOp7A, hk0, reduceIte, Nat.reduceEqDiff, OfNat.ofNat_ne_zero, OfNat.zero_ne_ofNat, OfNat.ofNat_ne_one, OfNat.one_ne_ofNat, zero_ne_one, one_ne_zero, true_and, false_and, and_true, and_false]
    · subst hw
      simp (disch := decide) only [fld_pack_lo, fld_pack, Nat.reduceSub])

theorem wend : Statement (.wend) :=
  of_word rfl (fun s => by
    rw [show Instr.word (.wend) s = pack 1 (1#1) (pack 2 s (pack 29 (301990010#29) 0)) from rfl]
    generalize hw : pack 1 (1#1) (pack 2 s (pack 29 (301990010#29) 0)) = w
    have hop : sel w 3 7 = 122 := by subst hw; simp (disch := decide) only [sel_pack_lo, sel_pack_in, Nat.reduceSub, BitVec.toNat_ofNat]; try rfl
    have hk0 : sel w 10 22 = 2359296 := by subst hw; simp (disch := decide) only [sel_pack_lo, sel_pack_in, Nat.reduceSub, BitVec.toNat_ofNat]; try rfl
    have hk1 : sel w 28 4 = 9 := by subst hw; simp (disch := decide) only [sel_pack_lo, sel_pack_in, Nat.reduceSub, BitVec.toNat_ofNat]; try rfl
    have hk2 : sel w 22 10 = 576 := by subst hw; simp (disch := decide) only [sel_pack_lo, sel_pack_in, Nat.reduceSub, BitVec.toNat_ofNat]; try rfl
    have hk3 : sel w 16 16 = 36864 := by subst hw; simp (disch := decide) only [sel_pack_lo, sel_pack_in, Nat.reduceSub, BitVec.toNat_ofNat]; try rfl
    refine ⟨?_, hw ▸ (fits_pack (n := 1) (m := 31) (fits_pack (n := 2) (m := 29) (fits_pack (n := 29) (m := 0) fits_zero)) : Fits _ 32), hw ▸ pack_mod _ _, by rw [hop]; decide, ?_⟩
    · rw [raw7A hop]
      simp only [decodeOp7A, hk0, hk1, hk2, hk3, reduceIte, Nat.reduceEqDiff, OfNat.ofNat_ne_zero, OfNat.zero_ne_ofNat, OfNat.ofNat_ne_one, OfNat.one_ne_ofNat, zero_ne_one, one_ne_zero, true_and, false_and, and_true, and_false]
    · subst hw
      simp (disch := decide) only [fld_pack_lo, fld_pack, Nat.reduceSub])

theorem shwait : Statement (.shwait) :=
  of_word rfl (fun s => by
    rw [show Instr.word (.shwait) s = pack 1 (1#1) (pack 2 s (pack 29 (33554556#29) 0)) from rfl]
    generalize hw : pack 1 (1#1) (pack 2 s (pack 29 (33554556#29) 0)) = w
    have hop : sel w 3 7 = 124 := by subst hw; simp (disch := decide) only [sel_pack_lo, sel_pack_in, Nat.reduceSub, BitVec.toNat_ofNat]; try rfl
    have hk0 : sel w 28 4 = 1 := by subst hw; simp (disch := decide) only [sel_pack_lo, sel_pack_in, Nat.reduceSub, BitVec.toNat_ofNat]; try rfl
    have hk1 : sel w 10 22 = 262144 := by subst hw; simp (disch := decide) only [sel_pack_lo, sel_pack_in, Nat.reduceSub, BitVec.toNat_ofNat]; try rfl
    refine ⟨?_, hw ▸ (fits_pack (n := 1) (m := 31) (fits_pack (n := 2) (m := 29) (fits_pack (n := 29) (m := 0) fits_zero)) : Fits _ 32), hw ▸ pack_mod _ _, by rw [hop]; decide, ?_⟩
    · rw [raw7C hop]
      simp only [decodeOp7C, hk0, hk1, reduceIte, Nat.reduceEqDiff, OfNat.ofNat_ne_zero, OfNat.zero_ne_ofNat, OfNat.ofNat_ne_one, OfNat.one_ne_ofNat, zero_ne_one, one_ne_zero, true_and, false_and, and_true, and_false]
    · subst hw
      simp (disch := decide) only [fld_pack_lo, fld_pack, Nat.reduceSub])

theorem trapf : Statement (.trapf) :=
  of_word rfl (fun s => by
    rw [show Instr.word (.trapf) s = pack 1 (1#1) (pack 2 s (pack 29 (167772284#29) 0)) from rfl]
    generalize hw : pack 1 (1#1) (pack 2 s (pack 29 (167772284#29) 0)) = w
    have hop : sel w 3 7 = 124 := by subst hw; simp (disch := decide) only [sel_pack_lo, sel_pack_in, Nat.reduceSub, BitVec.toNat_ofNat]; try rfl
    have hk0 : sel w 28 4 = 5 := by subst hw; simp (disch := decide) only [sel_pack_lo, sel_pack_in, Nat.reduceSub, BitVec.toNat_ofNat]; try rfl
    have hk1 : sel w 10 22 = 1310720 := by subst hw; simp (disch := decide) only [sel_pack_lo, sel_pack_in, Nat.reduceSub, BitVec.toNat_ofNat]; try rfl
    have hk2 : sel w 16 16 = 20480 := by subst hw; simp (disch := decide) only [sel_pack_lo, sel_pack_in, Nat.reduceSub, BitVec.toNat_ofNat]; try rfl
    have hk3 : sel w 22 10 = 320 := by subst hw; simp (disch := decide) only [sel_pack_lo, sel_pack_in, Nat.reduceSub, BitVec.toNat_ofNat]; try rfl
    refine ⟨?_, hw ▸ (fits_pack (n := 1) (m := 31) (fits_pack (n := 2) (m := 29) (fits_pack (n := 29) (m := 0) fits_zero)) : Fits _ 32), hw ▸ pack_mod _ _, by rw [hop]; decide, ?_⟩
    · rw [raw7C hop]
      simp only [decodeOp7C, hk0, hk1, hk2, hk3, reduceIte, Nat.reduceEqDiff, OfNat.ofNat_ne_zero, OfNat.zero_ne_ofNat, OfNat.ofNat_ne_one, OfNat.one_ne_ofNat, zero_ne_one, one_ne_zero, true_and, false_and, and_true, and_false]
    · subst hw
      simp (disch := decide) only [fld_pack_lo, fld_pack, Nat.reduceSub])

theorem eret : Statement (.eret) :=
  of_word rfl (fun s => by
    rw [show Instr.word (.eret) s = pack 1 (1#1) (pack 2 s (pack 29 (268435580#29) 0)) from rfl]
    generalize hw : pack 1 (1#1) (pack 2 s (pack 29 (268435580#29) 0)) = w
    have hop : sel w 3 7 = 124 := by subst hw; simp (disch := decide) only [sel_pack_lo, sel_pack_in, Nat.reduceSub, BitVec.toNat_ofNat]; try rfl
    have hk0 : sel w 28 4 = 8 := by subst hw; simp (disch := decide) only [sel_pack_lo, sel_pack_in, Nat.reduceSub, BitVec.toNat_ofNat]; try rfl
    have hk1 : sel w 10 22 = 2097152 := by subst hw; simp (disch := decide) only [sel_pack_lo, sel_pack_in, Nat.reduceSub, BitVec.toNat_ofNat]; try rfl
    have hk2 : sel w 16 16 = 32768 := by subst hw; simp (disch := decide) only [sel_pack_lo, sel_pack_in, Nat.reduceSub, BitVec.toNat_ofNat]; try rfl
    have hk3 : sel w 22 10 = 512 := by subst hw; simp (disch := decide) only [sel_pack_lo, sel_pack_in, Nat.reduceSub, BitVec.toNat_ofNat]; try rfl
    refine ⟨?_, hw ▸ (fits_pack (n := 1) (m := 31) (fits_pack (n := 2) (m := 29) (fits_pack (n := 29) (m := 0) fits_zero)) : Fits _ 32), hw ▸ pack_mod _ _, by rw [hop]; decide, ?_⟩
    · rw [raw7C hop]
      simp only [decodeOp7C, hk0, hk1, hk2, hk3, reduceIte, Nat.reduceEqDiff, OfNat.ofNat_ne_zero, OfNat.zero_ne_ofNat, OfNat.ofNat_ne_one, OfNat.one_ne_ofNat, zero_ne_one, one_ne_zero, true_and, false_and, and_true, and_false]
    · subst hw
      simp (disch := decide) only [fld_pack_lo, fld_pack, Nat.reduceSub])

theorem ckpt : Statement (.ckpt) :=
  of_word rfl (fun s => by
    rw [show Instr.word (.ckpt) s = pack 1 (1#1) (pack 2 s (pack 29 (436207740#29) 0)) from rfl]
    generalize hw : pack 1 (1#1) (pack 2 s (pack 29 (436207740#29) 0)) = w
    have hop : sel w 3 7 = 124 := by subst hw; simp (disch := decide) only [sel_pack_lo, sel_pack_in, Nat.reduceSub, BitVec.toNat_ofNat]; try rfl
    have hk0 : sel w 28 4 = 13 := by subst hw; simp (disch := decide) only [sel_pack_lo, sel_pack_in, Nat.reduceSub, BitVec.toNat_ofNat]; try rfl
    have hk1 : sel w 10 22 = 3407872 := by subst hw; simp (disch := decide) only [sel_pack_lo, sel_pack_in, Nat.reduceSub, BitVec.toNat_ofNat]; try rfl
    have hk2 : sel w 16 16 = 53248 := by subst hw; simp (disch := decide) only [sel_pack_lo, sel_pack_in, Nat.reduceSub, BitVec.toNat_ofNat]; try rfl
    have hk3 : sel w 22 10 = 832 := by subst hw; simp (disch := decide) only [sel_pack_lo, sel_pack_in, Nat.reduceSub, BitVec.toNat_ofNat]; try rfl
    refine ⟨?_, hw ▸ (fits_pack (n := 1) (m := 31) (fits_pack (n := 2) (m := 29) (fits_pack (n := 29) (m := 0) fits_zero)) : Fits _ 32), hw ▸ pack_mod _ _, by rw [hop]; decide, ?_⟩
    · rw [raw7C hop]
      simp only [decodeOp7C, hk0, hk1, hk2, hk3, reduceIte, Nat.reduceEqDiff, OfNat.ofNat_ne_zero, OfNat.zero_ne_ofNat, OfNat.ofNat_ne_one, OfNat.one_ne_ofNat, zero_ne_one, one_ne_zero, true_and, false_and, and_true, and_false]
    · subst hw
      simp (disch := decide) only [fld_pack_lo, fld_pack, Nat.reduceSub])

theorem iend : Statement (.iend) :=
  of_word rfl (fun s => by
    rw [show Instr.word (.iend) s = pack 1 (1#1) (pack 2 s (pack 29 (469762172#29) 0)) from rfl]
    generalize hw : pack 1 (1#1) (pack 2 s (pack 29 (469762172#29) 0)) = w
    have hop : sel w 3 7 = 124 := by subst hw; simp (disch := decide) only [sel_pack_lo, sel_pack_in, Nat.reduceSub, BitVec.toNat_ofNat]; try rfl
    have hk0 : sel w 28 4 = 14 := by subst hw; simp (disch := decide) only [sel_pack_lo, sel_pack_in, Nat.reduceSub, BitVec.toNat_ofNat]; try rfl
    have hk1 : sel w 10 22 = 3670016 := by subst hw; simp (disch := decide) only [sel_pack_lo, sel_pack_in, Nat.reduceSub, BitVec.toNat_ofNat]; try rfl
    have hk2 : sel w 16 16 = 57344 := by subst hw; simp (disch := decide) only [sel_pack_lo, sel_pack_in, Nat.reduceSub, BitVec.toNat_ofNat]; try rfl
    have hk3 : sel w 22 10 = 896 := by subst hw; simp (disch := decide) only [sel_pack_lo, sel_pack_in, Nat.reduceSub, BitVec.toNat_ofNat]; try rfl
    refine ⟨?_, hw ▸ (fits_pack (n := 1) (m := 31) (fits_pack (n := 2) (m := 29) (fits_pack (n := 29) (m := 0) fits_zero)) : Fits _ 32), hw ▸ pack_mod _ _, by rw [hop]; decide, ?_⟩
    · rw [raw7C hop]
      simp only [decodeOp7C, hk0, hk1, hk2, hk3, reduceIte, Nat.reduceEqDiff, OfNat.ofNat_ne_zero, OfNat.zero_ne_ofNat, OfNat.ofNat_ne_one, OfNat.one_ne_ofNat, zero_ne_one, one_ne_zero, true_and, false_and, and_true, and_false]
    · subst hw
      simp (disch := decide) only [fld_pack_lo, fld_pack, Nat.reduceSub])

theorem compactionMeeting (blk : Nat) : Statement (.compactionMeeting blk) :=
  of_none rfl

theorem compactedGroupStart (blk : Nat) : Statement (.compactedGroupStart blk) :=
  of_none rfl

theorem compactionClose (blk : Nat) : Statement (.compactionClose blk) :=
  of_none rfl

theorem stoseedWrite (value : Word) : Statement (.stoseedWrite value) :=
  of_none rfl

theorem wcodestClear (value : Word) : Statement (.wcodestClear value) :=
  of_none rfl

theorem redinjArm (value : Word) : Statement (.redinjArm value) :=
  of_none rfl

theorem migcmdStart : Statement (.migcmdStart) :=
  of_none rfl

theorem migcmdRelease : Statement (.migcmdRelease) :=
  of_none rfl

theorem migdescWrite (value : Word) : Statement (.migdescWrite value) :=
  of_none rfl

theorem registerWrite (reg : RegName) (value : Word) : Statement (.registerWrite reg value) :=
  of_none rfl

theorem migrationCopyComplete (data : List Byte) : Statement (.migrationCopyComplete data) :=
  of_none rfl

theorem migrationCopyFail (cause : Byte) : Statement (.migrationCopyFail cause) :=
  of_none rfl

theorem groupPromotion (core : Nat) : Statement (.groupPromotion core) :=
  of_none rfl

theorem localityWindowEnd (core : Nat) : Statement (.localityWindowEnd core) :=
  of_none rfl

theorem sleepEnd (g : GRef) : Statement (.sleepEnd g) :=
  of_none rfl

theorem waitConditionMet (g : GRef) : Statement (.waitConditionMet g) :=
  of_none rfl

theorem barrierDeparture (blk : Nat) (cluster : Bool) : Statement (.barrierDeparture blk cluster) :=
  of_none rfl

theorem accessRepliesComplete (g : GRef) : Statement (.accessRepliesComplete g) :=
  of_none rfl

theorem l1Writeback (core : Nat) (base : Nat) (words : Nat) : Statement (.l1Writeback core base words) :=
  of_none rfl

theorem l2SwcWriteback (die : Nat) (line : Nat) : Statement (.l2SwcWriteback die line) :=
  of_none rfl

theorem queueWake (queue : Nat) : Statement (.queueWake queue) :=
  of_none rfl

theorem launchRecord (queue : Nat) : Statement (.launchRecord queue) :=
  of_none rfl

theorem waitmemRecord (queue : Nat) : Statement (.waitmemRecord queue) :=
  of_none rfl

theorem signalRecord (queue : Nat) : Statement (.signalRecord queue) :=
  of_none rfl

theorem barrierRecord (queue : Nat) : Statement (.barrierRecord queue) :=
  of_none rfl

theorem launchStart (launch : Nat) : Statement (.launchStart launch) :=
  of_none rfl

theorem blockPlacement (launch : Nat) (cores : List Nat) : Statement (.blockPlacement launch cores) :=
  of_none rfl

theorem launchCompletion (launch : Nat) : Statement (.launchCompletion launch) :=
  of_none rfl

theorem timeSliceExpiry (launch : Nat) : Statement (.timeSliceExpiry launch) :=
  of_none rfl

theorem shapeApply (launch : Nat) : Statement (.shapeApply launch) :=
  of_none rfl

theorem holdEntryDrain (g : GRef) : Statement (.holdEntryDrain g) :=
  of_none rfl

theorem inletStoreRequest (req : SlotRequest) : Statement (.inletStoreRequest req) :=
  of_none rfl

theorem operatorWeightLoad (handle : Nat) : Statement (.operatorWeightLoad handle) :=
  of_none rfl

theorem sequencerPass (handle : Nat) (strikes : Nat) : Statement (.sequencerPass handle strikes) :=
  of_none rfl

theorem slotCompletion (handle : Nat) (slot : Nat) : Statement (.slotCompletion handle slot) :=
  of_none rfl

theorem forwardDelivery (handle : Nat) (slot : Nat) : Statement (.forwardDelivery handle slot) :=
  of_none rfl

theorem forwardRetry (handle : Nat) (slot : Nat) : Statement (.forwardRetry handle slot) :=
  of_none rfl

theorem forwardTimeout (handle : Nat) (slot : Nat) : Statement (.forwardTimeout handle slot) :=
  of_none rfl

theorem outletWaitServe (g : GRef) : Statement (.outletWaitServe g) :=
  of_none rfl

theorem outletWaitTimeout (g : GRef) : Statement (.outletWaitTimeout g) :=
  of_none rfl

theorem operatorRemoval (handle : Nat) : Statement (.operatorRemoval handle) :=
  of_none rfl

theorem arrayKstep (core : Nat) (strikes : Nat) : Statement (.arrayKstep core strikes) :=
  of_none rfl

theorem tzeroPerform (core : Nat) : Statement (.tzeroPerform core) :=
  of_none rfl

theorem tldaPerform (core : Nat) : Statement (.tldaPerform core) :=
  of_none rfl

theorem tstaPerform (core : Nat) : Statement (.tstaPerform core) :=
  of_none rfl

theorem copyCompletion (copy : Nat) : Statement (.copyCompletion copy) :=
  of_none rfl

theorem trapRecordDelivery : Statement (.trapRecordDelivery) :=
  of_none rfl

theorem trapRecordTimeout (launch : Nat) : Statement (.trapRecordTimeout launch) :=
  of_none rfl

theorem answerApply (token : Word) (disp : Byte) (result : Word) : Statement (.answerApply token disp result) :=
  of_none rfl

theorem debuggerHalt (g : GRef) : Statement (.debuggerHalt g) :=
  of_none rfl

theorem debuggerResume (g : GRef) (send : Bool) : Statement (.debuggerResume g send) :=
  of_none rfl

theorem preemptionRequest (launch : Nat) : Statement (.preemptionRequest launch) :=
  of_none rfl

theorem forcedHardSave (launch : Nat) : Statement (.forcedHardSave launch) :=
  of_none rfl

theorem blockSave (blk : Nat) : Statement (.blockSave blk) :=
  of_none rfl

theorem saveComplete (launch : Nat) : Statement (.saveComplete launch) :=
  of_none rfl

theorem contextResume (launch : Nat) : Statement (.contextResume launch) :=
  of_none rfl

theorem signatureCompare (blk : Nat) (grp : Nat) : Statement (.signatureCompare blk grp) :=
  of_none rfl

theorem meetingPoint (blk : Nat) (grp : Nat) : Statement (.meetingPoint blk grp) :=
  of_none rfl

theorem fabricRequestReceive (p : Packet) : Statement (.fabricRequestReceive p) :=
  of_none rfl

theorem atomicPacketReceive (p : Packet) : Statement (.atomicPacketReceive p) :=
  of_none rfl

theorem opstoreReceive (p : Packet) : Statement (.opstoreReceive p) :=
  of_none rfl

theorem dataReply (p : Packet) : Statement (.dataReply p) :=
  of_none rfl

theorem ackReply (p : Packet) : Statement (.ackReply p) :=
  of_none rfl

theorem nackReply (p : Packet) : Statement (.nackReply p) :=
  of_none rfl

theorem retryReply (p : Packet) : Statement (.retryReply p) :=
  of_none rfl

theorem inval (p : Packet) : Statement (.inval p) :=
  of_none rfl

theorem invack (p : Packet) : Statement (.invack p) :=
  of_none rfl

theorem recordPacket (p : Packet) : Statement (.recordPacket p) :=
  of_none rfl

theorem noticePacket (p : Packet) : Statement (.noticePacket p) :=
  of_none rfl

theorem retransmitTimeout (req : Nat) : Statement (.retransmitTimeout req) :=
  of_none rfl

theorem replyCacheExpiry (src : Nat) (stream : Nat) (seq : Nat) : Statement (.replyCacheExpiry src stream seq) :=
  of_none rfl

theorem flowOff (port : Nat) (cls : Nat) : Statement (.flowOff port cls) :=
  of_none rfl

theorem flowOn (port : Nat) (cls : Nat) : Statement (.flowOn port cls) :=
  of_none rfl

theorem linkLoss (port : Nat) : Statement (.linkLoss port) :=
  of_none rfl

theorem linkLossNotice (port : Nat) : Statement (.linkLossNotice port) :=
  of_none rfl

theorem linkRetrained (port : Nat) : Statement (.linkRetrained port) :=
  of_none rfl

theorem swap : Statement (.swap) :=
  of_none rfl

theorem swapGraceExpiry : Statement (.swapGraceExpiry) :=
  of_none rfl

theorem fberrClr : Statement (.fberrClr) :=
  of_none rfl

theorem swfailClear : Statement (.swfailClear) :=
  of_none rfl

theorem spawn (window : Nat) (whole : Bool) (line : List Word) : Statement (.spawn window whole line) :=
  of_none rfl

theorem hostMemAccess (write : Bool) (pa : Nat) (size : Nat) (data : Word) : Statement (.hostMemAccess write pa size data) :=
  of_none rfl

theorem mailboxDoorbell (widx : BitVec 16) : Statement (.mailboxDoorbell widx) :=
  of_none rfl

theorem registerQueue (ctx : BitVec 32) (desc : Word) : Statement (.registerQueue ctx desc) :=
  of_none rfl

theorem registerContext (info : ContextInfo) : Statement (.registerContext info) :=
  of_none rfl

theorem preemptService (ctx : BitVec 32) : Statement (.preemptService ctx) :=
  of_none rfl

theorem resumeService (ctx : BitVec 32) : Statement (.resumeService ctx) :=
  of_none rfl

theorem discardService (ctx : BitVec 32) : Statement (.discardService ctx) :=
  of_none rfl

theorem fenceCore (core : Nat) : Statement (.fenceCore core) :=
  of_none rfl

theorem retirePseudoChannel (frames : List Nat) : Statement (.retirePseudoChannel frames) :=
  of_none rfl

theorem retrainLink (port : Nat) : Statement (.retrainLink port) :=
  of_none rfl

theorem domainCopy (req : CopyRequest) : Statement (.domainCopy req) :=
  of_none rfl

theorem reset (images : List BootImage) : Statement (.reset images) :=
  of_none rfl

theorem firmwareHandover (image : BootImage) (accepts : Bool) : Statement (.firmwareHandover image accepts) :=
  of_none rfl

theorem handoverTimeout : Statement (.handoverTimeout) :=
  of_none rfl

theorem getVersion : Statement (.getVersion) :=
  of_none rfl

theorem getCapabilities : Statement (.getCapabilities) :=
  of_none rfl

theorem negotiateAlgorithms (sha256 : Bool) : Statement (.negotiateAlgorithms sha256) :=
  of_none rfl

theorem getDigests : Statement (.getDigests) :=
  of_none rfl

theorem getCertificate : Statement (.getCertificate) :=
  of_none rfl

theorem challenge (nonce : List Byte) : Statement (.challenge nonce) :=
  of_none rfl

theorem getMeasurements (nonce : List Byte) : Statement (.getMeasurements nonce) :=
  of_none rfl

theorem replay (ctx : BitVec 32) : Statement (.replay ctx) :=
  of_none rfl

theorem cap (value : Word) : Statement (.cap value) :=
  of_none rfl

theorem caperrClear : Statement (.caperrClear) :=
  of_none rfl

theorem tripClear : Statement (.tripClear) :=
  of_none rfl

theorem powerCapTick (watts : Nat) : Statement (.powerCapTick watts) :=
  of_none rfl

theorem thermalTick (degrees : Nat) : Statement (.thermalTick degrees) :=
  of_none rfl

theorem thermalTrip (degrees : Nat) : Statement (.thermalTrip degrees) :=
  of_none rfl

theorem inputVoltageChange (millivolts : Nat) : Statement (.inputVoltageChange millivolts) :=
  of_none rfl

theorem inputRecoveryTimeout : Statement (.inputRecoveryTimeout) :=
  of_none rfl

theorem retryDelayExpiry (req : Nat) : Statement (.retryDelayExpiry req) :=
  of_none rfl

theorem rdmaRequestReceive (write : Bool) (src : BitVec 13) (ctx : BitVec 32) (va : Word) (data : List Byte) : Statement (.rdmaRequestReceive write src ctx va data) :=
  of_none rfl

theorem domainCopyCompletion (id : Nat) (cause : Byte) (data : List Byte) : Statement (.domainCopyCompletion id cause data) :=
  of_none rfl

theorem hostLinkTraining (lanes : Nat) : Statement (.hostLinkTraining lanes) :=
  of_none rfl

theorem journalDrain (ctx : BitVec 32) (entries : Nat) : Statement (.journalDrain ctx entries) :=
  of_none rfl

end Sys2Proof.Laws.Encoding
end

