-- ==== Sys2Proof/Tests/Slice0.lean ====
section
/-! SUPPORT. The model's own tests: words decode as the spec encodes them, ill-formed terms are refused, small steps give
what the spec's rules give by hand, and every statement's hypotheses are met by some state. -/

open Sys2Proof Sys2Proof.Machine

namespace Sys2Proof.Tests

set_option Elab.async false

/-! ## Small states -/

/-- A launch of one group of four lanes with 128 registers, whose image declares one liveness and one restart record. -/
def demoLaunch : Launch := { placedLaunch 1 1 with header := { placedHeader with nlive := 1, nrest := 1 } }

/-- Its group. -/
def demoGroup : Group := freshGroup demoLaunch 0 (0, 0, 128) 0 true

/-- Its block. -/
def demoBlock : Block := { State.reset.freshBlock demoLaunch 2 0 0 none with groups := [demoGroup] }

/-- HBM with tables that map the lowest GiB of virtual addresses to the lowest GiB of HBM, the second to operator windows,
the third and the fourth to the lowest GiB of HBM as software-coherent and as uncached pages, the fifth to device 1 with
remote atomics, and the sixth to the host. -/
def demoMem : Cells 8 :=
  writeBytes State.reset.withGroup.mem 0x10010008
    (natBytes 8 0xFD ++ natBytes 8 0x43D ++ natBytes 8 0x83D ++ natBytes 8 0x0001027D ++ natBytes 8 0xBD)

/-- A device that runs one block of one group. -/
def lab (l : Launch) (b : Block) (g : Group) : State :=
  { State.reset.withGroup with mem := demoMem, launches := [l], blocks := [{ b with groups := [g] }] }

/-- The block of a group. -/
def blockOf (g : Group) : Block := { demoBlock with groups := [g] }

/-- The device that runs the group. -/
def labOf (g : Group) : State := lab demoLaunch demoBlock g

/-- A compacted group, which carries the quads of group 0. -/
def cmpGroup : Group := { demoGroup with carrier := List.replicate 24 (some 0) }

/-- A block inside a compacted region whose one compacted group stands at its close. -/
def cmpBlock (g : Group) : Block := { demoBlock with region := some ([g], 0x10000) }

/-- The device that runs the compacted group. -/
def labCmp (g : Group) : State :=
  { State.reset.withGroup with launches := [demoLaunch], blocks := [cmpBlock g], cur := ⟨2, 0, true⟩ }

/-- The compacted group as its units see it. -/
def cmpView : Group := (cmpBlock cmpGroup).gather cmpGroup

/-- Lanes 0 and 1 hold p1, lanes 2 and 3 do not. -/
def splitGroup : Group := { demoGroup with preds := [(1, 3)] }

/-- An entry of all four lanes. -/
def entryOf (k : EntryKind) : Entry := ⟨k, 0x10000, 0xF, 0, none⟩

theorem test_current : (labOf demoGroup).current = some (blockOf demoGroup, demoGroup) := by decide

/-! ## Decoding: the worked encodings of the spec, parcel by parcel -/

/-- The parcels are one instruction, with its stall count, and leave `rest`; the encoder gives them back. -/
def reads (ws : List Parcel) (i : Instr) (stall : BitVec 2) (rest : List Parcel) : Bool :=
  decide (decode (ws ++ rest) = .instr i stall rest) && decide (encode i stall = ws)

/-- From the worked encodings of the sequential machine (R20 to R26): `vadd.i32 v5, v5, v3`; `vadd.i32 v5, v5, v3 ~1`; `sadd
s4, s2, s3`; `saddi s5, s5, -3`; `srr s7, cycle`; `vfadd.f32 v8, v6, v7 ~1`; `nop`; `brnz s4, loop`. -/
theorem test_decode_sequential :
    [reads [0x18A0] (.vaddI32Compact 3 5) 0 [],
     reads [0x1503, 0x030A] (.vaddI32 0 3 5 5) 1 [],
     reads [0x1009, 0x00C2] (.sadd 3 2 4) 0 [],
     reads [0x1419, 0xFF45] (.saddi 1021 5 5) 0 [],
     reads [0x1CF9, 0x2300] (.srr 768 7) 0 [],
     reads [0x2203, 0x070C] (.vfaddF32 0 7 6 8) 1 [],
     reads [0x00F9, 0x0000] (.nop) 0 [],
     reads [0x10A9, 0xFFFC] (.brnz 65532 4) 0 []].all id = true := by decide +kernel

/-- From the examples of the formats (R45 to R63): `(p2) ld.32 v9, [s4 + v7]`; `ld.32.acq.dev v9, [s4 + v7 + 64]`;
`vadd.i32.sat v3, v4, v5`; `rep 8, step=da, stride=+1`; `inv bk0, x=v10, y=v12, int, inc, tol=exact`; `tmul.bf16.ter.f32
acc4, s20, 1`. -/
theorem test_decode_formats :
    [reads [0x2721, 0x8388] (.ld32 2 7 4 9) 0 [],
     reads [0x1BF9, 0x4101] (.modMemory 8 0 0 0 4 1) 0 [0x2721, 0x0388],
     reads [0x1BF9, 0x0000] (.modAlu 0 0 0 0 0 0 0 1) 0 [0x0D01, 0x0508],
     reads [0x73F9, 0x0018] (.rep 0 6 7) 0 [],
     reads [0x87F9, 0x0182] (.inv 0 0 0 12 10 0) 0 [],
     reads [0x93C9, 0x1534] (.tmul 1 20 3 9 4) 0 []].all id = true := by decide +kernel

/-- From the scalar, control and system tables: `sli s8, -0x3211`; `slh16 s8, 0x89AB`; `slh32 s8, 0x4567`; `slh48 s8,
0x0123`; `sdiv s6, s4, s5`; `ssltz s7, s1, s2`; `sshli s2, s2, 3`; `sgetl s5, v10, 17`; `ssetl v10, 17, s5`; `jpt merge`;
`brp p1, then`; `vaddi v3, v3, 1`. -/
theorem test_decode_scalar_control_system_1 :
    [reads [0x2051, 0xCDEF] (.sli 52719 8) 0 [],
     reads [0x2059, 0x89AB] (.slh16 35243 8) 0 [],
     reads [0x2061, 0x4567] (.slh32 17767 8) 0 [],
     reads [0x2069, 0x0123] (.slh48 291 8) 0 [],
     reads [0x1809, 0x5144] (.sdiv 5 4 6) 0 [],
     reads [0x1C11, 0x7081] (.ssltz 2 1 7) 0 [],
     reads [0x0839, 0x00C2] (.sshli 3 2 2) 0 [],
     reads [0x1489, 0x1114] (.sgetl 0 17 10 5) 0 [],
     reads [0x2891, 0x110A] (.ssetl 0 17 5 10) 0 [],
     reads [0x00C1, 0x000A] (.jpt 10) 0 [],
     reads [0x04B9, 0x0006] (.brp 6 0 0 1) 0 [],
     reads [0x0DC1, 0x0106] (.vaddi 1 3 3) 0 []].all id = true := by decide +kernel

/-- From the scalar, control and system tables: `jmp merge`; `merge: join`; `calli v20`; `jmpi v20`; `ret`; `srw frm, s3`;
`sleep s5`; `yield`; `bkpt 7`. -/
theorem test_decode_scalar_control_system_2 :
    [reads [0x0099, 0x0004] (.jmp 4) 0 [],
     reads [0x00C9, 0x0000] (.join) 0 [],
     reads [0x00D9, 0x0028] (.calli 20) 0 [],
     reads [0x00E1, 0x0028] (.jmpi 20) 0 [],
     reads [0x00E9, 0x0000] (.ret) 0 [],
     reads [0x0CF9, 0x3100] (.srw 256 3) 0 [],
     reads [0x14F9, 0x4000] (.sleep 5) 0 [],
     reads [0x00F9, 0x1000] (.yield) 0 [],
     reads [0x00F9, 0x5007] (.bkpt 7) 0 []].all id = true := by decide +kernel

/-- From the vector tables: `vmad.i32 v4, v1, v2`; `vbfe.z32 v6, v7, v8`; `vli v3, -5`; `vsel v5, v9, !p3`; `vicmp.lt p2,
v3, v4`; `vpred.andn p4, p1, nv`; `vfma.h2 v10, v11, v12 ~1`; `vfrsq v7, v8`; `vcvt.e4m3.f32 v20, v21`; `vpack.ter16 v40,
v48`; `vqx.swap1 v8, v9`; `vshfl.xor v8, v9, s3`. -/
theorem test_decode_vector_1 :
    [reads [0x1129, 0x0202] (.vmadI32 0 2 1 4) 0 [],
     reads [0x1999, 0x080E] (.vbfeZ32 0 8 7 6) 0 [],
     reads [0x0DE9, 0xFFF6] (.vli 32763 3) 0 [],
     reads [0x15A9, 0x1312] (.vsel 1 3 9 5) 0 [],
     reads [0x49F9, 0x0406] (.vicmp 0 4 3 2 2) 0 [],
     reads [0x32F1, 0x0070] (.vpredAndn 8 1 4) 0 [],
     reads [0x2A4B, 0x0C16] (.vfmaH2 0 12 11 10) 1 [],
     reads [0x1E91, 0x0110] (.vfrsq 8 7) 0 [],
     reads [0x52A1, 0x252A] (.vcvt 2 5 21 20) 0 [],
     reads [0xA2A9, 0x0160] (.vpackTer16 48 40) 0 [],
     reads [0x22B1, 0x0012] (.vqx 0 9 8) 0 [],
     reads [0x22D1, 0x8312] (.vshflXor 1 3 9 8) 0 []].all id = true := by decide +kernel

/-- From the vector tables: `vred.fadd.f32.quad v30, v31`; `vscan.fadd.f32.quad v29, v31`; `vvote.ballot s10, p5`;
`vflg.rdclr v2, nv, nx`; `vbk.get v13, bk1.hi`; `vcvt.e4m3.f32.pow2=-2.clamp=s8 v20, v21`. -/
theorem test_decode_vector_2 :
    [reads [0x7AD9, 0x183E] (.vred 1 8 31 30) 0 [],
     reads [0x76E1, 0x283E] (.vscan 2 8 31 29) 0 [],
     reads [0x2AE9, 0x008A] (.vvoteBallot 0 5 10) 0 [],
     reads [0x0AF9, 0x008C] (.vflgRdclr 17 2) 0 [],
     reads [0x35F1, 0x002A] (.vbkGet 1 1 13) 0 [],
     reads [0x0BF9, 0x08F8] (.modAlu 8 1 30 0 0 0 0 0) 0 [0x52A1, 0x252A]].all id = true := by decide +kernel

/-- From the invert prefix: `vor v13, v12, v12`; `iend`; `vbk.set bk0.lo, v1`; `vmul.i32 v12, v10, v10`. -/
theorem test_decode_invert :
    [reads [0x3539, 0x0C18] (.vor 0 12 12 13) 0 [],
     reads [0x03E1, 0xE000] (.iend) 0 [],
     reads [0x05F1, 0x0000] (.vbkSet 0 0 1) 0 [],
     reads [0x3111, 0x0A14] (.vmulI32 0 10 10 12) 0 []].all id = true := by decide +kernel

/-- From the memory tables: `ld.s8 v3, [s2 + v1]`; `st.64 [s4 + v7], v12`; `st.32.rel.clu [s4 + v7 - 8], v9`; `lds.16 v5,
[v3 + 6]`; `sts.64 [v3 + 8], v10`; `ldc v8, [s10 + v1]`; `ldsmp v8, [s12], v2`; `atom.fadd.f32 v10, [s8 + v2]`; `atom.cas.64
v20, [s4 + v7]`; `atoms.add.32 v5, [v6]`; `cwb s4, s5`; `cinv s4, s5`. -/
theorem test_decode_memory_1 :
    [reads [0x0F01, 0x0084] (.ldS8 0 1 2 3) 0 [],
     reads [0x3351, 0x0388] (.st64 0 7 4 12) 0 [],
     reads [0xABF9, 0x7FE0] (.modMemory 511 0 0 0 2 2) 0 [0x2749, 0x0388],
     reads [0x1761, 0x4306] (.lds 1 3 3 5) 0 [],
     reads [0x2B69, 0xC106] (.sts 3 1 3 10) 0 [],
     reads [0x2371, 0x0094] (.ldc 0 1 10 8) 0 [],
     reads [0x2379, 0x0118] (.ldsmp 0 2 12 8) 0 [],
     reads [0x2B81, 0x8110] (.atomFaddF32 2 8 10) 0 [],
     reads [0x5399, 0xC388] (.atomCas64 7 4 20) 0 [],
     reads [0x17A1, 0x000C] (.atoms 0 6 5) 0 [],
     reads [0x13A9, 0x1005] (.cwb 5 4) 0 [],
     reads [0x13A9, 0x2005] (.cinv 5 4) 0 []].all id = true := by decide +kernel

/-- From the memory tables: `fence.sc.sys`; `pfence gen, cst`. -/
theorem test_decode_memory_2 :
    [reads [0x77B1, 0x0000] (.fence 3 5) 0 [],
     reads [0x87B9, 0x0000] (.pfence 2 1) 0 []].all id = true := by decide +kernel

/-- From the engine and launch tables: `opinst s5, s6`; `oprem s5`; `opfire s5, s7`; `opqry s8, s5, s7`; `tzero acc4, 8`;
`tsta acc4, 8, s14`; `tlda acc4, 8, s14`; `trda v40, acc3, s12`; `twra acc3, s12, v40`; `tcopy.ld v8, s20, s21`;
`tcopy.st.quad v8, s20, s21`; `cseal s9`. -/
theorem test_decode_engine_launch_1 :
    [reads [0x17C1, 0x0006] (.opinst 6 5) 0 [],
     reads [0x03C1, 0x1005] (.oprem 5) 0 [],
     reads [0x03C1, 0x21C5] (.opfire 7 5) 0 [],
     reads [0x23C1, 0x31C5] (.opqry 7 5 8) 0 [],
     reads [0x13C1, 0xB1C0] (.tzero 7 4) 0 [],
     reads [0x13C1, 0xC1CE] (.tsta 7 14 4) 0 [],
     reads [0x13C1, 0xD1CE] (.tlda 7 14 4) 0 [],
     reads [0xA3D9, 0x0C06] (.trda 12 3 40) 0 [],
     reads [0xA3D9, 0x0C46] (.twra 12 3 40) 0 [],
     reads [0x53E9, 0x0215] (.tcopyLd 0 0 8 21 20) 0 [],
     reads [0x53E9, 0x6215] (.tcopySt 1 8 21 20) 0 [],
     reads [0x27C1, 0x4000] (.cseal 9) 0 []].all id = true := by decide +kernel

/-- From the engine and launch tables: `cwait s9`; `mseal s9`; `mwait s9`; `cntwait s12, s13`; `cntadd s12, s13`; `cntinit
s12, s13`; `bar.blk`; `bar.clu`; `mbinit s12, s13`; `mbarr s12`; `mbexp s12, s13`; `mbwait s12, s13`. -/
theorem test_decode_engine_launch_2 :
    [reads [0x03C1, 0x5009] (.cwait 9) 0 [],
     reads [0x27C1, 0x9000] (.mseal 9) 0 [],
     reads [0x03C1, 0xA009] (.mwait 9) 0 [],
     reads [0x03C1, 0x634C] (.cntwait 13 12) 0 [],
     reads [0x03C1, 0x734C] (.cntadd 13 12) 0 [],
     reads [0x03C1, 0x834C] (.cntinit 13 12) 0 [],
     reads [0x03D1, 0x0000] (.barBlk) 0 [],
     reads [0x03D1, 0x1000] (.barClu) 0 [],
     reads [0x03D1, 0x234C] (.mbinit 13 12) 0 [],
     reads [0x03D1, 0x300C] (.mbarr 12) 0 [],
     reads [0x03D1, 0x434C] (.mbexp 13 12) 0 [],
     reads [0x03D1, 0x534C] (.mbwait 13 12) 0 []].all id = true := by decide +kernel

/-- From the engine and launch tables: `mbtry s14, s12, s13`; `walk s16, s17`; `wnext s16`; `wend`; `shpub s4, s5, s6`;
`shwait`; `shqry s10`; `ralloc s11, s12`; `rfree s11`. -/
theorem test_decode_engine_launch_3 :
    [reads [0x3BD1, 0x634C] (.mbtry 13 12 14) 0 [],
     reads [0x43D1, 0x7011] (.walk 17 16) 0 [],
     reads [0x43D1, 0x8000] (.wnext 16) 0 [],
     reads [0x03D1, 0x9000] (.wend) 0 [],
     reads [0x13E1, 0x0185] (.shpub 6 5 4) 0 [],
     reads [0x03E1, 0x1000] (.shwait) 0 [],
     reads [0x2BE1, 0x2000] (.shqry 10) 0 [],
     reads [0x2FE1, 0x300C] (.ralloc 12 11) 0 [],
     reads [0x03E1, 0x400B] (.rfree 11) 0 []].all id = true := by decide +kernel

/-- From the operator program: `ld.64.acq.sys.wt v20, [s10 + v1 + 56]`; `ld.32.take v21, [s10 + v1]`; `st.8 [s8 + v1], v3`;
`st.16 [s8 + v0 + 64], v4`; `st.8 [s10 + v0 + 192], v5`; `ld.64 v20, [s9 + v0 + 128]`. -/
theorem test_decode_operator_writers :
    [reads [0x5BF9, 0x40E9] (.modMemory 7 0 1 0 5 1) 0 [0x5329, 0x0094],
     reads [0x0BF9, 0x4010] (.modMemory 0 1 0 0 0 0) 0 [0x5721, 0x0094],
     reads [0x0F39, 0x0090] (.st8 0 1 8 3) 0 [],
     reads [0x0BF9, 0x4100] (.modMemory 8 0 0 0 0 0) 0 [0x1341, 0x0010],
     reads [0x0BF9, 0x4300] (.modMemory 24 0 0 0 0 0) 0 [0x1739, 0x0014],
     reads [0x0BF9, 0x4200] (.modMemory 16 0 0 0 0 0) 0 [0x5329, 0x0012]].all id = true := by decide +kernel

/-- From the experts program: `ld.z8 v2, [s9 + v1]`; `vpred.fromv p1, v2`; `vvote.popc s10, !p1`; `sdivz s13, s11, s12`;
`(p1) st.32 [s5 + v6], v5`; `vmov v5, v1`; `vxor v2, v2, v2`; `loop s13, lp`; `atom.add.32 v20, [s8 + v0]`. -/
theorem test_decode_experts :
    [reads [0x0B09, 0x0092] (.ldZ8 0 1 9 2) 0 [],
     reads [0x06F1, 0x02E0] (.vpredFromv 2 1) 0 [],
     reads [0x2AE9, 0x00E2] (.vvotePopc 1 1 10) 0 [],
     reads [0x3409, 0x630B] (.sdivz 12 11 13) 0 [],
     reads [0x1749, 0x430A] (.st32 1 6 5 5) 0 [],
     reads [0x08B2] (.vmovCompact 1 5) 0 [],
     reads [0x104A] (.vxorCompact 2 2) 0 [],
     reads [0x34B1, 0xFFEF] (.loop 65519 13) 0 [],
     reads [0x5381, 0x0010] (.atomAdd32 0 8 20) 0 []].all id = true := by decide +kernel

/-- From the traps: `trapf`; `trap 1`; `supcall 3`; `eret`; `phint 5`; `rlabel 2`; `oppark s5`; `ckpt`. -/
theorem test_decode_traps :
    [reads [0x03E1, 0x5000] (.trapf) 0 [],
     reads [0x03E1, 0x6001] (.trap 1) 0 [],
     reads [0x03E1, 0x7003] (.supcall 3) 0 [],
     reads [0x03E1, 0x8000] (.eret) 0 [],
     reads [0x03E1, 0xB005] (.phint 5) 0 [],
     reads [0x03E1, 0xC002] (.rlabel 2) 0 [],
     reads [0x03E1, 0xA005] (.oppark 5) 0 [],
     reads [0x03E1, 0xD000] (.ckpt) 0 []].all id = true := by decide +kernel

/-- From the remote atomics program: `tlbinv s4, s5`; `sld.64.acq.sys s9, [s5 + 0]`; `sst.64.rel.sys [s6 + 0], s10`. -/
theorem test_decode_remote_atomics :
    [reads [0x03E1, 0x9144] (.tlbinv 5 4) 0 [],
     reads [0x5BF9, 0x4001] (.modMemory 0 0 0 0 5 1) 0 [0x2471, 0x0085],
     reads [0x6BF9, 0x4001] (.modMemory 0 0 0 0 5 2) 0 [0x2879, 0x0086]].all id = true := by decide +kernel

/-- R64: the parcel 0x0000 raises cause 0x03, an unassigned word cause 0x01, whatever follows. -/
theorem test_decode_illegal :
    decode [0x0000, 0x0000] = .illegal 0x03 ∧ decode [0x0001, 0x0000] = .illegal 0x01 ∧ decode [0x1019] = .short := by decide +kernel

/-! ## Ill-formed terms are refused -/

/-- The word of the term decodes to no instruction. -/
def refused (i : Instr) : Bool := !WellFormed i && decide (decode (encode i 0) = .illegal 0x01)

/-- R64 step 2: the compact add whose encoding would be the parcel 0x0000. -/
theorem test_wf_compact : WellFormed (.vaddI32Compact 0 0) = false := by decide

/-- R48, R74: the sizes, lane numbers, loop counters and pair registers of the scalar and control formats. -/
theorem test_wf_scalar :
    [refused (.sld 0 3 0 0), refused (.sst 0 1 0 0), refused (.sst 0 3 0 0), refused (.sldc 0 3 0 0),
     refused (.sgetl 0 96 0 0), refused (.sgetl 1 64 0 0), refused (.ssetl 0 96 0 0), refused (.ssetl 1 64 0 0),
     refused (.loop 0 0), refused (.calli 127), refused (.jmpi 127)].all id = true := by decide +kernel

/-- R45: with bs = 1 the second operand of every VR instruction is a scalar below 64. -/
theorem test_wf_second :
    [refused (.vaddI32 1 64 0 0), refused (.vsubI32 1 64 0 0), refused (.vmulI32 1 64 0 0), refused (.vmulh 1 64 0 0),
     refused (.vmulhz 1 64 0 0), refused (.vmadI32 1 64 0 0), refused (.vand 1 64 0 0), refused (.vor 1 64 0 0),
     refused (.vxor 1 64 0 0), refused (.vshl 1 64 0 0), refused (.vshr 1 64 0 0), refused (.vsra 1 64 0 0),
     refused (.vminI32 1 64 0 0), refused (.vmaxI32 1 64 0 0), refused (.vminZ32 1 64 0 0), refused (.vmaxZ32 1 64 0 0),
     refused (.vabsd 1 64 0 0), refused (.vbfeI32 1 64 0 0), refused (.vbfeZ32 1 64 0 0), refused (.vbfi 1 64 0 0),
     refused (.vdot4I8 1 64 0 0), refused (.vdot4Z8 1 64 0 0)].all id = true := by decide +kernel

/-- The same for the floating-point instructions and the shuffles. -/
theorem test_wf_second_float :
    [refused (.vfaddF32 1 64 0 0), refused (.vfsubF32 1 64 0 0), refused (.vfmulF32 1 64 0 0), refused (.vfmaF32 1 64 0 0),
     refused (.vfminF32 1 64 0 0), refused (.vfmaxF32 1 64 0 0), refused (.vfaddH2 1 64 0 0), refused (.vfsubH2 1 64 0 0),
     refused (.vfmulH2 1 64 0 0), refused (.vfmaH2 1 64 0 0), refused (.vfminH2 1 64 0 0), refused (.vfmaxH2 1 64 0 0),
     refused (.vfaddB2 1 64 0 0), refused (.vfsubB2 1 64 0 0), refused (.vfmulB2 1 64 0 0), refused (.vfmaB2 1 64 0 0),
     refused (.vfminB2 1 64 0 0), refused (.vfmaxB2 1 64 0 0), refused (.vshflIdx 1 64 0 0), refused (.vshflUp 1 64 0 0),
     refused (.vshflDn 1 64 0 0), refused (.vshflXor 1 64 0 0)].all id = true := by decide +kernel

/-- R52 to R54: conditions, predicates, formats, packs, quad exchanges and reductions. -/
theorem test_wf_vector :
    [refused (.vicmp 1 64 0 0 1), refused (.vicmp 0 0 0 10 1), refused (.vicmp 0 0 0 0 0), refused (.vfcmp 1 64 0 0 1),
     refused (.vfcmp 0 0 0 8 1), refused (.vfcmp 0 0 0 0 0), refused (.vcvt 12 0 0 0), refused (.vcvt 0 12 0 0),
     refused (.vcvt 5 5 0 0), refused (.vpackI8x4 125 0), refused (.vpackTer16 113 0), refused (.vpackE8m0 125 0),
     refused (.vqx 7 0 0), refused (.vred 3 0 0 0), refused (.vred 0 11 0 0), refused (.vscan 0 11 0 0),
     refused (.vvoteBallot 0 0 62)].all id = true := by decide +kernel

/-- R53: p0 is no destination. -/
theorem test_wf_predicates :
    [refused (.vpredAnd 0 0 0), refused (.vpredOr 0 0 0), refused (.vpredXor 0 0 0), refused (.vpredAndn 0 0 0),
     refused (.vpredOrn 0 0 0), refused (.vpredNot 0 0), refused (.vpredMov 0 0), refused (.vpredFromv 0 0)].all id = true := by
  decide +kernel

/-- R46, R55 to R57: data registers that would pass v127. -/
theorem test_wf_memory :
    [refused (.ld64 0 0 0 127), refused (.ld128 0 0 0 125), refused (.st64 0 0 0 127), refused (.st128 0 0 0 125),
     refused (.lds 3 0 0 127), refused (.sts 3 0 0 127), refused (.ldsmp 0 127 0 0), refused (.atomAdd64 0 0 127),
     refused (.atomExch64 0 0 127), refused (.atomCas32 0 0 127), refused (.atomCas64 0 0 125), refused (.atoms 1 0 127),
     refused (.atoms 11 0 127), refused (.atoms 14 0 127), refused (.atoms 15 0 125), refused (.fence 0 6)].all id = true := by
  decide +kernel

/-- R58 to R63: accumulator ranges, matrix combinations, the copies, the prefixes. -/
theorem test_wf_engine :
    [refused (.tzero 1 31), refused (.tsta 31 0 1), refused (.tlda 31 0 1), refused (.tmul 0 0 1 18 0),
     refused (.tmul 0 63 1 3 0), refused (.tmul 0 0 1 2 0), refused (.tmul 0 0 0 3 0), refused (.shqry 0),
     refused (.shqry 60), refused (.tcopyLd 0 0 125 0 1), refused (.tcopyLd 0 0 0 0 0), refused (.tcopySt 0 125 0 1),
     refused (.tcopySt 0 0 0 0), refused (.inv 0 0 0 127 0 0), refused (.modAlu 0 0 0 0 0 0 0 3),
     refused (.modAlu 1 0 0 0 0 0 0 0), refused (.modAlu 63 1 0 0 0 0 0 0), refused (.modMemory 0 0 0 0 6 0)].all id = true := by
  decide +kernel

/-! ## Numbers: the spec's worked conversions -/

/-- The table of conversions from FP32 (R125, R132 to R134). -/
theorem test_conversions :
    convert false (.float e4m3) .rne (decodeF fp32 0x43960000) = (0x79, flagsOf false false false false true) ∧
    convert false (.float e4m3) .rne (decodeF fp32 0x43FA0000) = (0x7E, flagsOf false false true false true) ∧
    convert false (.float fp16) .rne (.ofInt 70000) = (0x7C00, flagsOf false false true false true) ∧
    convert false (.float fp16) .rtz (.ofInt 70000) = (0x7BFF, flagsOf false false true false true) ∧
    convert false (.float fp16) .rne (decodeF fp32 0x3380D959) = (0x0001, flagsOf false false false true true) ∧
    convert false .e8m0 .rne (.ofInt 3) = (0x80, flagsOf false false false false true) ∧
    convert false .e8m0 .rne (decodeF fp32 0x80000000) = (0x00, flagsOf false false false true true) ∧
    convert false (.nat 8) .rne (decodeF fp32 0xBE99999A) = (0, flagsOf false false false false true) ∧
    convert false (.nat 8) .rdn (decodeF fp32 0xBE99999A) = (0, flagsOf true false false false false) ∧
    convert false (.float fp16) .rne (decodeF fp32 0x7F800001) = (0x7E00, flagsOf true false false false false) := by
  decide +kernel

/-- The example of R128: lane 0 rounds up, lane 1 does not, and both are inexact. -/
theorem test_stochastic :
    seedState 0 0 = 0x9E3779B9 ∧ seedState 0 1 = 0x3C6EF372 ∧
    convert false (.float bf16) (.sto 0x9E3779B9) (decodeF fp32 0x3F808000) = (0x3F81, flagsOf false false false false true) ∧
    convert false (.float bf16) (.sto 0x3C6EF372) (decodeF fp32 0x3F808000) = (0x3F80, flagsOf false false false false true) := by
  decide +kernel

/-- The example of R171 and R172: scaled by 2^−2 and clamped to ±448. -/
theorem test_scaled_clamp :
    let m : ModAlu := { ModAlu.plain with k := -2, clamp := some 8 }
    cvtLane 2 5 m .rne 0xC3E00000 0x43E00000 0x44FA0000 = ⟨0x7E, 0, 0⟩ ∧
    cvtLane 2 5 m .rne 0xC3E00000 0x43E00000 0xC0400000 = ⟨0xB4, 0, 0⟩ ∧
    cvtLane 2 5 m .rne 0xC3E00000 0x43E00000 0x3A83126F = ⟨0, flagsOf false false false true true, 0⟩ := by
  decide +kernel

/-- R222: the example x = 0.3, W = 2 has the fraction 76/256; R171: the negative of an integer 0 is +0. -/
theorem test_sample_and_negated_zero :
    sampleCoord (decodeF fp32 0x3E99999A) 2 = 76 ∧ sampleCoord (decodeF fp32 0x40A00000) 2 = 256 ∧
    (cvtLane 0 2 { ModAlu.plain with negA := true } .rne 0 0 0).value = 0 := by decide +kernel

/-- The example of R166: the tree and the chain give different sums of 2^24, 1, 1 and −2^24. -/
theorem test_reductions :
    let x := fun (l : Nat) => ([0x4B800000, 0x3F800000, 0x3F800000, 0xCB800000] : List LaneWord).getD l 0
    let nx := flagsOf false false false false true
    reduceTree 8 .rne x 2 0 = (0x3F800000, nx) ∧
    scanOutputs 8 .rne x false 4 0 0x80000000 0 = [(0x4B800000, 0), (0x4B800000, nx), (0x4B800000, nx), (0, nx)] := by
  decide +kernel

/-! ## Single steps -/

/-- The group that runs, after one instruction. -/
def after (i : Instr) (g : Group) : Option Group :=
  match exec i (labOf g) with
  | .next t => (t.current).map Prod.snd
  | _ => none

/-- Scalars 4 and 5, and the flags of the scalar unit, after one instruction. -/
def scalarsAfter (i : Instr) (g : Group) : Option (Word × Word) := (after i g).map (fun r => (r.scalar 4, r.scalar 5))

/-- The spec's worked sequence: the immediates and the sum; s0 as a destination is discarded (R17). -/
theorem test_step_scalars :
    scalarsAfter (.saddi 5 0 4) demoGroup = some (5, 0) ∧
    scalarsAfter (.saddi 0x3FF 4 4) { demoGroup with scalars := [(4, 5)] } = some (4, 0) ∧
    scalarsAfter (.sadd 4 5 5) { demoGroup with scalars := [(4, 5), (5, 9)] } = some (5, 14) ∧
    (after (.saddi 5 0 0) demoGroup).map (fun r => (r.scalar 0, r.pc)) = some (0, demoGroup.pc + 4) := by decide +kernel

/-- R19: the branch of the worked sequence goes to PC − 8 while s4 is not zero, and on when it is. -/
theorem test_step_branch :
    (after (.brnz 0xFFFC 4) { demoGroup with scalars := [(4, 1)] }).map (fun r => r.pc) = some (demoGroup.pc - 8) ∧
    (after (.brnz 0xFFFC 4) demoGroup).map (fun r => r.pc) = some (demoGroup.pc + 4) := by decide +kernel

/-- VLI sign-extends to 32 bits; VADDI adds its signed immediate and leaves inactive lanes alone. -/
theorem test_step_vectors :
    (after (.vli 0x7FFB 3) demoGroup).map (fun r => (r.vec 3 0, r.vec 3 3)) = some (0xFFFFFFFB, 0xFFFFFFFB) ∧
    (after (.vaddi 0xFF 3 3) { demoGroup with exec := 0x1 }).map (fun r => (r.vec 3 0, r.vec 3 1)) = some (0xFFFFFFFF, 0) := by
  decide +kernel

/-- R349, R350: TRAP stops the group at its own PC with cause 0x00 and its number as CODE; TRAPF with no flag goes on. -/
theorem test_step_trap :
    (after (.trap 1) demoGroup).map (fun r => (r.stop.map (fun x => (x.record.cause, x.record.code)), r.pc)) =
      some (some (0x00, 1), demoGroup.pc) ∧
    (after .trapf demoGroup).map (fun r => r.pc) = some (demoGroup.pc + 4) := by decide +kernel

/-! ## Witnesses: states that meet the hypotheses of the statements, clause by clause -/

/-- ScalarArithmetic, ScalarImmediates, ScalarDivision: s63 outside a region, s0 inside one. -/
theorem witness_scalars :
    ((labOf demoGroup).current = some (blockOf demoGroup, demoGroup) ∧ demoGroup.compacted = false) ∧
    ((labCmp cmpGroup).current = some (cmpBlock cmpGroup, cmpView) ∧ cmpView.compacted = true) := by decide +kernel

/-- LaneToScalar and ScalarToLane: the last lane, the last register of the budget, with the lane number in a scalar and in
the instruction. -/
theorem witness_lane_moves :
    let g := { demoGroup with scalars := [(5, 95)] }
    (labOf g).current = some (blockOf g, g) ∧ 95 = (g.scalar ((5#7).toNat % 64)).toNat ∧ 95 = (95#7).toNat ∧
    Issues (labOf g) (blockOf g) g { region := some 0x07, regs := [127], reads := [127] } ∧ (127#7).toNat < g.budget := by
  unfold Issues; decide +kernel

/-- LaneIntegers, LaneAccumulate, LaneUnary, LaneFloats, LaneExchanges: the operands of the VR and the compact layouts. -/
theorem witness_lane_operands :
    let g := { demoGroup with chk := true }
    (labOf g).current = some (blockOf g, g) ∧ Issues (labOf g) (blockOf g) g (vectorNeed 0 127 127 127 true) ∧
    Issues (labOf g) (blockOf g) g (compactNeed 31 63) ∧ Issues (labOf g) (blockOf g) g (unaryNeed 127 127) := by
  unfold Issues; decide +kernel

/-- LaneConversions: the pack of sixteen registers ends at the last register of the budget. -/
theorem witness_packs :
    Issues (labOf demoGroup) (blockOf demoGroup) demoGroup
      { regs := (List.range 16).map (fun k => 112 + k) ++ [127], reads := (List.range 16).map (fun k => 112 + k) } := by
  unfold Issues; decide +kernel

/-- LanePredicates, Votes, FlagsAndBrackets: flags read as predicates under CHK.DIST, and a vote outside a region. -/
theorem witness_predicates :
    let g := { demoGroup with chk := true }
    (labOf g).current = some (blockOf g, g) ∧
    Issues (labOf g) (blockOf g) g { flags := flagNumber 15 || flagNumber 8 } ∧
    Issues (labOf g) (blockOf g) g { region := some 0x07, flags := true } ∧ (61#6).toNat ≤ 61 := by
  unfold Issues; decide +kernel

/-- UniformBranches: LOOP on a scalar and on a beat of the activity mask, outside a region. -/
theorem witness_uniform : (60#6) ≠ 0#6 ∧ (63#6) ≠ 0#6 ∧ demoGroup.compacted = false := by decide +kernel

/-- DivergentBranches: room for the 32nd entry; no lane takes p1, all take p0, and lanes on both sides of p1. -/
theorem witness_divergent :
    let g := { splitGroup with entries := List.replicate 31 (entryOf .join) }
    (labOf g).current = some (blockOf g, g) ∧ HasRoom (blockOf g) ∧
    (∃ l, l < 96 ∧ g.works l = true ∧ g.taken 1 0 l = true) ∧ (∃ l, l < 96 ∧ g.works l = true ∧ (!g.taken 1 0 l) = true) ∧
    (∃ l, l < 96 ∧ g.works l = true ∧ g.taken 0 0 l = true) ∧ (¬∃ l, l < 96 ∧ g.works l = true ∧ (!g.taken 0 0 l) = true) ∧
    (¬∃ l, l < 96 ∧ g.works l = true ∧ g.taken 2 0 l = true) := by
  unfold HasRoom; decide +kernel

/-- CompactionArrival: the group's top entry is a join, and another group waits at the same branch under the same join. -/
theorem witness_compaction_arrival :
    let g := { splitGroup with entries := [entryOf .join] }
    let w := { g with status := .waiting (.compaction 0x10010 0x3 0xC 0x10000) }
    let b := { demoBlock with groups := [g, w] }
    let s := { labOf g with blocks := [b] }
    s.current = some (b, g) ∧ g.compacted = false ∧ g.entries = entryOf .join :: [] ∧ (entryOf .join).kind = .join ∧
    b.groups = [g, w] ∧ w.pc = g.pc ∧ (0x10000 : Word) = (entryOf .join).pc := by decide +kernel

/-- CallsAndIndirect: no lane of p2; all of p0; no lane works at all; every lane holds an even target. -/
theorem witness_calls :
    let g := { splitGroup with vectors := [] }
    let idle := { g with exec := 0 }
    (labOf g).current = some (blockOf g, g) ∧ (labOf idle).current = some (blockOf idle, idle) ∧
    (¬∃ l, l < 96 ∧ g.works l = true ∧ g.taken 2 0 l = true) ∧ (∃ l, l < 96 ∧ g.works l = true ∧ g.taken 0 0 l = true) ∧
    g.compacted = false ∧ HasRoom (blockOf g) ∧
    Issues (labOf g) (blockOf g) g { regs := [126, 127], reads := [126, 127] } ∧
    Issues (labOf idle) (blockOf idle) idle { regs := [126, 127], reads := [126, 127] } ∧
    (¬∃ l, l < 96 ∧ idle.works l = true ∧ true = true) ∧ (∃ l, l < 96 ∧ g.works l = true ∧ true = true) ∧
    (0 : Word).getLsbD 0 = false ∧
    (∀ l, l < 96 → g.works l = true → (g.seen (labOf g).tick [126, 127] false).vec 127 l ++ (g.seen (labOf g).tick [126, 127] false).vec 126 l = (0 : Word)) := by
  unfold Issues HasRoom; decide +kernel

/-- Returns: a top entry of each kind with a lane that lives, and the end of a region. -/
theorem witness_returns :
    (∀ k ∈ [EntryKind.join, .path, .call],
      let g := { demoGroup with entries := [entryOf k], exec := 0 }
      (labOf g).current = some (blockOf g, g) ∧ g.entries = entryOf k :: [] ∧ (entryOf k).spilled = none ∧
      (∃ l, l < 96 ∧ hasLane (entryOf k).mask l = true ∧ hasLane g.present l = true ∧ hasLane g.helper l = false) ∧
      (entryOf k).pc = g.pc ∧ (g.scalar 59).getLsbD 0 = false) ∧
    ((labCmp cmpGroup).current = some (cmpBlock cmpGroup, cmpView) ∧ cmpView.entries = [] ∧ cmpView.compacted = true ∧
      (cmpBlock cmpGroup).region = some ([cmpGroup], cmpView.pc)) := by decide +kernel

/-- Exits: lanes 0 and 1 end under an entry whose lanes 2 and 3 live; and a group without entries. -/
theorem witness_exits :
    let g := { demoGroup with exec := 0x3, entries := [entryOf .path] }
    ((labOf g).current = some (blockOf g, g) ∧ g.entries = entryOf .path :: [] ∧ (∀ x ∈ g.entries, x.spilled = none) ∧
      (∃ l, l < 96 ∧ hasLane (entryOf .path).mask l = true ∧ g.survives l = true)) ∧
    (demoGroup.entries = [] ∧ (blockOf demoGroup).pair = none ∧ (labOf demoGroup).cur.cmp = false ∧
      (∀ w ∈ demoGroup.copies, w.done = true → w.cause = none)) := by decide +kernel

/-- HintsAndLabels, SleepAndHalt, SpecialReads: the launch, a scalar of 0 and one that is not, the last liveness and
restart record, and an image with debugging. -/
theorem witness_hints :
    let g := { demoGroup with scalars := [(1, 1)] }
    let l := { demoLaunch with header := { demoLaunch.header with debug := true } }
    (labOf g).launch? (blockOf g).launch = some demoLaunch ∧ g.scalar 2 = 0 ∧ g.scalar 1 ≠ 0 ∧
    demoLaunch.header.debug = false ∧ (0#12).toNat < demoLaunch.header.nlive ∧ demoLaunch.saving = .no ∧
    g.compacted = false ∧ 0#12 ≠ 0xFFF#12 ∧ (0#12).toNat < demoLaunch.header.nrest ∧ (blockOf g).pair = none ∧
    (lab l demoBlock g).launch? (blockOf g).launch = some l ∧ l.header.debug = true := by decide +kernel

/-- A supervisor's launch, its block and its device. -/
def superLaunch : Launch := { demoLaunch with super := true }

/-- SpecialReads, Clocks, SpecialWrites: a supervisor reads its own registers; no journal and no pair; a legal value for
every writable register, and values for REDINJ (TGT 1 with the last domain) and MIGDESC. -/
theorem witness_special :
    let g := { demoGroup with scalars := [(1, 0x21), (2, 0x00017D00), (3, 0xFFFFFFFFFFFFFFE0)] }
    let s := lab superLaunch demoBlock g
    s.current = some (blockOf g, g) ∧ s.launch? (blockOf g).launch = some superLaunch ∧ s.superOf (blockOf g) = true ∧
    g.compacted = false ∧ (blockOf g).pair = none ∧ (∀ j ∈ s.journals, j.ctx ≠ s.ctxOf (blockOf g)) ∧
    (g.scalar 2).toNat / 256 % 4 = 1 ∧ (g.scalar 2).toNat / 1024 % 64 < 32 ∧ (g.scalar 3).toNat % 32 = 0 ∧
    (∀ e ∈ groupRegisterTable g (g.scalar 0), e.2.1 = true) ∧
    (g.scalar 1).toNat % 64 = 33 := by decide +kernel

/-- SoftwareTraps, FlagTraps, SupervisorReturn: a user block; no flag, the lowest and the highest flag raised in lane 0;
and a supervisor whose SEPC is even. -/
theorem witness_traps :
    let none' := { demoGroup with ten := 0x7F }
    let low := { none' with flags := [(8, 1)] }
    let high := { none' with flags := [(13, 1)] }
    ((labOf none').current = some (blockOf none', none') ∧ (labOf none').launch? (blockOf none').launch = some demoLaunch ∧
      (blockOf none').mode ≠ .tentative ∧ (blockOf none').pair = none ∧ (labOf none').superOf (blockOf none') = false ∧
      Issues (labOf none') (blockOf none') none' { flags := true } ∧
      (∀ j, j < 6 → ∀ lane, lane < 96 → ((none'.works lane && ((none'.seen 0 [] true).laneFlags lane).getLsbD j) && none'.ten.getLsbD j) = false) ∧
      (none'.idz && none'.ten.getLsbD 6) = false) ∧
    (low.works 0 && ((low.seen 0 [] true).laneFlags 0).getLsbD 0 && low.ten.getLsbD 0) = true ∧
    (high.works 0 && ((high.seen 0 [] true).laneFlags 0).getLsbD 5 && high.ten.getLsbD 5) = true ∧
    (∀ j, j < 5 → ∀ lane, lane < 96 → ((high.works lane && ((high.seen 0 [] true).laneFlags lane).getLsbD j) && high.ten.getLsbD j) = false) ∧
    Issues (lab superLaunch demoBlock none') (blockOf none') none' { priv := true, reads := [0, 1, 2, 3, 4, 5] } ∧
    none'.sepc.getLsbD 0 = false := by
  unfold Issues; decide +kernel

/-- TranslationInvalidation: every page of a context in the widest scope, and the first page alone. -/
theorem witness_tlbinv :
    let g := { demoGroup with scalars := [(1, 0x102000000), (2, 0x100000001)] }
    let s := lab superLaunch demoBlock g
    (∀ c ∈ [1, 2], (g.scalar 0).toNat % 65536 = 0 ∧ (g.scalar c).toNat / 2 ^ 28 % 16 = 0 ∧ (g.scalar c).toNat / 2 ^ 24 % 16 ≤ 2 ∧
      ((g.scalar c).toNat % 2 ^ 24 ≠ 0 → canonical (g.scalar 0) = true ∧
        (g.scalar 0).toNat + (g.scalar c).toNat % 2 ^ 24 * 65536 ≤ 2 ^ 64 ∧ canonical (g.scalar 0 + BitVec.ofNat 64 ((g.scalar c).toNat % 2 ^ 24 * 65536 - 1)) = true) ∧
      s.oldRequests demoBlock.core ((g.scalar c).toNat / 2 ^ 24 % 16) (BitVec.ofNat 32 ((g.scalar c).toNat / 2 ^ 32)) = false) := by
  decide +kernel

/-- Four lanes whose offsets, in v1, are a line apart, with the scalar s1 as base. -/
def memGroup (base : Word) : Group := { demoGroup with scalars := [(1, base)], vectors := [(97, 64), (98, 128), (99, 192)] }

/-- LaneLoads, LaneStores: four lanes at the last lines of the GiB, on ordinary, software-coherent and uncached pages. -/
theorem witness_lane_memory :
    ∀ e ∈ [((0x3FFFFF00 : Word), false, false), (0xBFFFFF00, true, false), (0xFFFFFF00, false, true)],
      let g := memGroup e.1
      let s := labOf g
      let b := blockOf g
      s.current = some (b, g) ∧ Plain b g ∧
      Issues s b g { regs := 1 :: regRun 124 4, reads := 1 :: regRun 124 4 } ∧
      ∀ l, l < 96 → (g.seen s.tick [1] false).takes 0 true l = true → ∀ k ∈ [Access.load, .store],
        Reaches s b k 16 ((g.seen s.tick [1] false).scalar 1 + ((g.seen s.tick [1] false).vec 1 l).setWidth 64)
          (0x3FFFFF00 + 64 * l) e.2.1 e.2.2 ∧ s.spoiled (0x3FFFFF00 + 64 * l) 16 = false := by
  unfold Plain Issues Reaches; decide +kernel

/-- ScalarAndConstantLoads, ScalarStores: the last doubleword of the GiB, with the greatest offset. -/
theorem witness_scalar_memory :
    let g := memGroup 0x3FFFFBFC
    let s := labOf g
    let b := blockOf g
    s.current = some (b, g) ∧ Plain b g ∧ g.compacted = false ∧ s.mig.state ≠ 2#2 ∧
    (∀ k ∈ [Access.load, .store],
      Reaches s b k 8 (g.scalar 1 + BitVec.ofNat 64 (4 * (255#8).toNat)) 0x3FFFFFF8 false false) ∧
    s.spoiled 0x3FFFFFF8 8 = false ∧
    Issues s b g { regs := [1, 127], reads := [1] } ∧
    ∀ l, l < 96 → (g.seen s.tick [1] false).takes 0 true l = true →
      Reaches s b .load 4 ((g.seen s.tick [1] false).scalar 1 + ((g.seen s.tick [1] false).vec 1 l).setWidth 64)
        (0x3FFFFBFC + 64 * l) false false ∧ s.spoiled (0x3FFFFBFC + 64 * l) 4 = false := by
  unfold Plain Issues Reaches; decide +kernel

/-- LaneAtomics: four 64-bit compare-and-swaps, at the last register quadruple, with no frame migrating and no journal. -/
theorem witness_atomics :
    let g := memGroup 0x3FFFFF00
    let s := labOf g
    let b := blockOf g
    s.current = some (b, g) ∧ Plain b g ∧ s.mig.state ≠ 2#2 ∧ (∀ j ∈ s.journals, j.ctx ≠ s.ctxOf b) ∧
    Issues s b g { regs := 1 :: regRun 124 4, reads := 1 :: regRun 124 4 } := by
  unfold Plain Issues; decide +kernel

/-- LaneAtomics: where the four lanes' doublewords stand. -/
theorem witness_atomic_places :
    let g := memGroup 0x3FFFFF00
    let s := labOf g
    let b := blockOf g
    ∀ l, l < 96 → (g.seen s.tick (1 :: regRun 124 4) false).takes 0 false l = true →
      Reaches s b .atomic 8 ((g.seen s.tick (1 :: regRun 124 4) false).scalar 1 +
        ((g.seen s.tick (1 :: regRun 124 4) false).vec 1 l).setWidth 64) (0x3FFFFF00 + 64 * l) false false ∧
      s.spoiled (0x3FFFFF00 + 64 * l) 8 = false ∧ ∀ k, k < 8 → OneClass s b.core false (0x3FFFFF00 + 64 * l + k) := by
  unfold Reaches OneClass; decide +kernel

/-- ScratchpadAccesses: four lanes at the start and, for the last one, at the end of the block's own scratchpad. -/
theorem witness_scratchpad :
    let g := { demoGroup with vectors := [(97, 64), (98, 128), (99, 65528)] }
    let l := { demoLaunch with header := { demoLaunch.header with part := 0x00011010 } }
    let s := lab l demoBlock g
    let b := blockOf g
    s.current = some (b, g) ∧ g.holds = [] ∧ Issues s b g { regs := 1 :: regRun 124 4, reads := 1 :: regRun 124 4 } ∧
    ∀ lane, lane < 96 → ∀ w, (g.seen s.tick [1] false).takes 0 w lane = true →
      (s.scratchCheck b w (((g.seen s.tick [1] false).vec 1 lane + BitVec.ofNat 32 ((0#6).toNat * 8))).toNat 8) = .ok b := by
  unfold Issues; decide +kernel

/-- Samples: a table of one row at an aligned descriptor, with coordinates 0 and one that is a NaN. -/
theorem witness_sample :
    let g := { demoGroup with scalars := [(1, 0x20000)], vectors := [(96, 0x7FC00000)] }
    let s := { labOf g with mem := writeBytes demoMem 0x20000 (natBytes 8 0x30000 ++ [1, 0, 1, 0, 2, 0, 0, 0]) }
    let b := blockOf g
    let d := parseSample ((List.range 16).map (fun k => s.l2Byte (dieOf b.core) false (0x20000 + k)))
    s.current = some (b, g) ∧ Plain b g ∧ g.status = .running ∧ g.pending = none ∧ (s.core b.core).sampler = [] ∧
    (s.die (dieOf b.core)).clean = [] ∧
    Issues s b g { regs := [1, 2, 127], reads := [1, 2] } ∧ (g.scalar 1).toNat % 16 = 0 ∧
    Reaches s b .load 16 (g.scalar 1) 0x20000 false false ∧ s.spoiled 0x20000 16 = false ∧ d.ok = true ∧
    (decodeF fp32 (g.vec 1 0).toNat).isNan = true ∧ (decodeF fp32 (g.vec 1 1).toNat).isNan = false ∧
    (∀ q ∈ sampleTaps (sampleCoord (decodeF fp32 (g.vec 1 1).toNat) d.width) (sampleCoord (decodeF fp32 (g.vec 2 1).toNat) d.height)
        d.width d.height,
      Reaches s b .load 2 (d.element q.1 q.2.1) 0x30000 false false ∧ s.spoiled 0x30000 2 = false) := by
  unfold Plain Issues Reaches; decide +kernel

/-- Fences, PathFences: a normal block without a peer that ended, and no frame migrating. -/
theorem witness_fences :
    (labOf demoGroup).current = some (blockOf demoGroup, demoGroup) ∧ Plain (blockOf demoGroup) demoGroup ∧
    (labOf demoGroup).peerFault (blockOf demoGroup) = false ∧ (labOf demoGroup).mig.state ≠ 2#2 ∧ (2#4) ≠ 0 ∧
    OneClass (labOf demoGroup) 0 true 0 := by
  unfold Plain OneClass; decide +kernel

/-- CacheMaintenance: a range of a byte, and one that crosses from one page to the next, and the empty one. -/
theorem witness_cache :
    let g := { demoGroup with scalars := [(1, 0x1FFF0), (2, 0x20), (3, 1)] }
    let s := labOf g
    let b := blockOf g
    s.current = some (b, g) ∧ Plain b g ∧ s.mig.state ≠ 2#2 ∧ (g.scalar 0).toNat = 0 ∧
    (∀ n ∈ [(g.scalar 2).toNat, (g.scalar 3).toNat], 0 < n ∧ n ≤ 2 ^ 30 ∧ canonical (g.scalar 1) = true ∧
      canonical (g.scalar 1 + BitVec.ofNat 64 (n - 1)) = true ∧ (g.scalar 1).toNat ≤ (g.scalar 1 + BitVec.ofNat 64 (n - 1)).toNat ∧
      (g.scalar 1 + BitVec.ofNat 64 (n - 1)).toNat / 2 ^ 51 = (g.scalar 1).toNat / 2 ^ 51) ∧
    (∀ op ∈ [CacheOp.cwb, .cwbi, .cinv],
      s.cachePages b op 16386 (g.scalar 1) 32 = .ok [⟨0x1FFF0, 16, false⟩, ⟨0x20000, 16, false⟩] ∧
      s.cachePages b op 16386 (g.scalar 1) 1 = .ok [⟨0x1FFF0, 1, false⟩]) := by
  unfold Plain; decide +kernel

/-- The bytes of an operator descriptor with one weight, one output and one slot, whose windows lie in the second GiB. -/
def demoDesc : List Byte :=
  natBytes 8 0x40000 ++ natBytes 8 0 ++ natBytes 8 0x40000000 ++ natBytes 8 0x40010000 ++
  [1, 0, 1, 0, 1, 0, 0, 0] ++ natBytes 8 0 ++ natBytes 16 0

/-- OperatorInstallation: the descriptor passes every check; the core has room, or already has eight operators. -/
theorem witness_install :
    let g := { demoGroup with scalars := [(1, 0x20000)] }
    let l := { demoLaunch with header := { demoLaunch.header with part := 0x00011010 } }
    let s := { lab l demoBlock g with mem := writeBytes demoMem 0x20000 demoDesc }
    let b := blockOf g
    s.current = some (b, g) ∧ Plain b g ∧ g.compacted = false ∧ (g.scalar 1).toNat % 64 = 0 ∧
    (match s.readRecord b g (g.scalar 1) 8 with
      | .ok (bs, s1) => decide (bs = demoDesc ∧ opReservedOk bs = true ∧ (parseOpDesc bs).ok = true ∧
          s1.opStorageOk b (parseOpDesc bs) = true ∧ s1.windowsOk b (parseOpDesc bs) = true ∧
          (s1.core b.core).ops.length < 8 ∧ s1.weightTaken b.core + (parseOpDesc bs).weightRoom ≤ 98304)
      | .error _ => false) = true := by
  unfold Plain; decide +kernel

/-- A launch with a scratchpad of 64 KiB and two accumulator units, whose context image has a save area. -/
def roomyLaunch : Launch :=
  { demoLaunch with super := true, header := { demoLaunch.header with part := 0x00021010, save := 0x80000 } }

/-- An operator of the demo block, with handle 7 and two empty slots. -/
def demoOp : Operator :=
  { handle := 7, index := 0, ctx := 1, blk := 2, desc := { parseOpDesc demoDesc with slots := 2, fpol := true }, weights := [],
    scales := [], sums := [], loaded := true, failed := false, slots := List.replicate 2 Slot.empty, fired := [], pass := [], results := [],
    poison := false, left := none, awaiting := [], removing := false, parked := false, reinstall := false, counted := true }

/-- A group whose s1 names the operator and whose s2 names its last slot. -/
def opGroup : Group := { demoGroup with scalars := [(1, 7), (2, 1)] }

/-- The device that holds the operator. -/
def labOp (o : Operator) : State := { lab roomyLaunch demoBlock opGroup with cores := [{ Core.fresh 0 with ops := [o] }] }

/-- OperatorInstallation: a core that already has eight operators. -/
theorem witness_install_full :
    let s := { labOp demoOp with cores := [{ Core.fresh 0 with ops := List.replicate 8 demoOp }] }
    8 ≤ (s.core 0).ops.length := by decide +kernel

/-- OperatorUse, OperatorParking: an operator without and with a pass, parked and not, named by its own context's group. -/
theorem witness_operator_use :
    (labOp demoOp).current = some (blockOf opGroup, opGroup) ∧ Plain (blockOf opGroup) opGroup ∧ opGroup.compacted = false ∧
    (labOp demoOp).superOf (blockOf opGroup) = true ∧ opGroup.scalar 1 ≠ 0 ∧
    (∀ o ∈ [demoOp, { demoOp with pass := [0] }, { demoOp with parked := true }],
      (labOp o).myOperator (blockOf opGroup) (opGroup.scalar 1) = some o ∧
      (labOp o).operator? (opGroup.scalar 1).toNat = some o ∧ o.removing = false ∧
      (labOp o).anyBlock? o.blk = some (blockOf opGroup)) ∧
    (labOp demoOp).launch? (blockOf opGroup).launch = some roomyLaunch ∧ roomyLaunch.header.save ≠ 0 ∧
    (opGroup.scalar 2).toNat < demoOp.desc.slots ∧ (opGroup.scalar 2).toNat < demoOp.slots.length ∧
    (demoOp.slot 1).state ≠ .queued ∧ (demoOp.slot 1).state ≠ .computing ∧
    ¬(demoOp.desc.rmode = 1 ∧ (demoOp.slot 1).state = .ready) := by
  unfold Plain; decide +kernel

/-- InletRequests: a remote request is refused where remote access is off; one of the last element byte is accepted, which
leaves the policy word alone. -/
theorem witness_inlet :
    let q : SlotRequest := ⟨7, 1, [(0, 0x55)], 0, false, 0, 1, true⟩
    (labOp demoOp).operator? q.handle = some demoOp ∧
    demoOp.refuses { q with remote := true } ∧ ¬demoOp.refuses q ∧ q.slot < demoOp.slots.length ∧
    ((labOp demoOp).anyBlock? demoOp.blk).isSome = true ∧ (∃ e ∈ q.bytes, e.1 < demoOp.desc.kop * demoOp.desc.actSize) ∧
    (∀ e ∈ q.bytes, e.1 ≠ demoOp.desc.inStride - 8) ∧ (q.bytes.map Prod.fst).Nodup ∧ demoOp.desc.fpol = true := by
  unfold Operator.refuses; decide +kernel

/-- SequencerSteps: weights to load, a fired slot, a result to write out, and a removal that waits for nothing. -/
theorem witness_sequencer :
    let fresh := { demoOp with loaded := false }
    let fired := { demoOp with fired := [1] }
    let passing := { demoOp with pass := [1], results := [(1, [5, 0, 0, 0])] }
    ((labOp fresh).operator? 7 = some fresh ∧ ((labOp fresh).anyBlock? fresh.blk).isSome = true ∧ fresh.failed = false ∧
      fresh.parked = false ∧ fresh.desc.cnten = false ∧
      (match (labOp fresh).weightsOf ((labOp fresh).coreOfOperator 7) (!(labOp fresh).superOf (blockOf opGroup)) fresh with
        | .ok _ => true
        | .error _ => false) = true) ∧
    ((labOp fired).operator? 7 = some fired ∧ fired.loaded = true ∧ fired.removing = false ∧ fired.pass = [] ∧ fired.fired ≠ [] ∧
      (labOp fired).parking 7 = false ∧
      (∀ x ∈ ((labOp fired).core ((labOp fired).coreOfOperator 7)).ops, (labOp fired).passDue x = true →
        (fired.slot (fired.fired.headD 0)).stamp ≤ (x.slot (x.fired.headD 0)).stamp)) ∧
    ((labOp passing).operator? 7 = some passing ∧ passing.pass.head? = some 1 ∧ passing.desc.rmode < 2 ∧ passing.poison = false ∧
      passing.left = none ∧ 1 < passing.slots.length) := by decide +kernel

/-- Deliveries: a forwarding operator delivers a word to a local page, for the first time or again, with and without a
timeout. -/
theorem witness_delivery :
    let first := { demoOp with
      pass := [1], results := [(1, [5, 0, 0, 0])], desc := { demoOp.desc with rmode := 2, ofmt := 1, outlet := 0x3FFFFFFC, tmo := 1 } }
    let again := { first with left := some [0] }
    (∀ o ∈ [first, again], (labOp o).operator? 7 = some o ∧ o.handle = 7 ∧ ((labOp o).anyBlock? o.blk) = some (blockOf opGroup) ∧
      (labOp o).launch? (blockOf opGroup).launch = some roomyLaunch ∧ o.pass.head? = some 1 ∧ o.awaiting = [] ∧
      1 < o.slots.length ∧ o.poison = false ∧ o.desc.rmode = 2 ∧ (labOp o).mig.state ≠ 2#2 ∧ (labOp o).copies = [] ∧ o.desc.tmo ≠ 0 ∧
      o.left.getD (List.range ((o.desc.nop * o.desc.outSize + 3) / 4)) = [0] ∧
      (labOp o).translate ((labOp o).coreOfOperator 7) o.ctx (!(labOp o).superOf (blockOf opGroup)) .store
        (o.desc.outlet + BitVec.ofNat 64 (1 * o.desc.fstr * 64 + 4 * 0)) = .ok (.local 0x3FFFFFFC false false false)) ∧
    first.left = none ∧ again.left ≠ none := by decide +kernel

/-- OutletWaits: a lane whose result is not there yet, in a slot with a timeout; and one whose result is there. -/
theorem witness_outlet :
    let p : Pending := ⟨[], [], 2, .lanes 4 4 false, 0, [], [], 0, 0, false, false, [(95, 0x40010000)], false, []⟩
    let g := { demoGroup with status := .waiting .outlet, pending := some p }
    let o := { demoOp with desc := { demoOp.desc with tmo := 1, kop := 1, nop := 1 } }
    let ready := { o with slots := List.replicate 2 { Slot.empty with gen := 1 } }
    let at' := fun (o : Operator) =>
      { lab { roomyLaunch with super := false } demoBlock g with cores := [{ Core.fresh 0 with ops := [o] }] }
    (∀ x ∈ [o, ready], (at' x).groupAt ⟨2, 0, false⟩ = some (blockOf g, g) ∧ Plain (blockOf g) g ∧
      (at' x).launch? (blockOf g).launch = some { roomyLaunch with super := false } ∧ (at' x).superOf (blockOf g) = false ∧
      g.status = .waiting .outlet ∧ g.pending = some p ∧ p.waits ≠ [] ∧ (p.waits.map Prod.fst).Nodup ∧
      hasLane g.helper 95 = false ∧ (at' x).windowAt 0x40010000 = .outlet x 0 0 ∧ x.desc.touchesData 0 = true ∧ x.desc.tmo ≠ 0) ∧
    (at' o).outletHeld 0x40010000 = true ∧ (at' ready).outletHeld 0x40010000 = false ∧ ready.outletCause 0 0 4 = none := by
  unfold Plain; decide +kernel

/-- MatrixQueue, MatrixColumns: both units of the block, an image of both in its scratchpad, and one K-step. -/
theorem witness_matrix_queue :
    let g := { demoGroup with scalars := [(1, 0x1000), (2, 0x4000100000000000), (4, 31)] }
    let s := lab roomyLaunch demoBlock g
    let b := blockOf g
    s.current = some (b, g) ∧ g.compacted = false ∧ (0#5).toNat + ((1#5).toNat + 1) ≤ s.accRoom b ∧ (g.scalar 1).toNat % 2 ^ 32 % 64 = 0 ∧
    s.inScratch b ((g.scalar 1).toNat % 2 ^ 32) (12288 * 2) = some b ∧
    (g.scalar 4).toNat < 32 ∧ (1#5).toNat < s.accRoom b ∧ (127#7).toNat < g.budget ∧ (∀ k, k < 4 → b.poison.getLsbD (4 * 1 + k) = false) ∧
    Issues s b g { regs := [127], reads := [127] } ∧
    Issues s b g { region := some 0x04, reads := [] } ∧
    (let p := tmulPair (g.scalar 2) (g.scalar 3)
     let scales := if p.sen = true ∧ p.vs ≤ 124 then (List.range 4).map (fun k => p.vs + k) else []
     scales = [] ∧ s.tmulCause b (g.seen s.tick scales false) p 0 0 0 0 = none) := by
  unfold Issues; decide +kernel

/-- The device whose core 0 has the work at the head of its queue. -/
def labArray (b : Block) (w : ArrayWork) : State :=
  { lab roomyLaunch b demoGroup with cores := [{ Core.fresh 0 with queue := [⟨9, 2, 0, w, [], 0, false⟩] }] }

/-- MatrixImages, MatrixSteps: all 32 units of a block, none poisoned or the last one. -/
theorem witness_matrix_work :
    (∀ w ∈ [ArrayWork.zero 0 32, .load 0 1 0, .store 31 1 0, .kstep 31 32 0 0 true 0 0 true 0 [] []],
      ((labArray demoBlock w).core 0).queue = ⟨9, 2, 0, w, [], 0, false⟩ :: [] ∧ (labArray demoBlock w).block? 2 = some (blockOf demoGroup)) ∧
    0 + 32 ≤ 32 ∧ (∀ k, k < 128 → demoBlock.poison.getLsbD k = false) ∧
    ({ demoBlock with poison := 1#128 <<< 127 }).poison.getLsbD 127 = true ∧ demoBlock.fatal = false ∧
    (match kstepOf (.kstep 31 32 0 0 true 0 0 true 0 [] []) with
      | some q => decide (q.cols ≤ 512 ∧ q.unit + unitSpan q.accf q.cols ≤ 32 ∧ demoBlock.readsPoison q = false)
      | none => false) = true := by decide +kernel

/-- MatrixSteps: a K-step whose sketches lie in a poisoned unit. -/
theorem witness_matrix_poison :
    (match kstepOf (.kstep 0 32 0 15 false 29 0 true 0 [] []) with
      | some q => ({ demoBlock with poison := 1#128 <<< 127 }).readsPoison q
      | none => false) = true := by decide +kernel

/-- Batches: batch 1 all done and batch 2 not, and the wait for batch 0. -/
theorem witness_batches :
    let g := { demoGroup with
      scalars := [(1, 1), (2, 2)], copies := [⟨5, 1, true, none⟩, ⟨6, 2, false, none⟩], copySeal := 2,
      matrix := [⟨7, 1, true, none⟩, ⟨8, 2, false, none⟩], matSeal := 2 }
    (labOf g).current = some (blockOf g, g) ∧ Plain (blockOf g) g ∧ g.compacted = false ∧ (g.scalar 0).toNat = 0 ∧
    0 < (g.scalar 1).toNat ∧ (g.scalar 2).toNat ≤ g.copySeal ∧ (g.scalar 2).toNat ≤ g.matSeal ∧
    (∀ ws ∈ [g.copies, g.matrix],
      (∀ w ∈ ws, 1 ≤ w.batch ∧ w.batch ≤ (g.scalar 1).toNat → w.done = true ∧ w.cause = none) ∧
      (∃ w ∈ ws, (1 ≤ w.batch ∧ w.batch ≤ (g.scalar 2).toNat) ∧ w.done = false)) := by
  unfold Plain; decide +kernel

/-- A block of 64 KiB of scratchpad whose last 8 bytes hold a barrier object in phase 0, and a counter of -1 before it. -/
def syncBlock : Block :=
  { demoBlock with scratch := writeBytes [] 65528 (natBytes 8 (objectWord 0 1 1 (-1))) ++ [] }

/-- Counters, BarrierObjects: the last words of the scratchpad: a counter below its limit and not, an object in a phase that
has left the one asked for, and not, with one arrival and one negative byte count pending. -/
theorem witness_sync :
    let g := { demoGroup with scalars := [(1, 65528), (2, 1), (3, 2047), (4, 65520)] }
    let s := lab roomyLaunch syncBlock g
    let b := { syncBlock with groups := [g] }
    s.current = some (b, g) ∧ Plain b g ∧ g.compacted = false ∧
    (∀ w ∈ [true, false], s.scratchWord b w 65528 8 = .ok (2, 65528) ∧ s.scratchWord b w 65520 4 = .ok (2, 65520)) ∧
    (BitVec.ofNat 32 (s.scratchNat 2 65520 4)).slt ((g.scalar 2).setWidth 32) = true ∧
    (BitVec.ofNat 32 (s.scratchNat 2 65520 4)).slt ((g.scalar 0).setWidth 32) = false ∧
    s.scratchNat 2 65528 8 = objectWord 0 1 1 (-1) ∧ 1 ≤ (g.scalar 3).toNat ∧ (g.scalar 3).toNat ≤ 2047 ∧
    (g.scalar 3).toNat < 2 ^ 27 ∧ (-1 : Int) + (g.scalar 3).toNat < 2 ^ 27 ∧ -(2 ^ 27) ≤ (-1 : Int) ∧
    0 ≠ (g.scalar 2).toNat % 2 ∧ 0 = (g.scalar 0).toNat % 2 := by
  unfold Plain; decide +kernel

/-- Barriers: one group arrives while another has ended; then the block, and the cluster of one block, departs. -/
theorem witness_barriers :
    let ended := { demoGroup with status := .ended }
    let b := { demoBlock with groups := [demoGroup, ended] }
    let arrived := { demoGroup with arrivedB := true, arrivedC := true, status := .waiting .barrierBlock }
    let c := { demoBlock with groups := [arrived, ended] }
    let s := { labOf demoGroup with blocks := [b] }
    let t := { labOf demoGroup with blocks := [c] }
    let both := c :: (t.otherHalf c).toList
    let all := (t.clusterOf c).flatMap (fun x => x :: (t.otherHalf x).toList)
    (s.current = some (b, demoGroup) ∧ demoGroup.compacted = false ∧ demoGroup.holds = [] ∧ s.peerFault b = false) ∧
    (t.block? c.id = some c ∧ (both.map Block.id).Nodup ∧
      (∀ x ∈ both, x.fatal = false ∧ ∀ g ∈ x.groups, g.status = .ended ∨ g.arrivedB = true) ∧
      (∃ x ∈ both, ∃ g ∈ x.groups, g.arrivedB = true)) ∧
    ((t.clusterOf c).length = t.clusterSize c ∧ (all.map Block.id).Nodup ∧
      (∀ x ∈ all, x.fatal = false ∧ x.groups ≠ [] ∧ ∀ g ∈ x.groups, g.status = .ended ∨ g.arrivedC = true) ∧
      (∃ x ∈ all, ∃ g ∈ x.groups, g.arrivedC = true)) := by decide +kernel

/-- Barriers: the two blocks of a pair, one of which has arrived and the other ended. -/
theorem witness_paired_barriers :
    let c := { demoBlock with
      groups := [{ demoGroup with arrivedB := true, arrivedC := true, status := .waiting .barrierBlock }], pair := some ⟨3, true, [0], [], []⟩ }
    let d := { demoBlock with id := 3, core := 1, groups := [{ demoGroup with status := .ended }], pair := some ⟨2, false, [0], [], []⟩ }
    let t := { labOf demoGroup with blocks := [c, d] }
    let both := c :: (t.otherHalf c).toList
    let all := (t.clusterOf c).flatMap (fun x => x :: (t.otherHalf x).toList)
    both = [c, d] ∧ all = [c, d] ∧ t.block? c.id = some c ∧ (t.clusterOf c).length = t.clusterSize c ∧ (both.map Block.id).Nodup ∧
    (∀ x ∈ both, x.fatal = false ∧ x.groups ≠ [] ∧ ∀ g ∈ x.groups, g.status = .ended ∨ (g.arrivedB = true ∧ g.arrivedC = true)) ∧
    (∃ x ∈ both, ∃ g ∈ x.groups, g.arrivedB = true ∧ g.arrivedC = true) := by decide +kernel

/-- Walks: a nest of 2 by 1 by 1 tiles, one walk in progress, and a tile inside and beyond it. -/
theorem witness_walks :
    let g := { demoGroup with scalars := [(1, 0x20000)] }
    let s := { labOf g with mem := writeBytes demoMem 0x20000 (natBytes 16 0x100010002) }
    let w : Walk := ⟨[2, 1, 1], 0, 1⟩
    s.current = some (blockOf g, g) ∧ g.compacted = false ∧ (g.scalar 1).toNat % 16 = 0 ∧ g.walk = none ∧
    (match s.readRecord (blockOf g) g (g.scalar 1) 2 with
      | .ok (bs, s1) => nestOk (nestCounts bs) && s1.journals.isEmpty
      | .error _ => false) = true ∧
    nestTiles w.counts = 2 ∧ ({ g with walk := some w }).walk = some w := by decide +kernel

/-- A record of a box of two 4-byte elements, one of them in bounds, between the start of the GiB and the own scratchpad. -/
def demoShaped : List Byte :=
  natBytes 8 0x30000 ++ natBytes 4 0x100 ++ natBytes 4 2 ++ [2, 0, 1, 0, 1, 0, 1, 0] ++
  natBytes 4 1 ++ natBytes 4 1 ++ natBytes 4 1 ++ natBytes 4 1 ++ natBytes 24 0

/-- CopyStarts: no lane at work, and one lane that copies the box, counted by a counter, in either direction. -/
theorem witness_copy_start :
    let g := { demoGroup with scalars := [(1, 0x20000), (2, 0x200)] }
    let s := { lab roomyLaunch demoBlock g with mem := writeBytes demoMem 0x20000 demoShaped }
    let b := blockOf g
    let q := parseShaped demoShaped
    let regs := (List.range 4).map (fun k => 124 + k)
    s.current = some (b, g) ∧ Plain b g ∧ Issues s b g { region := some 0x04, regs := regs, reads := regs } ∧
    ({ g with exec := 0 }).elected false = [] ∧ g.elected false = [0] ∧ (g.scalar 1).toNat % 64 = 0 ∧
    (match s.groupRead b g (g.scalar 1) 64 with
      | .ok bs => decide (bs = demoShaped)
      | .error _ => false) = true ∧
    (∀ x ∈ [true, false], q.ok x = true ∧ s.copySide b q false = some ([b], 0x100) ∧ s.copyGone b x false [b] = false ∧
      (match s.copyPlans b x q [(0, (g.seen s.tick regs false).origin 124 0)] with
        | .ok p => decide (p = [[(0, some (0x30000, .local 0x30000 false false false)), (4, none)]])
        | .error _ => false) = true) ∧
    (match s.copyCounter b g 2 with
      | .ok c => decide (c = some (2, 0x200))
      | .error _ => false) = true ∧
    (∀ y ∈ s.copies, y.id < s.nextId) := by
  unfold Plain Issues; decide +kernel

/-- A copy in progress of the same box. -/
def demoCopy : Copy :=
  { id := 3, blk := 2, grp := 0, store := false, mcast := false, toStore := false, dst := 2, base := 0x100, esz := 2,
    elems := [⟨0, some (0x30000, .local 0x30000 false false false), [1, 2, 3, 4], false, false, false⟩, ⟨4, none, [0, 0, 0, 0], false, false, false⟩], cnt := none, credit := none,
    bytes := 8, tag := 0, requests := [] }

/-- The device with a copy in progress and a barrier object and a counter of its block. -/
def labCopy (c : Copy) : State := { lab roomyLaunch syncBlock demoGroup with copies := [c] }

/-- CopyMoves: an element of local bytes and one out of bounds, into the scratchpad and out of it. -/
theorem witness_copy_moves :
    ∀ c ∈ [demoCopy, { demoCopy with store := true }],
      (labCopy c).copies = [c] ∧ (labCopy c).block? c.blk = some syncBlock ∧
      syncBlock.pair = none ∧ c.requests = [] ∧ c.cnt = none ∧ c.credit = none ∧ ((labCopy c).block? c.dst).isSome = true ∧
      c.elems[0]? = some ⟨0 * 2 ^ c.esz, some (0x30000, .local 0x30000 false false false), [1, 2, 3, 4], false, false, false⟩ ∧
      c.elems[1]? = some ⟨1 * 2 ^ c.esz, none, [0, 0, 0, 0], false, false, false⟩ ∧ c.esz ≤ 3 ∧
      (∀ e ∈ c.elems, e.was.length = 2 ^ c.esz) ∧ 0x30000 % 2 ^ c.esz = 0 ∧ c.mcast = false ∧ c.toStore = false ∧
      (labCopy c).spoiled 0x30000 4 = false ∧ (labCopy c).mig.state ≠ 2#2 ∧ 0x30000 + 2 ^ c.esz ≤ 0x30004 := by decide +kernel

/-- CopyMoves, MatrixSteps, MatrixImages: an element that has landed, and work that has written its last cell or byte. -/
theorem witness_landed :
    let c := { demoCopy with elems := [⟨0, some (0x30000, .local 0x30000 false false false), [1, 2, 3, 4], true, false, false⟩] }
    let job := fun (w : ArrayWork) (k : Nat) => (⟨9, 2, 0, w, [k], 0, false⟩ : ArrayJob)
    let core := fun (j : ArrayJob) => { lab roomyLaunch demoBlock demoGroup with cores := [{ Core.fresh 0 with queue := [j] }] }
    (labCopy c).copies = [c] ∧ c.elems[0]?.map CopyElem.landed = some true ∧
    (∀ w ∈ [ArrayWork.zero 0 32, .load 31 1 0, .kstep 31 32 0 0 true 0 0 true 0 [] []],
      ((core (job w (cellKey 31 95 31))).core 0).queue = job w (cellKey 31 95 31) :: [] ∧
      cellKey 31 95 31 ∈ (job w (cellKey 31 95 31)).did) ∧
    12287 ∈ (job (.store 0 1 0) 12287).did := by decide +kernel

/-- CopyCredits: a counter, and a barrier object whose pending bytes reach the lowest value that the rule admits. -/
theorem witness_copy_credits :
    let c := { demoCopy with elems := [], cnt := some (2, 65520) }
    let d := { demoCopy with elems := [], credit := some (2, 65528), bytes := 2 ^ 27 - 1 }
    (labCopy c).copies.find? (fun x => x.id == c.id) = some c ∧ (labCopy d).copies.find? (fun x => x.id == d.id) = some d ∧
    c.cnt = some (2, 65520) ∧ c.credit = none ∧ d.cnt = none ∧ d.credit = some (2, 65528) ∧
    -(2 ^ 27) ≤ (-1 : Int) - d.bytes ∧ (-1 : Int) < 2 ^ 27 ∧
    (labCopy d).scratchNat 2 65528 8 = objectWord 0 1 1 (-1) := by decide +kernel

/-- ShapePublication: the two words end at the end of the GiB; a started maquette launch awaits its shape there. -/
theorem witness_shape :
    let g := { demoGroup with scalars := [(1, 0x3FFFFFF0)] }
    let l := { demoLaunch with record := { demoLaunch.record with maq := true, shaddr := 0x3FFFFFF0, lx := 1 } }
    let s := lab l demoBlock g
    let b := blockOf g
    s.current = some (b, g) ∧ Plain b g ∧ g.compacted = false ∧ s.mig.state ≠ 2#2 ∧ (g.scalar 1).toNat % 16 = 0 ∧
    Reaches s b .store 8 (g.scalar 1) 0x3FFFFFF0 false false ∧ Reaches s b .store 8 (g.scalar 1 + 8) 0x3FFFFFF8 false false ∧
    0x3FFFFFF0 + 8 ≤ 0x3FFFFFF8 ∧ s.launch? l.id = some l ∧ l.started = true ∧ l.complete = false ∧ l.torn = false ∧
    l.record.maq = true ∧ l.judged = false ∧ l.record.shaddr = g.scalar 1 ∧ l.limit ≠ 0 ∧
    (∀ j ∈ s.journals, j.ctx ≠ l.ctx) := by
  unfold Plain Reaches; decide +kernel

/-- ShapeQueries: a launch that awaits its shape, and one without MAQ; the pair of scalars ends at s63. -/
theorem witness_shape_query :
    let l := { demoLaunch with record := { demoLaunch.record with maq := true } }
    (lab l demoBlock demoGroup).current = some (blockOf demoGroup, demoGroup) ∧
    (lab l demoBlock demoGroup).launch? (blockOf demoGroup).launch = some l ∧ (62#6).toNat ≤ 62 ∧ demoGroup.compacted = false ∧
    (l.record.maq = true ∧ ((blockOf demoGroup).mode = .tentative ∨ l.judged = false)) ∧
    ¬(demoLaunch.record.maq = true ∧ ((blockOf demoGroup).mode = .tentative ∨ demoLaunch.judged = false)) := by decide +kernel

/-- Arena: an allocation that fills the quota, and the release of the newest one. -/
theorem witness_arena :
    let g := { demoGroup with scalars := [(1, 1), (2, 0x100000)] }
    let l := { demoLaunch with record := { demoLaunch.record with maq := true, arena := 0x100000, quota := 64 } }
    let b := { demoBlock with allocs := [0] }
    (lab l b g).current = some ({ b with groups := [g] }, g) ∧ (lab l b g).launch? b.launch = some l ∧ l.record.maq = true ∧
    l.record.arena ≠ 0 ∧ b.pair = none ∧ b.arena + ((g.scalar 1).toNat + 63) / 64 * 64 ≤ l.record.quota ∧
    b.allocs = 0 :: [] ∧ g.scalar 2 = l.record.arena + BitVec.ofNat 64 (b.lin * l.record.quota) + BitVec.ofNat 64 0 := by
  decide +kernel

/-- ShapeVerdicts: a judged launch with a tentative block. -/
theorem witness_verdict :
    let l := { demoLaunch with judged := true, truth := some 1 }
    let b := { demoBlock with mode := .tentative }
    let s := lab l b demoGroup
    s.launch? l.id = some l ∧ l.judged = true ∧ l.applied = false ∧ l.complete = false ∧ l.torn = false ∧ l.saving ≠ .saved ∧
    (s.blocks.map Block.id).Nodup ∧
    (∀ x ∈ s.blocks, x.launch = l.id → x.mode = .tentative → ∀ g ∈ x.allGroups, g.holds = [] ∧ g.status ≠ .held) := by decide +kernel

/-- HeldStores: a confirmed block whose group holds one line. -/
theorem witness_held :
    let e : HoldEntry := ⟨0x3FFFFFC0 / 64, [(0x3FFFFFC0, 5, 0)], 0x10000, ⟨0, 0⟩, true, (0, 0), none, 0, 1⟩
    let g := { demoGroup with holds := [e] }
    let b := { demoBlock with mode := .confirmed, groups := [g] }
    let s := lab demoLaunch b g
    s.block? 2 = some b ∧ b.groups[0]? = some g ∧ g.holds.head? = some e ∧ e.sent = none ∧ b.pair = none ∧
    g.status ≠ .stopped ∧ (∀ x ∈ b.allGroups, x.status ≠ .held) ∧ s.mig.state ≠ 2#2 ∧
    s.olderHeld b.launch e.after = false ∧ s.heldByHome 0x3FFFFFC0 = false ∧
    (∀ f ∈ b.entriesHeld, e.epoch.1 ≤ f.epoch.1 ∧ e.epoch.2 ≤ f.epoch.2) ∧
    s.translate b.core (s.ctxOf b) (!s.superOf b) .store (BitVec.ofInt 64 (signedOf 52 (64 * e.line))) =
      .ok (.local 0x3FFFFFC0 false false false) := by decide +kernel

/-- A queue of the demo context whose ring, of 1,024 bytes, holds one record. -/
def demoQueue : Queue :=
  { id := 5, ctx := 1, ring := 0x100000, lsize := 10, prio := 0, quant := 1, slice := 0, widxVa := 0x200000, ridxVa := 0x200008,
    wakeVa := 0x200010, errVa := 0x200018, fsrv := 0, ridx := 0, widx := 64, stopped := false, predictor := [] }

/-- The device with that queue, a record and the write index that memory holds. -/
def labQueue (w : Nat) (record : List Byte) : State :=
  { labOf demoGroup with
    queues := [demoQueue], launches := [], blocks := [], mem := writeBytes (writeBytes demoMem 0x100000 record) 0x200000 (natBytes 8 w) }

/-- QueueWakes: an index that is one ring ahead, one that is further, and a launch record at the head. -/
theorem witness_queue_wakes :
    let launch := natBytes 8 0x102
    (labQueue 1024 launch).queue? demoQueue.id = some demoQueue ∧ demoQueue.stopped = false ∧
    (∀ w ∈ [1024, 1088], (match (labQueue w launch).frontWord demoQueue.ctx demoQueue.widxVa 8 with
      | .ok v => decide (v = w ∧ w ≠ demoQueue.widx)
      | .error _ => false) = true) ∧
    (1024 + 2 ^ 64 - demoQueue.ridx % 2 ^ 64) % 2 ^ 64 ≤ 2 ^ demoQueue.lsize ∧
    2 ^ demoQueue.lsize < (1088 + 2 ^ 64 - demoQueue.ridx % 2 ^ 64) % 2 ^ 64 ∧
    (labQueue 1024 launch).queueHead { demoQueue with widx := 1024 } = .found 0x102 ∧
    (labQueue 1024 launch).queueHead demoQueue = .found 0x102 ∧
    (∀ l ∈ (labQueue 1024 launch).launches, l.queue ≠ some demoQueue.id ∨ l.started = true) := by decide +kernel

/-- QueueRecords: the three records; a word that has and has not reached its value. -/
theorem witness_queue_records :
    (∀ k ∈ [3, 4, 5], ∀ v ∈ [0, 1],
      let s := labQueue 64 (natBytes 8 (0x100 + k) ++ natBytes 8 0x300000 ++ natBytes 8 v)
      s.queue? demoQueue.id = some demoQueue ∧ s.queueHead demoQueue = .found (0x100 + k) ∧ demoQueue.widx = demoQueue.ridx + 64 ∧
      (match s.frontRead demoQueue.ctx (demoQueue.address demoQueue.ridx) 24 with
        | .ok bs => decide (bytesNat ((bs.drop 8).take 8) = 0x300000 ∧ bytesNat ((bs.drop 16).take 8) = v)
        | .error _ => false) = true ∧
      (match s.frontWord demoQueue.ctx 0x300000 8 with
        | .ok w => decide (w = 0)
        | .error _ => false) = true ∧
      (∀ l ∈ s.launches, l.queue = some demoQueue.id → l.complete = true) ∧
      s.signalling demoQueue.id = false ∧
      (match s.frontStore demoQueue.ctx 0x300000 v with
        | .ok _ => true
        | .error _ => false) = true) ∧
    (∃ l ∈ [{ demoLaunch with queue := some demoQueue.id }], l.queue = some demoQueue.id ∧ l.complete = false) := by
  decide +kernel

/-- QueueRecords: a SIGNAL whose store is with a peer, which takes it or refuses it. -/
theorem witness_signals_sent :
    let p := { blankPacket with op := 0x82 }
    let q := { blankPacket with op := 0x83, cause := 0x46 }
    let s := { labOf demoGroup with queues := [demoQueue], launches := [], writes := [(9, .signal 5 0x300000)] }
    let t := { s with fabric := { s.fabric with requests := [⟨9, blankPacket, 0, false, true, some p, 1, 0⟩] } }
    let u := { s with fabric := { s.fabric with requests := [⟨9, blankPacket, 0, false, true, some q, 1, 0⟩] } }
    t.replyTo 9 = some p ∧ replyCause p = none ∧ u.replyTo 9 = some q ∧ replyCause q = some 0x46 := by decide +kernel

/-- The header of an image of four threads with eight registers each. -/
def demoHeader : List Byte := natBytes 8 1 ++ natBytes 8 0x10000 ++ natBytes 8 0x100001000001 ++ natBytes 8 0x100000004 ++
  natBytes 8 0x0800

/-- LaunchStarts: the launch, its queue and its record of 64 bytes. -/
theorem witness_launch_start :
    let l := { newLaunch 1 (some 5) 1 0 false blankRecord with header := blankHeader }
    let s := { labQueue 64 (natBytes 8 0x102 ++ natBytes 8 0x400000 ++ natBytes 48 0) with launches := [l] }
    s.launch? l.id = some l ∧ l.queue = some demoQueue.id ∧ s.queue? demoQueue.id = some demoQueue ∧ demoQueue.stopped = false ∧ l.started = false ∧
    l.complete = false ∧ l.record.ord = false ∧ l.record.maq = false ∧
    (match s.frontRead demoQueue.ctx (demoQueue.address demoQueue.ridx) 64 with
      | .ok bs => decide ((l.record.fill bs).img = 0x400000 ∧ (l.record.fill bs).hcnt = 0)
      | .error _ => false) = true := by decide +kernel

/-- LaunchStarts: the image of 768 bytes can be read. -/
theorem witness_launch_image :
    let s := { labOf demoGroup with mem := writeBytes demoMem 0x400000 demoHeader }
    (match s.frontRead 1 0x400000 768 with
      | .ok _ => true
      | .error _ => false) = true := by decide +kernel

/-- LaunchStarts: how the four images are judged. -/
theorem witness_launch_judged :
    let full := fun (hb : List Byte) => hb ++ List.replicate (768 - hb.length) 0
    let at' := fun (hb : List Byte) => { demoLaunch with record := blankRecord, header := parseHeader (full hb) }
    let noPart := natBytes 8 1 ++ natBytes 8 0x10000
    let noGrid := natBytes 8 1 ++ natBytes 8 0x10000 ++ natBytes 8 0 ++ natBytes 8 0x100000004 ++ natBytes 8 0x0800
    let odd := natBytes 8 2 ++ demoHeader.drop 8
    (at' noPart).header.partitionBad = true ∧
    (at' noGrid).header.partitionBad = false ∧ (at' noGrid).parameterBad = true ∧
    (at' odd).header.partitionBad = false ∧ (at' odd).parameterBad = false ∧ headerMalformed (full odd) = true ∧
    (at' demoHeader).header.partitionBad = false ∧ (at' demoHeader).parameterBad = false ∧
    headerMalformed (full demoHeader) = false ∧ (at' demoHeader).header.saved = false := by decide +kernel

/-- BlockPlacements: the last block of a grid, on the last core that has room for it. -/
theorem witness_placement :
    let l := { demoLaunch with next := 0, limit := 1, queue := some 5 }
    let s := { labQueue 64 [] with launches := [l] }
    s.launch? l.id = some l ∧ l.started = true ∧ l.complete = false ∧ l.torn = false ∧ l.saving = .no ∧ l.savedBlk = [] ∧
    l.redo = [] ∧ l.next < l.limit ∧ l.header.clsize = 1 ∧ l.header.red = false ∧ l.record.maq = false ∧ s.power.holding = false ∧
    s.mayPlace l = true ∧ s.visitOf (fun x n => !s.visitLeft x n) l = some 0 ∧ s.coreHasRoom l.header 4095 = true := by decide +kernel

/-- LaunchCompletions: a launch whose one block has ended, with its status word at the end of the GiB. -/
theorem witness_completion :
    let l := { demoLaunch with record := { demoLaunch.record with done := 0x3FFFFFF8 } }
    let s := lab l { demoBlock with ended := true } demoGroup
    s.launch? l.id = some l ∧ s.launchOver l = true ∧ l.record.maq = false ∧ l.record.done ≠ 0 ∧ l.record.done.toNat % 8 = 0 ∧
    l.record.cntr = 0 ∧ l.record.hcnt = 0 ∧ l.finals = 0 ∧ s.writes = [] ∧ s.copies = [] ∧ s.mig.state ≠ 2#2 ∧
    (∀ b ∈ s.blocks, b.launch = l.id → (s.core b.core).l1Dirty = [] ∧ ∀ o ∈ s.operators, o.blk ≠ b.id) ∧
    s.translate frontEnd l.ctx (s.userCtx l.ctx) .store l.record.done = .ok (.local 0x3FFFFFF8 false false false) := by
  decide +kernel

/-- The device whose memory holds instructions from the group's PC on. -/
def labCode (g : Group) (is : List Instr) : State :=
  { labOf g with mem := writeBytes demoMem 0x10000 (is.flatMap (fun i => (encode i 1).flatMap (fun p => natBytes 2 p.toNat))) }

/-- ModifiedLanes: a MOD word with every field set before an addition, which admits it. -/
theorem witness_modified_lanes :
    let i : Instr := .vaddI32 0 127 126 125
    let m : Instr := .modAlu 63 1 31 1 1 1 1 1
    let s := labCode demoGroup [m, i]
    let b := blockOf demoGroup
    s.current = some (b, demoGroup) ∧
    (match s.innerAt b demoGroup 2, laneTarget i with
      | .ok x, some t => decide (x = ⟨i, 1, 2⟩) && t.accepts.admits (modFields 63 1 31 1 1 1 1 1) &&
          decide (t.form.need = { regs := [126, 127, 125], reads := [126, 127] })
      | _, _ => false) = true ∧
    Issues s b demoGroup { regs := [126, 127, 125], reads := [126, 127] } := by
  unfold Issues; decide +kernel

/-- ModifiedLoads, ModifiedStores: acquiring loads at cluster scope, one with `.rep`, `.wt` and `.take`, and a releasing
store, with the lowest offset; and a replica of a byte that the load names. -/
theorem witness_modified_access :
    let g := memGroup 0x3FFFFF00
    ∀ e ∈ [(Instr.modMemory 0x1FF 0 0 0 2 1, Instr.ld32 0 1 1 127, Access.load), (.modMemory 0x1FF 1 1 1 2 1, .ld32 0 1 1 127, .load),
        (.modMemory 0x1FF 0 0 3 2 1, .ldc 0 1 1 127, .load), (.modMemory 0x1FF 0 0 0 2 2, .st32 0 1 1 127, .store)],
      let s := labCode g [e.1, e.2.1]
      let b := blockOf g
      let r := g.seen s.tick [1] false
      s.current = some (b, g) ∧ Plain b g ∧ s.peerFault b = false ∧
      (match s.innerAt b g 2 with
        | .ok x => decide (x = ⟨e.2.1, 1, 2⟩)
        | .error _ => false) = true ∧
      Issues s b g { regs := 1 :: regRun 127 1, reads := 1 :: regRun 127 1 } ∧
      ∀ l, l < 96 → r.takes 0 true l = true →
        Reaches s b e.2.2 4 (r.scalar 1 + (r.vec 1 l).setWidth 64 + (0x1FF#9).signExtend 64 * 8) (0x3FFFFEF8 + 64 * l) false false ∧
        s.spoiled (0x3FFFFEF8 + 64 * l) 4 = false := by
  unfold Plain Issues Reaches; decide +kernel

/-- ModifiedLoads, ModifiedStores: what makes an access a wide acquire and release; no frame migrates, and the replica. -/
theorem witness_modified_order :
    let g := memGroup 0x3FFFFF00
    wideAcquire 1#2 2#3 ∧ wideRelease 2#2 2#3 ∧ wideAcquire 3#2 2#3 ∧ wideRelease 3#2 2#3 ∧ ¬wideRelease 2#2 1#3 ∧
    (labOf g).mig.state ≠ 2#2 ∧
    (∃ y ∈ { labOf g with replicas := [⟨1, 0, 0x3FFFFEF8, 5, 0x3FFFFEF8⟩] }.replicas, y.launch = (blockOf g).launch ∧ y.pa = 0x3FFFFEF8) := by
  unfold wideAcquire wideRelease; decide +kernel

/-- ModifiedAtomics: an atomic that is an acquire and a release at cluster scope, with the lowest offset. -/
theorem witness_modified_atomic :
    let g := memGroup 0x3FFFFF00
    let i : Instr := .atomAdd32 1 1 127
    let s := labCode g [.modMemory 0x1FF 0 0 0 2 3, i]
    let b := blockOf g
    let r := g.seen s.tick [1, 127] false
    s.current = some (b, g) ∧ Plain b g ∧ s.peerFault b = false ∧ s.mig.state ≠ 2#2 ∧ (∀ j ∈ s.journals, j.ctx ≠ s.ctxOf b) ∧
    (match s.innerAt b g 2 with
      | .ok x => decide (x = ⟨i, 1, 2⟩)
      | .error _ => false) = true ∧
    Issues s b g { regs := 1 :: regRun 127 1, reads := 1 :: regRun 127 1 } ∧ (∃ l, l < 96 ∧ r.takes 0 false l = true) := by
  unfold Plain Issues; decide +kernel

/-- ModifiedAtomics: where the four lanes' words stand. -/
theorem witness_modified_places :
    let g := memGroup 0x3FFFFF00
    let s := labCode g [.modMemory 0x1FF 0 0 0 2 3, .atomAdd32 1 1 127]
    let b := blockOf g
    let r := g.seen s.tick [1, 127] false
    ∀ l, l < 96 → r.takes 0 false l = true →
      Reaches s b .atomic 4 (r.scalar 1 + (r.vec 1 l).setWidth 64 + (0x1FF#9).signExtend 64 * 8) (0x3FFFFEF8 + 64 * l) false false ∧
      s.spoiled (0x3FFFFEF8 + 64 * l) 4 = false ∧ ∀ k, k < 4 → OneClass s b.core false (0x3FFFFEF8 + 64 * l + k) := by
  unfold Reaches OneClass; decide +kernel

/-- ModifiedLoads, ModifiedStores: a scalar load, a constant load and a store of a doubleword under the word, at the end of
the GiB, acquiring and releasing at cluster scope. -/
theorem witness_modified_scalar :
    let g := { demoGroup with scalars := [(1, 0x3FFFFF00)] }
    ∀ e ∈ [(Instr.modMemory 0x1FF 0 0 0 2 1, Instr.sld 64 2 1 5, Access.load), (.modMemory 0x1FF 0 0 0 2 1, .sldc 64 2 1 5, .load),
        (.modMemory 0x1FF 0 0 0 2 2, .sst 64 2 1 5, .store)],
      let s := labCode g [e.1, e.2.1]
      let b := blockOf g
      s.current = some (b, g) ∧ Plain b g ∧ g.compacted = false ∧ s.peerFault b = false ∧
      (match s.innerAt b g 2 with
        | .ok x => decide (x = ⟨e.2.1, 1, 2⟩)
        | .error _ => false) = true ∧
      Reaches s b e.2.2 8 (g.scalar 1 + BitVec.ofNat 64 (4 * (64#8).toNat) + (0x1FF#9).signExtend 64 * 8) 0x3FFFFFF8 false false ∧
      s.spoiled 0x3FFFFFF8 8 = false := by
  unfold Plain Reaches; decide +kernel

/-- ModifiedScratchpads: LDS, STS and ATOMS of four lanes, moved by the lowest offset to the start and, for the last lane,
to the end of the block's own scratchpad. -/
theorem witness_modified_scratchpad :
    let g := { demoGroup with vectors := [(96, 8), (97, 64), (98, 128), (99, 65536)] }
    let l := { demoLaunch with header := { demoLaunch.header with part := 0x00011010 } }
    ∀ e ∈ [(Instr.modMemory 0x1FF 0 0 0 2 1, Instr.lds 3 0 1 124), (.modMemory 0x1FF 0 0 0 2 2, .sts 3 0 1 124),
        (.modMemory 0x1FF 0 0 0 2 3, .atoms 1 1 124)],
      let s := { lab l demoBlock g with mem := (labCode g [e.1, e.2]).mem }
      let b := blockOf g
      s.current = some (b, g) ∧ g.holds = [] ∧ s.peerFault b = false ∧
      (match s.innerAt b g 2 with
        | .ok x => decide (x = ⟨e.2, 1, 2⟩)
        | .error _ => false) = true ∧
      Issues s b g { regs := 1 :: regRun 124 2, reads := 1 :: regRun 124 2 } ∧
      ∀ lane, lane < 96 → ∀ w, (g.seen s.tick [1] false).takes 0 w lane = true →
        s.scratchCheck b w ((g.seen s.tick [1] false).vec 1 lane + BitVec.ofNat 32 (0 * 8) +
          ((0x1FF#9).signExtend 64 * 8 : Word).setWidth 32).toNat 8 = .ok b := by
  unfold Issues; decide +kernel

/-- The table of `witness_sample` behind an acquiring word at cluster scope. -/
def labSample (g : Group) : State :=
  let code := (labCode g [.modMemory 0 0 0 0 2 1, .ldsmp 0 1 1 127]).mem
  { labOf g with mem := writeBytes code 0x20000 (natBytes 8 0x30000 ++ [1, 0, 1, 0, 2, 0, 0, 0]) }

/-- ModifiedSamples: the word, the instruction and the descriptor. -/
theorem witness_modified_sample :
    let g := { demoGroup with scalars := [(1, 0x20000)], vectors := [(96, 0x7FC00000)] }
    let s := labSample g
    let b := blockOf g
    s.current = some (b, g) ∧ Plain b g ∧ g.status = .running ∧ g.pending = none ∧ s.peerFault b = false ∧
    (match s.innerAt b g 2 with
      | .ok x => decide (x = ⟨.ldsmp 0 1 1 127, 1, 2⟩)
      | .error _ => false) = true ∧
    (s.core b.core).sampler = [] ∧ (s.die (dieOf b.core)).clean = [] ∧ Issues s b g { regs := [1, 2, 127], reads := [1, 2] } ∧
    (∃ l, l < 96 ∧ (g.seen s.tick [1, 2] false).takes 0 true l = true) := by
  unfold Plain Issues; decide +kernel

/-- ModifiedSamples: the descriptor and the elements that it names. -/
theorem witness_modified_table :
    let g := { demoGroup with scalars := [(1, 0x20000)], vectors := [(96, 0x7FC00000)] }
    let s := labSample g
    let b := blockOf g
    let d := parseSample ((List.range 16).map (fun k => s.l2Byte (dieOf b.core) false (0x20000 + k)))
    (g.scalar 1).toNat % 16 = 0 ∧ Reaches s b .load 16 (g.scalar 1) 0x20000 false false ∧ s.spoiled 0x20000 16 = false ∧ d.ok = true ∧
    (∀ q ∈ sampleTaps (sampleCoord (decodeF fp32 (g.vec 1 1).toNat) d.width) (sampleCoord (decodeF fp32 (g.vec 2 1).toNat) d.height)
        d.width d.height,
      Reaches s b .load 2 (d.element q.1 q.2.1) 0x30000 false false ∧ s.spoiled 0x30000 2 = false) := by
  unfold Reaches; decide +kernel

/-- The device with an operator and a group that reads the data of its one outlet slot. -/
def labOutlet (g : Group) (m : Instr) (o : Operator) : State :=
  { labCode g [m, .ld32 0 0 1 127] with cores := [{ Core.fresh 0 with ops := [o] }] }

/-- A TAKE operator with one slot, which is empty. -/
def takeOp : Operator := { demoOp with desc := { demoOp.desc with rmode := 1, slots := 1 }, slots := [Slot.empty] }

/-- ModifiedOutlets: a `.wt` and a `.take` load of four lanes. -/
theorem witness_modified_outlet :
    let g := memGroup 0x40010000
    ∀ m ∈ [Instr.modMemory 0 1 1 0 2 1, .modMemory 0 1 0 0 2 1],
      let s := labOutlet g m takeOp
      let b := blockOf g
      s.current = some (b, g) ∧ Plain b g ∧ s.peerFault b = false ∧
      (match s.innerAt b g 2 with
        | .ok x => decide (x = ⟨.ld32 0 0 1 127, 1, 2⟩)
        | .error _ => false) = true ∧
      Issues s b g { regs := 0 :: regRun 127 1, reads := [0] } ∧ (∃ l, l < 96 ∧ (g.seen s.tick [0] false).takes 0 true l = true) := by
  unfold Plain Issues; decide +kernel

/-- ModifiedOutlets: the slot holds no result, or one. -/
theorem witness_modified_slot :
    let g := memGroup 0x40010000
    let ready := { takeOp with slots := [{ Slot.empty with gen := 1, state := .ready }] }
    (∀ o ∈ [takeOp, ready],
      let s := labOutlet g (.modMemory 0 1 0 0 2 1) o
      let b := blockOf g
      let r := g.seen s.tick [0] false
      (∀ l, l < 96 → r.takes 0 true l = true →
        let va := r.scalar 1 + (r.vec 0 l).setWidth 64 + (0#9).signExtend 64 * 8
        canonical va = true ∧ va.toNat % 4 = 0 ∧
        (match s.translate b.core (s.ctxOf b) (!s.superOf b) .load va with
          | .ok p => decide (p = .window 0x40010000)
          | .error _ => false) = true) ∧
      s.windowAt 0x40010000 = .outlet o 0 0 ∧ o.desc.touchesData 0 = true ∧ s.operator? o.handle = some o ∧ o.desc.rmode = 1) ∧
    takeOp.mustWait 0 true = true ∧ ready.outletCause 0 0 4 = none := by decide +kernel

/-- Repeats: two repeats whose destination ends at the last register, at the first and at the last of them. -/
theorem witness_repeats :
    let i : Instr := .vaddI32 0 3 2 126
    ∀ k ∈ [0, 1],
      let g := { demoGroup with repidx := k }
      let s := labCode g [.rep 0 7 1, i]
      let b := blockOf g
      s.current = some (b, g) ∧
      (match s.innerAt b g 2 with
        | .ok x => decide (x = ⟨i, 1, 2⟩)
        | .error _ => false) = true ∧
      g.repidx.toNat ≤ (1#6).toNat ∧ Issues s b g { reads := [2 + k.toNat, 3 + k.toNat] } ∧
      (∀ j, j ≤ (1#6).toNat → ∀ v ∈ [126 + (j : Int), 2 + j, 3 + j], 0 ≤ v ∧ v ≤ 127 ∧ v.toNat < g.budget) := by
  unfold Issues; decide +kernel

/-- Searches: a routine of one addition; a bracket that is wider than the stopping width and one that is not. -/
theorem witness_search :
    let i : Instr := .vaddI32 0 3 1 2
    let wide := { demoGroup with brackets := [(96, 2), (97, 2), (98, 2), (99, 2)], invst := 0x42 }
    let narrow := { wide with brackets := [(96, 1), (97, 1), (98, 1), (99, 1)] }
    let live := fun (g : Group) (l : Nat) => g.acts l && (g.bracket 0 0 l).sle (g.bracket 0 1 l) &&
      decide ((1 : Int) < (g.bracket 0 1 l).toInt - (g.bracket 0 0 l).toInt)
    (∀ g ∈ [wide, narrow],
      let s := labCode g [.inv 0 0 0 2 1 0, i, .iend]
      let b := blockOf g
      s.current = some (b, g) ∧
      (match s.routine b g 17 0 2, laneTarget i with
        | .ok (ops, st, len), some t => decide (ops = [⟨.lane t.form, 1⟩] ∧ st = 1 ∧ len = 6 ∧ badRoutine 1 2 ops = none)
        | _, _ => false) = true ∧
      Issues s b g { regs := [1, 2, 3] } ∧ g.hazards = [] ∧ g.redo = 0 ∧ g.remote = [] ∧ g.aim = none ∧
      g.invst.getLsbD 6 = true ∧ 2 ≤ g.invst.toNat % 64 ∧ g.invst.toNat % 64 < 33) ∧
    live wide 0 = true ∧ ∀ l, l < 96 → live narrow l = false := by
  unfold Issues; decide +kernel

/-- StrayEnds shares the hypotheses of SoftwareTraps (`witness_traps`). Compaction: two groups meet under one join, with
lanes on both sides; a compacted group that has not started, and a region whose groups have all reached its end. -/
theorem witness_compaction :
    let g := { demoGroup with entries := [entryOf .join], status := .waiting (.compaction 0x10010 0x3 0xC 0x10000) }
    let b := { demoBlock with groups := [g, { g with gid := 1 }] }
    let s := { labOf g with blocks := [b] }
    let new := { cmpGroup with started := false }
    let done := { cmpGroup with status := .waiting .regionEnd }
    let waiting := { b with region := some ([new], 0x10000) }
    let closing := { b with region := some ([done, { done with status := .ended }], 0x10000) }
    (s.block? b.id = some b ∧ b.region = none ∧ b.pair = none ∧ b.groups ≠ [] ∧ (0x10010 : Word) ≠ 0x10004 ∧
      (∀ x ∈ b.groups, x.pc + 4 = 0x10004 ∧ x.status = .waiting (.compaction 0x10010 0x3 0xC 0x10000))) ∧
    ({ s with blocks := [waiting] }.block? b.id = some waiting ∧ ([new])[0]? = some new ∧ new.started = false ∧
      waiting.packed.length < waiting.groups.length) ∧
    ({ s with blocks := [closing] }.block? b.id = some closing ∧
      (∀ c ∈ [done, { done with status := .ended }], c.started = true ∧ (c.status = .ended ∨ c.status = .waiting .regionEnd) ∧
        c.sigs = [] ∧ c.holds = []) ∧
      (∀ x ∈ closing.groups, x.status = .waiting (.compaction 0x10010 0x3 0xC 0x10000) ∧ (∀ e ∈ x.entries, e.spilled = none) ∧
        x.entries.head? = some (entryOf .join) ∧
        ∃ l, l < 96 ∧ hasLane (entryOf .join).mask l = true ∧ hasLane x.present l = true ∧ hasLane x.helper l = false)) := by
  decide +kernel

/-- WaitConditions: a batch that is and is not done, a counter and an object at the last words of the scratchpad, and an
invalidation with and without an old request. -/
theorem witness_waits :
    let busy := { demoGroup with pending := some ⟨[], [], 0, .none, 0, [], [], 0, 0, false, false, [], false, []⟩ }
    (∀ w ∈ [Wait.copyBatch 1, .matrixBatch 1, .counter 65520 1, .counter 65520 0, .phase 65528 true, .phase 65528 false,
        .invalidation 0 0 1],
      let g := { demoGroup with status := .waiting w, copies := [⟨5, 1, true, none⟩], matrix := [⟨5, 1, false, none⟩] }
      let s := lab roomyLaunch syncBlock g
      s.groupAt ⟨2, 0, false⟩ = some ({ syncBlock with groups := [g] }, g) ∧ g.halt = none ∧ g.status = .waiting w) ∧
    (let s := lab roomyLaunch syncBlock demoGroup
     s.scratchWord syncBlock false 65520 4 = .ok (2, 65520) ∧ s.scratchWord syncBlock false 65528 8 = .ok (2, 65528) ∧
     s.scratchNat 2 65528 8 = objectWord 0 1 1 (-1) ∧ s.oldRequests 0 0 1 = false) ∧
    (lab roomyLaunch syncBlock busy).oldRequests 0 0 1 = true := by decide +kernel

/-- SleepsAndReplies: a sleeping group, and one that awaits a reply, before and after it is there. -/
theorem witness_replies :
    let p : Pending := ⟨[(4, [(95, 0)])], [], 2, .lanes 127 4 false, 0, [], [], 0, 0, false, false, [], false, []⟩
    let g := { demoGroup with status := .waiting .replies, pending := some p }
    let q := { blankPacket with op := 0x82, bytes := [(0, 7)] }
    let s := labOf g
    let t := { s with fabric := { s.fabric with requests := [⟨4, blankPacket, 0, false, true, some q, 1, 0⟩] } }
    let u := { s with fabric := { s.fabric with requests := [⟨4, blankPacket, 0, false, true, none, 1, 0⟩] } }
    t.groupAt ⟨2, 0, false⟩ = some (blockOf g, g) ∧ (blockOf g).pair = none ∧ g.pending = some p ∧ p.waits = [] ∧ p.held = [] ∧
    (blockOf g).mode = .normal ∧ g.holds = [] ∧
    t.replyTo 4 = some q ∧ replyCause q = none ∧ u.replyTo 4 = none ∧
    (labOf { demoGroup with status := .waiting .sleep }).groupAt ⟨2, 0, false⟩ =
      some (blockOf { demoGroup with status := .waiting .sleep }, { demoGroup with status := .waiting .sleep }) := by decide +kernel

/-- Promotions: a ready group outside the active set; windows at the thresholds and beyond each. -/
theorem witness_promotion :
    (labOf { demoGroup with active := false }).pendingSet 0 ≠ [] ∧ 1023 < 8 * 128 ∧ 32 * 31 < 1024 ∧ (8 * 128 ≤ 1024 ∧ 1024 ≤ 32 * 128) ∧
    (8 * 32 ≤ 1024 ∧ 1024 ≤ 32 * 32) := by decide +kernel

/-- WriteBacks: a block of eight words at its line. -/
theorem witness_writeback : keyPa (l1Key true 64) % 8 = 0 ∧ (labOf demoGroup).mig.state ≠ 2#2 := by decide +kernel

/-- A record of the demo group's stop, its stop and the group. -/
def demoRecord : TrapRecord := { cause := 0x0D, token := 9 }
/-- The group that the record stops. -/
def stoppedGroup : Group := { demoGroup with status := .stopped, stop := some ⟨demoRecord, 4, false, false⟩ }

set_option maxRecDepth 20000 in
/-- RecordDeliveries: a record for the firmware; one for this device's trap queue, with and without room; and one for
another device. -/
theorem witness_records :
    let queue : ContextInfo := ⟨1, 0x10000000, 0, 0x100000, 0x200000, 0x200008, 1, true, 0, 0⟩
    let at' := fun (dev : Option (BitVec 13)) (w : Nat) => { labOf stoppedGroup with
      contexts := [queue], records := [⟨dev, 1, demoRecord, none⟩], mem := writeBytes demoMem 0x200000 (natBytes 8 w) }
    (∀ dev ∈ [none, some 0, some 1], (at' dev 0).records = [⟨dev, 1, demoRecord, none⟩] ∧ (at' dev 0).recordPending ⟨dev, 1, demoRecord, none⟩ = false) ∧
    some 0 = some (at' (some 0) 0).fabric.devid ∧ (at' (some 0) 0).trapQueue = some queue ∧
    (∀ w ∈ [0, 1, 2], (match (at' (some 0) w).frontWord 1 0x200000 8, (at' (some 0) w).frontWord 1 0x200008 8 with
      | .ok x, .ok y => decide (x = w ∧ y = 0)
      | _, _ => false) = true) ∧
    (match (at' (some 0) 1).engineWrite frontEnd 1 false (0x100000 + BitVec.ofNat 64 (128 * (1 % 2 ^ 1)))
        demoRecord.bytes with
      | .ok s1 => (match s1.frontStore 1 0x200000 2 with
        | .ok _ => true
        | .error _ => false)
      | .error _ => false) = true ∧
    (at' (some 1) 0).launch? 1 = some demoLaunch ∧ ((at' (some 1) 0).blocks.map Block.id).Nodup ∧
    (∀ b ∈ (at' (some 1) 0).blocks, ∀ g ∈ b.allGroups, ∀ w ∈ g.copies, w.done = true → w.cause = none) ∧
    (1#13) ≠ (at' (some 1) 0).fabric.devid := by decide +kernel

/-- RecordDeliveries: a peer that a plane leads to; a record that is with it, before and after its reply, which takes the
record or refuses it. -/
theorem witness_records_sent :
    let f := { State.reset.fabric with bank0 := { table := [(1, 0x100050001)], ports := [(0, 0x10)] }, live := 1 }
    let x : FlyingRecord := ⟨some 1, 1, demoRecord, some 9⟩
    let p := { blankPacket with op := 0x82 }
    let q := { blankPacket with op := 0x83, cause := 0x26 }
    let s := { labOf stoppedGroup with records := [x], fabric := { f with requests := [⟨9, blankPacket, 0, false, true, none, 1, 0⟩] } }
    let t := { s with fabric := { f with requests := [⟨9, blankPacket, 0, false, true, some p, 1, 0⟩] } }
    let u := { s with fabric := { f with requests := [⟨9, blankPacket, 0, false, true, some q, 1, 0⟩] } }
    f.reaches 1 = true ∧ s.recordPending x = false ∧ s.replyTo 9 = none ∧ t.replyTo 9 = some p ∧ replyCause p = none ∧
    u.replyTo 9 = some q ∧ replyCause q = some 0x26 := by decide +kernel

/-- Answers: a token that stops a group and one that stops none. -/
theorem witness_answers :
    let s := labOf stoppedGroup
    s.tokenSaved 9 = false ∧ s.tokenSaved 8 = false ∧ s.stoppedBy 8 = none ∧ s.stoppedBy 9 = some (⟨2, 0, false⟩, stoppedGroup) ∧
    s.groupAt ⟨2, 0, false⟩ = some (blockOf stoppedGroup, stoppedGroup) ∧ (blockOf stoppedGroup).pair = none ∧
    s.launch? (blockOf stoppedGroup).launch = some demoLaunch ∧ (blockOf stoppedGroup).ended = false := by decide +kernel

/-- Debugger: a group that runs, one at a barrier, and a halted one. -/
theorem witness_debugger :
    (∀ g ∈ [demoGroup, { demoGroup with status := .waiting .barrierBlock }, { demoGroup with halt := some ⟨1, true⟩ }],
      (labOf g).groupAt ⟨2, 0, false⟩ = some (blockOf g, g)) ∧ demoGroup.halt = none ∧
    (∀ m ∈ (labOf demoGroup).launches, m.ctx = demoLaunch.ctx → m.sliceDue = false) ∧ demoGroup.stop = none := by decide +kernel

/-- RegisterSteps: a supervisor; a migration that is over, and the descriptor of one of the last GiB that the rule backs. -/
theorem witness_register_steps :
    let g := { demoGroup with scalars := [] }
    let bs := natBytes 8 (2 ^ 48 * 1 + 2 ^ 30 * 3) ++ natBytes 8 (2 ^ 30 * 2) ++ natBytes 8 2 ++ natBytes 8 0
    let s := { lab superLaunch demoBlock g with mem := writeBytes demoMem 0x20000 bs, mig := ⟨0x20000, 0, 0, 0, 0, 0, 0, []⟩ }
    let done := { s with mig := { s.mig with state := 3#2 } }
    s.current = some (blockOf g, g) ∧ s.superOf (blockOf g) = true ∧ done.mig.state = 3#2 ∧ s.mig.state = 0#2 ∧
    (match s.groupRead (blockOf g) g s.mig.desc 32 with
      | .ok x => decide (x = bs)
      | .error _ => false) = true ∧
    wordAt bs 0 8 = 2 ^ 30 * 3 + 2 ^ 48 * (1#13).toNat ∧ wordAt bs 8 8 = 2 ^ 30 * 2 ∧ wordAt bs 16 8 = 2 ∧ wordAt bs 24 8 = 0 ∧
    2 ^ 30 * 3 % 2 ^ 30 = 0 ∧ backed (2 ^ 30 * 2) = true ∧ backed (2 ^ 30 * 2 + 2 ^ 30 - 1) = true ∧
    (∀ f ∈ s.firmware.retired, f * 2 ^ 16 < 2 ^ 30 * 2 ∨ 2 ^ 30 * 2 + 2 ^ 30 ≤ f * 2 ^ 16) ∧
    (1#13).toNat / 512 = s.fabric.devid.toNat / 512 := by decide +kernel

/-- ManagementRegisters: the caps at and beyond the ends of their range. -/
theorem witness_caps :
    let legal := fun (c : BitVec 12) => decide (c = 0#12) || (decide (600 ≤ c.toNat) && decide (c.toNat ≤ 2400))
    legal 0#12 = true ∧ legal 600#12 = true ∧ legal 2400#12 = true ∧ legal 599#12 = false ∧ legal 2401#12 = false ∧
    (2401 : Word).setWidth 12 = 2401#12 ∧ 0x18 ∈ [0x10, 0x18, 0x20, 0x30, 0x38] ∧ State.reset.power.on = true ∧
    ({ State.reset.power with on := false }).on = false ∧
    (∀ o ∈ [0x48, 0xFFFF8, 0x130000], o ∉ [0, 0x08, 0x10, 0x18, 0x20, 0x30, 0x38, 0x40] ∧ (o < 0x100000 ∨ 0x130000 ≤ o)) := by
  decide +kernel

/-- FabricRegisters: the last entries of either bank, and both kinds of write to SWAP. -/
theorem witness_fabric_registers :
    (2 : Word).getLsbD 1 = true ∧ (1 : Word).getLsbD 1 = false ∧
    (∃ p, p < 16 ∧ 0x178 = 0x100 + 0x80 * 0 + 8 * p) ∧ 0x2FFF8 = 0x10000 + 0x10000 * 1 + 8 * 8191 ∧ 8191 < 8192 ∧
    (false = State.reset.fabric.active) ∧ true ≠ State.reset.fabric.active ∧ State.reset.power.on = true ∧ 0x2FFF8 < 0x30000 := by
  decide +kernel

/-- PowerCap, ThermalLimits, InputVoltage: the device is on, and the boundary values of power, temperature and voltage. -/
theorem witness_power :
    let p := Power.reset
    let low := { p with cap := 600, freq := 1200 }
    State.reset.power = p ∧ p.on = true ∧ p.half = none ∧ 2400 < 2401 ∧ 1200 < p.freq.toNat ∧
    (if low.cap = 0#12 then 2400 else min 2400 low.cap.toNat) < 601 ∧ low.freq.toNat ≤ 1200 ∧
    95 * 2400 < 100 * 2281 ∧ 100 * 2280 ≤ 95 * 2400 ∧ p.throt = false ∧ p.holding = false ∧
    ({ p with half := some (true, 1) }).half = some (true, 1) ∧ ({ p with half := some (false, 1) }).half = some (false, 1) ∧
    ({ p with half := some (false, 2) }).half = some (false, 2) ∧
    (let q := { p with vinlo := true }
     (if q.vinlo = true ∨ q.vinhi = true then 1200 else q.freq.toNat) ≤ 1200 ∧ 1200 < q.freq.toNat) ∧
    (100 ≤ 100 ∨ (p.throt = true ∧ 97 ≤ 100)) ∧ ¬(100 ≤ 99 ∨ (p.throt = true ∧ 97 ≤ 99)) ∧ 109 < 110 ∧ 110 ≤ 110 ∧
    44000 ≤ 57000 ∧ 43999 < 44000 ∧ 57000 < 57001 ∧ 48000 ≤ p.input ∧ p.input ≤ 54000 ∧
    ({ p with vinlo := true }).vinlo = true ∧ p.vinlo = false ∧ p.vinhi = false := by decide +kernel

/-- An image that passes every check, at the lowest version, with the key of slot 3. -/
def demoImage : BootImage := ⟨true, 7, true, 0, 2, 3, 4, 0⟩

/-- A device whose firmware serves. -/
def served (s : State) : State :=
  { s with firmware := { s.firmware with stage := 4 }, power := { s.power with mwidx := 1 } }

/-- Boot, HandOver, Attestation: images that pass, and that fail for each reason; either strap and the ends of the rail's
range; the versions before and after the running one; and a leaf before and at the last one. -/
theorem witness_firmware :
    let s := served State.reset
    let f := { s.firmware with keys := [0, 0, 0, 7] }
    let trusted := fun (f : Firmware) (x : BootImage) => ∃ k, k < 4 ∧ f.revoked.getLsbD k = false ∧ f.keys.getD k 0 = x.keyDig
    let passes := fun (f : Firmware) (x : BootImage) => x.found = true ∧ trusted f x ∧ x.sigOk = true ∧ f.minVer ≤ x.secVer
    let other := { demoImage with sigOk := false }
    passes f demoImage ∧ ¬passes f { demoImage with sigOk := false } ∧ ¬passes f { demoImage with found := false } ∧
    ¬passes { f with revoked := 0x8 } demoImage ∧ ¬passes { f with minVer := 1 } demoImage ∧
    [other, demoImage] = [other] ++ demoImage :: [] ∧
    [demoImage, other, other, other].drop 2 ++ [demoImage, other, other, other].take 2 = [other, other] ++ demoImage :: [other] ∧
    (∀ v ∈ [44000, 57000], 44000 ≤ v ∧ v ≤ 57000) ∧ (∀ v ∈ [43999, 57001], ¬(44000 ≤ v ∧ v ≤ 57000)) ∧
    s.serving = true ∧ s.firmware.handover = false ∧ s.firmware.fencing = none ∧ s.firmware.retiring = none ∧
    s.firmware.copies = [] ∧ s.firmware.version ≤ demoImage.version ∧
    demoImage.version < ({ s.firmware with version := 1 }).version ∧ ({ s.firmware with handover := true }).handover = true ∧
    s.firmware.leaf < 2 ^ 20 ∧ 2 ^ 20 ≤ ({ s.firmware with leaf := 2 ^ 20 }).leaf := by decide +kernel

/-- HostAccesses: the last doubleword that HBM backs in the first stack. -/
theorem witness_host :
    let s := served (labOf demoGroup)
    s.serving = true ∧ s.copies = [] ∧ 8 ∈ [1, 2, 4, 8] ∧ 47999999992 % 8 = 0 ∧ s.frameFail (s.route 47999999992) = none ∧
    s.heldByHome 47999999992 = false ∧ s.mig.state ≠ 2#2 ∧ s.spoiled 47999999992 8 = false ∧ 4 ∈ [16, 8, 4] := by decide +kernel

/-- Spawns: a whole line with room for one more launch, and a full spawn queue. -/
theorem witness_spawn :
    let room : SpawnWindow := ⟨1, List.replicate 255 0, 0⟩
    let full : SpawnWindow := ⟨1, List.replicate 256 0, 0⟩
    let s := served { labOf demoGroup with windows := [room] }
    s.serving = true ∧ s.windows.find? (fun x => x.ctx == BitVec.ofNat 32 1) = some room ∧
    (s.context? (BitVec.ofNat 32 1)).isSome = true ∧ (List.replicate 8 (0 : Word)).length = 8 ∧ room.queue.length < 256 ∧
    256 ≤ full.queue.length := by decide +kernel

/-- Registrations: a queue descriptor in order, one that is not, and a context that is not registered yet. -/
theorem witness_registrations :
    let good := natBytes 8 0x100000 ++ natBytes 8 (12 + 2 ^ 16) ++ natBytes 48 0
    let bad := natBytes 8 0x100000 ++ natBytes 8 (11 + 2 ^ 16) ++ natBytes 48 0
    let s := fun (bs : List Byte) => served { labOf demoGroup with mem := writeBytes demoMem 0x20000 bs }
    (∀ bs ∈ [good, bad], (s bs).mayServe = true ∧ ((s bs).context? 1).isSome = true ∧
      (match (s bs).frontRead 1 0x20000 64 with
        | .ok x => decide (x = bs)
        | .error _ => false) = true) ∧
    wordAt bad 8 8 % 32 < 12 ∧ 12 ≤ wordAt good 8 8 % 32 ∧ wordAt good 8 8 / 2 ^ 5 % 8 = 0 ∧ wordAt good 8 8 / 2 ^ 10 % 64 = 0 ∧
    wordAt good 8 8 / 2 ^ 16 % 2 ^ 16 ≠ 0 ∧ wordAt good 0 8 % 2 ^ 12 = 0 ∧ (s good).context? 2 = none := by decide +kernel

/-- PreemptionRequests: a launch with a save area and one without, and another launch of the same context; one with a group
that waits, alone in its context; another context that waits for a place, with and without a halted group, in a queue of the
same priority and of a higher one. -/
theorem witness_preemption :
    let g := { demoGroup with status := .waiting .barrierBlock }
    let s := lab roomyLaunch demoBlock g
    let other : Launch := { demoLaunch with id := 9, ctx := 2, next := 0, limit := 1, queue := some 5,
                                            header := { demoLaunch.header with part := 0x00FFFFFF } }
    let low := { roomyLaunch with queue := some 6 }
    let twin := { roomyLaunch with id := 8 }
    let t := { s with launches := [low, other], queues := [demoQueue, { demoQueue with id := 6, prio := 1 }] }
    s.launch? roomyLaunch.id = some roomyLaunch ∧ roomyLaunch.saveable ∧ demoLaunch.header.save = 0 ∧
    ({ s with launches := [roomyLaunch, twin] }.launch? 8 = some twin ∧ twin.ctx = roomyLaunch.ctx ∧ twin.saveable) ∧
    roomyLaunch.started = true ∧ roomyLaunch.complete = false ∧
    (∀ m ∈ s.launches, m.ctx = roomyLaunch.ctx → m.id = roomyLaunch.id) ∧ (s.launches.map Launch.id).Nodup ∧
    s.blocks = [{ demoBlock with groups := [g] }] ∧ demoBlock.mode = .normal ∧ demoBlock.region = none ∧
    s.sliceCounts roomyLaunch = false ∧ t.sliceCounts low = true ∧ t.anyHalted low.ctx = false ∧ t.outranked low = true ∧
    (lab roomyLaunch demoBlock { g with halt := some ⟨0, false⟩ }).anyHalted roomyLaunch.ctx = true := by
  unfold Launch.saveable; decide +kernel

/-- ForcedSaves: a group that runs beside one that has ended. -/
theorem witness_forced :
    let l := { roomyLaunch with saving := .requested }
    let b := { demoBlock with groups := [demoGroup, { demoGroup with status := .ended }] }
    let s := { lab l demoBlock demoGroup with blocks := [b] }
    s.launch? l.id = some l ∧ s.blocks = [b] ∧ b.launch = l.id ∧ b.region = none ∧ b.ended = false ∧ b.hard = false ∧
    (∀ g ∈ b.groups, g.started = true ∧ g.halt = none ∧ g.pending = none ∧ (g.status = .running ∨ g.status = .ended)) ∧
    (∃ g ∈ b.groups, g.status = .running) := by decide +kernel

/-- BlockSaves: one group saved whole and one at a PHINT, with the save area in host memory. -/
theorem witness_block_save :
    let l := { roomyLaunch with saving := .requested, header := { roomyLaunch.header with save := 0x140000000, live := 0x30000 } }
    let b := { demoBlock with
      groups := [{ demoGroup with status := .saved none, active := false }, { demoGroup with status := .saved (some 0), active := false }] }
    let s := { lab l demoBlock demoGroup with blocks := [b] }
    let base := (s.releaseAt b.core 5).dropReplicas l.id
    s.launch? l.id = some l ∧ s.block? b.id = some b ∧ b.launch = l.id ∧ s.restful b = true ∧ b.pair = none ∧ l.torn = false ∧
    s.operators.all (fun o => o.blk != b.id) = true ∧ s.savedWith b = [b] ∧ (∀ g ∈ b.groups, g.rlabel = none) ∧
    (∀ g ∈ b.allGroups, g.status = .saved none ∨ g.status = .saved (some 0)) ∧
    (match (base.parkAll l b).scribble b.core l.ctx 40 (l.header.save + 0x400 + BitVec.ofNat 64 (l.savedIndexes.length * saveBytes l.header))
        (saveBytes l.header) with
      | .ok _ => true
      | .error _ => false) = true ∧
    (match base.liveRecord b.core l 0 with
      | .ok _ => true
      | .error _ => false) = true := by decide +kernel

/-- SavedImages: a launch with one saved block, one with none left, and a saved one; and the fields of a header. -/
theorem witness_saved_images :
    let header := { roomyLaunch.header with save := 0x140000000, bytes := List.replicate 768 0 }
    let some' := { roomyLaunch with saving := .requested, savedBlk := [demoBlock], header := header }
    let none' := { roomyLaunch with saving := .requested, header := header }
    let s := fun (l : Launch) => { lab l demoBlock demoGroup with blocks := [{ demoBlock with ended := true }] }
    (∀ l ∈ [some', none'], (s l).launch? l.id = some l ∧ l.torn = false ∧
      (∀ b ∈ (s l).blocks, b.launch = l.id → b.ended = true ∧ b.undrained = false)) ∧
    none'.savedBlk = [] ∧ none'.redo = [] ∧ none'.limit ≤ none'.next ∧ none'.record.maq = false ∧
    header.bytes.length = 768 ∧ 255 < 256 ∧ some'.savedIndexes.length < 2 ^ 32 ∧
    ({ some' with saving := .saved }).saving = .saved := by decide +kernel

/-- SavedImages: the header of a saved launch can be written. -/
theorem witness_saved_header :
    let l := { roomyLaunch with saving := .requested, header := { roomyLaunch.header with save := 0x140000000, bytes := List.replicate 768 0 } }
    (∀ x ∈ [l, { l with savedBlk := [demoBlock] }], (match (lab x demoBlock demoGroup).writeIndexes x 0 x.savedIndexes with
      | .ok s => (match s.writeHeader x 0, s.writeHeader x 1 with
        | .ok _, .ok _ => true
        | _, _ => false)
      | .error _ => false) = true) := by decide +kernel

/-- ContextServices: a registered context and one that is not, with a launch that runs and one that is saved. -/
theorem witness_services :
    let s := fun (l : Launch) => served (lab l demoBlock demoGroup)
    (∀ l ∈ [roomyLaunch, { roomyLaunch with saving := .saved }, { roomyLaunch with ctx := 7 }],
      (s l).mayServe = true ∧ (s l).launch? l.id = some l ∧ (∀ b ∈ (s l).blocks, b.pair = none)) ∧
    ((s roomyLaunch).context? 1).isSome = true ∧ (s roomyLaunch).context? 7 = none := by decide +kernel

/-- Fencing: an idle core, the last one; a fenced one; and one whose request has come to its end. -/
theorem witness_fencing :
    let s := served (labOf demoGroup)
    let fenced := { s with cores := [{ Core.fresh 4095 with fenced := true }] }
    let last := { s with firmware := { s.firmware with fencing := some (4095, []) } }
    4095 < 4096 ∧ s.mayServe = true ∧ (s.core 4095).fenced = false ∧ (∀ b ∈ s.blocks, b.core = 4095 → b.ended = true) ∧
    fenced.mayServe = true ∧ (fenced.core 4095).fenced = true ∧ last.firmware.fencing = some (4095, []) ∧ last.serving = true ∧
    (∀ b ∈ last.blocks, b.core = 4095 → b.ended = true) ∧ (last.core 4095).ops = [] ∧ (last.core 4095).queue = [] ∧
    last.firmware.sparesUsed (dieOf 4095) < 16 := by decide +kernel

/-- Retirement: a request, one whose frames have been asked for, the last port. -/
theorem witness_retirement :
    let s := served State.reset
    s.mayServe = true ∧ { s with firmware := { s.firmware with retiring := some [0] } }.serving = true ∧ 15 < 16 ∧
    backed 65535 = true ∧ 65535 / 2 ^ 16 ∈ [0] ∧ 65536 / 2 ^ 16 ∉ [0] := by decide +kernel

/-- DomainCopies: a copy of the longest length for a far device and a near one; a read and a failed write that end; an RDMA
access. -/
theorem witness_domain_copies :
    let s := served (labOf demoGroup)
    let q : CopyRequest := ⟨1, 0x3FFFFFFF, 512, 0, 1, true, 0x200000⟩
    let f := { s.fabric with bank0 := { s.fabric.bank0 with table := [(512, 0x100000001)] } }
    let t := { s with fabric := f, firmware := { s.firmware with copies := [⟨3, q⟩] } }
    s.mayServe = true ∧ (s.context? q.ctx).isSome = true ∧ q.rdev.toNat / 512 ≠ s.fabric.devid.toNat / 512 ∧
    (511#13).toNat / 512 = s.fabric.devid.toNat / 512 ∧ 2 ^ 32 ≤ 2 ^ 32 ∧ 2 ^ 32 < 2 ^ 32 + 1 ∧
    t.firmware.copies.find? (fun x => x.id == 3) = some ⟨3, q⟩ ∧ t.fabric.selects q.rdev = true ∧ s.fabric.selects q.rdev = false ∧
    (∀ k ∈ [Access.load, .store], (match t.localPlace q.ctx k q.lva with
      | .ok pa => decide (pa = 0x3FFFFFFF)
      | .error _ => false) = true) ∧
    t.spoiled 0x3FFFFFFF 1 = false ∧ t.copies = [] ∧ t.journals = [] ∧
    (let w : CopyRequest := { q with dir := false }
     let u := { t with firmware := { t.firmware with copies := [⟨3, w⟩] } }
     u.firmware.copies.find? (fun x => x.id == 3) = some ⟨3, w⟩ ∧ w.dir = false ∧
       (match u.takeAt w.ctx w.lva w.len with
         | .ok bs => decide (bs.length = w.len)
         | .error _ => false) = true) ∧
    (match t.frontStore q.ctx q.done 0x28 with
      | .ok _ => true
      | .error _ => false) = true := by decide +kernel

/-- Journals: a journal without and with a replay whose next entry is a store of one byte. -/
theorem witness_journals :
    let e : JournalEntry := ⟨1, 1, 0, [0x1000, BitVec.ofNat 64 (63 * 256 + 7)]⟩
    let j : Journal := ⟨1, 4, [e], 2, false, none, 0x400000, 1⟩
    let k : Journal := { j with replay := some [e] }
    let lost : Journal := { k with lost := true }
    let s := served { labOf demoGroup with journals := [j], windows := [⟨1, [], 0⟩], launches := [{ demoLaunch with complete := true }] }
    s.journals.find? (fun x => x.ctx == j.ctx) = some j ∧ j.replay = none ∧ s.serving = true ∧
    (s.windows.find? (fun w => w.ctx == j.ctx)).isSome = true ∧ (∃ l ∈ s.launches, l.ctx = j.ctx ∧ l.complete = true ∧ l.replay = false) ∧
    k.replay = some (e :: []) ∧ lost.replay = some (e :: []) ∧ lost.lost = true ∧ e.kind = 1 ∧ k.lost = false ∧ (0x1000 : Word).toNat < 2 ^ 63 ∧
    e.value = 0x1000 :: [(63, (7 : Byte))].map (fun x => BitVec.ofNat 64 (x.1 * 256 + x.2.toNat)) ∧ s.mig.state ≠ 2#2 := by
  decide +kernel

/-- A device whose fabric knows device 1, on plane 0 through port 0, with key 5. -/
def labFabric : State :=
  let s := served (labOf demoGroup)
  { s with fabric := { s.fabric with bank0 := { table := [(1, 0x100050001)], ports := [(0, 0x10)] }, live := 1 } }

/-- The first packet of stream 1 from device 1, with its key. -/
def demoPacket : Packet :=
  { blankPacket with op := 0x01, src := 1, stream := 1, seq := 1, pkey := 5, pa := 0x3FFFFFC0, bytes := [(63, 7)] }

/-- Requests: a load and a store that come in turn, with an accepted key and a wrong one, once more, and a reply in the
cache; and a store that comes again after its stream has passed it. -/
theorem witness_requests :
    (∀ p ∈ [demoPacket, { demoPacket with op := 0x02 }, { demoPacket with op := 0x02, retx := true }, { demoPacket with pkey := 6 }],
      Next labFabric p ∧ labFabric.packetHeld p = false ∧ labFabric.cached p = none ∧
      (∀ e ∈ p.bytes, labFabric.frameFail (labFabric.route (p.pa.toNat + e.1)) = none ∧
        labFabric.spoiled (p.pa.toNat + e.1) 1 = false) ∧ (p.bytes.map Prod.fst).Nodup) ∧
    labFabric.fabric.admits demoPacket = true ∧ labFabric.fabric.admits { demoPacket with pkey := 6 } = false ∧
    labFabric.mig.state ≠ 2#2 ∧ labFabric.away = none ∧ labFabric.copies = [] ∧ labFabric.fabric.reaches 1 = true ∧
    (let a : Away := ⟨0x3FFF0000, 65536, 1, 0x10000, true⟩
     a.covers demoPacket.pa.toNat = true ∧ peerWindow demoPacket.pa.toNat = false ∧
       { labFabric with away := some a }.packetHeld demoPacket = false) ∧
    (let r := { blankPacket with op := 0x82, dst := 1, stream := 1, seq := 1 }
     { labFabric with fabric := { labFabric.fabric with replies := [r] } }.cached { demoPacket with retx := true } = some r ∧
       r.op ≠ 0x84#8) ∧
    (let p := { demoPacket with op := 0x02, retx := true }
     let t := { labFabric with fabric := { labFabric.fabric with expected := [(1, 1, 2)] } }
     let e := (t.fabric.expects p).toNat
     t.serving = true ∧ p ∉ t.fabric.waiting ∧ p.dst = t.fabric.devid ∧ wellSent p = true ∧ p.fwd = none ∧ p.stream ≠ 0 ∧
       t.fabric.admits p = true ∧ 0 < p.seq.toNat ∧ p.seq.toNat < e ∧ e ≤ p.seq.toNat + 2 ^ 22 ∧ t.cached p = none ∧
       (let r := { blankPacket with op := 0x84, dst := 1, stream := 1, seq := 1 }
        { t with fabric := { t.fabric with replies := [r] } }.cached p = some r)) := by
  unfold Next; decide +kernel

/-- PacketOrder: a packet for another device, one with a reserved bit, one that comes before its predecessor, the
furthest one ahead, and a forwarded load. -/
theorem witness_packet_order :
    let late := { demoPacket with seq := 2 }
    let far := { demoPacket with seq := BitVec.ofNat 24 (1 + 2 ^ 22) }
    labFabric.serving = true ∧ demoPacket ∉ labFabric.fabric.waiting ∧ ({ demoPacket with dst := 1 }).dst ≠ labFabric.fabric.devid ∧
    ({ demoPacket with reservedOk := false }).reservedOk = false ∧ demoPacket.dst = labFabric.fabric.devid ∧
    (∀ p ∈ [late, far], p.fwd = none ∧ p.stream ≠ 0 ∧ p.seq ≠ 0 ∧ labFabric.fabric.expects p ≠ 0 ∧
      (labFabric.fabric.expects p).toNat < p.seq.toNat ∧ p.seq.toNat ≤ (labFabric.fabric.expects p).toNat + 2 ^ 22 ∧
      (∀ q ∈ labFabric.fabric.early, ¬(q.src = p.src ∧ q.dst = p.dst ∧ q.stream = p.stream ∧ q.seq = p.seq))) ∧
    (let led := { far with fwd := some 2 }
     led.fwd.isSome = true ∧ led.op = 0x01#8 ∧ led.reservedOk = true ∧ labFabric.packetHeld led = false ∧
       labFabric.mig.queue = [] ∧ labFabric.away = none ∧ labFabric.copies = [] ∧ ∀ x ∈ led.bytes,
         labFabric.frameFail (labFabric.route (led.pa.toNat + x.1)) = none ∧
         labFabric.spoiled (led.pa.toNat + x.1) 1 = false) := by decide +kernel

/-- RemoteAtomics: a 64-bit compare-and-swap at the end of a line, and the last part of a unit of several packets. -/
theorem witness_remote_atomics :
    let p := { demoPacket with op := 0x03, aop := 15, bytes := [], entries := [(95, 56, 1, 2)] }
    let q := { p with npart := 15, part := 15 }
    (∀ x ∈ [p, q], Next labFabric x ∧ labFabric.fabric.admits x = true ∧ x.retx = false ∧ labFabric.packetHeld x = false ∧
      peerWindow x.pa.toNat = false) ∧ labFabric.fabric.parts = [] ∧ labFabric.mig.state ≠ 2#2 ∧ labFabric.away = none ∧
    labFabric.copies = [] ∧
    p.npart = 0 ∧ p.part = 0 ∧ p.aop.toNat ∈ [1, 11, 14, 15] ∧
    (∀ j, j < 8 → labFabric.frameFail (p.pa.toNat + 56 + j) = none ∧ labFabric.spoiled (p.pa.toNat + 56 + j) 1 = false) ∧
    q.npart ≠ 0 ∧ q.part.toNat ≤ q.npart.toNat := by
  unfold Next; decide +kernel

/-- RemoteOperatorStores: a store where no window is, and one of the last element byte of a slot, refused and accepted. -/
theorem witness_remote_stores :
    let p := { demoPacket with op := 0x04, pa := 0xF00040000000, bytes := [(0, 1)] }
    let o := { demoOp with desc := { demoOp.desc with racc := true } }
    let t := { labFabric with cores := [{ Core.fresh 0 with ops := [o] }], launches := [roomyLaunch] }
    let q : SlotRequest := { handle := 7, slot := 0, bytes := [(0, 1)], tag := 0, remote := true, key := 0, ctx := o.ctx + 1, isGroup := decide ((0 : BitVec 32).toNat % 4 < 2) }
    Next labFabric p ∧ Next t p ∧ labFabric.fabric.admits p = true ∧ p.retx = false ∧ p.bytes ≠ [] ∧
    (∃ e ∈ p.bytes, labFabric.remoteWindow (p.pa.toNat + e.1) = none) ∧
    (∀ e ∈ p.bytes, t.remoteWindow (p.pa.toNat + e.1) = some (true, o, 0, 0)) ∧
    (match t.storeRequest q with
      | .ok _ => true
      | .error _ => false) = true ∧
    (match { t with cores := [{ Core.fresh 0 with ops := [{ o with slots := [{ Slot.empty with state := .queued }] }] }] }.storeRequest q with
      | .ok _ => false
      | .error _ => true) = true := by
  unfold Next; decide +kernel

/-- Replies, ManagementPackets, Retransmissions: a request that awaits its reply, one that nothing awaits, one that has been
sent as often as it may, and one that was told to come again. -/
theorem witness_replies_received :
    let r : Outstanding := ⟨4, { blankPacket with op := 0x01, dst := 1, stream := 1, seq := 1 }, 0, false, true, none, 1, 0⟩
    let at' := fun (x : Outstanding) => { labFabric with fabric := { labFabric.fabric with requests := [x] } }
    let p := { blankPacket with op := 0x81, src := 1, stream := 1, seq := 1, pkey := 5 }
    (at' r).serving = true ∧ p.dst = (at' r).fabric.devid ∧ p.reservedOk = true ∧ (at' r).fabric.admits p = true ∧
    (at' r).fabric.asked p = some r ∧ (at' r).fabric.asked { p with seq := 2 } = none ∧
    (at' r).fabric.admits { p with pkey := 6 } = false ∧
    (∀ x ∈ [r, { r with attempts := 6 }, { r with attempts := 7 }, { r with retrying := true }],
      (at' x).outstanding? x.id = some x ∧ x.sent = true ∧ x.reply = none) ∧
    ({ r with attempts := 6 }).attempts < 7 ∧ 7 ≤ ({ r with attempts := 7 }).attempts ∧
    { p with op := 0xC1 } ∉ labFabric.fabric.invals ∧ labFabric.copies = [] ∧ labFabric.fabric.requests = [] ∧ labFabric.away = none ∧
    ({ p with op := 0xC1, retx := true }).retx = true ∧ labFabric.cached { p with op := 0xC1, retx := true } = none ∧
    (let c := { blankPacket with op := 0xC2, dst := 1, stream := 1, seq := 1 }
     { labFabric with fabric := { labFabric.fabric with replies := [c] } }.cached { p with op := 0xC1, retx := true } = some c) ∧
    (∀ x ∈ labFabric.blocks, ∀ g ∈ x.allGroups, g.pending = none ∧ g.status ≠ .waiting .replies) ∧
    p.retx = false ∧ labFabric.queueRecord demoRecord = none ∧
    (let queue : ContextInfo := ⟨1, 0x10000000, 0, 0x100000, 0x200000, 0x200008, 1, true, 0, 0⟩
     ({ labFabric with contexts := [queue] }.queueRecord demoRecord).isSome = true) ∧
    ({ p with bytes := packetBytes 0 (natBytes 8 0 ++ natBytes 8 (2 ^ 32)) }).bytes =
      packetBytes 0 (natBytes 8 (0 : Word).toNat ++ natBytes 8 (0x100000000 : Word).toNat) ∧
    demoRecord.kind < 16 ∧ demoRecord.gid < 32 ∧ demoRecord.block < 2 ^ 64 := by decide +kernel

/-- Links, BankSwaps: the last port, in and out of service, with a notice due; a bank whose two ports share a plane, and one
whose ports do not. -/
theorem witness_links :
    let f := State.reset.fabric
    let port := fun (b : Bank) (p : Nat) => readCell b.ports p
    let good : Bank := ⟨[], [(0, 0x10), (15, 0x11)]⟩
    let bad : Bank := ⟨[], [(0, 0x10), (15, 0x10)]⟩
    15 < 16 ∧ 3 < 4 ∧ f.up.getLsbD 15 = true ∧ ({ f with up := 0x7FFF }).up.getLsbD 15 = false ∧
    15 ∈ ({ f with due := [15] }).due ∧ f.grace = false ∧
    (let p := { blankPacket with op := 0x01, dst := 1 }
     let off := { labFabric.fabric with off := [(0, 0)], blocked := [p] }
     off.stops p = true ∧ { off with off := [] }.stops p = false ∧ off.reaches p.dst = true ∧ p ∈ off.blocked) ∧
    ((port bad 0).getLsbD 4 = true ∧ (port bad 15).getLsbD 4 = true ∧ (port bad 0).extractLsb' 0 4 = (port bad 15).extractLsb' 0 4) ∧
    (∀ p, p < 16 → ∀ q, q < 16 → p < q → ¬((port good p).getLsbD 4 = true ∧ (port good q).getLsbD 4 = true ∧
      (port good p).extractLsb' 0 4 = (port good q).extractLsb' 0 4)) := by decide +kernel

/-- Migrations: a copy of a frame of this device, with and without a byte that cannot be corrected, and a load that waits.
-/
theorem witness_migrations :
    let s := { labFabric with mig := ⟨0, 0, 1, 0x10000, 0, 0x20000, 0x10000, []⟩ }
    s.mig.state = 1#2 ∧ s.mig.queue = [] ∧ s.mig.sdev = s.fabric.devid ∧ s.away = none ∧ s.copies = [] ∧ s.fabric.parts = [] ∧
    (∀ a ∈ s.bad, a < s.mig.src ∨ s.mig.src + s.mig.size ≤ a) ∧
    (∃ a ∈ { s with bad := [0x1FFFF] }.bad, s.mig.src ≤ a ∧ a < s.mig.src + s.mig.size) ∧
    demoPacket.op = 0x01#8 ∧
    (∀ e ∈ demoPacket.bytes, s.frameFail (demoPacket.pa.toNat + e.1) = none ∧ s.spoiled (demoPacket.pa.toNat + e.1) 1 = false) := by
  decide +kernel

/-- The checkpoint of the demo group: one byte of its scratchpad. -/
def demoCheck : Checkpoint := ⟨0, demoGroup, BitVec.allOnes 128, BitVec.allOnes 64, 0xFF, 0xF, [], [], [(0, 1)], [(0, 5)], 0, [], 0⟩

/-- The two blocks of a pair, with the groups and the leading block's mismatch count. -/
def pairOf (g h : Group) (n : Nat) : State × Block × Block × Pair :=
  let p : Pair := ⟨3, true, [n], [], [demoCheck]⟩
  let lead := { demoBlock with pair := some p, groups := [g] }
  let trail := { demoBlock with id := 3, core := 1, pair := some ⟨2, false, [n], [], []⟩, groups := [h] }
  let l := { roomyLaunch with header := { roomyLaunch.header with ckpta := 0x140000000 } }
  ({ labOf demoGroup with blocks := [lead, trail], launches := [l] }, lead, trail, p)

/-- Signatures: equal ones, and unequal ones for the first and for the second time. -/
theorem witness_signatures :
    (∀ e ∈ [((1 : BitVec 32), 0), (2, 0), (2, 1)],
      let g := { demoGroup with sigs := [⟨0, 1⟩] }
      let h := { demoGroup with sigs := [⟨0, e.1⟩] }
      let x := pairOf g h e.2
      Paired x.1 x.2.1 x.2.2.1 x.2.2.2 0 g h ∧ x.2.1.region = none ∧ x.2.2.1.region = none ∧ x.2.2.2.mismatch[0]? = some e.2 ∧
      g.status ≠ .stopped ∧
      x.2.2.2.checks.find? (fun c => decide (c.gid = g.gid)) = some demoCheck ∧ (x.1.launch? x.2.1.launch).isSome = true) ∧
    (∀ e ∈ demoCheck.scr, demoCheck.scrIn.any (fun r => decide (r.1 ≤ e.1) && decide (e.1 < r.1 + r.2)) = true) ∧
    (demoCheck.scr.map Prod.fst).Nodup := by
  refine ⟨?_, by decide +kernel, by decide +kernel⟩
  intro e he
  fin_cases he <;> exact ⟨⟨by decide +kernel, by decide +kernel, by decide +kernel, by decide +kernel, rfl, rfl,
    ⟨_, rfl, rfl, rfl⟩, rfl, rfl⟩, rfl, rfl, rfl, by decide, by decide +kernel, by decide +kernel⟩

/-- MeetingPoints: a store unit, an EXIT and a CKPT at which both groups of a pair wait; an injection into s60 that is
armed. -/
theorem witness_meetings :
    (∀ k ∈ [0, 2, 3],
      let g := { demoGroup with status := .waiting (.partner ⟨k, 1⟩) }
      let x := pairOf g g 0
      Paired x.1 x.2.1 x.2.2.1 x.2.2.2 0 g g ∧ g.status = .waiting (.partner ⟨k, 1⟩) ∧ g.sigs = [] ∧ g.holds = [] ∧
      x.2.1.mode ≠ .tentative ∧ g.cklive = 0xFFF#12 ∧ g.stop = none ∧ 0 < x.2.2.2.mismatch.length ∧ g.carrier = []) ∧
    0 < 60 ∧ 60 < 61 ∧ (60 + 2 ^ 8 * 2 + 2 ^ 10 * 1 + 2 ^ 32 * 1 : Word).toNat / 2 ^ 8 % 4 ≠ 0 := by
  refine ⟨?_, by decide +kernel⟩
  intro e he
  fin_cases he <;> exact ⟨⟨by decide +kernel, by decide +kernel, by decide +kernel, by decide +kernel, rfl, rfl,
    ⟨_, rfl, rfl, rfl⟩, rfl, rfl⟩, rfl, rfl, rfl, by decide +kernel, rfl, rfl, by decide +kernel, rfl⟩

/-- MeetingPoints: the checkpoint's place in memory can be written. -/
theorem witness_checkpoint_place :
    let x := pairOf demoGroup demoGroup 0
    let past := fun (g : Group) => { (g.advance 2).age [] with status := .running, active := false }
    (match ((x.1.changeAt ⟨2, 0, false⟩ past).changeAt ⟨3, 0, false⟩ past).scribble 0 1 40 (0x140000000 + BitVec.ofNat 64 (0 * saveBytes roomyLaunch.header)) (saveBytes roomyLaunch.header) with
      | .ok _ => true
      | .error _ => false) = true := by decide +kernel

/-- Fetches, Steps: a group that may issue, one that may not; an instruction, parcels that are none, and a PC that no page
maps. -/
theorem witness_steps :
    let at' := fun (g : Group) (bs : List Byte) =>
      { labOf g with agenda := [.issue ⟨2, 0, false⟩], mem := writeBytes demoMem 0x10000 bs }
    let lost := { demoGroup with pc := 0x200000000 }
    let done := { demoGroup with status := .ended }
    (∀ g ∈ [demoGroup, lost, done], (at' g []).agenda = .issue ⟨2, 0, false⟩ :: [] ∧
      ({ at' g [] with tick := 1, agenda := [], cur := ⟨2, 0, false⟩ }).current = some (blockOf g, g)) ∧
    demoGroup.ready = true ∧ lost.ready = true ∧ done.ready = false ∧ (blockOf demoGroup).ended = false ∧
    (match (at' demoGroup [0xA0, 0x18]).fetchUnit (blockOf demoGroup) demoGroup.pc,
        (at' demoGroup []).fetchUnit (blockOf demoGroup) demoGroup.pc, (at' lost []).fetchUnit (blockOf lost) lost.pc with
      | .ok ps, .ok qs, .error _ => decide (decode ps = .instr (.vaddI32Compact 3 5) 0 (ps.drop 1) ∧ decode qs = .illegal 0x03)
      | _, _, _ => false) = true ∧
    (at' demoGroup []).spoiled 0x10000 2 = false ∧ 0x10000 % 2 = 0 ∧ demoLaunch.code = [] ∧
    (at' demoGroup []).mayLoad 0 ⟨2, 0, false⟩ = true ∧
    (let busy := [{ Core.fresh 0 with throttle := 2 }]
     let others := List.replicate 8 demoGroup
     let s := { at' demoGroup [] with cores := busy, blocks := [{ demoBlock with groups := others }] }
     s.mayLoad 0 ⟨2, 7, false⟩ = false ∧ genericLoad (.ld32 0 1 1 127) [] = true) := by decide +kernel

/-- UnitChecks: a privileged instruction in a user block, one that a region forbids inside it, a register at the budget, a
read that comes too early under CHK, and lane 96. -/
theorem witness_unit_checks :
    let g := { demoGroup with budget := 127, chk := true, hazards := [⟨.vector 1, 2, 0, [], []⟩], scalars := [(1, 96)] }
    let s := labOf g
    s.current = some (blockOf g, g) ∧ s.launch? (blockOf g).launch = some demoLaunch ∧ (blockOf g).mode ≠ .tentative ∧
    (blockOf g).pair = none ∧ s.superOf (blockOf g) = false ∧ 0x800 ≤ (0x800#12).toNat ∧
    (labCmp cmpGroup).current = some (cmpBlock cmpGroup, cmpView) ∧ cmpView.compacted = true ∧
    (∃ r ∈ (vectorNeed 0 2 127 3 false).regs, g.budget ≤ r) ∧ (∀ r ∈ (vectorNeed 0 2 1 126 false).regs, r < g.budget) ∧
    g.undersized (vectorNeed 0 2 1 126 false).reads false = true ∧ 96 ≤ (g.scalar ((1#7).toNat % 64)).toNat ∧ 96 ≤ (96#7).toNat ∧
    Issues s (blockOf g) g { region := none, regs := [2], reads := [2] } ∧ (126#7).toNat < g.budget := by
  unfold Issues; decide +kernel

/-- Distances, Frames: a group without a late result. -/
theorem witness_distances :
    (labOf demoGroup).current = some (blockOf demoGroup, demoGroup) ∧ (labOf demoGroup).cur.cmp = false ∧ demoGroup.hazards = [] ∧
    Issues (labOf demoGroup) (blockOf demoGroup) demoGroup (vectorNeed 1 0 127 126 false) ∧
    Issues (labOf demoGroup) (blockOf demoGroup) demoGroup (unaryNeed 127 126) := by
  unfold Issues; decide +kernel

/-- DecodeEncode: an instruction with every operand at its highest value, of one parcel and of two. -/
theorem witness_decode :
    WellFormed (.vaddI32Compact 31 63) = true ∧ (Instr.vaddI32Compact 31 63).parcels = 1 ∧
    WellFormed (.vaddI32 0 127 127 127) = true ∧ (Instr.vaddI32 0 127 127 127).parcels = 2 := by decide +kernel

/-- MemoryForm, LegalRegisters: the device with tables in its memory, which goes on. -/
theorem witness_invariants :
    Memory.wf (labOf demoGroup).mem = true ∧ Legal (labOf demoGroup) ∧
    (match step { labOf demoGroup with agenda := [.event .caperrClear] } with
      | .next _ => true
      | _ => false) = true := by
  unfold Legal; decide +kernel

/-- Progress: an event of the agenda, and an encoded instruction in a device that runs a group. -/
theorem witness_progress : Instr.caperrClear.parcels = 0 ∧ (labOf demoGroup).current ≠ none := by decide +kernel

end Sys2Proof.Tests
end

section
/-! SUPPORT. The registers of a group as functions (`Regs`): one rule for each operation that writes them. -/

namespace Sys2Proof.Machine

/-! ## Numbers spliced from bits -/

/-- A number whose bits from `p` to `p + w` come from `y`, the ones below from `z` and the ones above from `x`. -/
theorem testBit_splice (x y z p w i : Nat) :
    (x / 2 ^ (p + w) * 2 ^ (p + w) + y % 2 ^ w * 2 ^ p + z % 2 ^ p).testBit i =
      if i < p then z.testBit i else if i < p + w then y.testBit (i - p) else x.testBit i := by
  have hlow : z % 2 ^ p < 2 ^ p := Nat.mod_lt _ (by positivity)
  have hmid : 2 ^ p * (y % 2 ^ w) + z % 2 ^ p < 2 ^ (p + w) := by
    have hy : y % 2 ^ w < 2 ^ w := Nat.mod_lt _ (by positivity)
    calc 2 ^ p * (y % 2 ^ w) + z % 2 ^ p < 2 ^ p * (y % 2 ^ w + 1) := by rw [Nat.mul_add, Nat.mul_one]; omega
      _ ≤ 2 ^ p * 2 ^ w := Nat.mul_le_mul_left _ hy
      _ = 2 ^ (p + w) := (Nat.pow_add 2 p w).symm
  rw [Nat.add_assoc, Nat.mul_comm _ (2 ^ p), Nat.mul_comm _ (2 ^ (p + w)), Nat.testBit_two_pow_mul_add _ hmid,
    Nat.testBit_two_pow_mul_add _ hlow, Nat.testBit_mod_two_pow, Nat.testBit_mod_two_pow, Nat.testBit_div_two_pow]
  by_cases hp : i < p
  · rw [if_pos (by omega), if_pos hp, if_pos hp, decide_eq_true hp, Bool.true_and]
  · rw [if_neg hp, if_neg hp]
    split
    · rw [decide_eq_true (by omega), Bool.true_and]
    · rw [Nat.sub_add_cancel (by omega)]

/-! ## Registers that agree -/

@[simp] theorem Regs.Agree.refl (x : Regs) : x.Agree x :=
  ⟨fun _ _ => rfl, fun _ _ => rfl, fun _ _ _ => rfl, fun _ _ _ _ => rfl, fun _ _ => rfl, fun _ _ _ _ _ _ => rfl,
    fun _ _ => rfl⟩

theorem Regs.Agree.trans {x y z : Regs} (h : x.Agree y) (k : y.Agree z) : x.Agree z := by
  obtain ⟨hs, he, hv, hp, hf, hb, hr⟩ := h
  obtain ⟨ks, ke, kv, kp, kf, kb, kr⟩ := k
  exact ⟨fun n hn => (hs n hn).trans (ks n hn), fun l hl => (he l hl).trans (ke l hl),
    fun r l hl => (hv r l hl).trans (kv r l hl), fun p l h8 hl => (hp p l h8 hl).trans (kp p l h8 hl),
    fun l hl => (hf l hl).trans (kf l hl), fun i j l hi hj hl => (hb i j l hi hj hl).trans (kb i j l hi hj hl),
    fun l hl => (hr l hl).trans (kr l hl)⟩

/-- Flags raised in no lane. -/
theorem Regs.raise_none (x : Regs) (m : Nat → Bool) (f : Nat → LaneFlags)
    (h : ∀ l, l < 96 → m l = true → f l = 0) : (x.raise m f).Agree x := by
  obtain ⟨hs, he, hv, hp, -, hb, hr⟩ := Regs.Agree.refl x
  refine ⟨hs, he, hv, hp, fun l hl => ?_, hb, hr⟩
  by_cases hm : m l = true
  · simp [Regs.raise, hm, h l hl hm]
  · simp [Regs.raise, hm]

/-! ## The flags of a lane as bits -/

/-- R168: bit `k` of the six flags of a lane. -/
theorem laneFlags_getLsbD (g : Group) (l k : Nat) (hk : k < 6) :
    (g.laneFlags l).getLsbD k = hasLane (readCell g.flags (8 + k)) l := by
  unfold Group.laneFlags
  rw [BitVec.getLsbD_ofNat, (mask_bits (fun k => hasLane (readCell g.flags (8 + k)) l) 6).2]
  simp [hk]

/-- R168: a flag after a clear. -/
theorem flag_clearFlags (g : Group) (m : Mask) (f : Nat → LaneFlags) (k l : Nat) (hk : k < 6) (hl : l < 96) :
    hasLane (readCell (g.clearFlags m f).flags (8 + k)) l =
      (hasLane (readCell g.flags (8 + k)) l && !(hasLane m l && (f l).getLsbD k)) := by
  have hc : (g.clearFlags m f).flags = writeRun g.flags 8 6 (fun n =>
      readCell g.flags n &&& ~~~(maskOf (fun l => hasLane m l && (f l).getLsbD (n - 8)))) := rfl
  rw [hc, readCell_writeRun, if_pos (by omega)]
  simp [hl, hasLane_not]

theorem laneFlags_raise (g : Group) (m : Mask) (f : Nat → LaneFlags) (late : Bool) (l : Nat) (hl : l < 96) :
    (g.raise m f late).laneFlags l =
      if (hasLane m l && !hasLane g.helper l) = true then g.laneFlags l ||| f l else g.laneFlags l := by
  refine BitVec.eq_of_getLsbD_eq fun k hk => ?_
  have hg := laneFlags_getLsbD g l k hk
  rw [laneFlags_getLsbD _ _ _ hk, flag_raise g m f late k l hk hl, ← hg]
  split
  · next h => rw [h, Bool.true_and, BitVec.getLsbD_or]
  · next h => rw [Bool.eq_false_of_not_eq_true h, Bool.false_and, Bool.or_false]

theorem laneFlags_clearFlags (g : Group) (m : Mask) (f : Nat → LaneFlags) (l : Nat) (hl : l < 96) :
    (g.clearFlags m f).laneFlags l = if hasLane m l = true then g.laneFlags l &&& ~~~f l else g.laneFlags l := by
  refine BitVec.eq_of_getLsbD_eq fun k hk => ?_
  have hg := laneFlags_getLsbD g l k hk
  rw [laneFlags_getLsbD _ _ _ hk, flag_clearFlags g m f k l hk hl, ← hg]
  split
  · next h => rw [h, Bool.true_and, BitVec.getLsbD_and, BitVec.getLsbD_not, decide_eq_true hk, Bool.true_and]
  · next h => rw [Bool.eq_false_of_not_eq_true h, Bool.false_and, Bool.not_false, Bool.and_true]

/-! ## The beats of the activity mask (R13) -/

/-- R13, R95: a lane of the activity mask after one beat of it has been replaced. -/
theorem hasLane_withBeat (m : Mask) (b l : Nat) (v : Word) (hl : l < 96) :
    hasLane (withBeat m b v) l = if l / 32 = b then v.getLsbD (l % 32) else hasLane m l := by
  have hsum : withBeat m b v = BitVec.ofNat 96 (m.toNat / 2 ^ (32 * b + 32) * 2 ^ (32 * b + 32) +
      v.toNat % 2 ^ 32 * 2 ^ (32 * b) + m.toNat % 2 ^ (32 * b)) := rfl
  rw [hasLane, hsum, BitVec.getLsbD_ofNat, decide_eq_true hl, Bool.true_and, testBit_splice]
  by_cases hin : l / 32 = b
  · rw [if_neg (by omega), if_pos (by omega), if_pos hin, show l - 32 * b = l % 32 by omega]
    rfl
  · rw [if_neg hin]
    split
    · rfl
    · rw [if_neg (by omega)]
      rfl

/-! ## One rule per operation on the registers -/

section Rules

variable {g : Group} {x : Regs} (hx : g.regs.Agree x)
include hx

theorem agree_setVec (d : Nat) (m : Mask) (f v : Nat → LaneWord) (late : Bool)
    (hv : ∀ l, l < 96 → hasLane m l = true → f l = v l) :
    (g.setVec d m f late).regs.Agree (x.setLanes d (hasLane m) v) := by
  obtain ⟨hs, he, hvec, hp, hf, hb, hr⟩ := hx
  refine ⟨hs, he, fun r l hl => ?_, hp, hf, hb, hr⟩
  have := vec_setVec g d r l m f late hl
  simp only [Group.regs, Regs.setLanes, this]
  split
  · next h => exact hv l hl h.2
  · exact hvec r l hl

theorem agree_setPred (d : Nat) (m : Mask) (f v : Nat → Bool) (hd : d < 8)
    (hv : ∀ l, l < 96 → hasLane m l = true → f l = v l) :
    (g.setPred d m f).regs.Agree (x.setPred d (hasLane m) v) := by
  obtain ⟨hs, he, hvec, hp, hf, hb, hr⟩ := hx
  by_cases h0 : d = 0
  · subst h0
    exact ⟨hs, he, hvec, fun p l h8 hl => by simpa [Regs.setPred] using hp p l h8 hl, hf, hb, hr⟩
  · have hset : g.setPred d m f =
        { g with preds := writeCell g.preds d ((readCell g.preds d &&& ~~~m) ||| (m &&& maskOf f)) } := if_neg h0
    have hpred : ∀ p l, p < 8 → l < 96 →
        (g.setPred d m f).pnum p l = if p = d ∧ d ≠ 0 ∧ hasLane m l = true then v l else x.pred p l := by
      intro p l h8 hl
      rw [pnum_setPred g d p l m f h0 hl]
      by_cases h : p = d ∧ hasLane m l = true
      · obtain ⟨rfl, hm⟩ := h
        simp [hm, h0, show p ≤ 7 by omega, hv l hl hm]
      · rw [if_neg (fun c => h ⟨c.1, c.2.2⟩), if_neg (fun c => h ⟨c.1, c.2.2⟩)]
        exact hp p l h8 hl
    rw [hset] at hpred ⊢
    exact ⟨hs, he, hvec, hpred, hf, hb, hr⟩

theorem agree_raise (m : Mask) (f v : Nat → LaneFlags) (late : Bool)
    (hv : ∀ l, l < 96 → (hasLane m l && !hasLane g.helper l) = true → f l = v l) :
    (g.raise m f late).regs.Agree (x.raise (fun l => hasLane m l && !hasLane g.helper l) v) := by
  obtain ⟨hs, he, hvec, hp, hf, hb, hr⟩ := hx
  refine ⟨hs, he, hvec, fun p l h8 hl => ?_, fun l hl => ?_, hb, hr⟩
  · rw [Regs.raise, ← hp p l h8 hl]
    simp [Group.regs, Group.pnum, show p ≤ 7 by omega]
  · have := laneFlags_raise g m f late l hl
    simp only [Group.regs, Regs.raise, this]
    have hg : g.laneFlags l = x.flag l := hf l hl
    split
    · next h => rw [hg, hv l hl h]
    · exact hg

theorem agree_clearFlags (m : Mask) (f : LaneFlags) :
    (g.clearFlags m (fun _ => f)).regs.Agree (x.clear (hasLane m) f) := by
  obtain ⟨hs, he, hvec, hp, hf, hb, hr⟩ := hx
  refine ⟨hs, he, hvec, fun p l h8 hl => ?_, fun l hl => ?_, hb, hr⟩
  · rw [Regs.clear, ← hp p l h8 hl]
    simp [Group.regs, Group.pnum, show p ≤ 7 by omega]
  · have := laneFlags_clearFlags g m (fun _ => f) l hl
    have hg : g.laneFlags l = x.flag l := hf l hl
    simp only [Group.regs, Regs.clear, this, hg]

theorem agree_setBracket (k w : Nat) (m : Mask) (f : Nat → LaneWord) (hw : w < 4) :
    (g.setBracket k w m f).regs.Agree (x.setBracket k w (hasLane m) f) := by
  obtain ⟨hs, he, hvec, hp, hf, hb, hr⟩ := hx
  refine ⟨hs, he, hvec, hp, hf, fun i j l hi hj hl => ?_, hr⟩
  have hg : readCell g.brackets ((i * 4 + j) * 96 + l) = x.bracket i j l := hb i j l hi hj hl
  simp only [Group.regs, Group.bracket, Group.setBracket, Regs.setBracket, readCell_writeRun]
  by_cases h : i = k ∧ j = w
  · obtain ⟨rfl, rfl⟩ := h
    rw [if_pos (by omega), Nat.add_sub_cancel_left, hg]
    simp
  · rw [if_neg (by omega), if_neg (fun c => h ⟨c.1, c.2.1⟩), hg]

theorem agree_setScalar (d : Nat) (v : Word) (hd : d < 64) :
    (g.setScalar d v).regs.Agree (x.setScalar g.present d v) := by
  obtain ⟨hs, he, hvec, hp, hf, hb, hr⟩ := hx
  by_cases h0 : d = 0
  · subst h0
    exact ⟨hs, he, hvec, hp, hf, hb, hr⟩
  by_cases h61 : d < 61
  · have hset : g.setScalar d v = { g with scalars := writeCell g.scalars d v } := by
      simp [Group.setScalar, h0, h61]
    have hx : x.setScalar g.present d v = { x with scalar := fun n => if n = d then v else x.scalar n } := by
      simp [Regs.setScalar, h0, h61]
    have hsc : ∀ n, n < 61 → (g.setScalar d v).scalar n = if n = d then v else x.scalar n := by
      intro n hn
      split
      · next h => rw [h]; exact scalar_setScalar g d v (by omega) h61
      · next h => rw [scalar_setScalar_other g d n v h61 h]; exact hs n hn
    rw [hset] at hsc ⊢
    rw [hx]
    exact ⟨hsc, he, hvec, hp, hf, hb, hr⟩
  · have hset : g.setScalar d v = { g with exec := withBeat g.exec (d - 61) v &&& g.present } := by
      simp [Group.setScalar, h0, h61]
    have hx : x.setScalar g.present d v = { x with exec := fun l => hasLane g.present l &&
        (if l / 32 = d - 61 then v.getLsbD (l % 32) else x.exec l) } := by
      simp [Regs.setScalar, h0, h61]
    have hsc : ∀ n, n < 61 → (g.setScalar d v).scalar n = x.scalar n := by
      intro n hn
      rw [scalar_setScalar_mask g d n v (by omega) hn]; exact hs n hn
    have hpn : ∀ p l, p < 8 → l < 96 → (g.setScalar d v).pnum p l = x.pred p l := by
      intro p l h8 hl
      rw [← hp p l h8 hl, hset]
      simp [Group.regs, Group.pnum, show p ≤ 7 by omega]
    rw [hset] at hsc hpn ⊢
    rw [hx]
    refine ⟨hsc, fun l hl => ?_, hvec, hpn, hf, hb, hr⟩
    have hg : hasLane g.exec l = x.exec l := he l hl
    simp only [Group.regs, hasLane_and, hasLane_withBeat g.exec (d - 61) l v hl, hg, Bool.and_comm]

end Rules

end Sys2Proof.Machine
end

section
/-! SUPPORT. From a unit's effect on its group to `Does`: the checks that pass, the frame, and one statement for every
lane form. -/

namespace Sys2Proof.Machine

/-! ## The frame of a unit -/

/-- The fields of a group that no lane instruction changes, the PC and what `age` resets among them. -/
def Group.frame (g : Group) : Group :=
  { g with scalars := [], exec := 0, vectors := [], preds := [], flags := [], brackets := [], rng := [], hazards := [] }

/-- `h` is the group `g` with the registers `x` and perhaps other distances. -/
structure Becomes (g h : Group) (x : Regs) : Prop where
  frame : h.frame = g.frame
  regs  : h.regs.Agree x

theorem Becomes.refl (g : Group) : Becomes g g g.regs := ⟨rfl, .refl _⟩

section Rules

variable {g h : Group} {x : Regs} (hb : Becomes g h x)
include hb

theorem Becomes.setVec (d : Nat) (m : Mask) (f v : Nat → LaneWord) (late : Bool)
    (hv : ∀ l, l < 96 → hasLane m l = true → f l = v l) :
    Becomes g (h.setVec d m f late) (x.setLanes d (hasLane m) v) :=
  ⟨hb.frame, agree_setVec hb.regs d m f v late hv⟩

theorem Becomes.setPred (d : Nat) (m : Mask) (f v : Nat → Bool) (hd : d < 8)
    (hv : ∀ l, l < 96 → hasLane m l = true → f l = v l) :
    Becomes g (h.setPred d m f) (x.setPred d (hasLane m) v) := by
  refine ⟨?_, agree_setPred hb.regs d m f v hd hv⟩
  rw [← hb.frame]
  unfold Group.setPred
  split <;> rfl

/-- R100: what a unit raises in its acting lanes reaches those that are no helpers. -/
theorem Becomes.raise (f v : Nat → LaneFlags) (late : Bool) (hv : ∀ l, l < 96 → g.works l = true → f l = v l) :
    Becomes g (h.raise g.exec f late) (x.raise g.works v) := by
  have hh : h.helper = g.helper := show h.frame.helper = g.frame.helper by rw [hb.frame]
  have hr := agree_raise hb.regs g.exec f v late
  rw [hh] at hr
  exact ⟨hb.frame, hr hv⟩

theorem Becomes.clearFlags (m : Mask) (f : LaneFlags) :
    Becomes g (h.clearFlags m (fun _ => f)) (x.clear (hasLane m) f) :=
  ⟨hb.frame, agree_clearFlags hb.regs m f⟩

theorem Becomes.setBracket (k w : Nat) (m : Mask) (f : Nat → LaneWord) (hw : w < 4) :
    Becomes g (h.setBracket k w m f) (x.setBracket k w (hasLane m) f) :=
  ⟨hb.frame, agree_setBracket hb.regs k w m f hw⟩

theorem Becomes.setScalar (d : Nat) (v : Word) (hd : d < 64) :
    Becomes g (h.setScalar d v) (x.setScalar g.present d v) := by
  have hp : h.present = g.present := show h.frame.present = g.frame.present by rw [hb.frame]
  refine ⟨?_, hp ▸ agree_setScalar hb.regs d v hd⟩
  rw [← hb.frame]
  unfold Group.setScalar
  split
  · rfl
  · split <;> rfl

/-- R18, R27: the group as its unit leaves it. -/
theorem Becomes.moves (len : Nat) (late : List Hazard) :
    Moves g ((h.advance len).age late) (g.pc + BitVec.ofNat 64 (2 * len)) x := by
  have e : (h.advance len).age late = { h.frame with
      pc := h.frame.pc + BitVec.ofNat 64 (2 * len), scalars := h.scalars, exec := h.exec, vectors := h.vectors,
      preds := h.preds, flags := h.flags, brackets := h.brackets, rng := h.rng,
      hazards := ((h.advance len).age late).hazards, redo := 0, remote := [] } := rfl
  rw [hb.frame] at e
  exact ⟨e, hb.regs⟩

end Rules

/-! ## Units whose checks pass -/

/-- R64: `Issues` says that no check of the unit raises a cause. -/
theorem unitCause_of_issues {s : State} {b : Block} {g : Group} {n : Need} (h : Issues s b g n) :
    unitCause s b g n = none := by
  obtain ⟨hpriv, hregion, hregs, hdist⟩ := h
  unfold unitCause
  rw [if_neg, if_neg, if_neg, if_neg]
  · simpa using hdist
  · simpa using hregs
  · intro hc
    rw [Bool.and_eq_true, Option.isSome_iff_ne_none] at hc
    rw [hregion hc.2] at hc
    exact absurd hc.1 Bool.false_ne_true
  · simpa using hpriv

/-- A unit of `onGroup` that leaves its group with the registers of `w`. -/
theorem does_of_onGroup {i : Instr} {n : Need} {len : Nat} {w : Block → Group → Group → Regs}
    (f : Group → Group → Group) (late : Group → List Hazard)
    (hi : ∀ s, exec i s = onGroup s n (fun _ g r => s.done ((f g r).advance len) (late g)))
    (hw : ∀ b g tick, Becomes g (f g (g.seen tick n.reads n.flags)) (w b g (g.seen tick n.reads n.flags))) :
    Does i n len w := by
  intro s b g hc hn
  exact ⟨_, (hi s).trans (onGroup_performs s n _ b g hc (unitCause_of_issues hn)), (hw b g s.tick).moves len (late g)⟩

/-! ## Lane forms (R139) -/

theorem stepState_eq_repeat (n : Nat) (x : BitVec 32) : stepState n x = n.repeat xorshift x := by
  have step : ∀ (n : Nat) (x : BitVec 32), n.repeat xorshift (xorshift x) = xorshift (n.repeat xorshift x) := by
    intro n x
    induction n with
    | zero => rfl
    | succ n ih => exact congrArg xorshift ih
  induction n generalizing x with
  | zero => rfl
  | succ n ih => exact (ih _).trans (step n x)

/-- What `applyForm` computes for lane `l`. -/
def Group.formOut (g r : Group) (f : LaneForm) (m : ModAlu) (l : Nat) : LaneOut :=
  ((List.range 96).map (fun l => if hasLane g.exec l then laneEval r f m l else ⟨0, 0, 0⟩)).getD l ⟨0, 0, 0⟩

theorem formOut_eq (g r : Group) (f : LaneForm) (m : ModAlu) (l : Nat) (hl : l < 96) :
    g.formOut r f m l = if hasLane g.exec l then laneEval r f m l else ⟨0, 0, 0⟩ := by
  simp [Group.formOut, List.getD_eq_getElem?_getD, hl]

theorem formOut_acting {g r : Group} {f : LaneForm} {m : ModAlu} {l : Nat} (hl : l < 96) (ha : hasLane g.exec l = true) :
    g.formOut r f m l = laneEval r f m l := by rw [formOut_eq g r f m l hl, if_pos ha]

/-- The group after a lane form has written its results and raised its flags, before the xorshift states advance. -/
def Group.formWritten (g r : Group) (f : LaneForm) (m : ModAlu) : Group :=
  let late := decide (0 < f.op.distance)
  (if f.toPred then g.setPred f.d g.exec (fun l => (g.formOut r f m l).value.getLsbD 0)
    else g.setVec f.d g.exec (fun l => (g.formOut r f m l).value) late).raise g.exec
      (fun l => (g.formOut r f m l).flags) late

theorem applyForm_eq_formWritten (g r : Group) (f : LaneForm) (m : ModAlu) :
    g.applyForm r f m = { g.formWritten r f m with rng := (g.applyForm r f m).rng } := by
  unfold Group.applyForm
  dsimp only
  split <;> rfl

/-- R128: the xorshift states after a lane form. -/
theorem readCell_applyForm_rng (g r : Group) (f : LaneForm) (m : ModAlu) (l : Nat) (hl : l < 96) :
    readCell (g.applyForm r f m).rng l = (g.formOut r f m l).steps.repeat xorshift (readCell g.rng l) := by
  have hkeep : (g.formWritten r f m).rng = g.rng := by
    unfold Group.formWritten
    simp only [Group.raise_rng]
    split <;> simp
  rw [← stepState_eq_repeat, ← hkeep]
  unfold Group.applyForm
  dsimp only
  split
  · exact (readCell_writeRun _ _ _ _ _).trans (if_pos (by omega))
  · next hany =>
    have hzero : (g.formOut r f m l).steps = 0 := by
      have hmem : g.formOut r f m l ∈
          (List.range 96).map (fun l => if hasLane g.exec l then laneEval r f m l else ⟨0, 0, 0⟩) :=
        List.mem_map.mpr ⟨l, List.mem_range.mpr hl, (formOut_eq g r f m l hl).symm⟩
      by_contra hne
      exact hany (List.any_eq_true.mpr ⟨_, hmem, decide_eq_true (Nat.pos_of_ne_zero hne)⟩)
    rw [hzero]
    rfl

/-- R139: the registers after a lane form, the xorshift states left aside. -/
theorem becomes_formWritten (g r : Group) (f : LaneForm) (m : ModAlu) (hd : f.toPred = true → f.d < 8) :
    Becomes g (g.formWritten r f m)
      ((if f.toPred then g.regs.setPred f.d g.acts (fun l => (laneEval r f m l).value.getLsbD 0)
        else g.regs.setLanes f.d g.acts (fun l => (laneEval r f m l).value)).raise g.works
          (fun l => (laneEval r f m l).flags)) := by
  refine Becomes.raise ?_ _ _ _ fun l hl hw => ?_
  · split
    · next hp => exact (Becomes.refl g).setPred _ _ _ _ (hd hp) fun l hl ha => by rw [formOut_acting hl ha]
    · exact (Becomes.refl g).setVec _ _ _ _ _ fun l hl ha => by rw [formOut_acting hl ha]
  · rw [formOut_acting hl (Bool.and_eq_true_iff.mp hw).1]

/-- R139, R128: a lane form leaves the registers that `Regs.formed` says. -/
theorem becomes_applyForm (g r : Group) (f : LaneForm) (m : ModAlu) (hd : f.toPred = true → f.d < 8) :
    Becomes g (g.applyForm r f m) (g.regs.formed g r f m) := by
  obtain ⟨hframe, hs, he, hv, hp, hf, hb, -⟩ := becomes_formWritten g r f m hd
  have hrng := readCell_applyForm_rng g r f m
  rw [applyForm_eq_formWritten]
  refine ⟨hframe, hs, he, hv, hp, hf, hb, fun l hl => (hrng l hl).trans ?_⟩
  show _ = if hasLane g.exec l = true then _ else _
  rw [formOut_eq g r f m l hl]
  split <;> rfl

/-- R139, R128: an instruction that runs a lane form leaves the registers that `Regs.formed` says. -/
theorem does_of_runLane {i : Instr} {f : LaneForm} {m : ModAlu} {len : Nat} (hi : ∀ s, exec i s = runLane f m len s)
    (hd : f.toPred = true → f.d < 8) : Does i f.need len (fun _ g r => g.regs.formed g r f m) :=
  does_of_onGroup (fun g r => g.applyForm r f m) (fun g => g.lateResults f) hi
    fun _ g _ => becomes_applyForm g _ f m hd

/-- Registers that agree may stand for each other in `Does`. -/
theorem Does.agree {i : Instr} {n : Need} {len : Nat} {w w' : Block → Group → Group → Regs} (h : Does i n len w)
    (hw : ∀ b g tick, (w b g (g.seen tick n.reads n.flags)).Agree (w' b g (g.seen tick n.reads n.flags))) :
    Does i n len w' := by
  intro s b g hc hn
  obtain ⟨k, hk, hframe, hregs⟩ := h s b g hc hn
  exact ⟨k, hk, hframe, hregs.trans (hw b g s.tick)⟩

/-- `Regs.formed` of a form whose lanes all get a value and flags and step no xorshift state. -/
theorem formed_agree (g r : Group) (f : LaneForm) (m : ModAlu) (v : Nat → LaneWord) (fl : Nat → LaneFlags)
    (hv : ∀ l, laneEval r f m l = ⟨v l, fl l, 0⟩) :
    (g.regs.formed g r f m).Agree
      ((if f.toPred then g.regs.setPred f.d g.acts (fun l => (v l).getLsbD 0) else g.regs.setLanes f.d g.acts v).raise
        g.works fl) := by
  have he : laneEval r f m = fun l => ⟨v l, fl l, 0⟩ := funext hv
  have hrng : (g.regs.formed g r f m).rng = g.regs.rng := by
    unfold Regs.formed
    rw [he]
    exact funext fun l => ite_self _
  have hform : g.regs.formed g r f m =
      { (if f.toPred then g.regs.setPred f.d g.acts (fun l => (v l).getLsbD 0) else g.regs.setLanes f.d g.acts v).raise
        g.works fl with rng := (g.regs.formed g r f m).rng } := by
    unfold Regs.formed
    rw [he]
  rw [hform, hrng]
  split <;> exact .refl _

/-- A lane form that gives every acting lane a value in a register. -/
theorem does_value {i : Instr} {f : LaneForm} {len : Nat} {v : Group → Nat → LaneWord}
    (hi : ∀ s, exec i s = runLane f .plain len s) (hp : f.toPred = false)
    (hv : ∀ r l, laneEval r f .plain l = .of (v r l)) :
    Does i f.need len (fun _ g r => g.regs.setLanes f.d g.acts (v r)) := by
  refine (does_of_runLane hi (by simp [hp])).agree fun _ g tick => ?_
  have h := formed_agree g (g.seen tick f.need.reads f.need.flags) f .plain (v _) (fun _ => 0) (hv _)
  rw [hp] at h
  exact h.trans (Regs.raise_none _ _ _ fun _ _ _ => rfl)

/-- A lane form that gives every acting lane a bit of a predicate and its flags. -/
theorem does_flagged_pred {i : Instr} {f : LaneForm} {len : Nat} {p : Group → Nat → Bool}
    {fl : Group → Nat → LaneFlags}
    (hi : ∀ s, exec i s = runLane f .plain len s) (hp : f.toPred = true) (hd : f.d < 8)
    (hv : ∀ r l, laneEval r f .plain l = ⟨if p r l then 1 else 0, fl r l, 0⟩) :
    Does i f.need len (fun _ g r => (g.regs.setPred f.d g.acts (p r)).raise g.works (fl r)) := by
  refine (does_of_runLane hi fun _ => hd).agree fun _ g tick => ?_
  have h := formed_agree g (g.seen tick f.need.reads f.need.flags) f .plain _ _ (hv _)
  have hbit : ∀ b : Bool, (if b then (1 : LaneWord) else 0).getLsbD 0 = b := by decide
  simp only [hp, if_true, hbit] at h
  exact h

/-- A lane form that gives every acting lane a bit of a predicate. -/
theorem does_pred {i : Instr} {f : LaneForm} {len : Nat} {p : Group → Nat → Bool}
    (hi : ∀ s, exec i s = runLane f .plain len s) (hp : f.toPred = true) (hd : f.d < 8)
    (hv : ∀ r l, laneEval r f .plain l = .of (if p r l then 1 else 0)) :
    Does i f.need len (fun _ g r => g.regs.setPred f.d g.acts (p r)) :=
  (does_flagged_pred (fl := fun _ _ => 0) hi hp hd hv).agree fun _ _ _ => Regs.raise_none _ _ _ fun _ _ _ => rfl

end Sys2Proof.Machine
end

section
/-! SUPPORT. The integer operations of one lane as operations on 32-bit words (R144 to R147). -/

namespace Sys2Proof.Machine

/-! ## The signed reading of a bit pattern (R113) -/

theorem signedOf_eq_toInt (n x : Nat) (hn : 0 < n) : signedOf n x = (BitVec.ofNat n x).toInt := by
  obtain ⟨m, rfl⟩ : ∃ m, n = m + 1 := ⟨n - 1, by omega⟩
  have hpow : 2 ^ (m + 1) = 2 * 2 ^ m := by rw [Nat.pow_succ, Nat.mul_comm]
  have hcast : (2 : Int) ^ (m + 1) = ((2 ^ (m + 1) : Nat) : Int) := by push_cast; rfl
  rw [signedOf, BitVec.toInt_eq_toNat_cond, BitVec.toNat_ofNat, hcast, Nat.add_sub_cancel]
  split <;> split
  · omega
  · rfl
  · rfl
  · omega

/-! ## Exact integers as words (R144) -/

/-- R144: without a MOD word, the result is the exact one modulo 2^32. -/
theorem intFinish_plain (lo hi e : Int) : intFinish .plain lo hi e = .of (BitVec.ofInt 32 e) := by
  simp [intFinish, ModAlu.plain, LaneOut.of]

section Words

variable (lo hi a b d : LaneWord)

/-- R144: an integer operation without a MOD word. -/
theorem intLane_plain (op : IntOp) :
    intLane op .plain lo hi a b d = .of (BitVec.ofInt 32 (op.exact (read32 op.readsZ a)
      (if op = .shl ∨ op = .shr ∨ op = .sra then (b.toNat : Int) else read32 op.readsZ b) (read32 op.readsZ d))) := by
  have hm : ({ ModAlu.plain with sat := if op.inRange then 0 else ModAlu.plain.sat } : ModAlu) = .plain := by
    cases op <;> rfl
  have hz : (op.follows && decide (ModAlu.plain.sat = 2)) = false := by cases op <;> rfl
  unfold intLane
  simp only [hm, hz, Bool.false_or, intFinish_plain]
  rfl

theorem intLane_add : intLane .add .plain lo hi a b d = .of (a + b) := by
  rw [intLane_plain]
  simp [IntOp.exact, IntOp.readsZ, read32, BitVec.ofInt_add]

theorem intLane_sub : intLane .sub .plain lo hi a b d = .of (a - b) := by
  rw [intLane_plain]
  simp [IntOp.exact, IntOp.readsZ, read32, Int.sub_eq_add_neg, BitVec.ofInt_add, BitVec.ofInt_neg, BitVec.sub_eq_add_neg]

theorem intLane_mul : intLane .mul .plain lo hi a b d = .of (a * b) := by
  rw [intLane_plain]
  simp [IntOp.exact, IntOp.readsZ, read32, BitVec.ofInt_mul]

theorem intLane_mulh : intLane .mulh .plain lo hi a b d = .of (BitVec.ofInt 32 (a.toInt * b.toInt / 2 ^ 32)) := by
  rw [intLane_plain]
  simp [IntOp.exact, IntOp.readsZ, read32]

theorem intLane_mulhz : intLane .mulhz .plain lo hi a b d = .of (BitVec.ofNat 32 (a.toNat * b.toNat / 2 ^ 32)) := by
  rw [intLane_plain, ← BitVec.ofInt_natCast]
  simp [IntOp.exact, IntOp.readsZ, read32]

theorem intLane_mad : intLane .mad .plain lo hi a b d = .of (a * b + d) := by
  rw [intLane_plain]
  simp [IntOp.exact, IntOp.readsZ, read32, BitVec.ofInt_add, BitVec.ofInt_mul]

theorem intLane_and : intLane .and .plain lo hi a b d = .of (a &&& b) := by
  rw [intLane_plain]
  simp [IntOp.exact, IntOp.readsZ, read32]

theorem intLane_or : intLane .or .plain lo hi a b d = .of (a ||| b) := by
  rw [intLane_plain]
  simp [IntOp.exact, IntOp.readsZ, read32]

theorem intLane_xor : intLane .xor .plain lo hi a b d = .of (a ^^^ b) := by
  rw [intLane_plain]
  simp [IntOp.exact, IntOp.readsZ, read32]

theorem intLane_shl : intLane .shl .plain lo hi a b d = .of (a <<< (b.toNat % 32)) := by
  have hk : ((b.toNat : Int) % 32).toNat = b.toNat % 32 := by omega
  have hpow : BitVec.ofInt 32 (2 ^ (b.toNat % 32)) = BitVec.twoPow 32 (b.toNat % 32) := by
    rw [show (2 : Int) ^ (b.toNat % 32) = ((2 ^ (b.toNat % 32) : Nat) : Int) by push_cast; rfl, BitVec.ofInt_natCast]
    exact BitVec.eq_of_toNat_eq (by rw [BitVec.toNat_ofNat, BitVec.toNat_twoPow])
  rw [intLane_plain, BitVec.shiftLeft_eq_mul_twoPow, ← hpow]
  simp [IntOp.exact, IntOp.readsZ, read32, hk, BitVec.ofInt_mul]

theorem intLane_shr : intLane .shr .plain lo hi a b d = .of (a >>> (b.toNat % 32)) := by
  have hk : ((b.toNat : Int) % 32).toNat = b.toNat % 32 := by omega
  have hdiv : BitVec.ofInt 32 ((a.toNat : Int) / 2 ^ (b.toNat % 32)) = a >>> (b.toNat % 32) := by
    rw [show (a.toNat : Int) / 2 ^ (b.toNat % 32) = ((a.toNat / 2 ^ (b.toNat % 32) : Nat) : Int) by push_cast; rfl,
      BitVec.ofInt_natCast, ← Nat.shiftRight_eq_div_pow, ← BitVec.toNat_ushiftRight, BitVec.ofNat_toNat,
      BitVec.setWidth_eq]
  rw [intLane_plain, ← hdiv]
  simp [IntOp.exact, IntOp.readsZ, read32, hk]

theorem intLane_sra : intLane .sra .plain lo hi a b d = .of (a.sshiftRight (b.toNat % 32)) := by
  have hk : ((b.toNat : Int) % 32).toNat = b.toNat % 32 := by omega
  have hdiv : BitVec.ofInt 32 (a.toInt / 2 ^ (b.toNat % 32)) = a.sshiftRight (b.toNat % 32) := by
    refine BitVec.eq_of_toInt_eq ?_
    rw [show a.toInt / 2 ^ (b.toNat % 32) = (a.sshiftRight (b.toNat % 32)).toInt by
      rw [BitVec.toInt_sshiftRight, Int.shiftRight_eq_div_pow]; push_cast; rfl, BitVec.ofInt_toInt]
  rw [intLane_plain, ← hdiv]
  simp [IntOp.exact, IntOp.readsZ, read32, hk]

theorem intLane_minI : intLane .minI .plain lo hi a b d = .of (if b.slt a then b else a) := by
  rw [intLane_plain, BitVec.slt_eq_decide]
  simp only [IntOp.exact, IntOp.readsZ, read32, reduceCtorEq, or_self, if_false, Bool.false_eq_true, decide_eq_true_eq]
  split
  · next h => rw [min_eq_right h.le, BitVec.ofInt_toInt]
  · next h => rw [min_eq_left (not_lt.mp h), BitVec.ofInt_toInt]

theorem intLane_maxI : intLane .maxI .plain lo hi a b d = .of (if a.slt b then b else a) := by
  rw [intLane_plain, BitVec.slt_eq_decide]
  simp only [IntOp.exact, IntOp.readsZ, read32, reduceCtorEq, or_self, if_false, Bool.false_eq_true, decide_eq_true_eq]
  split
  · next h => rw [max_eq_right h.le, BitVec.ofInt_toInt]
  · next h => rw [max_eq_left (not_lt.mp h), BitVec.ofInt_toInt]

theorem intLane_minZ : intLane .minZ .plain lo hi a b d = .of (if b < a then b else a) := by
  rw [intLane_plain]
  simp only [BitVec.lt_def, IntOp.exact, IntOp.readsZ, read32, reduceCtorEq, or_self, if_false, if_true]
  split
  · next h => rw [min_eq_right (by omega), BitVec.ofInt_natCast, BitVec.ofNat_toNat, BitVec.setWidth_eq]
  · next h => rw [min_eq_left (by omega), BitVec.ofInt_natCast, BitVec.ofNat_toNat, BitVec.setWidth_eq]

theorem intLane_maxZ : intLane .maxZ .plain lo hi a b d = .of (if a < b then b else a) := by
  rw [intLane_plain]
  simp only [BitVec.lt_def, IntOp.exact, IntOp.readsZ, read32, reduceCtorEq, or_self, if_false, if_true]
  split
  · next h => rw [max_eq_right (by omega), BitVec.ofInt_natCast, BitVec.ofNat_toNat, BitVec.setWidth_eq]
  · next h => rw [max_eq_left (by omega), BitVec.ofInt_natCast, BitVec.ofNat_toNat, BitVec.setWidth_eq]

theorem intLane_absd : intLane .absd .plain lo hi a b d = .of (if a.slt b then b - a else a - b) := by
  have hsub : ∀ x y : LaneWord, BitVec.ofInt 32 (x.toInt - y.toInt) = x - y := by
    intro x y
    simp [Int.sub_eq_add_neg, BitVec.ofInt_add, BitVec.ofInt_neg, BitVec.sub_eq_add_neg]
  rw [intLane_plain, BitVec.slt_eq_decide, ← hsub, ← hsub]
  simp only [IntOp.exact, IntOp.readsZ, read32, reduceCtorEq, or_self, if_false, Bool.false_eq_true, decide_eq_true_eq]
  split
  · next h => rw [show ((a.toInt - b.toInt).natAbs : Int) = b.toInt - a.toInt by omega]
  · next h => rw [show ((a.toInt - b.toInt).natAbs : Int) = a.toInt - b.toInt by omega]

theorem intLane_mov : intLane .mov .plain lo hi a b d = .of b := by
  rw [intLane_plain]
  simp [IntOp.exact, IntOp.readsZ, read32]

theorem intLane_li : intLane .li .plain lo hi a b d = .of b := by
  rw [intLane_plain]
  simp [IntOp.exact, IntOp.readsZ, read32]

end Words

/-! ## Bytes and bit fields (R145, R147) -/

/-- R145: byte `j` of a lane word, widened to a lane word. -/
def laneByte (signed : Bool) (p : LaneWord) (j : Nat) : LaneWord :=
  if signed then (p.extractLsb' (8 * j) 8).signExtend 32 else (p.extractLsb' (8 * j) 8).setWidth 32

/-- R145: the sum of `o` and the products of the bytes of `p` and `q`. -/
def byteDot (signed : Bool) (p q o : LaneWord) : LaneWord :=
  o + laneByte signed p 0 * laneByte signed q 0 + laneByte signed p 1 * laneByte signed q 1 +
    laneByte signed p 2 * laneByte signed q 2 + laneByte signed p 3 * laneByte signed q 3

theorem ofInt_byte (z : Bool) (p : LaneWord) (j : Nat) :
    BitVec.ofInt 32 (if z then ((p.toNat / 2 ^ (8 * j) % 256 : Nat) : Int) else signedOf 8 (p.toNat / 2 ^ (8 * j) % 256)) =
      laneByte (!z) p j := by
  have hx : BitVec.ofNat 8 (p.toNat / 2 ^ (8 * j) % 256) = p.extractLsb' (8 * j) 8 := by
    refine BitVec.eq_of_toNat_eq ?_
    rw [BitVec.toNat_ofNat, BitVec.extractLsb'_toNat, Nat.shiftRight_eq_div_pow]
    omega
  cases z
  · rw [if_neg Bool.false_ne_true, signedOf_eq_toInt 8 _ (by omega), hx]
    rfl
  · rw [if_pos rfl, BitVec.ofInt_natCast]
    refine BitVec.eq_of_toNat_eq ?_
    simp [laneByte, Nat.shiftRight_eq_div_pow]

/-- R145: the byte dot product without a MOD word. -/
theorem dotLane_plain (z : Bool) (lo hi a b d : LaneWord) :
    dotLane z .plain lo hi a b d = .of (byteDot (!z) a b d) := by
  have hd : BitVec.ofInt 32 (read32 z d) = d := by cases z <;> simp [read32]
  have habs : ∀ x : Int, absNeg ModAlu.plain.absA ModAlu.plain.negA x = x := fun _ => rfl
  have habs' : ∀ x : Int, absNeg ModAlu.plain.absB ModAlu.plain.negB x = x := fun _ => rfl
  unfold dotLane
  simp only [intFinish_plain, habs, habs', BitVec.ofInt_add, BitVec.ofInt_mul, ofInt_byte, hd, byteDot]

/-- R147: a bit field lies within the word. -/
theorem fieldOf_le (b : LaneWord) : (fieldOf b).1 + (fieldOf b).2 ≤ 32 := by
  simp only [fieldOf]
  omega

/-- R147: VBFE as two shifts: the field to the top of the word, and down again. -/
theorem bfeLane_unsigned (a b : LaneWord) : bfeLane true a b =
    (a <<< (32 - (fieldOf b).2 - (fieldOf b).1)) >>> (32 - (fieldOf b).2) := by
  have hle := fieldOf_le b
  unfold bfeLane
  generalize fieldOf b = q at hle ⊢
  obtain ⟨pos, w⟩ := q
  dsimp only at hle ⊢
  rw [if_pos rfl]
  refine BitVec.eq_of_getLsbD_eq fun i hi => ?_
  rw [BitVec.getLsbD_ushiftRight, BitVec.getLsbD_shiftLeft]
  by_cases hw : i < w
  · rw [if_neg (by omega), BitVec.getLsbD_ofNat, Nat.testBit_mod_two_pow, Nat.testBit_div_two_pow,
      BitVec.testBit_toNat, decide_eq_true hi, decide_eq_true hw, decide_eq_true (by omega), decide_eq_false (by omega),
      show 32 - w + i - (32 - w - pos) = i + pos by omega]
    simp
  · rw [decide_eq_false (by omega)]
    split
    · simp
    · rw [BitVec.getLsbD_ofNat, Nat.testBit_mod_two_pow, decide_eq_false hw]
      simp

theorem bfeLane_signed (a b : LaneWord) : bfeLane false a b = if (fieldOf b).2 = 0 then 0 else
    (a <<< (32 - (fieldOf b).2 - (fieldOf b).1)).sshiftRight (32 - (fieldOf b).2) := by
  have hle := fieldOf_le b
  unfold bfeLane
  generalize fieldOf b = q at hle ⊢
  obtain ⟨pos, w⟩ := q
  dsimp only at hle ⊢
  rw [if_neg Bool.false_ne_true]
  split
  · rfl
  · next hw0 =>
    rw [signedOf_eq_toInt w _ (by omega)]
    change (BitVec.ofNat w _).signExtend 32 = _
    refine BitVec.eq_of_getLsbD_eq fun i hi => ?_
    have hbit : ∀ j, j < w → (BitVec.ofNat w (a.toNat / 2 ^ pos % 2 ^ w)).getLsbD j = a.getLsbD (pos + j) := by
      intro j hj
      rw [BitVec.getLsbD_ofNat, Nat.testBit_mod_two_pow, Nat.testBit_div_two_pow, BitVec.testBit_toNat,
        decide_eq_true hj, Bool.true_and, Bool.true_and, Nat.add_comm]
    have hmsb : (a <<< (32 - w - pos)).msb = a.getLsbD (pos + (w - 1)) := by
      rw [BitVec.msb_shiftLeft, BitVec.getMsbD_eq_getLsbD, decide_eq_true (by omega), Bool.true_and]
      congr 1
      omega
    rw [BitVec.getLsbD_signExtend, BitVec.getLsbD_sshiftRight, decide_eq_true hi, decide_eq_false (by omega),
      BitVec.msb_eq_getLsbD_last, hbit (w - 1) (by omega), hmsb]
    by_cases hw : i < w
    · rw [if_pos hw, if_pos (by omega), hbit i hw, BitVec.getLsbD_shiftLeft, decide_eq_true (by omega),
        decide_eq_false (by omega), show 32 - w + i - (32 - w - pos) = pos + i by omega]
      rfl
    · rw [if_neg hw, if_neg (by omega)]
      rfl

/-- R147: VBFI by the mask of the field. -/
theorem bfiLane_eq (a b d : LaneWord) : bfiLane a b d =
    (d &&& ~~~((BitVec.allOnes 32 >>> (32 - (fieldOf b).2)) <<< (fieldOf b).1)) |||
      ((a <<< (fieldOf b).1) &&& ((BitVec.allOnes 32 >>> (32 - (fieldOf b).2)) <<< (fieldOf b).1)) := by
  have hle := fieldOf_le b
  unfold bfiLane
  generalize fieldOf b = q at hle ⊢
  obtain ⟨pos, w⟩ := q
  dsimp only at hle ⊢
  refine BitVec.eq_of_getLsbD_eq fun i hi => ?_
  rw [BitVec.getLsbD_ofNat, testBit_splice]
  have hmask : ((BitVec.allOnes 32 >>> (32 - w)) <<< pos).getLsbD i = decide (pos ≤ i ∧ i < pos + w) := by
    rw [BitVec.getLsbD_shiftLeft, BitVec.getLsbD_ushiftRight, BitVec.getLsbD_allOnes, decide_eq_true hi, Bool.true_and,
      ← decide_not, ← Bool.decide_and]
    exact decide_eq_decide.mpr (by omega)
  simp only [BitVec.testBit_toNat, BitVec.getLsbD_or, BitVec.getLsbD_and, BitVec.getLsbD_not, hmask, hi, decide_true,
    Bool.true_and]
  by_cases hlow : i < pos
  · simp [hlow, show ¬ pos ≤ i by omega]
  · by_cases hin : i < pos + w
    · simp [-BitVec.getLsbD_eq_getElem, hi, hlow, hin, show pos ≤ i by omega]
    · simp [hlow, hin]

/-! ## Counting and reversing bits (R146) -/

theorem popCount_eq (n x : Nat) : popCount n x = ((List.range n).filter x.testBit).length := by
  induction n generalizing x with
  | zero => rfl
  | succ n ih =>
    have hshift : x.testBit ∘ Nat.succ = (x / 2).testBit := funext fun i => Nat.testBit_succ x i
    rw [popCount, ih, List.range_succ_eq_map, List.filter_cons, List.filter_map, hshift, Nat.testBit_zero]
    rcases Nat.mod_two_eq_zero_or_one x with h | h <;> simp [h, Nat.add_comm]

theorem sub_bitLen_eq (n x : Nat) (hx : x < 2 ^ n) :
    n - bitLen x = ((List.range n).find? (fun j => x.testBit (n - 1 - j))).getD n := by
  induction n with
  | zero => simp
  | succ n ih =>
    rw [List.range_succ_eq_map, List.find?_cons]
    by_cases htop : 2 ^ n ≤ x
    · have h0 : x ≠ 0 := by have := Nat.two_pow_pos n; omega
      have hlog : Nat.log2 x = n := (Nat.log2_eq_iff h0).mpr ⟨htop, hx⟩
      have hbit : x.testBit n = true := Nat.testBit_of_two_pow_le_and_two_pow_add_one_gt htop hx
      simp [hbit, bitLen, hlog, h0]
    · have hbit : x.testBit n = false := Nat.testBit_lt_two_pow (by omega)
      have hlen : bitLen x ≤ n := by
        unfold bitLen
        split
        · omega
        · next h0 => exact (Nat.log2_lt h0).mpr (by omega)
      have hshift : (fun j => x.testBit (n + 1 - 1 - j)) ∘ Nat.succ = fun j => x.testBit (n - 1 - j) :=
        funext fun j => congrArg x.testBit (by simp only [Nat.succ_eq_add_one]; omega)
      rw [List.find?_map, hshift, Nat.sub_zero, Nat.add_sub_cancel, hbit]
      have := ih (by omega)
      cases hfind : (List.range n).find? (fun j => x.testBit (n - 1 - j)) with
      | none => simp [hfind] at this ⊢; omega
      | some j => simp [hfind] at this ⊢; omega

theorem testBit_reverseBits (n x acc i : Nat) :
    (reverseBits n x acc).testBit i = if i < n then x.testBit (n - 1 - i) else acc.testBit (i - n) := by
  induction n generalizing x acc with
  | zero => rfl
  | succ n ih =>
    rw [reverseBits, ih]
    rcases Nat.lt_trichotomy i n with h | h | h
    · rw [if_pos h, if_pos (by omega), ← Nat.testBit_succ]
      congr 1
      omega
    · subst h
      simp [Nat.testBit_zero]
    · rw [if_neg (by omega), if_neg (by omega), show i - n = i - (n + 1) + 1 by omega, Nat.testBit_succ]
      congr 1
      omega

/-! ## The operations on one lane word (R146) -/

theorem unaryLane_popc (a : LaneWord) :
    unaryLane 0 a = BitVec.ofNat 32 ((List.range 32).filter a.getLsbD).length :=
  congrArg (BitVec.ofNat 32) (popCount_eq 32 a.toNat)

theorem unaryLane_clz (a : LaneWord) :
    unaryLane 1 a = BitVec.ofNat 32 (((List.range 32).find? (fun j => a.getMsbD j)).getD 32) := by
  have hmsb : (List.range 32).find? (fun j => a.getMsbD j) =
      (List.range 32).find? (fun j => a.toNat.testBit (32 - 1 - j)) := by
    refine List.find?_congr fun j hj => ?_
    rw [BitVec.getMsbD_eq_getLsbD, decide_eq_true (List.mem_range.mp hj), Bool.true_and]
    rfl
  rw [hmsb, ← sub_bitLen_eq 32 a.toNat a.isLt]
  rfl

theorem unaryLane_brev (a : LaneWord) : unaryLane 2 a = a.reverse := by
  refine BitVec.eq_of_getLsbD_eq fun i hi => ?_
  change (BitVec.ofNat 32 (reverseBits 32 a.toNat 0)).getLsbD i = _
  rw [BitVec.getLsbD_ofNat, testBit_reverseBits, if_pos hi, BitVec.getLsbD_reverse, BitVec.getMsbD_eq_getLsbD]
  rfl

end Sys2Proof.Machine
end

section
/-! SUPPORT. O16: the integer lane operations, in the layouts that carry them. -/

namespace Sys2Proof.Machine

/-! ## One statement per layout -/

/-- What a lane form of an integer operation gives lane `l` without a MOD word, once the word operation is known. -/
theorem laneEval_int {op : IntOp} {v : LaneWord → LaneWord → LaneWord → LaneWord}
    (hv : ∀ lo hi p q o, intLane op .plain lo hi p q o = .of (v p q o)) (r : Group) (p : Bool) (d : Nat) (a : Option Nat)
    (b : Operand) (l : Nat) :
    laneEval r ⟨.int op, p, d, a, b⟩ .plain l = .of (v (r.vec (a.getD 0) l) (r.operand b l) (r.vec d l)) :=
  hv (BitVec.ofNat 32 (r.scalar 0).toNat) (BitVec.ofNat 32 (r.scalar 1).toNat) _ _ _

/-- The VR layout. -/
theorem does_vrForm {i : Instr} {op : LaneOp} {v : Group → Nat → LaneWord} (x : BitVec 1) (b a d : BitVec 7)
    (hi : ∀ s, exec i s = runLane (vrForm op x b a d) .plain 2 s) (hsrc : op.sources = 1)
    (hflag : op.readsFlags = false)
    (hv : ∀ r l, laneEval r (vrForm op x b a d) .plain l = .of (v r l)) :
    Does i (vectorNeed x b a d op.readsDest) 2 (fun _ g r => g.regs.setLanes d.toNat g.acts (v r)) := by
  have hneed : (vrForm op x b a d).need = vectorNeed x b a d op.readsDest := by
    simp [LaneForm.need, LaneForm.sources, vrForm, vectorNeed, hsrc, hflag]
  rw [← hneed]
  exact does_value hi rfl hv

/-- R144: an integer operation of the VR layout that does not read its destination. -/
theorem does_vrForm_int {i : Instr} {op : IntOp} {v : LaneWord → LaneWord → LaneWord} (x : BitVec 1) (b a d : BitVec 7)
    (hi : ∀ s, exec i s = runLane (vrForm (.int op) x b a d) .plain 2 s) (hop : (LaneOp.int op).readsDest = false)
    (hv : ∀ lo hi p q o, intLane op .plain lo hi p q o = .of (v p q)) :
    Does i (vectorNeed x b a d false) 2 (fun _ g r =>
      g.regs.setLanes d.toNat g.acts (fun l => v (r.vec a.toNat l) (r.operand (operandB x b) l))) :=
  hop ▸ does_vrForm x b a d hi rfl rfl fun r l => laneEval_int hv r false d.toNat (some a.toNat) (operandB x b) l

/-- R42: a compact integer operation, whose destination is its first source. -/
theorem does_compactForm_int {i : Instr} {op : IntOp} {v : LaneWord → LaneWord → LaneWord} (b : BitVec 5) (d : BitVec 6)
    (hi : ∀ s, exec i s = runLane (compactForm (.int op) d b) .plain 1 s) (hop : (LaneOp.int op).readsDest = false)
    (hv : ∀ lo hi p q o, intLane op .plain lo hi p q o = .of (v p q)) :
    Does i (compactNeed b d) 1 (fun _ g r =>
      g.regs.setLanes d.toNat g.acts (fun l => v (r.vec d.toNat l) (r.vec b.toNat l))) := by
  have hneed : (compactForm (.int op) d b).need = compactNeed b d := by
    simp [LaneForm.need, LaneForm.sources, compactForm, compactNeed, hop, LaneOp.sources, LaneOp.readsFlags, Operand.regs]
  rw [← hneed]
  exact does_value hi rfl fun r l => laneEval_int hv r false d.toNat (some d.toNat) (.reg b.toNat) l

/-- A layout with one source register, for an operation that reads neither its destination nor the flags. -/
theorem does_unForm {i : Instr} {op : LaneOp} {v : Group → Nat → LaneWord} (a d : BitVec 7)
    (hi : ∀ s, exec i s = runLane (unForm op a d) .plain 2 s) (hsrc : op.sources = 1) (hold : op.readsDest = false)
    (hflag : op.readsFlags = false) (hv : ∀ r l, laneEval r (unForm op a d) .plain l = .of (v r l)) :
    Does i (unaryNeed a d) 2 (fun _ g r => g.regs.setLanes d.toNat g.acts (v r)) := by
  have hneed : (unForm op a d).need = unaryNeed a d := by
    simp [LaneForm.need, LaneForm.sources, unForm, unaryNeed, hsrc, hold, hflag, Operand.regs]
  rw [← hneed]
  exact does_value hi rfl hv

/-- R148: an integer operation of the VI layout, with the value `w` as its second operand. -/
theorem does_immForm_int {i : Instr} {op : IntOp} {v : LaneWord → LaneWord → LaneWord} (w : LaneWord) (a d : BitVec 7)
    (hi : ∀ s, exec i s = runLane (immForm (.int op) w a d) .plain 2 s) (hop : (LaneOp.int op).readsDest = false)
    (hv : ∀ lo hi p q o, intLane op .plain lo hi p q o = .of (v p q)) :
    Does i (unaryNeed a d) 2 (fun _ g r => g.regs.setLanes d.toNat g.acts (fun l => v (r.vec a.toNat l) w)) := by
  have hneed : (immForm (.int op) w a d).need = unaryNeed a d := by
    simp [LaneForm.need, LaneForm.sources, immForm, unaryNeed, hop, LaneOp.sources, LaneOp.readsFlags, Operand.regs]
  rw [← hneed]
  exact does_value hi rfl fun r l => laneEval_int hv r false d.toNat (some a.toNat) (.imm w) l

/-! ## The clauses -/

theorem laneIntegers_clause : Clauses.LaneIntegers := by
  refine ⟨fun x b a d e he => ?_, fun x b a d e he => ?_, fun b d e he => ?_, fun b d => ?_⟩
  · simp only [vectorTable, List.mem_cons, List.not_mem_nil, or_false] at he
    rcases he with rfl | rfl | rfl | rfl | rfl | rfl | rfl | rfl | rfl | rfl | rfl | rfl | rfl | rfl | rfl | rfl
    · exact does_vrForm_int x b a d (fun _ => rfl) rfl intLane_add
    · exact does_vrForm_int x b a d (fun _ => rfl) rfl intLane_sub
    · exact does_vrForm_int x b a d (fun _ => rfl) rfl intLane_mul
    · exact does_vrForm_int x b a d (fun _ => rfl) rfl intLane_mulh
    · exact does_vrForm_int x b a d (fun _ => rfl) rfl intLane_mulhz
    · exact does_vrForm_int x b a d (fun _ => rfl) rfl intLane_and
    · exact does_vrForm_int x b a d (fun _ => rfl) rfl intLane_or
    · exact does_vrForm_int x b a d (fun _ => rfl) rfl intLane_xor
    · exact does_vrForm_int x b a d (fun _ => rfl) rfl intLane_shl
    · exact does_vrForm_int x b a d (fun _ => rfl) rfl intLane_shr
    · exact does_vrForm_int x b a d (fun _ => rfl) rfl intLane_sra
    · exact does_vrForm_int x b a d (fun _ => rfl) rfl intLane_minI
    · exact does_vrForm_int x b a d (fun _ => rfl) rfl intLane_maxI
    · exact does_vrForm_int x b a d (fun _ => rfl) rfl intLane_minZ
    · exact does_vrForm_int x b a d (fun _ => rfl) rfl intLane_maxZ
    · exact does_vrForm_int x b a d (fun _ => rfl) rfl intLane_absd
  · simp only [fieldTable, List.mem_cons, List.not_mem_nil, or_false] at he
    rcases he with rfl | rfl
    · exact does_vrForm (op := .bfe true) x b a d (fun _ => rfl) rfl rfl fun r l =>
        congrArg LaneOut.of (bfeLane_unsigned (r.vec a.toNat l) (r.operand (operandB x b) l))
    · exact does_vrForm (op := .bfe false) x b a d (fun _ => rfl) rfl rfl fun r l =>
        congrArg LaneOut.of (bfeLane_signed (r.vec a.toNat l) (r.operand (operandB x b) l))
  · simp only [compactTable, List.mem_cons, List.not_mem_nil, or_false] at he
    rcases he with rfl | rfl | rfl | rfl | rfl | rfl | rfl | rfl | rfl | rfl | rfl
    · exact does_compactForm_int b d (fun _ => rfl) rfl intLane_add
    · exact does_compactForm_int b d (fun _ => rfl) rfl intLane_sub
    · exact does_compactForm_int b d (fun _ => rfl) rfl intLane_mul
    · exact does_compactForm_int b d (fun _ => rfl) rfl intLane_and
    · exact does_compactForm_int b d (fun _ => rfl) rfl intLane_or
    · exact does_compactForm_int b d (fun _ => rfl) rfl intLane_xor
    · exact does_compactForm_int b d (fun _ => rfl) rfl intLane_shl
    · exact does_compactForm_int b d (fun _ => rfl) rfl intLane_shr
    · exact does_compactForm_int b d (fun _ => rfl) rfl intLane_sra
    · exact does_compactForm_int b d (fun _ => rfl) rfl intLane_minI
    · exact does_compactForm_int b d (fun _ => rfl) rfl intLane_maxI
  · exact does_value (f := compactMove d b) (fun _ => rfl) rfl
      fun r l => laneEval_int intLane_mov r false d.toNat none (.reg b.toNat) l

theorem laneUnary_clause : Clauses.LaneUnary := by
  refine ⟨fun i k a d e he => ?_, fun i d => ?_⟩
  · have hk : k.toNat % 32 = k.toNat := Nat.mod_eq_of_lt k.isLt
    have hw : (k.setWidth 32).toNat % 32 = k.toNat := by
      rw [BitVec.toNat_setWidth_of_le (by omega), hk]
    simp only [unaryTable, List.mem_cons, List.not_mem_nil, or_false] at he
    rcases he with rfl | rfl | rfl | rfl | rfl | rfl | rfl | rfl | rfl
    · exact does_unForm a d (fun _ => rfl) rfl rfl rfl fun _ _ => congrArg LaneOut.of (unaryLane_popc _)
    · exact does_unForm a d (fun _ => rfl) rfl rfl rfl fun _ _ => congrArg LaneOut.of (unaryLane_clz _)
    · exact does_unForm a d (fun _ => rfl) rfl rfl rfl fun _ _ => congrArg LaneOut.of (unaryLane_brev _)
    · exact does_unForm a d (fun _ => rfl) rfl rfl rfl fun _ _ => rfl
    · exact does_immForm_int (i.signExtend 32) a d (fun _ => rfl) rfl intLane_add
    · exact does_immForm_int (i.signExtend 32) a d (fun _ => rfl) rfl intLane_and
    · simpa only [hw] using does_immForm_int (k.setWidth 32) a d (fun _ => rfl) rfl intLane_shl
    · simpa only [hw] using does_immForm_int (k.setWidth 32) a d (fun _ => rfl) rfl intLane_shr
    · simpa only [hw] using does_immForm_int (k.setWidth 32) a d (fun _ => rfl) rfl intLane_sra
  · exact does_value (f := liForm (i.signExtend 32) d) (fun _ => rfl) rfl
      fun r l => laneEval_int intLane_li r false d.toNat none (.imm (i.signExtend 32)) l

/-- R149: what VSEL gives a lane. -/
theorem laneEval_select (r : Group) (n : BitVec 1) (p : BitVec 4) (a d : BitVec 7) (l : Nat) :
    laneEval r (unForm (.select (decide (n = 1#1)) p.toNat) a d) .plain l =
      .of (if r.pnum p.toNat l = true ↔ n = 0#1 then r.vec a.toNat l else r.vec d.toNat l) := by
  have hbit : ∀ (n : BitVec 1) (b : Bool), (b != decide (n = 1#1)) = true ↔ (b = true ↔ n = 0#1) := by decide
  exact congrArg LaneOut.of (if_congr (hbit _ _) rfl rfl)

/-- R145: what VDOT4 gives a lane. -/
theorem laneEval_dot (r : Group) (z : Bool) (x : BitVec 1) (b a d : BitVec 7) (l : Nat) :
    laneEval r (vrForm (.dot z) x b a d) .plain l =
      .of (byteDot (!z) (r.vec a.toNat l) (r.operand (operandB x b) l) (r.vec d.toNat l)) :=
  dotLane_plain z (BitVec.ofNat 32 (r.scalar 0).toNat) (BitVec.ofNat 32 (r.scalar 1).toNat) _ _ _

theorem laneAccumulate_clause : Clauses.LaneAccumulate := by
  refine ⟨fun x b a d e he => ?_, fun n p a d => ?_⟩
  · simp only [vectorOldTable, List.mem_cons, List.not_mem_nil, or_false] at he
    rcases he with rfl | rfl | rfl | rfl
    · exact does_vrForm x b a d (fun _ => rfl) rfl rfl
        fun r l => laneEval_int intLane_mad r false d.toNat (some a.toNat) (operandB x b) l
    · exact does_vrForm x b a d (fun _ => rfl) rfl rfl fun r l => laneEval_dot r false x b a d l
    · exact does_vrForm x b a d (fun _ => rfl) rfl rfl fun r l => laneEval_dot r true x b a d l
    · exact does_vrForm (op := .bfi) x b a d (fun _ => rfl) rfl rfl fun r l =>
        congrArg LaneOut.of (bfiLane_eq (r.vec a.toNat l) (r.operand (operandB x b) l) (r.vec d.toNat l))
  · exact does_value (f := unForm (.select (decide (n = 1#1)) p.toNat) a d) (fun _ => rfl) rfl
      fun r l => laneEval_select r n p a d l

/-- Settles O16: every form of the tables runs through `runLane`, whose word operation is the table's. -/
theorem laneIntegers : Obligations.LaneIntegers :=
  ⟨laneIntegers_clause, laneUnary_clause, laneAccumulate_clause⟩

end Sys2Proof.Machine
end

section
/-! SUPPORT. O18: compares, predicate logic, votes, flags and brackets. -/

namespace Sys2Proof.Machine

/-! ## What a unit's reads leave of the group (R30) -/

/-- R30: a read that comes too early can meet old lanes and old flags, and nothing else of the group differs. -/
theorem seen_frame (g : Group) (tick : Nat) (reads : List Nat) (flags : Bool) :
    { g.seen tick reads flags with vectors := [], flags := [], hazards := [] } =
      { g with vectors := [], flags := [], hazards := [] } := by
  have hfold : ∀ (rs : List Nat) (x : Group) (f : Nat → Nat → LaneWord),
      { rs.foldl (fun x r => x.setVec r (BitVec.allOnes 96) (f r)) x with vectors := [], flags := [], hazards := [] } =
        { x with vectors := [], flags := [], hazards := [] } := by
    intro rs
    induction rs with
    | nil => exact fun _ _ => rfl
    | cons r rs ih => exact fun x f => ih (x.setVec r (BitVec.allOnes 96) (f r)) f
  unfold Group.seen
  split
  · dsimp only
    have h := hfold (reads.filter (fun r => g.undersized [r] false)) g
      (fun r l => (g.beatSeen tick r (l / 32)).getD (l % 32) 0)
    split
    · exact h
    · exact h
  · rfl

@[simp] theorem seen_present (g : Group) (tick : Nat) (reads : List Nat) (flags : Bool) :
    (g.seen tick reads flags).present = g.present :=
  (congrArg Group.present (seen_frame g tick reads flags) :)

@[simp] theorem seen_brackets (g : Group) (tick : Nat) (reads : List Nat) (flags : Bool) :
    (g.seen tick reads flags).brackets = g.brackets :=
  (congrArg Group.brackets (seen_frame g tick reads flags) :)

/-! ## Compares and predicate logic (R150 to R152) -/

/-- R150: the integer compares of a lane are the conditions of R54. -/
theorem icmpLane_eq_conditionHolds (c : Nat) (p q : LaneWord) : icmpLane c p q = conditionHolds c p q :=
  match c with
  | 0 | 1 | 2 | 3 | 4 | 5 | 6 | 7 | 8 => rfl
  | _ + 9 => rfl

/-- R135: the flags of an outcome that may raise NV alone. -/
theorem flagsOf_nv (nv : Bool) : flagsOf nv false false false false = if nv then 1#6 else 0#6 := by
  cases nv <;> decide

/-- What a compare checks and reads. -/
theorem need_cmpForm {op : LaneOp} (x : BitVec 1) (b a : BitVec 7) (p : BitVec 3) (hsrc : op.sources = 1)
    (hflag : op.readsFlags = false) : (cmpForm op x b a p).need =
      { regs := a.toNat :: (operandB x b).regs, reads := a.toNat :: (operandB x b).regs } := by
  simp [LaneForm.need, LaneForm.sources, cmpForm, hsrc, hflag]

/-- What predicate logic checks and reads. -/
theorem need_predForm (op pa pb : Nat) (d : BitVec 3) (hop : op ≠ 7) :
    (predForm op pa pb d).need = { flags := flagNumber pa || flagNumber pb } := by
  simp [LaneForm.need, LaneForm.sources, predForm, LaneOp.readsFlags, LaneOp.readsDest, Operand.regs, hop]

/-- R152: predicate logic on the predicate numbers `pa` and `pb`. -/
theorem does_predForm {i : Instr} {op pa pb : Nat} {d : BitVec 3}
    (hi : ∀ s, exec i s = runLane (predForm op pa pb d) .plain 2 s) (hop : op ≠ 7) :
    Does i { flags := flagNumber pa || flagNumber pb } 2 (fun _ g r =>
      g.regs.setPred d.toNat g.acts (fun l => predLogic op (r.pnum pa l) (r.pnum pb l))) := by
  rw [← need_predForm op pa pb d hop]
  refine does_pred hi rfl d.isLt fun r l => ?_
  exact congrArg (fun p : Bool => LaneOut.of (if p then 1 else 0)) (if_neg hop)

theorem lanePredicates_clause : Clauses.LanePredicates := by
  refine ⟨fun x b a c p => ?_, fun x b a c p => ?_, fun b a d e he => ?_, fun a d => ⟨?_, ?_⟩, fun v d => ?_⟩
  · rw [← need_cmpForm (op := .icmp c.toNat) x b a p rfl rfl]
    exact does_pred (fun _ => rfl) rfl p.isLt fun r l => by rw [← icmpLane_eq_conditionHolds]; rfl
  · rw [← need_cmpForm (op := .fcmp c.toNat) x b a p rfl rfl]
    exact does_flagged_pred (fun _ => rfl) rfl p.isLt fun r l => by rw [← flagsOf_nv]; rfl
  · simp only [predicateTable, List.mem_cons, List.not_mem_nil, or_false] at he
    rcases he with rfl | rfl | rfl | rfl | rfl
    · exact does_predForm (op := 0) (fun _ => rfl) (by decide)
    · exact does_predForm (op := 1) (fun _ => rfl) (by decide)
    · exact does_predForm (op := 2) (fun _ => rfl) (by decide)
    · exact does_predForm (op := 3) (fun _ => rfl) (by decide)
    · exact does_predForm (op := 4) (fun _ => rfl) (by decide)
  · have h := does_predForm (i := .vpredNot a d) (op := 5) (pa := a.toNat) (pb := 0) (fun _ => rfl) (by decide)
    rwa [show flagNumber 0 = false from rfl, Bool.or_false] at h
  · have h := does_predForm (i := .vpredMov a d) (op := 6) (pa := a.toNat) (pb := 0) (fun _ => rfl) (by decide)
    rwa [show flagNumber 0 = false from rfl, Bool.or_false] at h
  · refine does_pred (f := fromForm v d) (fun _ => rfl) rfl d.isLt fun r l => congrArg LaneOut.of ?_
    have hne : (r.vec v.toNat l != 0) = decide (r.vec v.toNat l ≠ 0) := by rw [bne, beq_eq_decide, decide_not]
    exact congrArg (fun p : Bool => if p then (1 : LaneWord) else 0) hne

/-! ## Votes (R167) -/

theorem mask_ext {a b : Mask} (h : ∀ l, l < 96 → hasLane a l = hasLane b l) : a = b := BitVec.eq_of_getLsbD_eq h

/-- R7, R100: the working lanes as a mask. -/
theorem hasLane_workers (g : Group) (l : Nat) : hasLane g.workers l = g.works l := by
  unfold Group.workers Group.works
  by_cases hl : l < 96
  · rw [hasLane_and, hasLane_not _ _ hl]
  · rw [hasLane_ge _ _ (not_lt.mp hl), hasLane_ge _ _ (not_lt.mp hl), Bool.false_and]

theorem hasLane_votes (g r : Group) (n : BitVec 1) (p : BitVec 4) (l : Nat) :
    hasLane (g.votes r n p) l = (g.works l && (r.pnum p.toNat l != decide (n = 1#1))) := by
  rw [Group.votes, hasLane_maskOf, hasLane_workers]
  by_cases hl : l < 96
  · rw [decide_eq_true hl, Bool.true_and]
  · rw [decide_eq_false hl, Group.works, hasLane_ge _ _ (not_lt.mp hl), Bool.false_and, Bool.false_and, Bool.false_and]

/-- R167: no lane votes exactly when none of the 96 does. -/
theorem mask_eq_zero_iff (m : Mask) : m = 0 ↔ (List.range 96).any (hasLane m) = false := by
  rw [List.any_eq_false]
  constructor
  · rintro rfl l -
    simp [hasLane]
  · intro h
    refine mask_ext fun l hl => ?_
    rw [Bool.eq_false_of_not_eq_true (h l (List.mem_range.mpr hl))]
    simp [hasLane]

/-- R167: the lanes of `a` that `h` holds are all of `a`. -/
theorem mask_all_iff {m a : Mask} {w h : Nat → Bool} (hm : ∀ l, hasLane m l = (w l && h l))
    (ha : ∀ l, hasLane a l = w l) : m = a ↔ (List.range 96).all (fun l => !w l || h l) = true := by
  rw [List.all_eq_true]
  constructor
  · rintro rfl l -
    have := (hm l).symm.trans (ha l)
    revert this
    cases w l <;> cases h l <;> simp
  · intro hall
    refine mask_ext fun l hl => ?_
    have := hall l (List.mem_range.mpr hl)
    rw [hm, ha]
    revert this
    cases w l <;> cases h l <;> simp

/-- The number that sums the powers of two of the positions that `f` holds, from the lowest, is the one that a mask is
made of. -/
theorem foldl_bits_eq_foldr (f : Nat → Bool) (n : Nat) :
    (List.range n).foldl (fun acc i => if f i then acc + 2 ^ i else acc) 0 =
      (List.range n).foldr (fun l acc => (if f l then 2 ^ l else 0) + acc) 0 := by
  induction n with
  | zero => rfl
  | succ n ih =>
    rw [List.range_succ, List.foldl_append, List.foldr_append, ih]
    simp only [List.foldl_cons, List.foldl_nil, List.foldr_cons, List.foldr_nil]
    rw [mask_sum f n ((if f n then 2 ^ n else 0) + 0)]
    split <;> rfl

/-- R13: a beat of a mask, summed lane by lane. -/
theorem beatOf_eq_sum (m : Mask) (j : Nat) (f : Nat → Bool) (hf : ∀ i, hasLane m (32 * j + i) = f i) :
    beatOf m j = BitVec.ofNat 64 ((List.range 32).foldl (fun acc i => if f i then acc + 2 ^ i else acc) 0) := by
  refine congrArg (BitVec.ofNat 64) (Nat.eq_of_testBit_eq fun i => ?_)
  rw [foldl_bits_eq_foldr, (mask_bits f 32).2, Nat.testBit_mod_two_pow, Nat.testBit_div_two_pow, ← hf, Nat.add_comm]
  rfl

/-- R167: a vote that writes one scalar. -/
theorem does_runVote {i : Instr} {n : BitVec 1} {p : BitVec 4} {d : BitVec 6} {f : Group → Mask → Word}
    (hi : ∀ s, exec i s = runVote n p d f s) :
    Does i { region := if d = 0#6 then none else some 0x07, flags := flagNumber p.toNat } 2
      (fun _ g r => g.regs.setScalar g.present d.toNat (f g (g.votes r n p))) :=
  does_of_onGroup (fun g r => g.setScalar d.toNat (f g (g.votes r n p))) (fun _ => []) hi
    fun _ g _ => (Becomes.refl g).setScalar _ _ d.isLt

section Values

variable (g r : Group) (n : BitVec 1) (p : BitVec 4)

theorem votes_eq_zero_iff : g.votes r n p = 0 ↔
    ¬(List.range 96).any (fun l => g.works l && (r.pnum p.toNat l != decide (n = 1#1))) = true := by
  rw [mask_eq_zero_iff, funext (hasLane_votes g r n p), Bool.not_eq_true]

theorem votes_eq_workers_iff : g.votes r n p = g.workers ↔
    (List.range 96).all (fun l => !g.works l || (r.pnum p.toNat l != decide (n = 1#1))) = true :=
  mask_all_iff (hasLane_votes g r n p) (hasLane_workers g)

theorem countLanes_votes : countLanes (g.votes r n p) =
    ((List.range 96).filter (fun l => g.works l && (r.pnum p.toNat l != decide (n = 1#1)))).length := by
  rw [countLanes, funext (hasLane_votes g r n p)]

theorem beatOf_votes (j : Nat) : beatOf (g.votes r n p) j = BitVec.ofNat 64 ((List.range 32).foldl (fun acc i =>
    if g.works (32 * j + i) && (r.pnum p.toNat (32 * j + i) != decide (n = 1#1)) then acc + 2 ^ i else acc) 0) :=
  beatOf_eq_sum _ j _ fun i => hasLane_votes g r n p (32 * j + i)

end Values

theorem votes_clause : Clauses.Votes := by
  refine ⟨fun n p d e he => ?_, fun n p d hd => ?_⟩
  · simp only [voteTable, List.mem_cons, List.not_mem_nil, or_false] at he
    rcases he with rfl | rfl | rfl
    · refine (does_runVote (f := fun _ m => if m = 0 then 0 else 1) fun _ => rfl).agree fun _ g _ => ?_
      simp only [votes_eq_zero_iff, ite_not, Regs.Agree.refl]
    · refine (does_runVote (f := fun g m => if m = g.workers then 1 else 0) fun _ => rfl).agree fun _ g _ => ?_
      simp only [votes_eq_workers_iff, Regs.Agree.refl]
    · refine (does_runVote (f := fun _ m => BitVec.ofNat 64 (countLanes m)) fun _ => rfl).agree fun _ g _ => ?_
      simp only [countLanes_votes, Regs.Agree.refl]
  · refine does_of_onGroup (fun g r => ((g.setScalar d.toNat (beatOf (g.votes r n p) 0)).setScalar (d.toNat + 1)
      (beatOf (g.votes r n p) 1)).setScalar (d.toNat + 2) (beatOf (g.votes r n p) 2)) (fun _ => []) (fun _ => rfl)
      fun _ g tick => ?_
    generalize g.seen tick _ _ = r
    have h := (((Becomes.refl g).setScalar d.toNat (beatOf (g.votes r n p) 0) d.isLt).setScalar (d.toNat + 1)
      (beatOf (g.votes r n p) 1) (by omega)).setScalar (d.toNat + 2) (beatOf (g.votes r n p) 2) (by omega)
    simp only [beatOf_votes] at h ⊢
    exact h

/-! ## Flags and brackets (R168, R169) -/

theorem flagsAndBrackets_clause : Clauses.FlagsAndBrackets := by
  refine ⟨fun m d => ⟨?_, ?_, ?_⟩, fun w k v => ⟨?_, ?_⟩⟩
  · exact does_of_onGroup (fun g r => g.setVec d.toNat g.exec (fun l => (r.laneFlags l &&& m).setWidth 32)) (fun _ => [])
      (fun _ => rfl) fun _ g _ => (Becomes.refl g).setVec _ _ _ _ _ fun _ _ _ => rfl
  · exact does_of_onGroup (fun g _ => g.clearFlags g.exec (fun _ => m)) (fun _ => []) (fun _ => rfl)
      fun _ g _ => (Becomes.refl g).clearFlags _ _
  · exact does_of_onGroup
      (fun g r => (g.setVec d.toNat g.exec (fun l => (r.laneFlags l &&& m).setWidth 32)).clearFlags g.exec (fun _ => m))
      (fun _ => []) (fun _ => rfl)
      fun _ g _ => ((Becomes.refl g).setVec _ _ _ _ _ fun _ _ _ => rfl).clearFlags _ _
  · refine (does_value (f := idForm (.bracket k.toNat w.toNat) v) (v := fun r l => r.bracket k.toNat w.toNat l)
      (fun _ => rfl) rfl fun _ _ => rfl).agree fun _ g tick => ?_
    simp only [Group.bracket, seen_brackets]
    exact .refl _
  · exact does_of_onGroup (fun g r => g.setBracket k.toNat w.toNat g.exec (r.vec v.toNat)) (fun _ => []) (fun _ => rfl)
      fun _ g _ => (Becomes.refl g).setBracket _ _ _ _ w.isLt

/-- Settles O18: each instruction is one of the rules of `Becomes`, with its values lane by lane. -/
theorem lanePredicates : Obligations.LanePredicates :=
  ⟨lanePredicates_clause, votes_clause, flagsAndBrackets_clause⟩

end Sys2Proof.Machine
end

section
/-! SUPPORT. O19: exchanges, reductions and scans. -/

namespace Sys2Proof.Machine

/-! ## Exchanges (R160 to R162) -/

/-- R161: the lane of the quad that an exchange reads. -/
theorem quadSource_eq (q l : Nat) : quadSource q l = l / 4 * 4 + (if q < 3 then l % 4 ^^^ (q + 1) else q - 3) :=
  match q with
  | 0 | 1 | 2 => rfl
  | q + 3 => by
    rw [if_neg (by omega)]
    rfl

theorem peek_seen (g : Group) (tick : Nat) (reads : List Nat) (flags : Bool) (r l : Nat) :
    (g.seen tick reads flags).peek r l =
      if hasLane g.present l then (g.seen tick reads flags).vec r l else 0 := by
  rw [Group.peek, seen_present]

/-- R162: a shuffle whose lane number is `n`, or the lane's own where `n` is 96 or more. -/
theorem does_shuffle {i : Instr} {k : Nat} {n : Nat → Nat → Nat} (x : BitVec 1) (b a d : BitVec 7)
    (hi : ∀ s, exec i s = runLane (vrForm (.shuffle k) x b a d) .plain 2 s)
    (hn : ∀ l c, shuffleSource k l c = if 96 ≤ n l c then l else n l c) :
    Does i (vectorNeed x b a d false) 2 (fun _ g r => g.regs.setLanes d.toNat g.acts (fun l =>
      let m := n l (r.operand (operandB x b) l).toNat
      let src := if 96 ≤ m then l else m
      if hasLane g.present src then r.vec a.toNat src else 0)) := by
  have h := does_vrForm (v := fun r l => r.peek a.toNat (shuffleSource k l (r.operand (operandB x b) l).toNat))
    x b a d hi rfl rfl fun _ _ => rfl
  refine h.agree fun _ g _ => ?_
  simp only [peek_seen, hn, Regs.Agree.refl]

theorem laneExchanges_clause : Clauses.LaneExchanges := by
  refine ⟨fun q a d => ?_, fun x b a d e he => ?_⟩
  · have h := does_unForm (i := .vqx q a d) (v := fun r l => r.peek a.toNat (quadSource q.toNat l)) a d
      (fun _ => rfl) rfl rfl rfl fun _ _ => rfl
    refine h.agree fun _ g _ => ?_
    simp only [peek_seen, quadSource_eq, Regs.Agree.refl]
  · simp only [shuffleTable, List.mem_cons, List.not_mem_nil, or_false] at he
    rcases he with rfl | rfl | rfl | rfl
    · exact does_shuffle x b a d (fun _ => rfl) fun _ _ => rfl
    · exact does_shuffle x b a d (fun _ => rfl) fun _ _ => rfl
    · exact does_shuffle x b a d (fun _ => rfl) fun _ _ => rfl
    · exact does_shuffle x b a d (fun _ => rfl) fun _ _ => rfl

/-! ## Reductions and scans (R163 to R166) -/

theorem length_scanOutputs (rop : Nat) (mode : RMode) (x : Nat → LaneWord) (exclusive : Bool) (n lo : Nat) (acc : LaneWord)
    (fl : LaneFlags) : (scanOutputs rop mode x exclusive n lo acc fl).length = n := by
  induction n generalizing lo acc fl with
  | zero => rfl
  | succ n ih => exact congrArg (· + 1) (ih _ _ _)

/-- Position `l` of `n` lists of length `k` laid end to end. -/
theorem getD_flatMap_range {α : Type} (f : Nat → List α) (k n l : Nat) (z : α) (hf : ∀ q, (f q).length = k)
    (hl : l < n * k) : ((List.range n).flatMap f).getD l z = (f (l / k)).getD (l % k) z := by
  induction n with
  | zero => omega
  | succ n ih =>
    have hlen : ((List.range n).flatMap f).length = n * k := by simp [List.length_flatMap, hf]
    rw [List.range_succ, List.flatMap_append, List.flatMap_singleton]
    by_cases hin : l < n * k
    · rw [List.getD_append _ _ _ _ (by omega), ih hin]
    · have hk : n * k ≤ l := not_lt.mp hin
      have hdiv : l / k = n := Nat.div_eq_of_lt_le hk hl
      have hmod : l % k = l - n * k := by rw [Nat.mod_eq_sub_div_mul, hdiv]
      rw [List.getD_append_right _ _ _ _ (by omega), hlen, hdiv, hmod]

/-- R163: one value for each span of `k` lanes. -/
theorem getD_spans {α : Type} (f : Nat → α) (k n l : Nat) (z : α) (hl : l < n * k) :
    (((List.range n).map f).flatMap (List.replicate k)).getD l z = f (l / k) := by
  have hk : 0 < k := Nat.pos_of_ne_zero (by rintro rfl; omega)
  rw [List.flatMap_map, getD_flatMap_range _ k n l z (fun _ => List.length_replicate) hl,
    List.getD_replicate _ (Nat.mod_lt _ hk)]

/-- R163, R100: a position that no working lane holds contributes the identity. -/
theorem contribution_eq (g r : Group) (rop a : Nat) :
    g.contribution r rop a = fun l => if g.works l then r.vec a l else reduceIdentity rop :=
  funext fun l => by rw [Group.contribution, hasLane_workers]

/-- R163: the results of a reduction or a scan, lane by lane. -/
theorem becomes_writeResults (g : Group) (d : Nat) (outs : List (LaneWord × LaneFlags)) (out : Nat → LaneWord × LaneFlags)
    (h : ∀ l, l < 96 → outs.getD l (0, 0) = out l) : Becomes g (g.writeResults d outs)
      ((g.regs.setLanes d g.acts (fun l => (out l).1)).raise g.works (fun l => (out l).2)) :=
  ((Becomes.refl g).setVec _ _ _ _ _ fun l hl _ => congrArg Prod.fst (h l hl)).raise _ _ _
    fun l hl _ => congrArg Prod.snd (h l hl)

/-- R163, R164: what VRED writes, lane by lane, from the contributions `x`. -/
def vredOuts (p : BitVec 2) (rop : Nat) (mode : RMode) (x : Nat → LaneWord) : List (LaneWord × LaneFlags) :=
  if p.toNat = 1 then ((List.range 24).map (fun q => reduceTree rop mode x 2 (4 * q))).flatMap (List.replicate 4)
  else if p.toNat = 2 then ((List.range 3).map (fun b => reduceTree rop mode x 5 (32 * b))).flatMap (List.replicate 32)
  else List.replicate 96 (reduceGroup rop mode x)

theorem execVred_eq (p : BitVec 2) (rop : BitVec 4) (a d : BitVec 7) (s : State) :
    exec (.vred p rop a d) s = onGroup s (unaryNeed a d) (fun _ g v => s.done ((g.writeResults d.toNat
      (vredOuts p rop.toNat (g.mode false 0) (g.contribution v rop.toNat a.toNat))).advance 2)) := rfl

/-- R163: a lane gets the reduction of its quad, of its 32 lanes, or of the group. -/
theorem getD_vredOuts (p : BitVec 2) (rop : Nat) (mode : RMode) (x : Nat → LaneWord) (l : Nat) (hl : l < 96) :
    (vredOuts p rop mode x).getD l (0, 0) =
      if p = 1#2 then reduceTree rop mode x 2 (l / 4 * 4) else if p = 2#2 then reduceTree rop mode x 5 (l / 32 * 32)
      else reduceGroup rop mode x := by
  have hp1 : p.toNat = 1 ↔ p = 1#2 := (BitVec.toNat_inj (y := 1#2))
  have hp2 : p.toNat = 2 ↔ p = 2#2 := (BitVec.toNat_inj (y := 2#2))
  simp only [vredOuts, hp1, hp2]
  split
  · rw [getD_spans _ 4 24 l _ hl, Nat.mul_comm]
  · split
    · rw [getD_spans _ 32 3 l _ hl, Nat.mul_comm]
    · exact List.getD_replicate _ hl

/-- R165: what VSCAN writes, lane by lane, from the contributions `x`. -/
def vscanOuts (p : BitVec 2) (rop : Nat) (mode : RMode) (x : Nat → LaneWord) : List (LaneWord × LaneFlags) :=
  if p.getLsbD 1 then
    (List.range 24).flatMap (fun q => scanOutputs rop mode x (p.getLsbD 0) 4 (4 * q) (reduceIdentity rop) 0)
  else scanOutputs rop mode x (p.getLsbD 0) 96 0 (reduceIdentity rop) 0

theorem execVscan_eq (p : BitVec 2) (rop : BitVec 4) (a d : BitVec 7) (s : State) :
    exec (.vscan p rop a d) s = onGroup s (unaryNeed a d) (fun _ g v => s.done ((g.writeResults d.toNat
      (vscanOuts p rop.toNat (g.mode false 0) (g.contribution v rop.toNat a.toNat))).advance 2)) := rfl

/-- R165: a lane gets its place in the scan of its quad, or of the group. -/
theorem getD_vscanOuts (p : BitVec 2) (rop : Nat) (mode : RMode) (x : Nat → LaneWord) (l : Nat) (hl : l < 96) :
    (vscanOuts p rop mode x).getD l (0, 0) =
      if p.getLsbD 1 then
        (scanOutputs rop mode x (p.getLsbD 0) 4 (l / 4 * 4) (reduceIdentity rop) 0).getD (l % 4) (0, 0)
      else (scanOutputs rop mode x (p.getLsbD 0) 96 0 (reduceIdentity rop) 0).getD l (0, 0) := by
  unfold vscanOuts
  split
  · rw [getD_flatMap_range _ 4 24 l _ (fun _ => length_scanOutputs _ _ _ _ _ _ _ _) hl, Nat.mul_comm]
  · rfl

theorem laneReductions_clause : Clauses.LaneReductions := by
  refine ⟨fun p rop a d => ?_, fun p rop a d => ?_⟩
  · refine does_of_onGroup _ (fun _ => []) (execVred_eq p rop a d) fun _ g tick => ?_
    rw [contribution_eq]
    exact becomes_writeResults g _ _ _ fun l hl => getD_vredOuts p _ _ _ l hl
  · refine does_of_onGroup _ (fun _ => []) (execVscan_eq p rop a d) fun _ g tick => ?_
    rw [contribution_eq]
    exact becomes_writeResults g _ _ _ fun l hl => getD_vscanOuts p _ _ _ l hl

/-- Settles O19: an exchange is a lane form whose value is another lane's, and a reduction or a scan is a list of results,
read lane by lane. -/
theorem laneExchanges : Obligations.LaneExchanges := ⟨laneExchanges_clause, laneReductions_clause⟩

end Sys2Proof.Machine
end
